-- ==== Sys2Proof/Word.lean ====
section
/-!
DEFINITION. The word types of the BQ9616 model, with their plainest arithmetic (R9, R10, R12), and the
sparse map that holds every large store in one canonical form.
-/

namespace Sys2Proof

/-- One byte (R9). -/
abbrev Byte := BitVec 8
/-- One 32-bit register word (R508). -/
abbrev W32 := BitVec 32
/-- The 64 data bytes of a line: byte `k` is bits `8k+7 : 8k` (R9). -/
abbrev Line := BitVec 512
/-- A line address, PA[51:6] (R10). -/
abbrev LineAddr := BitVec 46

/-- Agent port number, 0 to 95 (R3). -/
abbrev PortId := Fin 96
/-- Pavilion number, 0 to 15 (R3, R25). -/
abbrev PavId := Fin 16
/-- Main-memory channel number (R25). -/
abbrev ChanId := Fin 16
/-- Cache stack number (R25). -/
abbrev StackId := Fin 8
/-- Plot number, 0 to 63 (R383). -/
abbrev PlotId := BitVec 6

/-- One core clock cc is a third of a nanosecond (R8): this many cc make a microsecond. -/
def ccPerUs : Nat := 3000

/-- A sparse store: a list of keys with their values. The canonical form is `FMap.wf`. -/
abbrev FMap (α : Type) := List (Nat × α)

/-- The value listed at a key, if any. -/
def FMap.find? {α : Type} (m : FMap α) (k : Nat) : Option α :=
  match m with
  | [] => none
  | (k', v) :: rest => if k = k' then some v else if k < k' then none else FMap.find? rest k

/-- The value at a key, an unlisted key reading as the default of that key. -/
def FMap.get {α : Type} (d : Nat → α) (m : FMap α) (k : Nat) : α :=
  (FMap.find? m k).getD (d k)

/-- Lists a value at a key, keeping the keys strictly rising. -/
def FMap.insert {α : Type} (m : FMap α) (k : Nat) (v : α) : FMap α :=
  match m with
  | [] => [(k, v)]
  | (k', v') :: rest =>
    if k = k' then (k, v) :: rest
    else if k < k' then (k, v) :: (k', v') :: rest
    else (k', v') :: FMap.insert rest k v

/-- Takes a key out of the list. -/
def FMap.erase {α : Type} (m : FMap α) (k : Nat) : FMap α :=
  match m with
  | [] => []
  | (k', v') :: rest =>
    if k = k' then rest
    else if k < k' then (k', v') :: rest
    else (k', v') :: FMap.erase rest k

/-- Writes a value: writing what an unlisted key reads as removes the entry, so equal stores are equal data. -/
def FMap.put {α : Type} [DecidableEq α] (d : Nat → α) (m : FMap α) (k : Nat) (v : α) : FMap α :=
  if v = d k then FMap.erase m k else FMap.insert m k v

/-- Every listed key is at least the bound, the keys rise strictly, and no entry equals its default. -/
def FMap.wfFrom {α : Type} [DecidableEq α] (d : Nat → α) (lo : Nat) (m : FMap α) : Bool :=
  match m with
  | [] => true
  | (k, v) :: rest => decide (lo ≤ k) && decide (v ≠ d k) && FMap.wfFrom d (k + 1) rest

/-- The canonical form of a store with defaults. -/
def FMap.wf {α : Type} [DecidableEq α] (d : Nat → α) (m : FMap α) : Bool := FMap.wfFrom d 0 m

/-- The bits `hi:lo` of a number, as a number (R9). -/
def natBits (x hi lo : Nat) : Nat := (x >>> lo) % 2 ^ (hi + 1 - lo)

/-- The bits `hi:lo` of a word, as a number. -/
def bitsOf {w : Nat} (x : BitVec w) (hi lo : Nat) : Nat := natBits x.toNat hi lo

/-- The word with bits `hi:lo` replaced by the low bits of a number. -/
def setBits {w : Nat} (x : BitVec w) (hi lo v : Nat) : BitVec w :=
  let m : BitVec w := BitVec.ofNat w ((2 ^ (hi + 1 - lo) - 1) <<< lo)
  (x &&& ~~~m) ||| (BitVec.ofNat w (v <<< lo) &&& m)

/-- The number of set bits of a number below `2^n`. -/
def popBits (x : Nat) : Nat → Nat
  | 0 => 0
  | n + 1 => popBits x n + (if x.testBit n then 1 else 0)

/-- The number of set bits of a word. -/
def popcount {w : Nat} (x : BitVec w) : Nat := popBits x.toNat w

/-- Byte `k` of a line (R9). -/
def lineByte (d : Line) (k : Nat) : Byte := BitVec.ofNat 8 (d.toNat >>> (8 * k))

/-- A line with byte `k` replaced. -/
def setLineByte (d : Line) (k : Nat) (b : Byte) : Line := setBits d (8 * k + 7) (8 * k) b.toNat

/-- The 512-bit mask that a 64-bit byte mask selects: bit `j` of the mask enables byte `j` (R81). -/
def byteMaskBits (m : BitVec 64) : Nat → Nat
  | 0 => 0
  | n + 1 => byteMaskBits m n + (if m.getLsbD n then 0xFF <<< (8 * n) else 0)

/-- The old line with the masked bytes of the new one merged in (R81, R202). -/
def mergeBytes (old new : Line) (m : BitVec 64) : Line :=
  let k : Line := BitVec.ofNat 512 (byteMaskBits m 64)
  (old &&& ~~~k) ||| (new &&& k)

/-- The little-endian bytes of a number (R9). -/
def leBytes (n : Nat) : Nat → List Byte
  | 0 => []
  | k + 1 => BitVec.ofNat 8 n :: leBytes (n / 256) k

/-- The number that little-endian bytes spell (R9). -/
def leNat : List Byte → Nat
  | [] => 0
  | b :: rest => b.toNat + 256 * leNat rest

/-- The first element of a list that passes a test, with its place. -/
def findPos {α : Type} (p : α → Bool) (xs : List α) (i : Nat := 0) : Option (Nat × α) :=
  match xs with
  | [] => none
  | x :: rest => if p x then some (i, x) else findPos p rest (i + 1)

/-- The list with the element at a place changed. -/
def mapAt {α : Type} (f : α → α) : Nat → List α → List α
  | _, [] => []
  | 0, x :: rest => f x :: rest
  | n + 1, x :: rest => x :: mapAt f n rest

/-- Saturating addition at a limit (R102, R160, R191). -/
def satAdd (x n limit : Nat) : Nat := min (x + n) limit

end Sys2Proof
end

