-- ==== Sys2Proof/Syntax.lean ====
section
/-!
DEFINITION. The commands of the hub: one constructor of `Instr` for each row of spec/opcode_table.json, with the
operands that each step's rule names. What the outside world supplies (a received message or training set, a
temperature, the outcome of a measurement, bits that a fault disturbed) is an operand.
-/

namespace Sys2Proof

/-- The masters of the service node (R509, R512). -/
inductive Master where
  | host
  | lodge
  | port (n : PortId)
deriving DecidableEq, Repr

/-- A master together with the PRIV flag its message carries (R77 bit 83, R512). The flag matters for ports only. -/
structure Access where
  master : Master
  priv : Bool
deriving DecidableEq, Repr

/-- The header slot of a message (R77). -/
structure Hdr where
  opcode : BitVec 8 := 0
  tid : BitVec 10 := 0
  oid : BitVec 6 := 0
  plot : PlotId := 0
  pa : LineAddr := 0
  tport : BitVec 7 := 0
  priv : Bool := false
  user : Bool := false
  retry : Bool := false
  poison : Bool := false
  relaxed : Bool := false
  status : BitVec 4 := 0
  htid : BitVec 14 := 0
  size : BitVec 3 := 0
  offset : BitVec 6 := 0
  perr : Bool := false
deriving DecidableEq, Repr

/-- A whole message: header, byte mask (WrPart, IOWr) and line data (R81). -/
structure Msg where
  hdr : Hdr
  mask : BitVec 64 := 0
  data : Line := 0
deriving DecidableEq, Repr

/-- The four Lodge services that R45 and R55 give budgets to. -/
inductive Service where
  | train
  | scrub
  | dict
  | ice
deriving DecidableEq, Repr

/-- A supply rail that R581 monitors. -/
inductive Rail where
  | vcore
  | vserdes
  | vstk
  | vaon
  | vio18
deriving DecidableEq, Repr

/-- A channel or a stack, where one step serves both (R290, R301, R307). -/
inductive MemUnit where
  | chan (c : ChanId)
  | stack (s : StackId)
deriving DecidableEq, Repr

/-- The memory generation of a DIMM (R278). -/
inductive MemGen where
  | d4
  | d5
deriving DecidableEq, Repr

/-- What a slot's SPD says (R278 to R281). `ident` holds manufacturer, part number
and serial number, 2, 30 and 4 bytes as JEDEC SPDs have them (R308). -/
structure Spd where
  gen : MemGen
  densityGbit : Nat
  /-- log2 of the 3DS stack height: 0 monolithic, 1 two-high, 2 four-high (R279, R286) -/
  cidBits : Nat
  ranks : Nat
  maxCode : Nat
  ident : BitVec 288
  /-- the module is a registered DIMM of x4 devices (R279) -/
  x4Registered : Bool
deriving DecidableEq, Repr

/-- What start-up finds outside the package on one channel (R278, R582). -/
structure ChanEnv where
  slot0 : Option Spd
  slot1 : Option Spd
  vddqOk : Bool
deriving DecidableEq, Repr

/-- The input pins that no other command drives: CHAIN_IN (R458, R574), and the PLCA beacons of the management segment (R474). -/
inductive InPin where
  | chainIn
  | beacon
deriving DecidableEq, Repr

/-- A change of such an input: the cc since PWROK in which it comes, and the level from then on (log entry 308). -/
structure PinEvent where
  at_ : Nat
  pin : InPin
  level : Bool
deriving DecidableEq, Repr

/-- What stands outside the package at the rising edge of PWROK or the recovery of a rail: the channels, the later changes of the
input pins, and whether a 25 MHz oscillator is fitted at TREF (R413, R481, R574, R581). -/
structure PowerEnv where
  chans : List ChanEnv
  pins : List PinEvent := []
  tref25 : Bool := false
deriving DecidableEq, Repr

/-- A register read of a master: the first byte's BAR0 offset and the number of bytes (R508). -/
structure Span where
  off : Nat
  len : Nat := 4
deriving DecidableEq, Repr

/-- What a training step observes on the link besides the set itself (R62 to R65). -/
structure TrainObs where
  /-- physical lanes that work (R63) -/
  laneOk : BitVec 4 := 0xF
  /-- outcome of the eye check (R62, R64) -/
  eyeOk : Bool := true
  /-- outcome of the eye check of a fast-loaded set (R64) -/
  fastEyeOk : Bool := true
  /-- equalisation settings found, as one opaque number (R64) -/
  eqSettings : Nat := 0
  /-- measured round trip in ps of a DELAY set (R65) -/
  roundTripPs : Nat := 0
deriving DecidableEq, Repr

/-- A fill write as the channel's scheduler finds it: the fill slot, and the banks that can take a command now (R296, R320). -/
structure FillIssue where
  slot : Fin 4
  ready : List Nat
deriving DecidableEq, Repr

/-- Bits of a stored DRAM or stack line that a fault has disturbed, as exclusive-or masks (R347, R348). -/
structure Upset where
  data : Line := 0
  check : BitVec 128 := 0
deriving DecidableEq, Repr

/-- Bits of one tag entry, Glasshouse entry, directory entry or SRAM line that a fault has disturbed before a lookup
reads it (R149, R150, R347, R349): the set, the way and the mask over the entry's stored bits. -/
inductive SramUpset where
  | none
  | tag (set way : Nat) (mask : BitVec 170)
  | gh (set way : Nat) (mask : BitVec 42)
  | dir (set way : Nat) (mask : BitVec 144)
  | glasshouse (lineIdx : Nat) (data : Line) (check : BitVec 36)
  | orangery (pa : LineAddr) (data : Line) (check : BitVec 36)
  /-- nothing is disturbed, but the stack bank that a hit would read is busy in this slot (R36, R546) -/
  | busyBank
deriving DecidableEq, Repr

/-- What a margin walk measured: the timing and reference-voltage margin of each lane (R311, R491), and how far the eye centre lies
from the sampling point, in steps of 1/64 UI and 0.25 % (R493). -/
structure WalkResult where
  timings : List Nat := []
  vrefs : List Nat := []
  centreT : Int := 0
  centreV : Int := 0
deriving DecidableEq, Repr

/-- The lowest of the margins of the lanes; 0 when there is none (R492, R501). -/
def worst (xs : List Nat) : Nat := xs.foldl min (xs.headD 0)
/-- The worst margins of a walk (R492). -/
def WalkResult.timing (r : WalkResult) : Nat := worst r.timings
def WalkResult.vref (r : WalkResult) : Nat := worst r.vrefs

/-- The counts of one ring-oscillator pair over the same 2^16 cc: the stressed and the reference oscillator (R491). -/
structure RingCount where
  stressed : Nat
  reference : Nat
deriving DecidableEq, Repr

/-- One receiver-margin measurement of a port: per-lane horizontal and vertical margin (R491, R501). -/
structure EyeResult where
  h : List Nat
  v : List Nat
deriving DecidableEq, Repr

/-- An operand of a step of a Lodge service, with the Lodge time that the step takes in units of 50 ns (R45, log entry 294). -/
structure LodgeTimed (α : Type) where
  of : α
  units : Nat
deriving DecidableEq, Repr

/-- A received management frame: the Ethernet addresses, EtherType and FCS around the PDU's fields, payload and tag (R454). The
default addresses and type are those of a broadcast of the Mosar protocol. -/
structure Frame where
  dstMac : BitVec 48 := 0xFFFFFFFFFFFF
  srcMac : BitVec 48 := 0
  etherType : BitVec 16 := 0x88B5
  ver : Byte := 1
  src : Byte := 0xFE
  dst : Byte := 0xFF
  xid : BitVec 16 := 0
  sess : BitVec 16 := 0
  payload : List Byte := []
  tag : BitVec 64 := 0
  fcs : W32 := 0
deriving DecidableEq, Repr

/-- An IEEE 1588 Sync with its Follow_Up as the follower takes them, with the Ethernet header that carried them (R489, R490). The
hub itself stamps its arrival. -/
structure SyncMsg where
  dstMac : BitVec 48 := 0x011B19000000
  etherType : BitVec 16 := 0x88F7
  clockId : BitVec 64
  domain : Nat
  valid : Bool
  /-- the grandmaster's time at the Sync, in ns -/
  originNs : Int
deriving DecidableEq, Repr

/-- What a calibration or verify of every channel and stack gave at an EXIT (R305): bit set, it passed. -/
structure CalibResult where
  chanOk : BitVec 16 := 0xFFFF
  stackOk : BitVec 8 := 0xFF
deriving DecidableEq, Repr

/-- The steps of the hub, one for each row of the table. -/
inductive Instr where
  | powerOn (env : PowerEnv)
  | powerFail
  | undervoltage (rail : Rail) (alwaysOnHolds : Bool)
  | trefMissingTimeout
  | perst (asserted : Bool)
  | applyWindow
  | lodgeServiceStep (svc : Service) (units : Nat)
  | registerWrite (a : Access) (off : Nat) (nbytes : Nat) (data : BitVec 64)
  | statusClear (a : Access) (off : Nat) (v : W32)
  | pairLoRead (a : Access) (x : Span)
  | pairHiRead (a : Access) (x : Span)
  | pairHiWrite (a : Access) (off : Nat) (v : W32)
  | timeNsRead (a : Access)
  | msixMessage (v : Fin 64)
  | eventRecordWrite
  | eventFrameSend
  | receiverDetect (n : PortId) (lanes : BitVec 4)
  | trainingSetReceive (n : PortId) (lane : Fin 4) (set : BitVec 128) (obs : TrainObs)
  | trainingStateTimeout (n : PortId)
  | creditMinimumTimeout (n : PortId)
  | flitReceive (n : PortId) (bytes : BitVec 1024)
  | retryReqRepeat (n : PortId)
  | retryReq (n : PortId) (seq : BitVec 12)
  | recoveryTimeout (n : PortId)
  | retrain (a : Access) (n : PortId)
  | linkDisable (a : Access) (n : PortId) (disable : Bool)
  | linkCtlRepeat (n : PortId)
  | lpEnter (n : PortId)
  | lowpowerWake (n : PortId)
  | linkDown (n : PortId)
  | svcFrame (din : BitVec 288)
  | rds (n : PortId) (m : Msg)
  | rdo (n : PortId) (m : Msg)
  | upg (n : PortId) (m : Msg)
  | rdonce (n : PortId) (m : Msg)
  | wrline (n : PortId) (m : Msg)
  | wrpart (n : PortId) (m : Msg)
  | wrstash (n : PortId) (m : Msg)
  | cclean (n : PortId) (m : Msg)
  | cinv (n : PortId) (m : Msg)
  | ccleaninv (n : PortId) (m : Msg)
  | fence (n : PortId) (m : Msg)
  | fenceComp (n : PortId)
  | fenceDeadline (n : PortId)
  | ttEntryAllocate (p : PavId) (n : PortId)
  | heldCreditReturn (n : PortId)
  | homeLookup (p : PavId) (e : Fin 1024) (u : SramUpset)
  | lookupReplay (p : PavId) (e : Fin 1024)
  | parkedRetry (p : PavId) (set : Nat)
  | done (n : PortId) (m : Msg)
  | invack (n : PortId) (m : Msg)
  | fwdack (n : PortId) (m : Msg)
  | fwdackd (n : PortId) (m : Msg)
  | recalld (n : PortId) (m : Msg)
  | rspcrossed (n : PortId) (m : Msg)
  | wbd (n : PortId) (m : Msg)
  | evc (n : PortId) (m : Msg)
  | stashacc (n : PortId) (m : Msg)
  | stashdecl (n : PortId) (m : Msg)
  | stashOfferTimeout (p : PavId) (e : Fin 1024)
  | datas (n : PortId) (m : Msg)
  | datam (n : PortId) (m : Msg)
  | fwdTimeout (p : PavId) (e : Fin 1024) (n : PortId)
  | iowr (n : PortId) (m : Msg)
  | arbourDispatch (n : PortId)
  | arbourTimeout (n : PortId) (e : Fin 64)
  | ioack (n : PortId) (m : Msg)
  | iord (n : PortId) (m : Msg)
  | iordDispatch (n : PortId)
  | iordTimeout (n : PortId) (e : Fin 16)
  | iodat (n : PortId) (m : Msg)
  | missReadIssue (p : PavId) (r : Fin 512)
  | fillReturn (p : PavId) (r : Fin 512) (sub : Fin 64)
  | stackCommandIssue (p : PavId) (pc : Fin 32) (u : Upset)
  | stackReadReturn (p : PavId)
  | evictionCopyReturn (p : PavId)
  | orangeryDrain (p : PavId)
  | queuePushRetry (p : PavId)
  | dramReadIssue (c : ChanId) (ready : List Nat) (u : Upset)
  | dramWriteIssue (c : ChanId) (ready : List Nat)
  | lazyZeroFillWrite (c : ChanId) (x : FillIssue)
  | backgroundPassStart (c : ChanId)
  | refresh (m : MemUnit) (rank : Nat)
  | memoryTempRead (m : MemUnit) (source : Nat) (celsius : Option Int)
  | fullTraining (m : MemUnit) (pass : Bool) (failPc : W32)
  | fastLoadVerify (m : MemUnit) (pass : Bool)
  | marginWalkStart (m : LodgeTimed MemUnit)
  | marginWalkStep (m : MemUnit) (last : Bool) (r : LodgeTimed WalkResult)
  | freqChange (a : Access) (c : ChanId) (v : W32)
  | freqChangeStart (c : ChanId) (verifyNew verifyOld : Bool)
  | freqHoldTimeout (c : ChanId)
  | stackTest (a : Access) (s : StackId)
  | stackTestDone (s : StackId) (failPc : W32)
  | stackBringup
  | pavilionFenceOrderly (a : Access) (v : W32)
  | pavilionFenceFailed (a : Access) (v : W32) (walkOk : Bool)
  | fenceMapUpdate
  | windowToGhCache (a : Access) (v : W32)
  | ghCacheToSectored (a : Access) (v : W32)
  | sectoredToGhCache (a : Access) (v : W32)
  | placementWalkerStep (p : PavId)
  | placementComplete (p : PavId)
  | mopClean (a : Access) (v : W32)
  | mopInv (a : Access) (v : W32)
  | mopCleanInv (a : Access) (v : W32)
  | mopPreload (a : Access) (v : W32)
  | mopDisableClean (a : Access) (v : W32)
  | mopStep (p : PavId)
  | mopComplete
  | lockMaskWrite (a : Access) (p : PavId) (v : W32)
  | glasshouseDebugRead (a : Access) (x : Span)
  | glasshouseDebugWrite (a : Access) (off : Nat) (v : W32)
  | sramRewrite (p : PavId)
  | readRaw (a : Access) (v : W32)
  | readDec (a : Access) (v : W32)
  | writeRaw (a : Access) (v : W32)
  | writeEnc (a : Access) (v : W32)
  | rawAccessDone
  | patrolRead (c : ChanId)
  | stackPatrolRead (s : StackId)
  | surveyGo (a : Access) (m : MemUnit) (v : W32)
  | surveyDone (m : MemUnit)
  | ledgerEntryExpiry (c : ChanId) (e : LodgeTimed (Fin 64))
  | targetedRewrite (c : LodgeTimed ChanId)
  | repairApprove (a : Access) (c : ChanId) (v : W32)
  | repairDone (c : ChanId) (spare : LodgeTimed Bool)
  | gbwWrite (a : Access) (k : PlotId) (v : W32)
  | plotCacheWrite (a : Access) (k : PlotId) (v : W32)
  | plotLatWrite (a : Access) (k : PlotId) (v : W32)
  | mqMarkWrite (a : Access) (v : W32)
  | memGo (a : Access)
  | memServiceStart
  | standby (a : Access)
  | standbyDrainDone
  | standbyTimeout
  | hibernate (a : Access)
  | hibernateCleanDone
  | exit (a : Access) (r : CalibResult)
  | wakeReq (n : PortId)
  | pavilionClockStop (p : PavId)
  | junctionTempRead (celsius : Int)
  | enable (a : Access) (n : PortId)
  | quiesce (a : Access) (n : PortId)
  | quiesceSweepStart (n : PortId)
  | quiesceComplete (n : PortId)
  | release (a : Access) (n : PortId)
  | mailboxRequest (a : Access) (v : W32)
  | commit (m : Master) (value : LodgeTimed Nat)
  | commitDone (readBackOk : Bool)
  | imageLoad (m : Master) (image : LodgeTimed (List Byte))
  | domainTransferTimeout (network : Bool)
  | mailboxSessionOpen (proof : LodgeTimed (List Byte))
  | sessionTimeout (network : Bool)
  | read (f : Frame)
  | write (f : Frame)
  | assign (f : Frame)
  | assignAck (collision : Bool)
  | sessOpen (f : Frame)
  | sessProve (f : Frame)
  | sessClose (f : Frame)
  | sessionLockExpiry
  | trefWindow (edges : Nat) (rest100ps : Int)
  | trefLoss
  | trefGood
  | ppsInEdge (sub100ps : Nat)
  | ppsInLoss
  | step (a : Access)
  | slew (a : Access)
  | slewDone
  | ppsOutPulse
  | syncSend
  | syncReceive (m : SyncMsg)
  | delayReqSend
  | delayReqReceive (requester : BitVec 64)
  | delayRespReceive (clockId : BitVec 64) (receivedNs : Int)
  | ringOscillatorMeasure (d : LodgeTimed (List RingCount))
  | portMarginMeasure (n : PortId) (r : LodgeTimed EyeResult)
  | ageingRecord
  | eqChangeCheck (n : PortId) (r : LodgeTimed EyeResult)
  | clear (a : Access)
  | counterWrite (a : Access) (i : Fin 552) (hi : Bool) (v : W32)
  | arm (a : Access)
  | groupRead (a : Access) (v : W32)
  | groupReadDone
  | traceRecord (src : Nat) (kind : Nat) (port : Nat) (plot : Nat) (addr : BitVec 48) (detail : BitVec 16)
  | traceIdleTimeout
  | tracePopLatch (a : Access)
  | tracePopRemove (a : Access)
  | traceDmaWrite
  | mark (a : Access)
  | rewind (a : Access)
  | markClr (a : Access)
  | railRecovery (env : PowerEnv)
  | ptpOkLoss
  | ppsOutPulseEnd
  | sampleTestDone (s : StackId) (failPc : W32)
deriving DecidableEq, Repr

end Sys2Proof
end

