-- ==== Sys2Proof/Decode.lean ====
section
/-!
DEFINITION. The command that a table word spells. No row of spec/opcode_table.json gives bits: the hub takes commands,
not instruction words, so no word spells one.
-/

namespace Sys2Proof

/-- The command that the bits of a table row spell: no row has bits, so none. -/
def decodeTableWord (_nbits _w : Nat) : Option Instr := none

end Sys2Proof
end

