-- ==== Sys2Proof/Config.lean ====
section
/-!
DEFINITION. What one implementation fixes and the spec leaves open: free values without a body, and the fuses.
-/

namespace Sys2Proof.Config

/-- UNVERIFIED values of the hub's random source, one per draw (R461); the counter is State.freeCtr. -/
opaque random : Nat → BitVec 128
/-- Which columns the Hsiao (137,128) code takes, and in which order: the spec does not print its matrix (R342). -/
opaque hsiaoPick : Nat → Nat
/-- Bit pattern of a 32-bit word of the Glasshouse SRAM while it holds sector tags, whose layout the spec does not give (R235). -/
opaque tagBits : Nat → BitVec 32
/-- CMAC-AES-128 of a key over bytes (R461); the spec names the standard and gives no values. -/
opaque cmac : BitVec 128 → List Byte → BitVec 128
/-- One-time fuses (R451): serial number, MAC address, and whether the ordering code is BQ9616-E (R2). -/
opaque serial : BitVec 64
opaque mac : BitVec 48
opaque codeE : Bool
/-- The cap on a channel's frequency code that a settings image names (R280): R466 does not give its place. -/
opaque imageCap : List Byte → BitVec 4
/-- Per-lane timing and reference-voltage settings that a full training finds, one draw each (R309). -/
opaque trainedSettings : Nat → BitVec 512
/-- Cycles from a refresh command until its rank or pseudo-channel returns to service (R311): the device standards fix it. -/
opaque refreshTime : Nat
/-- Data of a line of a share whose failed fence could not poison all dirty data (R31): unspecified. -/
opaque lostLine : Nat → Nat → BitVec 512
/-- Kind, Instance and detail codes of an error-history record (R471), which only Uzohorn decodes. -/
opaque evKind : Nat → BitVec 16
opaque evInst : Nat → BitVec 16
opaque evDetail : Nat → BitVec 256
/-- The new receiver equalisation setting that one step toward the better measurement gives (R493). -/
opaque eqStep : Nat → Nat → Nat
/-- STATUS of the EvAck that answers an eviction outside the boot window, which R234 does not state. -/
opaque evAckOutside : BitVec 4
/-- Phase of the 2 Hz blinking of ACT, in core clocks, which R96 does not state. -/
opaque blinkPhase : Nat

/-- The increment that the servo sets from the one in force and a measured error (R481, R483): the spec gives no law. -/
opaque servo : Nat → Int → Nat
/-- TIME_STAT.ERR for an error that 24 signed bits do not hold, which R498 does not state. -/
opaque errBits : Int → BitVec 24
/-- The factory counts of a ring-oscillator pair in its fuses, stressed and reference, whose ratio R491 uses. -/
opaque ringFuse : Nat → Nat × Nat
/-- D of a pair whose counts give no fraction from 0 to 1, which R491 does not state. -/
opaque ringOpen : Nat → Nat → Nat → Nat
/-- Slew rate in 2^-40 ns per cc, at most 50 µs per second (R484). -/
opaque slewRate : Nat
/-- ADDR of the trace record of a refresh command of a channel and rank, which names no line (R549). -/
opaque refreshAddr : Nat → Nat → BitVec 48
/-- Which of 2^SAMPLE trace records is kept (R550). -/
opaque samplePhase : Nat
/-- The outcome in the trace record of a request lookup that takes no part in the table of R200 (R549). -/
opaque lookOutcome : Nat → BitVec 4
/-- Cycles from the acceptance of a group read, or from its previous slot, to a slot's reading, at most 64 (R542). -/
opaque grpDelay : Nat → Nat
/-- floor(D / RO_STEP) when RO_STEP is 0, which R493 does not state. -/
opaque roStepZero : Nat → Nat
/-- Whether the later of two measurements of a port is the better: later and earlier worst margins, horizontal and vertical (R493). -/
opaque eyeBetter : Nat → Nat → Nat → Nat → Bool
/-- Whether an equalisation change goes up when the better measurement was made at the setting in force (R493). -/
opaque eqUp : Nat → Nat → Nat → Nat → Bool
/-- The byte of object 0x9000 subindex 6 that stands for no proposal (R496). -/
opaque noProposal : Byte
/-- The byte there that stands for a stack proposed as worn (R496). -/
opaque wearByte : Byte
/-- A byte of a measurement that has not been made, in objects 0x9000 subindexes 1 and 2 (R496). -/
opaque noMeasure : Byte
/-- The 4 bytes of a channel's or stack's latest walk worsts, timing and reference voltage, in objects 0x9000 subindexes 3
and 4 (R496), whose layout the spec does not print; `none` before any walk. -/
opaque walkBytes : Option (Nat × Nat) → BitVec 32
/-- Object 0x7800 subindex 4 while no grandmaster is followed (R496). -/
opaque noGm : BitVec 64

/-- SVC_CLK is high in the first half of a bit time, and low in the second; else the reverse (R94 gives the rate only). -/
opaque svcClkFirst : Bool

/-- Commands at which a pavilion's stack command path counts as exhausted (R547); no rule states its depth. -/
opaque stackPathDepth : Nat

end Sys2Proof.Config
end

