-- ==== Sys2Proof/Machine/RegTable.lean ====
section
/-!
DEFINITION. The register map of the hub (R12 to R16, R524, R525): every register with its fields, as the field
tables of the spec give them, and the BAR0 offset of each register by name.
-/

namespace Sys2Proof

/-- Access codes of R15. -/
inductive Acc where
  | rw
  | ro
  | wo
  | rsq
  | rwh
deriving DecidableEq, Repr

/-- Apply codes of R15. -/
inductive App where
  | now
  | tick
  | idle
  | boot
deriving DecidableEq, Repr

/-- A register field: its bits, codes, reset value, and whether the settings image may load it (R15). -/
structure Field where
  hi : Nat
  lo : Nat
  acc : Acc
  rst : Nat
  ice : Bool
  app : App
  priv : Bool
deriving DecidableEq, Repr

/-- A register, or an array of `count` registers `stride` bytes apart, at an offset within its block. -/
structure RegDesc where
  off : Nat
  count : Nat
  stride : Nat
  fields : List Field
deriving DecidableEq, Repr

/-- The blocks of the address map (R524). `raw` is the raw and ECC test window. -/
inductive Blk where
  | glb
  | band
  | lodge
  | ice
  | blv
  | reg
  | pav
  | port
  | chan
  | stack
  | raw
deriving DecidableEq, Repr

/-- Registers of GLB (part 1), in offset order. -/
def regsGlb0 : List RegDesc := [
  -- GLB.ID (R526)
  ⟨0x0, 1, 0, [⟨31, 16, .ro, 0x9616, false, .now, false⟩, ⟨15, 8, .ro, 0xB0, false, .now, false⟩, ⟨7, 4, .ro, 0x0, false, .now, false⟩]⟩,
  -- GLB.CAP (R526)
  ⟨0x4, 1, 0, [⟨31, 24, .ro, 0x60, false, .now, false⟩, ⟨23, 19, .ro, 0x10, false, .now, false⟩, ⟨18, 14, .ro, 0x10, false, .now, false⟩, ⟨13, 10, .ro, 0x8, false, .now, false⟩, ⟨9, 8, .ro, 0x3, false, .now, false⟩]⟩,
  -- GLB.PRIV_PORTS (R527)
  ⟨0x10, 3, 4, [⟨31, 0, .rw, 0x0, true, .now, true⟩]⟩,
  -- GLB.PRIV_CTL (R527)
  ⟨0x1C, 1, 0, [⟨0, 0, .rw, 0x1, true, .now, true⟩]⟩,
  -- GLB.ACCESS_EVT (R528)
  ⟨0x20, 1, 0, [⟨11, 11, .rsq, 0x0, false, .now, true⟩, ⟨10, 10, .rsq, 0x0, false, .now, true⟩, ⟨9, 9, .rsq, 0x0, false, .now, true⟩, ⟨8, 8, .rsq, 0x0, false, .now, true⟩, ⟨7, 0, .rsq, 0x0, false, .now, true⟩]⟩,
  -- GLB.ACCESS_INFO (R528)
  ⟨0x24, 1, 0, [⟨31, 8, .ro, 0x0, false, .now, true⟩, ⟨7, 7, .ro, 0x0, false, .now, true⟩, ⟨6, 0, .ro, 0x0, false, .now, true⟩]⟩,
  -- GLB.CFG_REJECT_EVT (R529)
  ⟨0x28, 1, 0, [⟨8, 8, .rsq, 0x0, false, .now, true⟩, ⟨7, 0, .rsq, 0x0, false, .now, true⟩]⟩,
  -- GLB.CFG_REJECT_INFO (R529)
  ⟨0x2C, 1, 0, [⟨31, 8, .ro, 0x0, false, .now, true⟩, ⟨7, 3, .ro, 0x0, false, .now, true⟩, ⟨2, 0, .ro, 0x0, false, .now, true⟩]⟩,
  -- GLB.APPLY_PEND (R530)
  ⟨0x30, 1, 0, [⟨9, 9, .ro, 0x0, false, .now, false⟩, ⟨8, 8, .ro, 0x0, false, .now, false⟩, ⟨7, 7, .ro, 0x0, false, .now, false⟩, ⟨6, 6, .ro, 0x0, false, .now, false⟩, ⟨5, 5, .ro, 0x0, false, .now, false⟩, ⟨4, 4, .ro, 0x0, false, .now, false⟩, ⟨3, 3, .ro, 0x0, false, .now, false⟩, ⟨2, 2, .ro, 0x0, false, .now, false⟩, ⟨1, 1, .ro, 0x0, false, .now, false⟩, ⟨0, 0, .ro, 0x0, false, .now, false⟩]⟩,
  -- GLB.START_EVT (R530)
  ⟨0x34, 1, 0, [⟨10, 10, .rsq, 0x0, false, .now, true⟩, ⟨9, 9, .rsq, 0x0, false, .now, true⟩, ⟨8, 8, .rsq, 0x0, false, .now, true⟩, ⟨7, 0, .rsq, 0x0, false, .now, true⟩]⟩,
  -- GLB.INT_CTL (R531)
  ⟨0x38, 1, 0, [⟨9, 0, .rw, 0xA, true, .tick, true⟩]⟩,
  -- GLB.TICK_NUM (R530)
  ⟨0x3C, 1, 0, [⟨31, 0, .ro, 0x0, false, .now, false⟩]⟩,
  -- GLB.INT_LEVEL_LO (R531)
  ⟨0x40, 1, 0, [⟨31, 0, .ro, 0x0, false, .now, false⟩]⟩,
  -- GLB.INT_LEVEL_HI (R531)
  ⟨0x44, 1, 0, [⟨31, 0, .ro, 0x0, false, .now, false⟩]⟩,
  -- GLB.CSR_WIN (R532)
  ⟨0x48, 1, 0, [⟨31, 31, .rw, 0x0, true, .tick, true⟩, ⟨25, 0, .rw, 0x0, true, .tick, true⟩]⟩,
  -- GLB.INT_ROUTE (R533)
  ⟨0x100, 64, 4, [⟨31, 31, .rw, 0x1, true, .tick, true⟩, ⟨30, 30, .rw, 0x0, true, .tick, true⟩, ⟨5, 0, .rw, 0x0, true, .tick, true⟩]⟩]

/-- Registers of GLB (part 2), in offset order. -/
def regsGlb1 : List RegDesc := [
  -- GLB.IL_FOLD (R50)
  ⟨0x400, 16, 4, [⟨9, 0, .ro, 0x0, true, .boot, true⟩]⟩,
  -- GLB.IL_MAP_LO (R51)
  ⟨0x440, 1, 0, [⟨31, 0, .ro, 0x76543210, true, .boot, false⟩]⟩,
  -- GLB.IL_MAP_HI (R51)
  ⟨0x444, 1, 0, [⟨31, 0, .ro, 0xFEDCBA98, true, .boot, false⟩]⟩,
  -- GLB.PAV_FENCE (R52)
  ⟨0x448, 1, 0, [⟨31, 31, .wo, 0x0, false, .now, true⟩, ⟨11, 8, .rw, 0x0, false, .now, true⟩, ⟨4, 4, .rw, 0x0, false, .now, true⟩, ⟨3, 0, .rw, 0x0, false, .now, true⟩]⟩,
  -- GLB.IL_STAT (R53)
  ⟨0x44C, 1, 0, [⟨27, 12, .ro, 0x0, true, .now, false⟩, ⟨11, 11, .ro, 0x0, false, .now, false⟩, ⟨10, 10, .rsq, 0x0, false, .now, true⟩, ⟨9, 9, .rsq, 0x0, false, .now, true⟩, ⟨8, 8, .rsq, 0x0, false, .now, true⟩, ⟨7, 0, .rsq, 0x0, false, .now, true⟩]⟩,
  -- GLB.COH_CTL (R156)
  ⟨0x460, 1, 0, [⟨31, 31, .ro, 0x0, false, .now, false⟩, ⟨16, 0, .rw, 0x64, true, .tick, true⟩]⟩,
  -- GLB.IO_CTL (R186)
  ⟨0x464, 1, 0, [⟨31, 31, .ro, 0x0, false, .now, false⟩, ⟨30, 24, .ro, 0x0, false, .now, false⟩, ⟨19, 0, .rw, 0x2710, true, .tick, true⟩]⟩,
  -- GLB.HOME_BASE (R154)
  ⟨0x480, 16, 8, [⟨31, 31, .rw, 0x1, true, .idle, true⟩, ⟨30, 23, .rw, 0xFF, true, .idle, true⟩, ⟨21, 0, .rw, 0x0, true, .idle, true⟩]⟩,
  -- GLB.HOME_SIZE (R155)
  ⟨0x484, 16, 8, [⟨13, 0, .rw, 0x2000, true, .idle, true⟩]⟩,
  -- GLB.IOWIN_BASE (R187)
  ⟨0x500, 32, 8, [⟨31, 0, .rw, 0x0, true, .tick, true⟩]⟩,
  -- GLB.IOWIN_CTL (R188)
  ⟨0x504, 32, 8, [⟨31, 31, .rw, 0x0, true, .tick, true⟩, ⟨30, 24, .rw, 0x0, true, .tick, true⟩, ⟨20, 0, .rw, 0x0, true, .tick, true⟩]⟩,
  -- GLB.PLOT_PF (R226)
  ⟨0x600, 4, 4, [⟨31, 0, .rw, 0x55555555, true, .tick, true⟩]⟩,
  -- GLB.HC_CTL (R262)
  ⟨0x700, 1, 0, [⟨0, 0, .rw, 0x1, true, .tick, true⟩]⟩,
  -- GLB.HC_STAT (R263)
  ⟨0x704, 1, 0, [⟨31, 16, .ro, 0x0, false, .now, false⟩, ⟨9, 9, .ro, 0x0, false, .now, false⟩, ⟨8, 8, .rsq, 0x0, false, .now, true⟩, ⟨7, 0, .rsq, 0x0, false, .now, true⟩]⟩,
  -- GLB.HC_MOP_BASE_LO (R264)
  ⟨0x710, 1, 0, [⟨31, 6, .rw, 0x0, false, .now, true⟩]⟩,
  -- GLB.HC_MOP_BASE_HI (R264)
  ⟨0x714, 1, 0, [⟨19, 0, .rw, 0x0, false, .now, true⟩]⟩]

/-- Registers of GLB (part 3), in offset order. -/
def regsGlb2 : List RegDesc := [
  -- GLB.HC_MOP_SIZE_LO (R265)
  ⟨0x718, 1, 0, [⟨31, 6, .rw, 0x0, false, .now, true⟩]⟩,
  -- GLB.HC_MOP_SIZE_HI (R265)
  ⟨0x71C, 1, 0, [⟨20, 0, .rw, 0x0, false, .now, true⟩]⟩,
  -- GLB.HC_MOP_SETWAY (R266)
  ⟨0x720, 1, 0, [⟨22, 19, .rw, 0x0, false, .now, true⟩, ⟨18, 14, .rw, 0x0, false, .now, true⟩, ⟨13, 0, .rw, 0x0, false, .now, true⟩]⟩,
  -- GLB.HC_MOP_WAYS (R267)
  ⟨0x724, 1, 0, [⟨15, 0, .rw, 0x0, false, .now, true⟩]⟩,
  -- GLB.HC_MOP_CTL (R268)
  ⟨0x728, 1, 0, [⟨31, 31, .wo, 0x0, false, .now, true⟩, ⟨30, 28, .rw, 0x0, false, .now, true⟩, ⟨27, 26, .rw, 0x0, false, .now, true⟩, ⟨5, 0, .rw, 0x0, false, .now, true⟩]⟩,
  -- GLB.HC_MOP_STAT (R269)
  ⟨0x72C, 1, 0, [⟨31, 24, .ro, 0x0, false, .now, false⟩, ⟨23, 16, .ro, 0x0, false, .now, false⟩, ⟨15, 13, .ro, 0x0, false, .now, false⟩, ⟨12, 12, .ro, 0x0, false, .now, false⟩, ⟨9, 9, .rsq, 0x0, false, .now, true⟩, ⟨8, 8, .rsq, 0x0, false, .now, true⟩, ⟨7, 0, .rsq, 0x0, false, .now, true⟩]⟩,
  -- GLB.HC_MOP_WB (R270)
  ⟨0x730, 1, 0, [⟨31, 0, .ro, 0x0, false, .now, false⟩]⟩,
  -- GLB.HC_MOP_MISC (R270)
  ⟨0x734, 1, 0, [⟨31, 16, .ro, 0x0, false, .now, false⟩, ⟨15, 0, .ro, 0x0, false, .now, false⟩]⟩,
  -- GLB.PLACE_CMD (R271)
  ⟨0x740, 1, 0, [⟨31, 31, .wo, 0x0, false, .now, true⟩, ⟨17, 16, .rw, 0x0, false, .now, true⟩, ⟨15, 0, .rw, 0x0, false, .now, true⟩]⟩,
  -- GLB.PLACE_MODE (R272)
  ⟨0x744, 1, 0, [⟨31, 0, .ro, 0x0, false, .now, false⟩]⟩,
  -- GLB.PLACE_STAT (R273)
  ⟨0x748, 1, 0, [⟨12, 12, .ro, 0x0, false, .now, false⟩, ⟨11, 11, .ro, 0x0, false, .now, false⟩, ⟨10, 10, .rsq, 0x0, false, .now, true⟩, ⟨9, 9, .rsq, 0x0, false, .now, true⟩, ⟨7, 0, .rsq, 0x0, false, .now, true⟩]⟩,
  -- GLB.BOOT_WIN (R274)
  ⟨0x74C, 1, 0, [⟨27, 0, .ro, 0x0, true, .boot, true⟩]⟩,
  -- GLB.MEM_MAP (R324)
  ⟨0x760, 1, 0, [⟨31, 31, .ro, 0x0, false, .now, false⟩, ⟨30, 30, .ro, 0x0, false, .now, false⟩, ⟨13, 0, .ro, 0x0, false, .now, false⟩]⟩,
  -- GLB.MEM_PIVOT (R325)
  ⟨0x764, 1, 0, [⟨19, 15, .ro, 0x0, false, .now, false⟩, ⟨14, 10, .ro, 0x0, false, .now, false⟩, ⟨9, 5, .ro, 0x0, false, .now, false⟩, ⟨4, 0, .ro, 0x0, false, .now, false⟩]⟩,
  -- GLB.FATAL_STAT (R367)
  ⟨0x780, 1, 0, [⟨15, 15, .rsq, 0x0, false, .now, true⟩, ⟨14, 14, .rsq, 0x0, false, .now, true⟩, ⟨13, 13, .rsq, 0x0, false, .now, true⟩, ⟨12, 12, .rsq, 0x0, false, .now, true⟩, ⟨11, 11, .rsq, 0x0, false, .now, true⟩, ⟨10, 10, .rsq, 0x0, false, .now, true⟩, ⟨9, 9, .rsq, 0x0, false, .now, true⟩, ⟨8, 8, .rsq, 0x0, false, .now, true⟩, ⟨7, 0, .rsq, 0x0, false, .now, true⟩]⟩,
  -- GLB.START_CTL (R434)
  ⟨0x800, 1, 0, [⟨31, 31, .wo, 0x0, false, .now, true⟩]⟩]

/-- Registers of GLB (part 4), in offset order. -/
def regsGlb3 : List RegDesc := [
  -- GLB.START_STAT (R435)
  ⟨0x804, 1, 0, [⟨31, 30, .ro, 0x0, false, .now, false⟩, ⟨29, 29, .ro, 0x0, false, .now, false⟩, ⟨28, 28, .ro, 0x0, false, .now, false⟩, ⟨27, 27, .ro, 0x0, false, .now, false⟩, ⟨26, 26, .ro, 0x0, false, .now, false⟩, ⟨25, 25, .ro, 0x0, false, .now, false⟩, ⟨15, 0, .ro, 0x0, false, .now, false⟩]⟩,
  -- GLB.PWR_CMD (R436)
  ⟨0x808, 1, 0, [⟨31, 31, .wo, 0x0, false, .now, true⟩, ⟨1, 0, .rw, 0x0, false, .now, true⟩]⟩,
  -- GLB.PWR_STAT (R437)
  ⟨0x80C, 1, 0, [⟨31, 28, .ro, 0x0, false, .now, false⟩, ⟨27, 27, .ro, 0x0, true, .now, false⟩, ⟨15, 8, .ro, 0x0, false, .now, false⟩]⟩,
  -- GLB.PWR_EVT (R438)
  ⟨0x810, 1, 0, [⟨12, 12, .rsq, 0x0, false, .now, true⟩, ⟨11, 11, .rsq, 0x0, false, .now, true⟩, ⟨10, 10, .rsq, 0x0, false, .now, true⟩, ⟨9, 9, .rsq, 0x0, false, .now, true⟩, ⟨8, 8, .rsq, 0x0, false, .now, true⟩, ⟨7, 0, .rsq, 0x0, false, .now, true⟩]⟩,
  -- GLB.PWR_CFG (R439)
  ⟨0x814, 1, 0, [⟨9, 0, .rw, 0xA, true, .now, true⟩]⟩,
  -- GLB.PAV_GATE (R439)
  ⟨0x818, 1, 0, [⟨15, 0, .rw, 0x0, true, .tick, true⟩]⟩,
  -- GLB.APPLY_STATUS (R534)
  ⟨0xFFF0, 1, 0, [⟨9, 9, .ro, 0x1, false, .now, false⟩, ⟨8, 8, .ro, 0x0, false, .now, false⟩, ⟨7, 0, .ro, 0x0, false, .now, false⟩]⟩]

/-- Registers of GLB. -/
def regsGlb : List RegDesc := regsGlb0 ++ regsGlb1 ++ regsGlb2 ++ regsGlb3

/-- Registers of RAW, in offset order. -/
def regsRaw : List RegDesc := [
  -- RAW.RAW_CTL (R368)
  ⟨0x0, 1, 0, [⟨31, 31, .wo, 0x0, false, .now, true⟩, ⟨30, 28, .rw, 0x0, false, .now, true⟩, ⟨27, 26, .rw, 0x0, false, .now, true⟩, ⟨19, 16, .rw, 0x0, false, .now, true⟩]⟩,
  -- RAW.RAW_STAT (R370)
  ⟨0x4, 1, 0, [⟨13, 13, .ro, 0x0, false, .now, true⟩, ⟨12, 10, .ro, 0x0, false, .now, true⟩, ⟨9, 8, .ro, 0x0, false, .now, true⟩, ⟨6, 0, .ro, 0x7F, false, .now, true⟩]⟩,
  -- RAW.RAW_ADDR_LO (R369)
  ⟨0x8, 1, 0, [⟨31, 6, .rw, 0x0, false, .now, true⟩]⟩,
  -- RAW.RAW_ADDR_HI (R369)
  ⟨0xC, 1, 0, [⟨19, 0, .rw, 0x0, false, .now, true⟩]⟩,
  -- RAW.RAW_DATA (R371)
  ⟨0x40, 16, 4, [⟨31, 0, .rw, 0x0, false, .now, true⟩]⟩,
  -- RAW.RAW_CHECK (R371)
  ⟨0x80, 4, 4, [⟨31, 0, .rw, 0x0, false, .now, true⟩]⟩]

/-- Registers of BAND, in offset order. -/
def regsBand : List RegDesc := [
  -- BAND.TICK_CFG (R54)
  ⟨0x0, 1, 0, [⟨9, 0, .rw, 0xA, true, .tick, true⟩]⟩,
  -- BAND.SVC_BUDGET (R55)
  ⟨0x4, 1, 0, [⟨31, 24, .rw, 0x1E, true, .tick, true⟩, ⟨23, 16, .rw, 0x28, true, .tick, true⟩, ⟨15, 8, .rw, 0xA, true, .tick, true⟩, ⟨7, 0, .rw, 0x28, true, .tick, true⟩]⟩,
  -- BAND.SVC_STAT (R56)
  ⟨0x8, 1, 0, [⟨9, 9, .ro, 0x0, false, .now, false⟩, ⟨8, 8, .rsq, 0x0, false, .now, true⟩, ⟨7, 0, .rsq, 0x0, false, .now, true⟩]⟩,
  -- BAND.TIME_CTL (R497)
  ⟨0x10, 1, 0, [⟨31, 30, .rw, 0x1, true, .tick, true⟩, ⟨29, 29, .ro, 0x0, true, .boot, true⟩, ⟨28, 28, .rw, 0x1, true, .tick, true⟩, ⟨27, 27, .rw, 0x0, true, .tick, true⟩, ⟨23, 16, .rw, 0x0, true, .tick, true⟩, ⟨15, 0, .rw, 0x25, true, .tick, true⟩]⟩,
  -- BAND.TIME_STAT (R498)
  ⟨0x14, 1, 0, [⟨31, 29, .ro, 0x0, false, .now, false⟩, ⟨28, 28, .ro, 0x0, false, .now, false⟩, ⟨27, 27, .ro, 0x0, false, .now, false⟩, ⟨26, 26, .ro, 0x0, false, .now, false⟩, ⟨25, 25, .ro, 0x0, false, .now, false⟩, ⟨23, 0, .ro, 0x0, false, .now, false⟩]⟩,
  -- BAND.TIME_NS (R499)
  ⟨0x18, 1, 0, [⟨29, 0, .ro, 0x0, false, .now, false⟩]⟩,
  -- BAND.TIME_SEC_LO (R499)
  ⟨0x1C, 1, 0, [⟨31, 0, .ro, 0x0, false, .now, false⟩]⟩,
  -- BAND.TIME_SEC_HI (R499)
  ⟨0x20, 1, 0, [⟨15, 0, .ro, 0x0, false, .now, false⟩]⟩,
  -- BAND.TIME_SET_NS (R499)
  ⟨0x24, 1, 0, [⟨29, 0, .rw, 0x0, false, .now, true⟩]⟩,
  -- BAND.TIME_SET_SEC_LO (R499)
  ⟨0x28, 1, 0, [⟨31, 0, .rw, 0x0, false, .now, true⟩]⟩,
  -- BAND.TIME_SET_SEC_HI (R499)
  ⟨0x2C, 1, 0, [⟨15, 0, .rw, 0x0, false, .now, true⟩]⟩,
  -- BAND.TIME_ADJ (R500)
  ⟨0x30, 1, 0, [⟨31, 0, .rw, 0x0, false, .now, true⟩]⟩,
  -- BAND.TIME_CMD (R500)
  ⟨0x34, 1, 0, [⟨31, 31, .wo, 0x0, false, .now, true⟩, ⟨1, 0, .rw, 0x0, false, .now, true⟩]⟩,
  -- BAND.PPS_CFG (R500)
  ⟨0x38, 1, 0, [⟨31, 31, .rw, 0x1, true, .tick, true⟩, ⟨23, 16, .rw, 0x0, true, .tick, true⟩, ⟨15, 0, .rw, 0x0, true, .tick, true⟩]⟩,
  -- BAND.TIME_EVT (R498)
  ⟨0x3C, 1, 0, [⟨14, 14, .rsq, 0x0, false, .now, true⟩, ⟨13, 13, .rsq, 0x0, false, .now, true⟩, ⟨12, 12, .rsq, 0x0, false, .now, true⟩, ⟨11, 11, .rsq, 0x0, false, .now, true⟩, ⟨10, 10, .rsq, 0x0, false, .now, true⟩, ⟨9, 9, .rsq, 0x0, false, .now, true⟩, ⟨8, 8, .rsq, 0x0, false, .now, true⟩, ⟨7, 0, .rsq, 0x0, false, .now, true⟩]⟩,
  -- BAND.APPLY_STATUS (R534)
  ⟨0xFFF0, 1, 0, [⟨9, 9, .ro, 0x1, false, .now, false⟩, ⟨8, 8, .ro, 0x0, false, .now, false⟩, ⟨7, 0, .ro, 0x0, false, .now, false⟩]⟩]

/-- Registers of LODGE, in offset order. -/
def regsLodge : List RegDesc := [
  -- LODGE.MBX_CMD (R472)
  ⟨0x0, 1, 0, [⟨31, 31, .wo, 0x0, false, .now, true⟩, ⟨30, 30, .rw, 0x0, false, .now, true⟩, ⟨29, 29, .rw, 0x0, false, .now, true⟩, ⟨23, 8, .rw, 0x0, false, .now, true⟩, ⟨7, 0, .rw, 0x0, false, .now, true⟩]⟩,
  -- LODGE.MBX_ARG (R472)
  ⟨0x4, 1, 0, [⟨31, 9, .rw, 0x0, false, .now, true⟩, ⟨8, 0, .rw, 0x0, false, .now, true⟩]⟩,
  -- LODGE.MBX_STAT (R473)
  ⟨0x8, 1, 0, [⟨31, 31, .ro, 0x0, false, .now, true⟩, ⟨30, 22, .ro, 0x0, false, .now, true⟩, ⟨15, 11, .ro, 0x0, false, .now, true⟩, ⟨10, 10, .rsq, 0x0, false, .now, true⟩, ⟨8, 8, .rsq, 0x0, false, .now, true⟩, ⟨7, 0, .rsq, 0x0, false, .now, true⟩]⟩,
  -- LODGE.EVQ_STAT (R474)
  ⟨0x10, 1, 0, [⟨31, 20, .rwh, 0x0, false, .now, true⟩, ⟨16, 8, .ro, 0x0, false, .now, false⟩, ⟨7, 0, .rsq, 0x0, false, .now, true⟩]⟩,
  -- LODGE.NET_STAT (R474)
  ⟨0x14, 1, 0, [⟨31, 24, .ro, 0xFF, false, .now, false⟩, ⟨23, 19, .ro, 0x0, false, .now, false⟩, ⟨18, 18, .ro, 0x0, false, .now, false⟩, ⟨17, 17, .ro, 0x0, false, .now, false⟩, ⟨16, 15, .ro, 0x0, false, .now, false⟩]⟩,
  -- LODGE.MBX_DATA (R473)
  ⟨0x100, 64, 4, [⟨31, 0, .rw, 0x0, false, .now, true⟩]⟩,
  -- LODGE.AGE_CTL (R503)
  ⟨0x200, 1, 0, [⟨31, 31, .rw, 0x1, true, .tick, true⟩, ⟨7, 0, .rw, 0x0, true, .now, true⟩]⟩,
  -- LODGE.AGE_STAT (R503)
  ⟨0x204, 1, 0, [⟨31, 16, .ro, 0x0, true, .now, false⟩, ⟨15, 8, .ro, 0x0, false, .now, false⟩]⟩,
  -- LODGE.AGE_ADV (R503)
  ⟨0x208, 1, 0, [⟨31, 31, .ro, 0x0, false, .now, false⟩, ⟨30, 30, .ro, 0x0, false, .now, false⟩, ⟨29, 29, .ro, 0x0, false, .now, false⟩, ⟨28, 28, .ro, 0x0, false, .now, false⟩, ⟨27, 27, .ro, 0x0, false, .now, false⟩, ⟨15, 8, .ro, 0x0, false, .now, false⟩]⟩,
  -- LODGE.AGE_EVT (R503)
  ⟨0x20C, 1, 0, [⟨10, 10, .rsq, 0x0, false, .now, true⟩, ⟨9, 9, .rsq, 0x0, false, .now, true⟩, ⟨8, 8, .rsq, 0x0, false, .now, true⟩, ⟨7, 0, .rsq, 0x0, false, .now, true⟩]⟩,
  -- LODGE.APPLY_STATUS (R534)
  ⟨0xFFF0, 1, 0, [⟨9, 9, .ro, 0x1, false, .now, false⟩, ⟨8, 8, .ro, 0x0, false, .now, false⟩, ⟨7, 0, .ro, 0x0, false, .now, false⟩]⟩]

/-- Registers of ICE, in offset order. -/
def regsIce : List RegDesc := [
  -- ICE.STAT (R475)
  ⟨0x0, 1, 0, [⟨31, 31, .ro, 0x0, false, .now, false⟩, ⟨30, 29, .ro, 0x0, false, .now, false⟩, ⟨28, 27, .ro, 0x0, false, .now, false⟩]⟩,
  -- ICE.SEQ (R475)
  ⟨0x4, 1, 0, [⟨31, 0, .ro, 0x0, false, .now, false⟩]⟩,
  -- ICE.BOOT_STAT (R475)
  ⟨0x8, 1, 0, [⟨15, 0, .ro, 0x0, false, .now, false⟩]⟩,
  -- ICE.EVT (R476)
  ⟨0xC, 1, 0, [⟨10, 10, .rsq, 0x0, false, .now, true⟩, ⟨9, 9, .rsq, 0x0, false, .now, true⟩, ⟨8, 8, .rsq, 0x0, false, .now, true⟩, ⟨7, 0, .rsq, 0x0, false, .now, true⟩]⟩,
  -- ICE.APPLY_STATUS (R534)
  ⟨0xFFF0, 1, 0, [⟨9, 9, .ro, 0x1, false, .now, false⟩, ⟨8, 8, .ro, 0x0, false, .now, false⟩, ⟨7, 0, .ro, 0x0, false, .now, false⟩]⟩]

/-- Registers of REG, in offset order. -/
def regsReg : List RegDesc := [
  -- REG.PLOT_LAT (R404)
  ⟨0x0, 64, 32, [⟨18, 16, .rw, 0x0, true, .tick, true⟩, ⟨15, 0, .rw, 0x0, true, .tick, true⟩]⟩,
  -- REG.PLOT_GBW (R405)
  ⟨0x4, 64, 32, [⟨15, 0, .rw, 0x0, true, .tick, true⟩]⟩,
  -- REG.PLOT_CACHE (R406)
  ⟨0x8, 64, 32, [⟨26, 16, .rw, 0x0, true, .tick, true⟩, ⟨10, 0, .rw, 0x400, true, .tick, true⟩]⟩,
  -- REG.PLOT_SHARE (R406)
  ⟨0xC, 64, 32, [⟨21, 16, .rw, 0x3E, true, .tick, true⟩, ⟨6, 0, .rw, 0x40, true, .tick, true⟩]⟩,
  -- REG.PLOT_EFF (R405)
  ⟨0x10, 64, 32, [⟨15, 0, .ro, 0x0, false, .now, false⟩]⟩,
  -- REG.PLOT_RD (R407)
  ⟨0x14, 64, 32, [⟨31, 0, .ro, 0x0, false, .now, false⟩]⟩,
  -- REG.PLOT_WR (R407)
  ⟨0x18, 64, 32, [⟨31, 0, .ro, 0x0, false, .now, false⟩]⟩,
  -- REG.PLOT_LSTAT (R407)
  ⟨0x1C, 64, 32, [⟨22, 20, .ro, 0x0, false, .now, false⟩, ⟨19, 16, .ro, 0x0, false, .now, false⟩, ⟨15, 0, .ro, 0x0, false, .now, false⟩]⟩,
  -- REG.DELIV (R408)
  ⟨0x800, 1, 0, [⟨31, 16, .ro, 0x0, false, .now, false⟩, ⟨15, 0, .ro, 0x0, false, .now, false⟩]⟩,
  -- REG.OVC (R408)
  ⟨0x804, 1, 0, [⟨31, 31, .ro, 0x0, false, .now, false⟩, ⟨10, 0, .ro, 0x400, false, .now, false⟩]⟩,
  -- REG.EVT (R408)
  ⟨0x808, 1, 0, [⟨10, 10, .rsq, 0x0, false, .now, true⟩, ⟨9, 9, .rsq, 0x0, false, .now, true⟩, ⟨8, 8, .rsq, 0x0, false, .now, true⟩, ⟨7, 0, .rsq, 0x0, false, .now, true⟩]⟩,
  -- REG.MQ_MARK (R409)
  ⟨0x80C, 1, 0, [⟨31, 24, .rw, 0x70, true, .tick, true⟩, ⟨23, 16, .rw, 0x40, true, .tick, true⟩, ⟨15, 8, .rw, 0x30, true, .tick, true⟩, ⟨7, 0, .rw, 0x18, true, .tick, true⟩]⟩,
  -- REG.THR_CTL (R409)
  ⟨0x810, 1, 0, [⟨7, 0, .rw, 0x4, true, .tick, true⟩]⟩,
  -- REG.THR_STAT (R409)
  ⟨0x814, 1, 0, [⟨15, 0, .ro, 0x0, false, .now, false⟩]⟩,
  -- REG.APPLY_STATUS (R534)
  ⟨0xFFF0, 1, 0, [⟨9, 9, .ro, 0x1, false, .now, false⟩, ⟨8, 8, .ro, 0x0, false, .now, false⟩, ⟨7, 0, .ro, 0x0, false, .now, false⟩]⟩]

/-- Registers of BLV (part 1), in offset order. -/
def regsBlv0 : List RegDesc := [
  -- BLV.CNT_CTL (R559)
  ⟨0x0, 1, 0, [⟨31, 31, .wo, 0x0, false, .now, true⟩, ⟨30, 30, .rw, 0x1, true, .tick, true⟩]⟩,
  -- BLV.SNAP_CTL (R559)
  ⟨0x4, 1, 0, [⟨31, 31, .wo, 0x0, false, .now, true⟩, ⟨30, 30, .rw, 0x0, true, .tick, true⟩, ⟨29, 29, .rw, 0x0, false, .now, true⟩]⟩,
  -- BLV.SNAP_STAT (R560)
  ⟨0x8, 1, 0, [⟨31, 16, .ro, 0x0, false, .now, false⟩, ⟨15, 15, .ro, 0x0, false, .now, false⟩, ⟨14, 14, .ro, 0x0, false, .now, false⟩]⟩,
  -- BLV.SNAP_TICK (R560)
  ⟨0xC, 1, 0, [⟨31, 0, .ro, 0x0, false, .now, false⟩]⟩,
  -- BLV.EVT (R560)
  ⟨0x10, 1, 0, [⟨10, 10, .rsq, 0x0, false, .now, true⟩, ⟨9, 9, .rsq, 0x0, false, .now, true⟩, ⟨8, 8, .rsq, 0x0, false, .now, true⟩, ⟨7, 0, .rsq, 0x0, false, .now, true⟩]⟩,
  -- BLV.GRP_CTL (R561)
  ⟨0x20, 1, 0, [⟨31, 31, .wo, 0x0, false, .now, true⟩, ⟨30, 30, .ro, 0x0, false, .now, false⟩, ⟨2, 0, .rw, 0x0, false, .now, true⟩]⟩,
  -- BLV.GRP_SEL (R561)
  ⟨0x28, 4, 4, [⟨25, 16, .rw, 0x0, false, .now, true⟩, ⟨9, 0, .rw, 0x0, false, .now, true⟩]⟩,
  -- BLV.GRP_VAL_LO (R561)
  ⟨0x40, 8, 8, [⟨31, 0, .ro, 0x0, false, .now, true⟩]⟩,
  -- BLV.GRP_VAL_HI (R561)
  ⟨0x44, 8, 8, [⟨31, 31, .ro, 0x0, false, .now, true⟩, ⟨15, 0, .ro, 0x0, false, .now, true⟩]⟩,
  -- BLV.GSEL (R563)
  ⟨0x80, 8, 4, [⟨31, 31, .rw, 0x0, true, .tick, true⟩, ⟨30, 30, .rw, 0x0, true, .tick, true⟩, ⟨29, 24, .rw, 0x0, true, .tick, true⟩, ⟨7, 0, .rw, 0x0, true, .tick, true⟩]⟩,
  -- BLV.TRC_CTL (R565)
  ⟨0x100, 1, 0, [⟨31, 31, .rwh, 0x0, false, .tick, true⟩, ⟨30, 30, .rw, 0x0, true, .now, true⟩]⟩,
  -- BLV.TRC_CFG (R565)
  ⟨0x104, 1, 0, [⟨31, 30, .rw, 0x0, false, .idle, true⟩, ⟨29, 29, .rw, 0x0, false, .idle, true⟩, ⟨28, 28, .rw, 0x0, false, .idle, true⟩, ⟨27, 24, .rw, 0x0, false, .idle, true⟩, ⟨23, 20, .rw, 0x1, false, .idle, true⟩, ⟨15, 0, .rw, 0x3E8, false, .idle, true⟩]⟩,
  -- BLV.TRC_FILT (R566)
  ⟨0x108, 1, 0, [⟨31, 16, .rw, 0xFFFF, false, .idle, true⟩, ⟨15, 15, .rw, 0x0, false, .idle, true⟩, ⟨14, 9, .rw, 0x0, false, .idle, true⟩, ⟨8, 2, .rw, 0x0, false, .idle, true⟩, ⟨0, 0, .rw, 0x0, false, .idle, true⟩]⟩,
  -- BLV.TRC_ADDR_LO (R566)
  ⟨0x110, 1, 0, [⟨31, 6, .rw, 0x0, false, .idle, true⟩]⟩,
  -- BLV.TRC_ADDR_HI (R566)
  ⟨0x114, 1, 0, [⟨19, 0, .rw, 0x0, false, .idle, true⟩]⟩,
  -- BLV.TRC_AMASK_LO (R566)
  ⟨0x118, 1, 0, [⟨31, 6, .rw, 0x0, false, .idle, true⟩]⟩]

/-- Registers of BLV (part 2), in offset order. -/
def regsBlv1 : List RegDesc := [
  -- BLV.TRC_AMASK_HI (R566)
  ⟨0x11C, 1, 0, [⟨19, 0, .rw, 0x0, false, .idle, true⟩]⟩,
  -- BLV.TRC_STAT (R567)
  ⟨0x120, 1, 0, [⟨31, 31, .ro, 0x0, false, .now, false⟩, ⟨30, 30, .ro, 0x0, false, .now, false⟩, ⟨29, 15, .ro, 0x0, false, .now, false⟩, ⟨14, 14, .rsq, 0x0, false, .now, true⟩, ⟨13, 13, .rsq, 0x0, false, .now, true⟩, ⟨12, 12, .rsq, 0x0, false, .now, true⟩, ⟨11, 11, .rsq, 0x0, false, .now, true⟩, ⟨7, 0, .rsq, 0x0, false, .now, true⟩]⟩,
  -- BLV.TRC_LOST (R567)
  ⟨0x124, 1, 0, [⟨31, 16, .rwh, 0x0, false, .now, true⟩, ⟨15, 0, .rwh, 0x0, false, .now, true⟩]⟩,
  -- BLV.TRC_PTR (R568)
  ⟨0x128, 1, 0, [⟨29, 16, .ro, 0x0, false, .now, false⟩, ⟨13, 0, .ro, 0x0, false, .now, false⟩]⟩,
  -- BLV.TRC_CMD (R568)
  ⟨0x12C, 1, 0, [⟨31, 31, .wo, 0x0, false, .now, true⟩, ⟨30, 30, .wo, 0x0, false, .now, true⟩, ⟨29, 29, .wo, 0x0, false, .now, true⟩, ⟨13, 0, .ro, 0x0, false, .now, false⟩]⟩,
  -- BLV.TRC_POP (R568)
  ⟨0x130, 4, 4, [⟨31, 0, .ro, 0x0, false, .now, true⟩]⟩,
  -- BLV.TRC_DMA_BASE_LO (R569)
  ⟨0x140, 1, 0, [⟨31, 12, .rw, 0x0, false, .idle, true⟩]⟩,
  -- BLV.TRC_DMA_BASE_HI (R569)
  ⟨0x144, 1, 0, [⟨31, 0, .rw, 0x0, false, .idle, true⟩]⟩,
  -- BLV.TRC_DMA_CFG (R569)
  ⟨0x148, 1, 0, [⟨4, 0, .rw, 0x0, false, .idle, true⟩]⟩,
  -- BLV.TRC_DMA_HEAD (R569)
  ⟨0x14C, 1, 0, [⟨31, 0, .ro, 0x0, false, .now, true⟩]⟩,
  -- BLV.TRC_DMA_TAIL (R569)
  ⟨0x150, 1, 0, [⟨31, 0, .rw, 0x0, false, .now, true⟩]⟩,
  -- BLV.USER_VIS, and its last word, which names 8 counters (R564)
  ⟨0x400, 17, 4, [⟨31, 0, .rw, 0x0, true, .tick, true⟩]⟩,
  ⟨0x444, 1, 0, [⟨7, 0, .rw, 0x0, true, .tick, true⟩]⟩,
  -- BLV.IMG_LO (R562)
  ⟨0x1000, 552, 8, [⟨31, 0, .rwh, 0x0, false, .now, true⟩]⟩,
  -- BLV.IMG_HI (R562)
  ⟨0x1004, 552, 8, [⟨31, 31, .rwh, 0x0, false, .now, true⟩, ⟨15, 0, .rwh, 0x0, false, .now, true⟩]⟩,
  -- BLV.SNAP_LO (R562)
  ⟨0x3000, 552, 8, [⟨31, 0, .ro, 0x0, false, .now, true⟩]⟩,
  -- BLV.SNAP_HI (R562)
  ⟨0x3004, 552, 8, [⟨31, 31, .ro, 0x0, false, .now, true⟩, ⟨15, 0, .ro, 0x0, false, .now, true⟩]⟩]

/-- Registers of BLV (part 3), in offset order. -/
def regsBlv2 : List RegDesc := [
  -- BLV.APPLY_STATUS (R534)
  ⟨0xFFF0, 1, 0, [⟨9, 9, .ro, 0x1, false, .now, false⟩, ⟨8, 8, .ro, 0x0, false, .now, false⟩, ⟨7, 0, .ro, 0x0, false, .now, false⟩]⟩]

/-- Registers of BLV. -/
def regsBlv : List RegDesc := regsBlv0 ++ regsBlv1 ++ regsBlv2

/-- Registers of PAV, in offset order. -/
def regsPav : List RegDesc := [
  -- PAV.DIR_STAT (R159)
  ⟨0x100, 1, 0, [⟨31, 19, .ro, 0x0, false, .now, false⟩, ⟨10, 10, .ro, 0x0, false, .now, false⟩, ⟨9, 9, .rsq, 0x0, false, .now, true⟩, ⟨8, 8, .rsq, 0x0, false, .now, true⟩, ⟨7, 0, .rsq, 0x0, false, .now, true⟩]⟩,
  -- PAV.DIR_ERR (R160)
  ⟨0x104, 1, 0, [⟨31, 16, .rwh, 0x0, false, .now, true⟩, ⟨15, 0, .rwh, 0x0, false, .now, true⟩]⟩,
  -- PAV.HC_STAT (R227)
  ⟨0x140, 1, 0, [⟨31, 28, .ro, 0x0, false, .now, false⟩, ⟨27, 19, .ro, 0x0, false, .now, false⟩, ⟨18, 10, .ro, 0x0, false, .now, false⟩, ⟨9, 0, .ro, 0x0, false, .now, false⟩]⟩,
  -- PAV.HC_ERR (R228)
  ⟨0x144, 1, 0, [⟨31, 16, .rwh, 0x0, false, .now, true⟩, ⟨15, 0, .rwh, 0x0, false, .now, true⟩]⟩,
  -- PAV.LOCK_MASK (R275)
  ⟨0x148, 1, 0, [⟨15, 0, .rwh, 0x0, false, .tick, true⟩]⟩,
  -- PAV.LOCK_STAT (R276)
  ⟨0x14C, 1, 0, [⟨31, 28, .ro, 0x0, false, .now, false⟩, ⟨17, 0, .ro, 0x0, false, .now, false⟩]⟩,
  -- PAV.PLACE_EVT (R277)
  ⟨0x150, 1, 0, [⟨8, 8, .rsq, 0x0, false, .now, true⟩, ⟨7, 0, .rsq, 0x0, false, .now, true⟩]⟩,
  -- PAV.ERR_STAT (R382)
  ⟨0x180, 1, 0, [⟨12, 12, .ro, 0x0, false, .now, false⟩, ⟨11, 11, .rsq, 0x0, false, .now, true⟩, ⟨10, 10, .rsq, 0x0, false, .now, true⟩, ⟨9, 9, .rsq, 0x0, false, .now, true⟩, ⟨7, 0, .rsq, 0x0, false, .now, true⟩]⟩,
  -- PAV.ERR_CNT (R382)
  ⟨0x184, 1, 0, [⟨31, 16, .rwh, 0x0, false, .now, true⟩, ⟨15, 0, .rwh, 0x0, false, .now, true⟩]⟩,
  -- PAV.PLOT_OCC (R410)
  ⟨0x200, 64, 4, [⟨18, 0, .ro, 0x0, false, .now, false⟩]⟩,
  -- PAV.PLOT_LAT (R410)
  ⟨0x300, 64, 4, [⟨26, 24, .ro, 0x0, false, .now, false⟩, ⟨23, 0, .ro, 0x0, false, .now, false⟩]⟩,
  -- PAV.AGE (R502)
  ⟨0x400, 1, 0, [⟨31, 28, .ro, 0x0, false, .now, false⟩, ⟨27, 24, .ro, 0x0, false, .now, false⟩, ⟨15, 0, .ro, 0x0, false, .now, false⟩]⟩,
  -- PAV.PMC_SEL (R563)
  ⟨0x500, 10, 4, [⟨31, 31, .rw, 0x0, true, .tick, true⟩, ⟨30, 30, .rw, 0x0, true, .tick, true⟩, ⟨29, 24, .rw, 0x0, true, .tick, true⟩, ⟨7, 0, .rw, 0x0, true, .tick, true⟩]⟩,
  -- PAV.APPLY_STATUS (R534)
  ⟨0xFFF0, 1, 0, [⟨9, 9, .ro, 0x1, false, .now, false⟩, ⟨8, 8, .ro, 0x0, false, .now, false⟩, ⟨7, 0, .ro, 0x0, false, .now, false⟩]⟩]

/-- Registers of PORT (part 1), in offset order. -/
def regsPort0 : List RegDesc := [
  -- PORT.LINK_CTL (R97)
  ⟨0x0, 1, 0, [⟨31, 31, .wo, 0x0, false, .now, true⟩, ⟨30, 30, .rw, 0x0, true, .now, true⟩, ⟨29, 28, .rw, 0x0, true, .now, true⟩, ⟨27, 26, .rw, 0x3, true, .now, true⟩, ⟨25, 25, .rw, 0x1, true, .now, true⟩, ⟨24, 24, .rw, 0x0, false, .now, true⟩, ⟨23, 16, .rw, 0x10, true, .now, true⟩, ⟨15, 8, .rw, 0xA, true, .tick, true⟩]⟩,
  -- PORT.LINK_STAT (R98)
  ⟨0x4, 1, 0, [⟨31, 28, .ro, 0x1, false, .now, false⟩, ⟨27, 26, .ro, 0x0, false, .now, false⟩, ⟨25, 24, .ro, 0x0, false, .now, false⟩, ⟨23, 22, .ro, 0x0, false, .now, false⟩, ⟨21, 21, .ro, 0x0, false, .now, false⟩, ⟨20, 17, .ro, 0x0, false, .now, false⟩, ⟨16, 13, .ro, 0x0, false, .now, false⟩, ⟨12, 12, .ro, 0x0, false, .now, false⟩, ⟨11, 11, .ro, 0x0, false, .now, false⟩, ⟨10, 10, .ro, 0x0, false, .now, false⟩]⟩,
  -- PORT.CRED_CFG (R99)
  ⟨0x8, 1, 0, [⟨9, 0, .rw, 0xA0, true, .tick, true⟩]⟩,
  -- PORT.LINK_EVT (R100)
  ⟨0xC, 1, 0, [⟨13, 13, .rsq, 0x0, false, .now, true⟩, ⟨12, 12, .rsq, 0x0, false, .now, true⟩, ⟨11, 11, .rsq, 0x0, false, .now, true⟩, ⟨10, 10, .rsq, 0x0, false, .now, true⟩, ⟨9, 9, .rsq, 0x0, false, .now, true⟩, ⟨8, 8, .rsq, 0x0, false, .now, true⟩, ⟨7, 0, .rsq, 0x0, false, .now, true⟩]⟩,
  -- PORT.LINK_DELAY (R101)
  ⟨0x10, 1, 0, [⟨31, 0, .ro, 0x0, false, .now, false⟩]⟩,
  -- PORT.LINK_ERR (R102)
  ⟨0x14, 1, 0, [⟨31, 16, .rwh, 0x0, false, .now, true⟩, ⟨15, 0, .rwh, 0x0, false, .now, true⟩]⟩,
  -- PORT.COH_CTL (R157)
  ⟨0x40, 1, 0, [⟨2, 2, .rw, 0x1, true, .idle, true⟩, ⟨1, 1, .rw, 0x1, true, .now, true⟩, ⟨0, 0, .rw, 0x1, true, .tick, true⟩]⟩,
  -- PORT.COH_EVT (R158)
  ⟨0x44, 1, 0, [⟨11, 11, .rsq, 0x0, false, .now, true⟩, ⟨10, 10, .rsq, 0x0, false, .now, true⟩, ⟨9, 9, .rsq, 0x0, false, .now, true⟩, ⟨8, 8, .rsq, 0x0, false, .now, true⟩, ⟨7, 0, .rsq, 0x0, false, .now, true⟩]⟩,
  -- PORT.IO_CTL (R189)
  ⟨0x80, 1, 0, [⟨0, 0, .rw, 0x0, true, .idle, true⟩]⟩,
  -- PORT.IO_EVT (R190)
  ⟨0x84, 1, 0, [⟨12, 12, .rsq, 0x0, false, .now, true⟩, ⟨11, 11, .rsq, 0x0, false, .now, true⟩, ⟨10, 10, .rsq, 0x0, false, .now, true⟩, ⟨9, 9, .rsq, 0x0, false, .now, true⟩, ⟨8, 8, .rsq, 0x0, false, .now, true⟩, ⟨7, 0, .rsq, 0x0, false, .now, true⟩]⟩,
  -- PORT.IO_ERR (R191)
  ⟨0x88, 1, 0, [⟨31, 16, .rwh, 0x0, false, .now, true⟩, ⟨15, 0, .rwh, 0x0, false, .now, true⟩]⟩,
  -- PORT.IO_STAT (R192)
  ⟨0x8C, 1, 0, [⟨17, 17, .ro, 0x0, false, .now, false⟩, ⟨16, 16, .ro, 0x0, false, .now, false⟩, ⟨12, 8, .ro, 0x0, false, .now, false⟩, ⟨6, 0, .ro, 0x0, false, .now, false⟩]⟩,
  -- PORT.PLOT_CTL (R410)
  ⟨0xC0, 1, 0, [⟨7, 7, .rw, 0x0, true, .tick, true⟩, ⟨5, 0, .rw, 0x0, true, .tick, true⟩]⟩,
  -- PORT.THR_STAT (R410)
  ⟨0xC4, 1, 0, [⟨9, 0, .ro, 0x0, false, .now, false⟩]⟩,
  -- PORT.SVC_CTL (R440)
  ⟨0x100, 1, 0, [⟨31, 31, .wo, 0x0, false, .now, true⟩, ⟨30, 30, .wo, 0x0, false, .now, true⟩, ⟨29, 29, .wo, 0x0, false, .now, true⟩]⟩,
  -- PORT.SVC_STAT (R441)
  ⟨0x104, 1, 0, [⟨31, 29, .ro, 0x0, false, .now, false⟩, ⟨26, 16, .rwh, 0x0, false, .now, true⟩, ⟨10, 10, .rsq, 0x0, false, .now, true⟩, ⟨9, 9, .rsq, 0x0, false, .now, true⟩, ⟨8, 8, .rsq, 0x0, false, .now, true⟩, ⟨7, 0, .rsq, 0x0, false, .now, true⟩]⟩]

/-- Registers of PORT (part 2), in offset order. -/
def regsPort1 : List RegDesc := [
  -- PORT.TIME_CTL (R501)
  ⟨0x140, 1, 0, [⟨31, 31, .rw, 0x1, true, .tick, true⟩, ⟨7, 0, .rw, 0x0, true, .tick, true⟩]⟩,
  -- PORT.EYE (R501)
  ⟨0x144, 1, 0, [⟨31, 24, .ro, 0x0, false, .now, false⟩, ⟨23, 16, .ro, 0x0, false, .now, false⟩, ⟨15, 8, .ro, 0x0, false, .now, false⟩, ⟨1, 0, .ro, 0x0, false, .now, false⟩]⟩,
  -- PORT.PMC_SEL (R563)
  ⟨0x180, 8, 4, [⟨31, 31, .rw, 0x0, true, .tick, true⟩, ⟨30, 30, .rw, 0x0, true, .tick, true⟩, ⟨29, 24, .rw, 0x0, true, .tick, true⟩, ⟨23, 16, .rw, 0xFF, true, .tick, true⟩, ⟨7, 0, .rw, 0x0, true, .tick, true⟩]⟩,
  -- PORT.PMC_CTL (R563)
  ⟨0x1C0, 1, 0, [⟨0, 0, .rw, 0x0, true, .tick, true⟩]⟩,
  -- PORT.APPLY_STATUS (R534)
  ⟨0x3FF0, 1, 0, [⟨9, 9, .ro, 0x1, false, .now, false⟩, ⟨8, 8, .ro, 0x0, false, .now, false⟩, ⟨7, 0, .ro, 0x0, false, .now, false⟩]⟩]

/-- Registers of PORT. -/
def regsPort : List RegDesc := regsPort0 ++ regsPort1

/-- Registers of CHAN (part 1), in offset order. -/
def regsChan0 : List RegDesc := [
  -- CHAN.CFG (R326)
  ⟨0x0, 1, 0, [⟨31, 31, .rw, 0x0, true, .idle, true⟩, ⟨30, 30, .rwh, 0x0, false, .idle, true⟩, ⟨23, 16, .rw, 0x18, true, .tick, true⟩]⟩,
  -- CHAN.SCHED (R327)
  ⟨0x4, 1, 0, [⟨31, 24, .rw, 0x60, true, .tick, true⟩, ⟨23, 16, .rw, 0x40, true, .tick, true⟩, ⟨9, 0, .rw, 0x64, true, .tick, true⟩]⟩,
  -- CHAN.STAT (R328)
  ⟨0x8, 1, 0, [⟨31, 28, .ro, 0x0, false, .now, false⟩, ⟨27, 26, .ro, 0x0, false, .now, false⟩, ⟨25, 22, .ro, 0x0, false, .now, false⟩, ⟨21, 21, .ro, 0x0, false, .now, false⟩, ⟨20, 18, .ro, 0x0, false, .now, false⟩, ⟨17, 17, .ro, 0x0, false, .now, false⟩, ⟨16, 16, .ro, 0x0, false, .now, false⟩, ⟨15, 8, .ro, 0x0, false, .now, false⟩, ⟨7, 0, .ro, 0x0, false, .now, false⟩]⟩,
  -- CHAN.EVT (R329)
  ⟨0xC, 1, 0, [⟨17, 17, .rsq, 0x0, false, .now, true⟩, ⟨16, 16, .rsq, 0x0, false, .now, true⟩, ⟨15, 15, .rsq, 0x0, false, .now, true⟩, ⟨14, 14, .rsq, 0x0, false, .now, true⟩, ⟨13, 13, .rsq, 0x0, false, .now, true⟩, ⟨12, 12, .rsq, 0x0, false, .now, true⟩, ⟨11, 11, .rsq, 0x0, false, .now, true⟩, ⟨10, 10, .rsq, 0x0, false, .now, true⟩, ⟨9, 9, .rsq, 0x0, false, .now, true⟩, ⟨8, 8, .rsq, 0x0, false, .now, true⟩, ⟨7, 0, .rsq, 0x0, false, .now, true⟩]⟩,
  -- CHAN.FREQ_CMD (R330)
  ⟨0x10, 1, 0, [⟨31, 31, .wo, 0x0, false, .now, true⟩, ⟨3, 0, .rw, 0x0, false, .now, true⟩]⟩,
  -- CHAN.Q_STAT (R331)
  ⟨0x14, 1, 0, [⟨23, 16, .ro, 0x0, false, .now, false⟩, ⟨8, 8, .ro, 0x0, false, .now, false⟩, ⟨7, 0, .ro, 0x0, false, .now, false⟩]⟩,
  -- CHAN.INIT_STAT (R332)
  ⟨0x18, 1, 0, [⟨31, 31, .ro, 0x0, false, .now, false⟩, ⟨18, 0, .ro, 0x0, false, .now, false⟩]⟩,
  -- CHAN.TRAIN_STAT (R333)
  ⟨0x1C, 1, 0, [⟨31, 28, .ro, 0x0, false, .now, false⟩, ⟨27, 27, .ro, 0x0, false, .now, false⟩, ⟨15, 0, .ro, 0x0, true, .now, false⟩]⟩,
  -- CHAN.SCRUB_CTL (R372)
  ⟨0x40, 1, 0, [⟨31, 31, .wo, 0x0, false, .now, true⟩, ⟨8, 8, .rw, 0x0, true, .tick, true⟩, ⟨7, 0, .rw, 0x1, true, .tick, true⟩]⟩,
  -- CHAN.PATROL_STAT (R373)
  ⟨0x44, 1, 0, [⟨31, 27, .ro, 0x0, false, .now, false⟩, ⟨26, 0, .ro, 0x0, false, .now, false⟩]⟩,
  -- CHAN.SURVEY_BASE (R374)
  ⟨0x48, 1, 0, [⟨26, 0, .rw, 0x0, false, .now, true⟩]⟩,
  -- CHAN.SURVEY_SIZE (R374)
  ⟨0x4C, 1, 0, [⟨27, 0, .rw, 0x0, false, .now, true⟩]⟩,
  -- CHAN.SURVEY_ERR (R377)
  ⟨0x50, 1, 0, [⟨31, 16, .ro, 0x0, false, .now, false⟩, ⟨15, 0, .ro, 0x0, false, .now, false⟩]⟩,
  -- CHAN.SURVEY_STAT (R375)
  ⟨0x54, 1, 0, [⟨12, 12, .ro, 0x0, false, .now, false⟩, ⟨11, 10, .ro, 0x0, false, .now, false⟩, ⟨9, 9, .rsq, 0x0, false, .now, true⟩, ⟨8, 8, .rsq, 0x0, false, .now, true⟩, ⟨7, 0, .rsq, 0x0, false, .now, true⟩]⟩,
  -- CHAN.SURVEY_LINES_LO (R376)
  ⟨0x58, 1, 0, [⟨31, 0, .ro, 0x0, false, .now, false⟩]⟩,
  -- CHAN.SURVEY_LINES_HI (R376)
  ⟨0x5C, 1, 0, [⟨1, 0, .ro, 0x0, false, .now, false⟩]⟩]

/-- Registers of CHAN (part 2), in offset order. -/
def regsChan1 : List RegDesc := [
  -- CHAN.SURVEY_FIRST_LO (R376)
  ⟨0x60, 1, 0, [⟨31, 6, .ro, 0x0, false, .now, true⟩]⟩,
  -- CHAN.SURVEY_FIRST_HI (R376)
  ⟨0x64, 1, 0, [⟨31, 31, .ro, 0x0, false, .now, true⟩, ⟨19, 0, .ro, 0x0, false, .now, true⟩]⟩,
  -- CHAN.SURVEY_LAST_LO (R376)
  ⟨0x68, 1, 0, [⟨31, 6, .ro, 0x0, false, .now, true⟩]⟩,
  -- CHAN.SURVEY_LAST_HI (R376)
  ⟨0x6C, 1, 0, [⟨31, 31, .ro, 0x0, false, .now, true⟩, ⟨19, 0, .ro, 0x0, false, .now, true⟩]⟩,
  -- CHAN.ERR_CNT (R377)
  ⟨0x70, 1, 0, [⟨31, 16, .rwh, 0x0, false, .now, true⟩, ⟨15, 0, .rwh, 0x0, false, .now, true⟩]⟩,
  -- CHAN.ERR_EVT (R378)
  ⟨0x74, 1, 0, [⟨14, 14, .rsq, 0x0, false, .now, true⟩, ⟨13, 13, .rsq, 0x0, false, .now, true⟩, ⟨12, 12, .rsq, 0x0, false, .now, true⟩, ⟨11, 11, .rsq, 0x0, false, .now, true⟩, ⟨10, 10, .rsq, 0x0, false, .now, true⟩, ⟨9, 9, .rsq, 0x0, false, .now, true⟩, ⟨8, 8, .rsq, 0x0, false, .now, true⟩, ⟨7, 0, .rsq, 0x0, false, .now, true⟩]⟩,
  -- CHAN.PPR_CTL (R379)
  ⟨0x78, 1, 0, [⟨31, 31, .wo, 0x0, false, .now, true⟩, ⟨5, 0, .rw, 0x0, false, .now, true⟩]⟩,
  -- CHAN.PPR_STAT (R379)
  ⟨0x7C, 1, 0, [⟨31, 28, .ro, 0x0, true, .now, false⟩, ⟨27, 25, .ro, 0x0, false, .now, false⟩, ⟨24, 24, .ro, 0x0, false, .now, false⟩, ⟨23, 23, .ro, 0x0, false, .now, false⟩, ⟨5, 0, .ro, 0x0, false, .now, false⟩]⟩,
  -- CHAN.RETIRE_PA_LO (R380)
  ⟨0x80, 1, 0, [⟨31, 12, .ro, 0x0, false, .now, true⟩, ⟨7, 0, .ro, 0x0, false, .now, false⟩]⟩,
  -- CHAN.RETIRE_PA_HI (R380)
  ⟨0x84, 1, 0, [⟨19, 0, .ro, 0x0, false, .now, true⟩]⟩,
  -- CHAN.PMC_SEL (R563)
  ⟨0x100, 8, 4, [⟨31, 31, .rw, 0x0, true, .tick, true⟩, ⟨30, 30, .rw, 0x0, true, .tick, true⟩, ⟨29, 24, .rw, 0x0, true, .tick, true⟩, ⟨7, 0, .rw, 0x0, true, .tick, true⟩]⟩,
  -- CHAN.APPLY_STATUS (R534)
  ⟨0xFFF0, 1, 0, [⟨9, 9, .ro, 0x1, false, .now, false⟩, ⟨8, 8, .ro, 0x0, false, .now, false⟩, ⟨7, 0, .ro, 0x0, false, .now, false⟩]⟩]

/-- Registers of CHAN. -/
def regsChan : List RegDesc := regsChan0 ++ regsChan1

/-- Registers of STACK (part 1), in offset order. -/
def regsStack0 : List RegDesc := [
  -- STACK.STAT (R334)
  ⟨0x0, 1, 0, [⟨31, 28, .ro, 0x0, false, .now, false⟩, ⟨27, 27, .ro, 0x0, false, .now, false⟩, ⟨15, 8, .ro, 0x0, false, .now, false⟩]⟩,
  -- STACK.EVT (R335)
  ⟨0x4, 1, 0, [⟨13, 13, .rsq, 0x0, false, .now, true⟩, ⟨12, 12, .rsq, 0x0, false, .now, true⟩, ⟨11, 11, .rsq, 0x0, false, .now, true⟩, ⟨10, 10, .rsq, 0x0, false, .now, true⟩, ⟨9, 9, .rsq, 0x0, false, .now, true⟩, ⟨8, 8, .rsq, 0x0, false, .now, true⟩, ⟨7, 0, .rsq, 0x0, false, .now, true⟩]⟩,
  -- STACK.TEST_CTL (R336)
  ⟨0x8, 1, 0, [⟨31, 31, .wo, 0x0, false, .now, true⟩]⟩,
  -- STACK.TEST_RES (R337)
  ⟨0xC, 1, 0, [⟨31, 0, .ro, 0x0, false, .now, false⟩]⟩,
  -- STACK.SCRUB_CTL (R372)
  ⟨0x40, 1, 0, [⟨31, 31, .wo, 0x0, false, .now, true⟩, ⟨8, 8, .rw, 0x0, true, .tick, true⟩, ⟨7, 0, .rw, 0x4, true, .tick, true⟩]⟩,
  -- STACK.PATROL_STAT (R373)
  ⟨0x44, 1, 0, [⟨31, 27, .ro, 0x0, false, .now, false⟩, ⟨26, 0, .ro, 0x0, false, .now, false⟩]⟩,
  -- STACK.SURVEY_BASE (R374)
  ⟨0x48, 1, 0, [⟨26, 0, .rw, 0x0, false, .now, true⟩]⟩,
  -- STACK.SURVEY_SIZE (R374)
  ⟨0x4C, 1, 0, [⟨27, 0, .rw, 0x0, false, .now, true⟩]⟩,
  -- STACK.SURVEY_ERR (R377)
  ⟨0x50, 1, 0, [⟨31, 16, .ro, 0x0, false, .now, false⟩, ⟨15, 0, .ro, 0x0, false, .now, false⟩]⟩,
  -- STACK.SURVEY_STAT (R375)
  ⟨0x54, 1, 0, [⟨12, 12, .ro, 0x0, false, .now, false⟩, ⟨11, 10, .ro, 0x0, false, .now, false⟩, ⟨9, 9, .rsq, 0x0, false, .now, true⟩, ⟨8, 8, .rsq, 0x0, false, .now, true⟩, ⟨7, 0, .rsq, 0x0, false, .now, true⟩]⟩,
  -- STACK.SURVEY_LINES_LO (R376)
  ⟨0x58, 1, 0, [⟨31, 0, .ro, 0x0, false, .now, false⟩]⟩,
  -- STACK.SURVEY_LINES_HI (R376)
  ⟨0x5C, 1, 0, [⟨1, 0, .ro, 0x0, false, .now, false⟩]⟩,
  -- STACK.SURVEY_FIRST_LO (R376)
  ⟨0x60, 1, 0, [⟨24, 0, .ro, 0x0, false, .now, true⟩]⟩,
  -- STACK.SURVEY_FIRST_HI (R376)
  ⟨0x64, 1, 0, [⟨31, 31, .ro, 0x0, false, .now, true⟩]⟩,
  -- STACK.SURVEY_LAST_LO (R376)
  ⟨0x68, 1, 0, [⟨24, 0, .ro, 0x0, false, .now, true⟩]⟩,
  -- STACK.SURVEY_LAST_HI (R376)
  ⟨0x6C, 1, 0, [⟨31, 31, .ro, 0x0, false, .now, true⟩]⟩]

/-- Registers of STACK (part 2), in offset order. -/
def regsStack1 : List RegDesc := [
  -- STACK.ERR_CNT (R377)
  ⟨0x70, 1, 0, [⟨31, 16, .rwh, 0x0, false, .now, true⟩, ⟨15, 0, .rwh, 0x0, false, .now, true⟩]⟩,
  -- STACK.ERR_EVT (R378)
  ⟨0x74, 1, 0, [⟨14, 14, .rsq, 0x0, false, .now, true⟩, ⟨8, 8, .rsq, 0x0, false, .now, true⟩, ⟨7, 0, .rsq, 0x0, false, .now, true⟩]⟩,
  -- STACK.PMC_SEL (R563)
  ⟨0x100, 8, 4, [⟨31, 31, .rw, 0x0, true, .tick, true⟩, ⟨30, 30, .rw, 0x0, true, .tick, true⟩, ⟨29, 24, .rw, 0x0, true, .tick, true⟩, ⟨7, 0, .rw, 0x0, true, .tick, true⟩]⟩,
  -- STACK.APPLY_STATUS (R534)
  ⟨0xFFF0, 1, 0, [⟨9, 9, .ro, 0x1, false, .now, false⟩, ⟨8, 8, .ro, 0x0, false, .now, false⟩, ⟨7, 0, .ro, 0x0, false, .now, false⟩]⟩]

/-- Registers of STACK. -/
def regsStack : List RegDesc := regsStack0 ++ regsStack1

/-- The registers of a block, offsets relative to the block or instance base (R525). -/
def Blk.regs (b : Blk) : List RegDesc :=
  match b with
  | .glb => regsGlb
  | .band => regsBand
  | .lodge => regsLodge
  | .ice => regsIce
  | .blv => regsBlv
  | .reg => regsReg
  | .pav => regsPav
  | .port => regsPort
  | .chan => regsChan
  | .stack => regsStack
  | .raw => regsRaw

namespace R

/-- GLB.ID (R526). -/
abbrev glbId : Nat := 0x0
/-- GLB.CAP (R526). -/
abbrev glbCap : Nat := 0x4
/-- GLB.PRIV_PORTS (R527). -/
abbrev glbPrivPorts (j : Nat) : Nat := 0x10 + 4 * j
/-- GLB.PRIV_CTL (R527). -/
abbrev glbPrivCtl : Nat := 0x1C
/-- GLB.ACCESS_EVT (R528). -/
abbrev glbAccessEvt : Nat := 0x20
/-- GLB.ACCESS_INFO (R528). -/
abbrev glbAccessInfo : Nat := 0x24
/-- GLB.CFG_REJECT_EVT (R529). -/
abbrev glbCfgRejectEvt : Nat := 0x28
/-- GLB.CFG_REJECT_INFO (R529). -/
abbrev glbCfgRejectInfo : Nat := 0x2C
/-- GLB.APPLY_PEND (R530). -/
abbrev glbApplyPend : Nat := 0x30
/-- GLB.START_EVT (R530). -/
abbrev glbStartEvt : Nat := 0x34
/-- GLB.INT_CTL (R531). -/
abbrev glbIntCtl : Nat := 0x38
/-- GLB.TICK_NUM (R530). -/
abbrev glbTickNum : Nat := 0x3C
/-- GLB.INT_LEVEL_LO (R531). -/
abbrev glbIntLevelLo : Nat := 0x40
/-- GLB.INT_LEVEL_HI (R531). -/
abbrev glbIntLevelHi : Nat := 0x44
/-- GLB.CSR_WIN (R532). -/
abbrev glbCsrWin : Nat := 0x48
/-- GLB.INT_ROUTE (R533). -/
abbrev glbIntRoute (j : Nat) : Nat := 0x100 + 4 * j
/-- GLB.IL_FOLD (R50). -/
abbrev glbIlFold (j : Nat) : Nat := 0x400 + 4 * j
/-- GLB.IL_MAP_LO (R51). -/
abbrev glbIlMapLo : Nat := 0x440
/-- GLB.IL_MAP_HI (R51). -/
abbrev glbIlMapHi : Nat := 0x444
/-- GLB.PAV_FENCE (R52). -/
abbrev glbPavFence : Nat := 0x448
/-- GLB.IL_STAT (R53). -/
abbrev glbIlStat : Nat := 0x44C
/-- GLB.COH_CTL (R156). -/
abbrev glbCohCtl : Nat := 0x460
/-- GLB.IO_CTL (R186). -/
abbrev glbIoCtl : Nat := 0x464
/-- GLB.HOME_BASE (R154). -/
abbrev glbHomeBase (j : Nat) : Nat := 0x480 + 8 * j
/-- GLB.HOME_SIZE (R155). -/
abbrev glbHomeSize (j : Nat) : Nat := 0x484 + 8 * j
/-- GLB.IOWIN_BASE (R187). -/
abbrev glbIowinBase (j : Nat) : Nat := 0x500 + 8 * j
/-- GLB.IOWIN_CTL (R188). -/
abbrev glbIowinCtl (j : Nat) : Nat := 0x504 + 8 * j
/-- GLB.PLOT_PF (R226). -/
abbrev glbPlotPf (j : Nat) : Nat := 0x600 + 4 * j
/-- GLB.HC_CTL (R262). -/
abbrev glbHcCtl : Nat := 0x700
/-- GLB.HC_STAT (R263). -/
abbrev glbHcStat : Nat := 0x704
/-- GLB.HC_MOP_BASE_LO (R264). -/
abbrev glbHcMopBaseLo : Nat := 0x710
/-- GLB.HC_MOP_BASE_HI (R264). -/
abbrev glbHcMopBaseHi : Nat := 0x714
/-- GLB.HC_MOP_SIZE_LO (R265). -/
abbrev glbHcMopSizeLo : Nat := 0x718
/-- GLB.HC_MOP_SIZE_HI (R265). -/
abbrev glbHcMopSizeHi : Nat := 0x71C
/-- GLB.HC_MOP_SETWAY (R266). -/
abbrev glbHcMopSetway : Nat := 0x720
/-- GLB.HC_MOP_WAYS (R267). -/
abbrev glbHcMopWays : Nat := 0x724
/-- GLB.HC_MOP_CTL (R268). -/
abbrev glbHcMopCtl : Nat := 0x728
/-- GLB.HC_MOP_STAT (R269). -/
abbrev glbHcMopStat : Nat := 0x72C
/-- GLB.HC_MOP_WB (R270). -/
abbrev glbHcMopWb : Nat := 0x730
/-- GLB.HC_MOP_MISC (R270). -/
abbrev glbHcMopMisc : Nat := 0x734
/-- GLB.PLACE_CMD (R271). -/
abbrev glbPlaceCmd : Nat := 0x740
/-- GLB.PLACE_MODE (R272). -/
abbrev glbPlaceMode : Nat := 0x744
/-- GLB.PLACE_STAT (R273). -/
abbrev glbPlaceStat : Nat := 0x748
/-- GLB.BOOT_WIN (R274). -/
abbrev glbBootWin : Nat := 0x74C
/-- GLB.MEM_MAP (R324). -/
abbrev glbMemMap : Nat := 0x760
/-- GLB.MEM_PIVOT (R325). -/
abbrev glbMemPivot : Nat := 0x764
/-- GLB.FATAL_STAT (R367). -/
abbrev glbFatalStat : Nat := 0x780
/-- GLB.START_CTL (R434). -/
abbrev glbStartCtl : Nat := 0x800
/-- GLB.START_STAT (R435). -/
abbrev glbStartStat : Nat := 0x804
/-- GLB.PWR_CMD (R436). -/
abbrev glbPwrCmd : Nat := 0x808
/-- GLB.PWR_STAT (R437). -/
abbrev glbPwrStat : Nat := 0x80C
/-- GLB.PWR_EVT (R438). -/
abbrev glbPwrEvt : Nat := 0x810
/-- GLB.PWR_CFG (R439). -/
abbrev glbPwrCfg : Nat := 0x814
/-- GLB.PAV_GATE (R439). -/
abbrev glbPavGate : Nat := 0x818
/-- GLB.APPLY_STATUS (R534). -/
abbrev glbApplyStatus : Nat := 0xFFF0
/-- RAW.RAW_CTL (R368). -/
abbrev rawRawCtl : Nat := 0x1000000
/-- RAW.RAW_STAT (R370). -/
abbrev rawRawStat : Nat := 0x1000004
/-- RAW.RAW_ADDR_LO (R369). -/
abbrev rawRawAddrLo : Nat := 0x1000008
/-- RAW.RAW_ADDR_HI (R369). -/
abbrev rawRawAddrHi : Nat := 0x100000C
/-- RAW.RAW_DATA (R371). -/
abbrev rawRawData (j : Nat) : Nat := 0x1000040 + 4 * j
/-- RAW.RAW_CHECK (R371). -/
abbrev rawRawCheck (j : Nat) : Nat := 0x1000080 + 4 * j
/-- BAND.TICK_CFG (R54). -/
abbrev bandTickCfg : Nat := 0x10000
/-- BAND.SVC_BUDGET (R55). -/
abbrev bandSvcBudget : Nat := 0x10004
/-- BAND.SVC_STAT (R56). -/
abbrev bandSvcStat : Nat := 0x10008
/-- BAND.TIME_CTL (R497). -/
abbrev bandTimeCtl : Nat := 0x10010
/-- BAND.TIME_STAT (R498). -/
abbrev bandTimeStat : Nat := 0x10014
/-- BAND.TIME_NS (R499). -/
abbrev bandTimeNs : Nat := 0x10018
/-- BAND.TIME_SEC_LO (R499). -/
abbrev bandTimeSecLo : Nat := 0x1001C
/-- BAND.TIME_SEC_HI (R499). -/
abbrev bandTimeSecHi : Nat := 0x10020
/-- BAND.TIME_SET_NS (R499). -/
abbrev bandTimeSetNs : Nat := 0x10024
/-- BAND.TIME_SET_SEC_LO (R499). -/
abbrev bandTimeSetSecLo : Nat := 0x10028
/-- BAND.TIME_SET_SEC_HI (R499). -/
abbrev bandTimeSetSecHi : Nat := 0x1002C
/-- BAND.TIME_ADJ (R500). -/
abbrev bandTimeAdj : Nat := 0x10030
/-- BAND.TIME_CMD (R500). -/
abbrev bandTimeCmd : Nat := 0x10034
/-- BAND.PPS_CFG (R500). -/
abbrev bandPpsCfg : Nat := 0x10038
/-- BAND.TIME_EVT (R498). -/
abbrev bandTimeEvt : Nat := 0x1003C
/-- BAND.APPLY_STATUS (R534). -/
abbrev bandApplyStatus : Nat := 0x1FFF0
/-- LODGE.MBX_CMD (R472). -/
abbrev lodgeMbxCmd : Nat := 0x20000
/-- LODGE.MBX_ARG (R472). -/
abbrev lodgeMbxArg : Nat := 0x20004
/-- LODGE.MBX_STAT (R473). -/
abbrev lodgeMbxStat : Nat := 0x20008
/-- LODGE.EVQ_STAT (R474). -/
abbrev lodgeEvqStat : Nat := 0x20010
/-- LODGE.NET_STAT (R474). -/
abbrev lodgeNetStat : Nat := 0x20014
/-- LODGE.MBX_DATA (R473). -/
abbrev lodgeMbxData (j : Nat) : Nat := 0x20100 + 4 * j
/-- LODGE.AGE_CTL (R503). -/
abbrev lodgeAgeCtl : Nat := 0x20200
/-- LODGE.AGE_STAT (R503). -/
abbrev lodgeAgeStat : Nat := 0x20204
/-- LODGE.AGE_ADV (R503). -/
abbrev lodgeAgeAdv : Nat := 0x20208
/-- LODGE.AGE_EVT (R503). -/
abbrev lodgeAgeEvt : Nat := 0x2020C
/-- LODGE.APPLY_STATUS (R534). -/
abbrev lodgeApplyStatus : Nat := 0x2FFF0
/-- ICE.STAT (R475). -/
abbrev iceStat : Nat := 0x30000
/-- ICE.SEQ (R475). -/
abbrev iceSeq : Nat := 0x30004
/-- ICE.BOOT_STAT (R475). -/
abbrev iceBootStat : Nat := 0x30008
/-- ICE.EVT (R476). -/
abbrev iceEvt : Nat := 0x3000C
/-- ICE.APPLY_STATUS (R534). -/
abbrev iceApplyStatus : Nat := 0x3FFF0
/-- REG.PLOT_LAT (R404). -/
abbrev regPlotLat (j : Nat) : Nat := 0x50000 + 32 * j
/-- REG.PLOT_GBW (R405). -/
abbrev regPlotGbw (j : Nat) : Nat := 0x50004 + 32 * j
/-- REG.PLOT_CACHE (R406). -/
abbrev regPlotCache (j : Nat) : Nat := 0x50008 + 32 * j
/-- REG.PLOT_SHARE (R406). -/
abbrev regPlotShare (j : Nat) : Nat := 0x5000C + 32 * j
/-- REG.PLOT_EFF (R405). -/
abbrev regPlotEff (j : Nat) : Nat := 0x50010 + 32 * j
/-- REG.PLOT_RD (R407). -/
abbrev regPlotRd (j : Nat) : Nat := 0x50014 + 32 * j
/-- REG.PLOT_WR (R407). -/
abbrev regPlotWr (j : Nat) : Nat := 0x50018 + 32 * j
/-- REG.PLOT_LSTAT (R407). -/
abbrev regPlotLstat (j : Nat) : Nat := 0x5001C + 32 * j
/-- REG.DELIV (R408). -/
abbrev regDeliv : Nat := 0x50800
/-- REG.OVC (R408). -/
abbrev regOvc : Nat := 0x50804
/-- REG.EVT (R408). -/
abbrev regEvt : Nat := 0x50808
/-- REG.MQ_MARK (R409). -/
abbrev regMqMark : Nat := 0x5080C
/-- REG.THR_CTL (R409). -/
abbrev regThrCtl : Nat := 0x50810
/-- REG.THR_STAT (R409). -/
abbrev regThrStat : Nat := 0x50814
/-- REG.APPLY_STATUS (R534). -/
abbrev regApplyStatus : Nat := 0x5FFF0
/-- BLV.CNT_CTL (R559). -/
abbrev blvCntCtl : Nat := 0x40000
/-- BLV.SNAP_CTL (R559). -/
abbrev blvSnapCtl : Nat := 0x40004
/-- BLV.SNAP_STAT (R560). -/
abbrev blvSnapStat : Nat := 0x40008
/-- BLV.SNAP_TICK (R560). -/
abbrev blvSnapTick : Nat := 0x4000C
/-- BLV.EVT (R560). -/
abbrev blvEvt : Nat := 0x40010
/-- BLV.GRP_CTL (R561). -/
abbrev blvGrpCtl : Nat := 0x40020
/-- BLV.GRP_SEL (R561). -/
abbrev blvGrpSel (j : Nat) : Nat := 0x40028 + 4 * j
/-- BLV.GRP_VAL_LO (R561). -/
abbrev blvGrpValLo (j : Nat) : Nat := 0x40040 + 8 * j
/-- BLV.GRP_VAL_HI (R561). -/
abbrev blvGrpValHi (j : Nat) : Nat := 0x40044 + 8 * j
/-- BLV.GSEL (R563). -/
abbrev blvGsel (j : Nat) : Nat := 0x40080 + 4 * j
/-- BLV.TRC_CTL (R565). -/
abbrev blvTrcCtl : Nat := 0x40100
/-- BLV.TRC_CFG (R565). -/
abbrev blvTrcCfg : Nat := 0x40104
/-- BLV.TRC_FILT (R566). -/
abbrev blvTrcFilt : Nat := 0x40108
/-- BLV.TRC_ADDR_LO (R566). -/
abbrev blvTrcAddrLo : Nat := 0x40110
/-- BLV.TRC_ADDR_HI (R566). -/
abbrev blvTrcAddrHi : Nat := 0x40114
/-- BLV.TRC_AMASK_LO (R566). -/
abbrev blvTrcAmaskLo : Nat := 0x40118
/-- BLV.TRC_AMASK_HI (R566). -/
abbrev blvTrcAmaskHi : Nat := 0x4011C
/-- BLV.TRC_STAT (R567). -/
abbrev blvTrcStat : Nat := 0x40120
/-- BLV.TRC_LOST (R567). -/
abbrev blvTrcLost : Nat := 0x40124
/-- BLV.TRC_PTR (R568). -/
abbrev blvTrcPtr : Nat := 0x40128
/-- BLV.TRC_CMD (R568). -/
abbrev blvTrcCmd : Nat := 0x4012C
/-- BLV.TRC_POP (R568). -/
abbrev blvTrcPop (j : Nat) : Nat := 0x40130 + 4 * j
/-- BLV.TRC_DMA_BASE_LO (R569). -/
abbrev blvTrcDmaBaseLo : Nat := 0x40140
/-- BLV.TRC_DMA_BASE_HI (R569). -/
abbrev blvTrcDmaBaseHi : Nat := 0x40144
/-- BLV.TRC_DMA_CFG (R569). -/
abbrev blvTrcDmaCfg : Nat := 0x40148
/-- BLV.TRC_DMA_HEAD (R569). -/
abbrev blvTrcDmaHead : Nat := 0x4014C
/-- BLV.TRC_DMA_TAIL (R569). -/
abbrev blvTrcDmaTail : Nat := 0x40150
/-- BLV.USER_VIS (R564). -/
abbrev blvUserVis (j : Nat) : Nat := 0x40400 + 4 * j
/-- BLV.IMG_LO (R562). -/
abbrev blvImgLo (j : Nat) : Nat := 0x41000 + 8 * j
/-- BLV.IMG_HI (R562). -/
abbrev blvImgHi (j : Nat) : Nat := 0x41004 + 8 * j
/-- BLV.SNAP_LO (R562). -/
abbrev blvSnapLo (j : Nat) : Nat := 0x43000 + 8 * j
/-- BLV.SNAP_HI (R562). -/
abbrev blvSnapHi (j : Nat) : Nat := 0x43004 + 8 * j
/-- BLV.APPLY_STATUS (R534). -/
abbrev blvApplyStatus : Nat := 0x4FFF0
/-- PAV.DIR_STAT (R159). -/
abbrev pavDirStat (i : Nat) : Nat := 0x100100 + 0x10000 * i
/-- PAV.DIR_ERR (R160). -/
abbrev pavDirErr (i : Nat) : Nat := 0x100104 + 0x10000 * i
/-- PAV.HC_STAT (R227). -/
abbrev pavHcStat (i : Nat) : Nat := 0x100140 + 0x10000 * i
/-- PAV.HC_ERR (R228). -/
abbrev pavHcErr (i : Nat) : Nat := 0x100144 + 0x10000 * i
/-- PAV.LOCK_MASK (R275). -/
abbrev pavLockMask (i : Nat) : Nat := 0x100148 + 0x10000 * i
/-- PAV.LOCK_STAT (R276). -/
abbrev pavLockStat (i : Nat) : Nat := 0x10014C + 0x10000 * i
/-- PAV.PLACE_EVT (R277). -/
abbrev pavPlaceEvt (i : Nat) : Nat := 0x100150 + 0x10000 * i
/-- PAV.ERR_STAT (R382). -/
abbrev pavErrStat (i : Nat) : Nat := 0x100180 + 0x10000 * i
/-- PAV.ERR_CNT (R382). -/
abbrev pavErrCnt (i : Nat) : Nat := 0x100184 + 0x10000 * i
/-- PAV.PLOT_OCC (R410). -/
abbrev pavPlotOcc (i : Nat) (j : Nat) : Nat := 0x100200 + 0x10000 * i + 4 * j
/-- PAV.PLOT_LAT (R410). -/
abbrev pavPlotLat (i : Nat) (j : Nat) : Nat := 0x100300 + 0x10000 * i + 4 * j
/-- PAV.AGE (R502). -/
abbrev pavAge (i : Nat) : Nat := 0x100400 + 0x10000 * i
/-- PAV.PMC_SEL (R563). -/
abbrev pavPmcSel (i : Nat) (j : Nat) : Nat := 0x100500 + 0x10000 * i + 4 * j
/-- PAV.APPLY_STATUS (R534). -/
abbrev pavApplyStatus (i : Nat) : Nat := 0x10FFF0 + 0x10000 * i
/-- PORT.LINK_CTL (R97). -/
abbrev portLinkCtl (i : Nat) : Nat := 0x200000 + 0x4000 * i
/-- PORT.LINK_STAT (R98). -/
abbrev portLinkStat (i : Nat) : Nat := 0x200004 + 0x4000 * i
/-- PORT.CRED_CFG (R99). -/
abbrev portCredCfg (i : Nat) : Nat := 0x200008 + 0x4000 * i
/-- PORT.LINK_EVT (R100). -/
abbrev portLinkEvt (i : Nat) : Nat := 0x20000C + 0x4000 * i
/-- PORT.LINK_DELAY (R101). -/
abbrev portLinkDelay (i : Nat) : Nat := 0x200010 + 0x4000 * i
/-- PORT.LINK_ERR (R102). -/
abbrev portLinkErr (i : Nat) : Nat := 0x200014 + 0x4000 * i
/-- PORT.COH_CTL (R157). -/
abbrev portCohCtl (i : Nat) : Nat := 0x200040 + 0x4000 * i
/-- PORT.COH_EVT (R158). -/
abbrev portCohEvt (i : Nat) : Nat := 0x200044 + 0x4000 * i
/-- PORT.IO_CTL (R189). -/
abbrev portIoCtl (i : Nat) : Nat := 0x200080 + 0x4000 * i
/-- PORT.IO_EVT (R190). -/
abbrev portIoEvt (i : Nat) : Nat := 0x200084 + 0x4000 * i
/-- PORT.IO_ERR (R191). -/
abbrev portIoErr (i : Nat) : Nat := 0x200088 + 0x4000 * i
/-- PORT.IO_STAT (R192). -/
abbrev portIoStat (i : Nat) : Nat := 0x20008C + 0x4000 * i
/-- PORT.PLOT_CTL (R410). -/
abbrev portPlotCtl (i : Nat) : Nat := 0x2000C0 + 0x4000 * i
/-- PORT.THR_STAT (R410). -/
abbrev portThrStat (i : Nat) : Nat := 0x2000C4 + 0x4000 * i
/-- PORT.SVC_CTL (R440). -/
abbrev portSvcCtl (i : Nat) : Nat := 0x200100 + 0x4000 * i
/-- PORT.SVC_STAT (R441). -/
abbrev portSvcStat (i : Nat) : Nat := 0x200104 + 0x4000 * i
/-- PORT.TIME_CTL (R501). -/
abbrev portTimeCtl (i : Nat) : Nat := 0x200140 + 0x4000 * i
/-- PORT.EYE (R501). -/
abbrev portEye (i : Nat) : Nat := 0x200144 + 0x4000 * i
/-- PORT.PMC_SEL (R563). -/
abbrev portPmcSel (i : Nat) (j : Nat) : Nat := 0x200180 + 0x4000 * i + 4 * j
/-- PORT.PMC_CTL (R563). -/
abbrev portPmcCtl (i : Nat) : Nat := 0x2001C0 + 0x4000 * i
/-- PORT.APPLY_STATUS (R534). -/
abbrev portApplyStatus (i : Nat) : Nat := 0x203FF0 + 0x4000 * i
/-- CHAN.CFG (R326). -/
abbrev chanCfg (i : Nat) : Nat := 0x400000 + 0x10000 * i
/-- CHAN.SCHED (R327). -/
abbrev chanSched (i : Nat) : Nat := 0x400004 + 0x10000 * i
/-- CHAN.STAT (R328). -/
abbrev chanStat (i : Nat) : Nat := 0x400008 + 0x10000 * i
/-- CHAN.EVT (R329). -/
abbrev chanEvt (i : Nat) : Nat := 0x40000C + 0x10000 * i
/-- CHAN.FREQ_CMD (R330). -/
abbrev chanFreqCmd (i : Nat) : Nat := 0x400010 + 0x10000 * i
/-- CHAN.Q_STAT (R331). -/
abbrev chanQStat (i : Nat) : Nat := 0x400014 + 0x10000 * i
/-- CHAN.INIT_STAT (R332). -/
abbrev chanInitStat (i : Nat) : Nat := 0x400018 + 0x10000 * i
/-- CHAN.TRAIN_STAT (R333). -/
abbrev chanTrainStat (i : Nat) : Nat := 0x40001C + 0x10000 * i
/-- CHAN.SCRUB_CTL (R372). -/
abbrev chanScrubCtl (i : Nat) : Nat := 0x400040 + 0x10000 * i
/-- CHAN.PATROL_STAT (R373). -/
abbrev chanPatrolStat (i : Nat) : Nat := 0x400044 + 0x10000 * i
/-- CHAN.SURVEY_BASE (R374). -/
abbrev chanSurveyBase (i : Nat) : Nat := 0x400048 + 0x10000 * i
/-- CHAN.SURVEY_SIZE (R374). -/
abbrev chanSurveySize (i : Nat) : Nat := 0x40004C + 0x10000 * i
/-- CHAN.SURVEY_ERR (R377). -/
abbrev chanSurveyErr (i : Nat) : Nat := 0x400050 + 0x10000 * i
/-- CHAN.SURVEY_STAT (R375). -/
abbrev chanSurveyStat (i : Nat) : Nat := 0x400054 + 0x10000 * i
/-- CHAN.SURVEY_LINES_LO (R376). -/
abbrev chanSurveyLinesLo (i : Nat) : Nat := 0x400058 + 0x10000 * i
/-- CHAN.SURVEY_LINES_HI (R376). -/
abbrev chanSurveyLinesHi (i : Nat) : Nat := 0x40005C + 0x10000 * i
/-- CHAN.SURVEY_FIRST_LO (R376). -/
abbrev chanSurveyFirstLo (i : Nat) : Nat := 0x400060 + 0x10000 * i
/-- CHAN.SURVEY_FIRST_HI (R376). -/
abbrev chanSurveyFirstHi (i : Nat) : Nat := 0x400064 + 0x10000 * i
/-- CHAN.SURVEY_LAST_LO (R376). -/
abbrev chanSurveyLastLo (i : Nat) : Nat := 0x400068 + 0x10000 * i
/-- CHAN.SURVEY_LAST_HI (R376). -/
abbrev chanSurveyLastHi (i : Nat) : Nat := 0x40006C + 0x10000 * i
/-- CHAN.ERR_CNT (R377). -/
abbrev chanErrCnt (i : Nat) : Nat := 0x400070 + 0x10000 * i
/-- CHAN.ERR_EVT (R378). -/
abbrev chanErrEvt (i : Nat) : Nat := 0x400074 + 0x10000 * i
/-- CHAN.PPR_CTL (R379). -/
abbrev chanPprCtl (i : Nat) : Nat := 0x400078 + 0x10000 * i
/-- CHAN.PPR_STAT (R379). -/
abbrev chanPprStat (i : Nat) : Nat := 0x40007C + 0x10000 * i
/-- CHAN.RETIRE_PA_LO (R380). -/
abbrev chanRetirePaLo (i : Nat) : Nat := 0x400080 + 0x10000 * i
/-- CHAN.RETIRE_PA_HI (R380). -/
abbrev chanRetirePaHi (i : Nat) : Nat := 0x400084 + 0x10000 * i
/-- CHAN.PMC_SEL (R563). -/
abbrev chanPmcSel (i : Nat) (j : Nat) : Nat := 0x400100 + 0x10000 * i + 4 * j
/-- CHAN.APPLY_STATUS (R534). -/
abbrev chanApplyStatus (i : Nat) : Nat := 0x40FFF0 + 0x10000 * i
/-- STACK.STAT (R334). -/
abbrev stackStat (i : Nat) : Nat := 0x500000 + 0x10000 * i
/-- STACK.EVT (R335). -/
abbrev stackEvt (i : Nat) : Nat := 0x500004 + 0x10000 * i
/-- STACK.TEST_CTL (R336). -/
abbrev stackTestCtl (i : Nat) : Nat := 0x500008 + 0x10000 * i
/-- STACK.TEST_RES (R337). -/
abbrev stackTestRes (i : Nat) : Nat := 0x50000C + 0x10000 * i
/-- STACK.SCRUB_CTL (R372). -/
abbrev stackScrubCtl (i : Nat) : Nat := 0x500040 + 0x10000 * i
/-- STACK.PATROL_STAT (R373). -/
abbrev stackPatrolStat (i : Nat) : Nat := 0x500044 + 0x10000 * i
/-- STACK.SURVEY_BASE (R374). -/
abbrev stackSurveyBase (i : Nat) : Nat := 0x500048 + 0x10000 * i
/-- STACK.SURVEY_SIZE (R374). -/
abbrev stackSurveySize (i : Nat) : Nat := 0x50004C + 0x10000 * i
/-- STACK.SURVEY_ERR (R377). -/
abbrev stackSurveyErr (i : Nat) : Nat := 0x500050 + 0x10000 * i
/-- STACK.SURVEY_STAT (R375). -/
abbrev stackSurveyStat (i : Nat) : Nat := 0x500054 + 0x10000 * i
/-- STACK.SURVEY_LINES_LO (R376). -/
abbrev stackSurveyLinesLo (i : Nat) : Nat := 0x500058 + 0x10000 * i
/-- STACK.SURVEY_LINES_HI (R376). -/
abbrev stackSurveyLinesHi (i : Nat) : Nat := 0x50005C + 0x10000 * i
/-- STACK.SURVEY_FIRST_LO (R376). -/
abbrev stackSurveyFirstLo (i : Nat) : Nat := 0x500060 + 0x10000 * i
/-- STACK.SURVEY_FIRST_HI (R376). -/
abbrev stackSurveyFirstHi (i : Nat) : Nat := 0x500064 + 0x10000 * i
/-- STACK.SURVEY_LAST_LO (R376). -/
abbrev stackSurveyLastLo (i : Nat) : Nat := 0x500068 + 0x10000 * i
/-- STACK.SURVEY_LAST_HI (R376). -/
abbrev stackSurveyLastHi (i : Nat) : Nat := 0x50006C + 0x10000 * i
/-- STACK.ERR_CNT (R377). -/
abbrev stackErrCnt (i : Nat) : Nat := 0x500070 + 0x10000 * i
/-- STACK.ERR_EVT (R378). -/
abbrev stackErrEvt (i : Nat) : Nat := 0x500074 + 0x10000 * i
/-- STACK.PMC_SEL (R563). -/
abbrev stackPmcSel (i : Nat) (j : Nat) : Nat := 0x500100 + 0x10000 * i + 4 * j
/-- STACK.APPLY_STATUS (R534). -/
abbrev stackApplyStatus (i : Nat) : Nat := 0x50FFF0 + 0x10000 * i

end R

end Sys2Proof
end

