-- ==== Sys2Proof/Machine/State.lean ====
section
/-!
DEFINITION. The state of the hub: every register, table, queue, store, mode and pin that the spec gives it, the queue of
the commands that wait, and the state after reset.
-/

namespace Sys2Proof.Machine

/-- The items that left a queue in the cc `cc`: their places are usable from the next cc (R47, R48). -/
structure Pops where
  cc : Nat := 0
  n : Nat := 0
deriving DecidableEq, Repr

/-- The items that have left in this cc. -/
def Pops.at_ (p : Pops) (now : Nat) : Nat := if p.cc = now then p.n else 0
/-- One more has left. -/
def Pops.add (p : Pops) (now : Nat) : Pops := { cc := now, n := p.at_ now + 1 }

/-! ## The agent ports (chapters 2 and 4) -/

/-- Training states of R60. -/
inductive LinkSt where
  | disabled
  | detect
  | poll
  | config
  | speed
  | eq
  | delay
  | active
  | recovery
  | lowpower
  | down
deriving DecidableEq, Repr

/-- A saved equalisation set of a port (R64, R466 type 3). -/
structure SavedEq where
  gen : Nat
  tag : BitVec 16
  settings : Nat
deriving DecidableEq, Repr

/-- A message waiting in a port's egress queue, with what its departure does: a Comp may release a TID (R142), a forward
starts its timeout (R146). -/
structure EgMsg where
  msg : Msg
  /-- the REQ TID that the message's departure releases (R142) -/
  relTid : Option (BitVec 10) := none
  /-- pavilion and table entry of a forward (R146) -/
  fwd : Option (Nat × Nat) := none
  /-- cc in which it entered the queue: it leaves in a later one (R47) -/
  at_ : Nat := 0
deriving DecidableEq, Repr

/-- The link of a port (R57 to R96). -/
structure Link where
  st : LinkSt := .detect
  /-- cc of entry to the state (limits of R60) -/
  since : Nat := 0
  gen : Nat := 0
  /-- width 0, 1, 2 or 4 lanes (R63) -/
  width : Nat := 0
  level : Nat := 0
  reversed : Bool := false
  polInv : BitVec 4 := 0
  laneFail : BitVec 4 := 0
  /-- lanes with bit and set lock in POLL (R60) -/
  locked : BitVec 4 := 0
  eqFast : Bool := false
  /-- this EQ began with a fast-load, and it runs full equalisation after the fast-load failed its eye check (R60, R64) -/
  eqLoad : Bool := false
  eqFull : Bool := false
  /-- bytes 8 to 11 of the agent's last EQ set: pre-cursor, main, post-cursor, status (R61) -/
  eqPeer : BitVec 32 := 0
  /-- training sets that the hub has sent in this state (R61, R65) -/
  setsOut : Nat := 0
  /-- target generation of this training (R62) -/
  target : Nat := 0
  /-- SPEED is returning to the previous generation after a failed EQ (R62) -/
  fallback : Bool := false
  agentGens : BitVec 3 := 0
  agentTag : BitVec 16 := 0
  /-- one-way delays in ps collected in DELAY (R65) -/
  echoes : List Nat := []
  delayPs : Nat := 0
  saved : List SavedEq := []
  /-- full equalisation results that the next commit stores (R64) -/
  eqNew : List SavedEq := []
  eqSetting : Nat := 0
  /-- sequence of the next new PROT flit, and of the last one sent (R67, R71) -/
  txSeq : Nat := 0
  txLast : Nat := 0
  /-- unacknowledged PROT flits: sequence and 112 payload bytes (R71) -/
  retry : List (Nat × BitVec 896) := []
  /-- sequences to send again (R74) -/
  replay : List Nat := []
  /-- slots of a message already started into the last PROT flit (R81) -/
  txSlots : List (BitVec 128) := []
  rxExp : Nat := 0
  /-- sequence of the last PROT flit received; none before any (R67) -/
  rxAck : Option Nat := none
  /-- discarding PROT flits until the expected one arrives (R74) -/
  discarding : Bool := false
  retryReqs : Nat := 0
  retryDue : Option Nat := none
  sendRetryReq : Bool := false
  recAttempts : Nat := 0
  /-- slots of a message received so far (R81) -/
  rxSlots : List (BitVec 128) := []
  /-- scrambler registers of the four lanes, receive and transmit (R59) -/
  scrRx : List Nat := []
  scrTx : List Nat := []
  /-- PAM4 levels that the last flit put on each logical lane, at QCL-3 (R59) -/
  pam : List (List Nat) := []
  /-- credits the hub holds, per class, and all credits the agent has granted since ACTIVE (R82, R83) -/
  cred : List Nat := [0, 0, 0, 0, 0, 0]
  credSeen : List Nat := [0, 0, 0, 0, 0, 0]
  /-- credit returns waiting for a flit, per class (R82) -/
  credRet : List Nat := [0, 0, 0, 0, 0, 0]
  /-- REQ credits granted and not yet had back (R84) -/
  reqOut : Nat := 0
  /-- REQ credits withheld by R396, by due time in cc -/
  held : List Nat := []
  credMinDone : Bool := false
  egress : List EgMsg := []
  /-- cc at which the link may send its next flit (R58) -/
  nextFlit : Nat := 0
  timeFlit : Bool := false
  /-- LINK_CTL flits to send: request, response and argument bytes (R68) -/
  ctlOut : List (Byte × Byte × BitVec 64) := []
  /-- the outstanding LINK_CTL request, repeated every 1 µs (R76) -/
  ctlReq : Option (Byte × BitVec 64 × Nat) := none
  /-- MARGIN flits still to send and to receive (R92) -/
  marginOut : Nat := 0
  marginIn : Nat := 0
  /-- flits to send before the next MARGIN flit (R92) -/
  marginGap : Nat := 0
  /-- cc since which no message waited in either direction (R91) -/
  idleSince : Nat := 0
  /-- messages accepted from intact flits and not yet taken by a message command (R73) -/
  rxq : List Msg := []
  -- service chain (R94 to R96): BUTTON has read 0 since the last press, and its 1s in a row since
  present : Bool := false
  btnRun : Nat := 0
  btnState : Bool := false
  preRun : Nat := 0
deriving DecidableEq, Repr

/-- The target of non-coherent traffic: an agent port or the service node (R173, R505). -/
inductive IoTgt where
  | port (n : PortId)
  | svc
deriving DecidableEq, Repr

/-- Arbour entry states (R176). -/
inductive ArbSt where
  | waiting
  | sent
  | acked
  | discarded
deriving DecidableEq, Repr

/-- An Arbour entry (R176): `num` is the port's arrival number. -/
structure ArbEntry where
  slot : Nat
  num : Nat
  msg : Msg
  target : IoTgt
  relaxed : Bool
  use : BitVec 4
  st : ArbSt := .waiting
  /-- it has been sent to its target -/
  wasSent : Bool := false
  /-- cc in which it entered the Arbour: it leaves in a later one (R47) -/
  at_ : Nat := 0
  /-- cc in which it became eligible: its timer's start (R178) -/
  elig : Option Nat := none
  /-- the timer runs out in this cc; an IOAck accepted in it still wins (R178) -/
  runOut : Bool := false
deriving DecidableEq, Repr

/-- A read-tracker entry (R180). -/
structure RdEntry where
  slot : Nat
  num : Nat
  msg : Msg
  target : IoTgt
  use : BitVec 4
  sent : Bool := false
  elig : Option Nat := none
  /-- the timer runs out in this cc; an IODat accepted in it still wins (R181) -/
  runOut : Bool := false
deriving DecidableEq, Repr

/-- A Fence waiting for its Comp (R168, R171). -/
structure FenceWait where
  num : Nat
  tid : BitVec 10
  pa : LineAddr
  at_ : Nat
  /-- its deadline is this cc; an IOAck accepted in it still counts (R171) -/
  runOut : Bool := false
deriving DecidableEq, Repr

/-- A message in a port's ingress queue: REQ waiting for a table entry, or NPI (R112, R169). -/
structure InMsg where
  num : Nat
  msg : Msg
  at_ : Nat
  /-- decoded target of an IORd or IOWr (R174) -/
  tgt : Option IoTgt := none
  /-- STATUS of a REQ or IORd that the port itself answers (R106, R132, R144, R173, R430); OK for a Fence (R423) -/
  loc : Option (BitVec 4) := none
deriving DecidableEq, Repr

/-- A REQ that has not reached its ordering point, or reached it at `doneAt` (R164, R165). -/
structure OpenReq where
  num : Nat
  oid : BitVec 6
  tid : BitVec 10
  /-- a WrLine, WrPart, WrStash or CMO, which a Fence waits for (R168) -/
  write : Bool
  doneAt : Option Nat := none
deriving DecidableEq, Repr

/-- Quiesce states (R441). -/
inductive QState where
  | none
  | refusing
  | sweeping
  | down
deriving DecidableEq, Repr

/-- The transaction side of a port (chapters 3 and 4, R429 to R433). -/
structure PortIo where
  enabled : Bool := false
  /-- number of the next arriving REQ, PST or NPI message -/
  nextNum : Nat := 0
  /-- number of the first message since the link last entered ACTIVE from training: older ones get no answer (R93) -/
  numUp : Nat := 0
  ingress : List InMsg := []
  opens : List OpenReq := []
  /-- TIDs in use by REQ messages (R142) -/
  tids : List (BitVec 10) := []
  /-- those of them that are reads whose data, or Comp of an Upg, has been sent: their Done releases the TID (R142) -/
  answered : List (BitVec 10) := []
  /-- the last 64 completed writes, newest first (R144) -/
  ring : List (BitVec 10 × LineAddr × BitVec 4) := []
  /-- expired stash offers, newest first, at most 16 (R131) -/
  expired : List LineAddr := []
  fences : List FenceWait := []
  loss : Bool := false
  /-- a loss of this cc, which a Comp issued in it does not report (R170) -/
  lossNow : Bool := false
  arb : List ArbEntry := []
  arbPop : Pops := {}
  arbUse : List (BitVec 4) := List.replicate 64 0
  rdt : List RdEntry := []
  rdUse : List (BitVec 4) := List.replicate 16 0
  qst : QState := .none
  /-- Writes of SVC_CTL in STANDBY, which take effect at the exit (R424). -/
  svcLate : List W32 := []
  /-- a port sweep runs (R152); SWEEP_DONE was set for it -/
  sweeping : Bool := false
  swept : Bool := false
  /-- the quiesce has had its SAFE frame, and no new agent has reached POLL (R430 step 6, R432) -/
  quiesced : Bool := false
  -- receiver margins of the last measurement, whether it was made in the current day, and the worst margins and the
  -- equalisation setting of the one before (R491, R493, R501)
  eyeH : List Nat := []
  eyeV : List Nat := []
  eyeGen : Nat := 0
  eyeNew : Bool := false
  eyePrev : Option (Nat × Nat × Nat) := none
  /-- receiver equalisation setting of the last measurement (R493) -/
  eyeEq : Nat := 0
  /-- an equalisation change that waits for the tick: setting and direction; a revert has no direction (R495) -/
  eqPend : Option (Nat × Option Nat) := none
  /-- the change in force that has not been measured: old setting, direction, old horizontal margin, cc (R495) -/
  eqChg : Option (Nat × Nat × Nat × Nat) := none
  /-- cc at which its measurement was armed (R40, R495) -/
  eqArm : Option Nat := none
  /-- days of the equalisation changes, newest first, and directions barred with the day of the revert (R493, R495) -/
  eqDays : List Nat := []
  eqBlock : List (Nat × Nat) := []
deriving DecidableEq, Repr

/-- An agent port. -/
structure Port where
  link : Link := {}
  io : PortIo := {}
deriving DecidableEq, Repr

/-! ## The pavilions (chapters 3, 5, 6, 8 and 9) -/

/-- Directory states (R108, R110). -/
inductive DirSt where
  | free
  | shared
  | exclusive
  | ownedShared
deriving DecidableEq, Repr

/-- A directory entry (R110). -/
structure DirEntry where
  tag : BitVec 34 := 0
  st : DirSt := .free
  owner : BitVec 7 := 0
  blk : Bool := false
  sharers : BitVec 96 := 0
  par : BitVec 4 := 0
deriving DecidableEq, Repr

/-- Kinds of transaction (R113): a request with its opcode, or a recall transaction with its reason. -/
inductive TKind where
  | req (op : BitVec 8)
  /-- directory-eviction recall: the request that the way is promised to (R134) -/
  | recallDir (forEntry : Nat)
  /-- port-sweep recall (R152) -/
  | recallSweep (port : Nat)
  /-- broadcast recall of a suspect, moved-share or parity-failed line (R32, R149 to R151) -/
  | recallLine (parity : Bool)
  /-- recall of every entry of a pavilion being fenced (R30) -/
  | recallFence
deriving DecidableEq, Repr

/-- Phases of a transaction (R113). -/
inductive Phase where
  | lookup
  | waitLine
  | waitSet
  | waitSector
  | forward
  | collect
  | crossed
  | data
  | doneWait
  | stash
deriving DecidableEq, Repr

/-- A forward whose answer is awaited: its port, opcode and the cc in which its first bit left (R146). -/
structure FwdOut where
  port : Nat
  op : BitVec 8
  sent : Option Nat := none
deriving DecidableEq, Repr

/-- What a transaction still needs from the stores. -/
inductive Fetch where
  /-- nothing asked for -/
  | idle
  /-- a stack read, a miss register or a pushed write is under way -/
  | busy
  /-- a resource was full: the access is made again (R36) -/
  | replay
  /-- home data is in DATA -/
  | ready
  /-- the write, or the write-back of a CMO, has been performed -/
  | performed
deriving DecidableEq, Repr

/-- A transaction-table entry (R113) with the engine's working state. -/
structure Txn where
  kind : TKind
  /-- requester; 127 for a recall transaction -/
  port : Nat := 127
  tid : BitVec 10 := 0
  oid : BitVec 6 := 0
  plot : PlotId := 0
  pa : LineAddr := 0
  retry : Bool := false
  tport : BitVec 7 := 0
  mask : BitVec 64 := 0
  /-- data of a write request -/
  wdata : Line := 0
  /-- arrival number at the port, for the ordering notice (R165) -/
  num : Nat := 0
  phase : Phase := .lookup
  /-- the transaction blocks its line (R114) -/
  active : Bool := false
  outs : List FwdOut := []
  /-- ports that answered RspCrossed, with the cc of the answer (R137) -/
  cross : List (Nat × Nat) := []
  /-- forwarded ports whose eviction has already been applied (R137) -/
  gone : List Nat := []
  /-- evictions sunk whose EvAck waits for the data or Comp (R137) -/
  evAcks : List (Nat × Hdr) := []
  /-- DATA and its poison bit (R113) -/
  buf : Option (Line × Bool) := none
  fetch : Fetch := .idle
  /-- waits for the eviction of the listed owner (R139) -/
  waitEvict : Bool := false
  /-- data has been supplied by an owner; FwdAck processed -/
  ownerData : Bool := false
  /-- the data or Comp has been issued -/
  issued : Bool := false
  /-- opcode of the issued message, for R147 -/
  issuedOp : BitVec 8 := 0
  doneSeen : Bool := false
  /-- an owner timed out: data is marked POISON with AgentLost (R147) -/
  agentLost : Bool := false
  /-- the eviction of the requester that waits for the final state (R138) -/
  heldEvict : Option Msg := none
  /-- the owner that a FwdS or FwdO went to and whose data has not come; none once it is lost or has evicted (R116, R147) -/
  fwdOwner : Option Nat := none
  /-- holders whose answer has been processed: the entry lists them until the final state is written (R118, R121, R122) -/
  acked : List Nat := []
  /-- cc of arrival at the pavilion, at the first lookup (R388), and of the last timed action, TSTART -/
  arrive : Option Nat := none
  tstart : Option Nat := none
  /-- the StashOffer's departure (R130) -/
  offer : Bool := false
  offerSent : Option Nat := none
  /-- order in which it joined its wait list or parked (R115, R136) -/
  waitSeq : Nat := 0
  parkedOnce : Bool := false
  /-- the line has been recovered by a broadcast recall (R32, R150, R151) -/
  recovered : Bool := false
  /-- grant already recorded for a reissued read of a listed holder; 0 for none (R143) -/
  regrant : BitVec 8 := 0
deriving DecidableEq, Repr

/-- Tag states (R196, R197). -/
inductive TagSt where
  | invalid
  | valid
  | filling
  | evicting
deriving DecidableEq, Repr

/-- A tag entry (R196). -/
structure TagEntry where
  tag : BitVec 26 := 0
  st : TagSt := .invalid
  plot : PlotId := 0
  present : BitVec 64 := 0
  dirty : BitVec 64 := 0
  dsumA : Bool := false
  dsumAP : Bool := true
  dsumB : Bool := false
  dsumBP : Bool := true
  par : BitVec 4 := 0
deriving DecidableEq, Repr

/-- A Glasshouse entry in GH_CACHE (R236, R349). -/
structure GhEntry where
  tag : BitVec 35 := 0
  valid : Bool := false
  poison : Bool := false
  dirtyA : Bool := false
  dirtyB : Bool := false
  parT : Bool := false
  parA : Bool := false
  parB : Bool := false
deriving DecidableEq, Repr

/-- A line stored in SRAM with its 36 SECDED check bits (R342). -/
structure SramLine where
  data : Line := 0
  check : BitVec 36 := 0
deriving DecidableEq, Repr

/-- A line stored in DRAM or a stack with its check bits: D5 16 bytes, D4 and stack 8 bytes from bit 0 (R356). -/
structure Stored where
  data : Line := 0
  check : BitVec 128 := 0
deriving DecidableEq, Repr

/-- A miss register (R214). Bit masks run over the sub-blocks of the group. -/
structure MissReg where
  /-- address of the first line of the group -/
  base : LineAddr := 0
  /-- sub-blocks in the group: 1, 2, 4 or 8 -/
  gsize : Nat := 1
  crit : Nat := 0
  /-- target way, 16 for none (R208) -/
  way : Nat := 16
  pendAlloc : Bool := false
  /-- it allocated the Filling way (R213) -/
  allocating : Bool := false
  plot : PlotId := 0
  /-- fetches for PRELOAD (R260) -/
  preload : Bool := false
  /-- sub-blocks to read, reads issued, data returned or written, committed or dropped -/
  want : BitVec 8 := 0
  issued : BitVec 8 := 0
  arrived : BitVec 8 := 0
  done : BitVec 8 := 0
  /-- sub-blocks that wait to leave an Evicting way, until their read issues (R210, R214) -/
  waitEv : BitVec 8 := 0
  /-- sub-blocks whose buffer holds written data (R212) -/
  written : BitVec 8 := 0
  /-- members recalled from the Orangery, which are not covered once they have committed (R214) -/
  recalled : BitVec 8 := 0
  /-- waiters not yet served: table entry and sub-block of the group (R215) -/
  waiters : List (Nat × Nat) := []
  /-- transactions whose write is performed when a sub-block of the group commits (R202, R212) -/
  writers : List (Nat × Nat) := []
  /-- buffer: sub-block of the group, data, poison -/
  buf : List (Nat × Line × Bool) := []
  /-- Plots of the writes that wait in the buffer, by sub-block of the group (R383, R385) -/
  plots : List (Nat × Option PlotId) := []
deriving DecidableEq, Repr

/-- An Orangery line (R218). -/
structure OrLine where
  pa : LineAddr
  line : SramLine := {}
  poison : Bool := false
  /-- Plot charged when it drains (R385) -/
  plot : Option PlotId := none
deriving DecidableEq, Repr

/-- A sector eviction in progress (R217), or the poisoning of a sector (R350). -/
structure Evict where
  set : Nat
  way : Nat
  tag : BitVec 26
  plot : PlotId
  /-- copy reads issued and not yet in the Orangery, in issue order -/
  inFlight : List Nat := []
  poisoning : Bool := false
  /-- counted in occ until the end (R350 step 3) -/
  countsOcc : Bool := false
  /-- the cc whose slot drops the clean sub-blocks: the one after the last copy read (R217 step 2) -/
  dropAt : Option Nat := none
deriving DecidableEq, Repr

/-- Whose walk writes a line back: the maintenance engine's (R251), a placement transition's (R241, R242) or a fence's (R30). -/
inductive Walker where
  | engine
  | place
  | fence
deriving DecidableEq, Repr

/-- What a stack command is for (R299). -/
inductive StackOp where
  /-- demand read for a transaction -/
  | demand (e : Nat)
  /-- read of a WrPart that hit, to merge its bytes (R202) -/
  | merge (e : Nat)
  /-- direct write-back of a CMO (R224) -/
  | wbTxn (e : Nat)
  | evict
  /-- write-back of a walk; clear PRESENT afterwards when `inval` (R251) -/
  | mop (inval : Bool) (by_ : Walker)
  | patrol
  | survey
  | raw
  | write (st : Stored)
  /-- rewrite of a corrected or poisoned location (R348) -/
  | rewrite (st : Stored)
  | rawWrite (st : Stored)
deriving DecidableEq, Repr

/-- A command in a pavilion's stack command path (R289, R299). -/
structure StackCmd where
  set : Nat
  way : Nat
  sub : Nat
  /-- the line address, for the pushes it causes -/
  pa : LineAddr
  plot : Option PlotId := none
  op : StackOp
  at_ : Nat
deriving DecidableEq, Repr

/-- A stack read on its way back to the pavilion, with the bits it read; `failed` when the stack was FAILED (R353). -/
structure StackRet where
  cmd : StackCmd
  st : Stored
  failed : Bool := false
  /-- a write has committed to the sub-block since the read issued (R348) -/
  stale : Bool := false
deriving DecidableEq, Repr

/-- What the acceptance of a pushed line completes. -/
inductive PushFor where
  | nothing
  /-- the write of a transaction (R120, R208) -/
  | txn (e : Nat)
  /-- the write-back of a CMO (R122) -/
  | cmo (e : Nat)
  /-- a walk's write-back; the sub-block's PRESENT is cleared if `inval` (R251) -/
  | mop (set way sub : Nat) (inval : Bool) (by_ : Walker)
  /-- a line of a placement walk (R240, R241) -/
  | walk
  /-- one sub-block of a sector being poisoned (R350) -/
  | poisonSub (set way sub : Nat)
deriving DecidableEq, Repr

/-- A line that waits for a place in a channel's write queue (R47). -/
structure Push where
  pa : LineAddr
  data : Line
  poison : Bool
  plot : Option PlotId := none
  for_ : PushFor := .nothing
deriving DecidableEq, Repr

/-- An eviction or full-line write in the eviction buffer (R138). -/
structure EvBuf where
  pa : LineAddr
  data : Line
  poison : Bool
  plot : Option PlotId
deriving DecidableEq, Repr

/-- Placements (R229). -/
inductive Place where
  | window
  | ghCache
  | sectored
  | transition
deriving DecidableEq, Repr

/-- The regulation state of one Plot in one pavilion (R387, R388, R392, R393). -/
structure PlotMeter where
  rd : Nat := 0
  wr : Nat := 0
  rdLast : Nat := 0
  wrLast : Nat := 0
  latSum : Nat := 0
  latCnt : Nat := 0
  avg : Nat := 0
  pri : Nat := 0
  occ : Nat := 0
deriving DecidableEq, Repr

/-- A pavilion (R25). -/
structure Pav where
  tt : FMap Txn := []
  dir : FMap DirEntry := []
  nru : FMap Bool := []
  /-- suspect sets (R150) -/
  suspect : List Nat := []
  /-- lines whose entry failed parity and whose recovery waits for their transaction or a reserved entry (R149) -/
  recoverQ : List LineAddr := []
  /-- hash values of moved shares under rebuild (R151) -/
  rebuild : List Nat := []
  /-- ways promised to table entries: set, way, entry (R134) -/
  promises : List (Nat × Nat × Nat) := []
  /-- ports being swept out of the slice (R152) -/
  sweeps : List Nat := []
  /-- sets whose oldest parked request is due to retry (R136) -/
  retryDue : List Nat := []
  waitCtr : Nat := 0
  /-- evictions and writes that cannot proceed yet, oldest first: the first 128 are in the eviction buffer, any more wait at its entry,
  having left their ports (R87, R138, log entry 45) -/
  evBuf : List EvBuf := []
  tags : FMap TagEntry := []
  plru : FMap Nat := []
  miss : FMap MissReg := []
  orang : List OrLine := []
  orRsv : Nat := 0
  evicts : List Evict := []
  /-- ways that a WrPart pins from its hit to its commit: set, way, table entry (R202) -/
  merging : List (Nat × Nat × Nat) := []
  /-- sectors whose poisoning waits for one of the 8 Evicting places: set, way (R350) -/
  poisonQ : List (Nat × Nat) := []
  /-- the cc of the last lookup slot lent to a measurement (R40) -/
  lent : Option Nat := none
  /-- slots left of the walk that recounts occ (R349) -/
  recountLeft : Nat := 0
  pushq : List Push := []
  stackq : List StackCmd := []
  stackRet : List StackRet := []
  stack : FMap Stored := []
  /-- open rows of the half's banks (R288, R299) -/
  stkRows : FMap Nat := []
  gh : FMap GhEntry := []
  ghData : FMap SramLine := []
  /-- in-place SRAM rewrites waiting for a slot: `none` a Glasshouse line index, `some` an Orangery line (R347) -/
  sramFix : List (Option LineAddr × Nat × SramLine) := []
  place : Place := .window
  /-- placement that a transition left (R239) -/
  from_ : Place := .window
  /-- next index or set of the placement walker, and the tick number at which step 4 ended (R240 to R242) -/
  walkPos : Nat := 0
  walkEnd : Option Nat := none
  /-- window lines that a lookup has pushed ahead of the walker (R240) -/
  moved : List Nat := []
  halted : Bool := false
  gated : Bool := false
  stale : Bool := false
  meters : Vector PlotMeter 64 := Vector.replicate 64 {}
  ageTrim : Nat := 0
  ageTarget : Nat := 0
  ageWorst : Nat := 0
deriving DecidableEq, Repr

/-! ## Main memory channels and stacks (chapters 7 and 8) -/

/-- Service states (R290). -/
inductive MemSt where
  | off
  | training
  | inService
  | selfRefresh
  | freqChange
  | failed
  | test
deriving DecidableEq, Repr

/-- Who a memory read is for (R293). -/
inductive RdSrc where
  | miss (p : PavId) (r : Nat) (sub : Nat)
  | patrol
  | targeted
  | survey
  | raw
  /-- a line of a row under repair (R364) -/
  | repair
deriving DecidableEq, Repr

/-- A read-queue entry (R293). -/
structure RqEnt where
  ll : Nat
  pa : LineAddr
  plot : Option PlotId
  at_ : Nat
  src : RdSrc
deriving DecidableEq, Repr

/-- A write-queue entry, held encoded (R338). -/
structure WqEnt where
  ll : Nat
  st : Stored
  at_ : Nat
  plot : Option PlotId
  /-- a raw write, which updates no counter (R357) -/
  raw : Bool := false
deriving DecidableEq, Repr

/-- A memory read answered and not yet returned to its miss register: the bits read, or zeros, or poison. -/
structure MemRet where
  src : RdSrc
  pa : LineAddr
  data : Line
  poison : Bool
  /-- its read was CORRECTED or UNCORRECTABLE (R255) -/
  err : Bool := false
deriving DecidableEq, Repr

/-- A lazy-zero fill slot: region, first line and lines issued (R319, R320). -/
structure FillSlot where
  region : Nat
  start : Nat
  issued : Nat
  background : Bool
deriving DecidableEq, Repr

/-- An error-ledger entry (R361). -/
structure Ledger where
  valid : Bool := false
  ll : Nat := 0
  count : Nat := 0
  rw : Bool := false
  recur : Nat := 0
  tRw : Nat := 0
  tLast : Nat := 0
  loc : Nat := 0
  hard : Bool := false
  repair : Nat := 0
deriving DecidableEq, Repr

/-- A training record (R309): its code (0 for a stack), DIMM identities, per-lane timing and reference-voltage settings, and CRC. -/
structure TrainRec where
  code : Nat
  id0 : BitVec 288
  id1 : BitVec 288
  settings : BitVec 512
  crc : BitVec 32
deriving DecidableEq, Repr

/-- A repair record: the row's first line, DIMM identity (R365). -/
structure RepairRec where
  row : Nat
  ident : BitVec 288
deriving DecidableEq, Repr

/-- A survey in progress (R360): next and end position in lines. -/
structure Survey where
  pos : Nat
  stop : Nat
deriving DecidableEq, Repr

/-- The part that channels and stacks share: scrub, survey, temperature, training (R300 to R311, R358 to R360). -/
structure MemCom where
  st : MemSt := .off
  temp : Int := 0
  /-- last reading of each source; none for a failed read (R301 to R303) -/
  temps : FMap (Option Int) := []
  ref2x : Bool := false
  /-- refresh doubling to apply at the next refresh interval (R302) -/
  ref2xNext : Bool := false
  /-- cc of the last refresh command, whose window a walk's step needs (R311) -/
  lastRefresh : Option Nat := none
  /-- cc in which the next refresh of each rank or pseudo-channel is due (R300) -/
  postponed : FMap Nat := []
  /-- cc of the last reading of each source (R301) -/
  tempAt : FMap Nat := []
  recs : List TrainRec := []
  last : Nat := 0
  walk : Bool := false
  walkStart : Nat := 0
  walkRes : Option (WalkResult × Nat) := none
  /-- an aborted walk starts again in the next refresh window (R313 step 6) -/
  restart : Bool := false
  /-- verify has failed, so the next training is full (R308) -/
  training : Bool := false
  /-- this training follows a failed calibration after self-refresh (R305) -/
  recal : Bool := false
  /-- the calibration that follows self-refresh runs (R290, R305) -/
  calib : Bool := false
  /-- `walkRes` was completed in the current day (R492) -/
  walkNew : Bool := false
  /-- read-strobe and reference-voltage trims and their targets, in steps (R493) -/
  trimT : Int := 0
  trimV : Int := 0
  tgtT : Int := 0
  tgtV : Int := 0
  patrolPos : Nat := 0
  patrolCredit : Nat := 0
  passes : Nat := 0
  survey : Option Survey := none
  /-- reads of the survey that have not been answered -/
  surveyOut : Nat := 0
deriving DecidableEq, Repr

/-- A frequency change held or running (R313): code, cc of acceptance, and whether a collection was aborted for it. -/
structure FreqChg where
  code : Nat
  at_ : Nat
  running : Bool
  aborted : Bool
  /-- cc in which step 3 began, and whether this is the return to the old code -/
  since : Nat := 0
  back : Bool := false
  /-- what the verifies at the new and at the old code give -/
  newOk : Bool := true
  oldOk : Bool := true
deriving DecidableEq, Repr

/-- A repair that runs (R364): its ledger entry, whether the row's bank is held, the next of the row's 128 lines to read, and the repair
buffer. -/
structure PprRun where
  entry : Nat
  held : Bool := false
  next : Nat := 0
  buf : List (Nat × Stored) := []
deriving DecidableEq, Repr

/-- A main-memory channel. -/
structure Chan where
  /-- MEM[c].RESET_N: low from PWROK until the channel starts training (R575) -/
  resetN : Bool := false
  com : MemCom := {}
  gen : Option MemGen := none
  freq : Nat := 0
  slot0 : Option Spd := none
  slot1 : Option Spd := none
  vddqOk : Bool := true
  trained : Bool := false
  rq : List RqEnt := []
  wq : List WqEnt := []
  rqPop : Pops := {}
  wqPop : Pops := {}
  /-- rewrites that wait for a place in the write queue (R348) -/
  fixq : List WqEnt := []
  /-- lines due for a targeted read (R363) -/
  targets : List Nat := []
  drain : Bool := false
  sinceBe : Nat := 0
  /-- open rows: bank number to row -/
  rows : FMap Nat := []
  /-- initialized regions, ascending (R316) -/
  init : List Nat := []
  fills : List (Option FillSlot) := [none, none, none, none]
  bgPos : Nat := 0
  dram : FMap Stored := []
  /-- contents lost to a failed fence: unlisted lines hold free values of this draw (R31) -/
  lost : Option Nat := none
  rets : List MemRet := []
  freqChg : Option FreqChg := none
  ledger : Vector Ledger 64 := Vector.replicate 64 {}
  repairs : List RepairRec := []
  pprRun : Option PprRun := none
  pprReq : Option Nat := none
  budget : Vector Nat 64 := Vector.replicate 64 0
  congested : Bool := false
  /-- a raw read that waits for a place in the read queue (R47, R357) -/
  rawWait : Option RqEnt := none
  /-- registers whose read waits for a place, oldest first: Plot, pavilion, register (R391) -/
  waitRd : List (PlotId × PavId × Nat) := []
deriving DecidableEq, Repr

/-- A cache stack. -/
structure Stk where
  com : MemCom := {}
  /-- trained; its sample test is due or has passed (R314) -/
  tested : Bool := false
  /-- its start-up sample test has passed (R291) -/
  passed : Bool := false
deriving DecidableEq, Repr

/-! ## The hub-wide engines -/

/-- Fence engine (R30, R31). -/
structure FenceEng where
  running : Bool := false
  pav : Nat := 0
  target : Nat := 0
  failed : Bool := false
  /-- 1 draining, 2 recalling, 3 writing, 4 waiting for the tick -/
  stage : Nat := 0
  pos : Nat := 0
  /-- tick number at which stage 4 began -/
  tick : Nat := 0
deriving DecidableEq, Repr

/-- The maintenance engine (R249 to R261). -/
structure Mop where
  busy : Bool := false
  op : Nat := 0
  scope : Nat := 0
  plot : PlotId := 0
  base : Nat := 0
  size : Nat := 0
  setway : Nat := 0
  ways : BitVec 16 := 0
  /-- EN was clear at acceptance (R247) -/
  disabled : Bool := false
  /-- 0 waiting for the tick, 1 walking tags or the range, 2 preloading, 3 waiting for pushes, 4 waiting for the final tick -/
  stage : Nat := 0
  /-- next set, or next sector of an address walk, per pavilion -/
  pos : List Nat := List.replicate 16 0
  /-- ways to empty per pavilion (R259 step 3) -/
  newWays : List (BitVec 16) := List.replicate 16 0
  /-- sectors to return to: pavilion, set, way, and the tag that the way held (R253) -/
  again : List (Nat × Nat × Nat × Nat) := []
  nofit : Nat := 0
  errs : Nat := 0
  wb : Nat := 0
deriving DecidableEq, Repr

/-- The placement engine (R238 to R243). -/
structure PlaceEng where
  running : Bool := false
  mode : Place := .window
  mask : BitVec 16 := 0
  /-- the first tick has come (step 2) -/
  started : Bool := false
  disabled : Bool := false
deriving DecidableEq, Repr

/-- Power states (R437). -/
inductive Pwr where
  | active
  | standbyEntry
  | standby
  | hibernateEntry
  | hibernate
  | exit
deriving DecidableEq, Repr

/-- Global control: supplies, phases, interleave, placement, maintenance, fence, power, memory map, raw access, pins. -/
structure Glb where
  /-- the hub is out of reset: PWROK is high and no monitored rail is low (R413, R419, R581) -/
  on : Bool := false
  pwrok : Bool := false
  /-- a monitored rail is below its threshold (R581) -/
  railLow : Bool := false
  /-- the thermal trip has stopped the hub (R428) -/
  tripped : Bool := false
  /-- cc of a trip whose record is still to be written, and whether the error history ring has one since start-up (R428) -/
  tripAt : Option Nat := none
  tripRec : Bool := false
  /-- PWR_STAT.TRIP_LAST: the last power-down was a trip that left its record (R428, R437) -/
  tripLast : Bool := false
  perst : Bool := true
  perstAt : Nat := 0
  /-- SRAM cleared: Phase 0 or later (R412) -/
  phase : Nat := 0
  memReady : Bool := false
  /-- a channel has entered service since PWROK (R417) -/
  memGo : Bool := false
  /-- MEM_GO accepted, waiting for the tick; and its tick has come (R417) -/
  memGoPend : Bool := false
  memGoDue : Bool := false
  stackReady : Bool := false
  /-- stack bring-up is due (R418) -/
  stackUp : Bool := false
  trefMissing : Bool := false
  fullTrain : Bool := false
  tReady : Nat := 0
  foldDefaulted : Bool := false
  ilMap : List Nat := List.range 16
  fenced : BitVec 16 := 0
  fence : FenceEng := {}
  /-- home ranges in force: entry, base and size in GiB, kept entries in order (R103, R104) -/
  ranges : List (Nat × Nat × Nat) := []
  rangeIgnored : Bool := false
  /-- channel map fixed: pivots and entries (R282 to R284) -/
  mapValid : Bool := false
  mapFail : Bool := false
  pivots : List Nat := []
  mapRanges : List (Nat × Nat × Nat) := []
  mapReq : Nat := 0
  noWindow : Bool := false
  hcEn : Bool := true
  placeEng : PlaceEng := {}
  mop : Mop := {}
  /-- DISABLE_CLEAN is in force from its first tick (R256) -/
  disableClean : Bool := false
  opnum : Nat := 0
  doneNum : Nat := 0
  mopResult : Nat := 0
  pwr : Pwr := .active
  pwrAt : Nat := 0
  /-- HIBERNATE entry is at its clean, step 2 of R426 -/
  hibClean : Bool := false
  /-- step 3 of R423 has begun: the links are asked into LOWPOWER -/
  lowAsk : Bool := false
  /-- an exit in progress: what its calibrations give, whether it leaves HIBERNATE, and the steps of R425 that are done -/
  exiting : Option (CalibResult × Bool × Nat) := none
  /-- ingress dispatch is held for a power entry (R423) -/
  hold : Bool := false
  tj : Int := 0
  /-- a raw access is running: command, kind and address (R356) -/
  rawBusy : Bool := false
  rawDone : Option (Nat × Nat × Nat) := none
  /-- round-robin turn of each pavilion over port groups (R112) -/
  turn : List Nat := List.replicate 16 0
  /-- a fatal cause bit has set in this cc (R354, R557) -/
  fatalNew : Bool := false
  -- pins
  fatalPin : Bool := false
  eventPin : Bool := false
  thermtrip : Bool := false
  ppsOut : Bool := false
  chainOut : Bool := false
  /-- cc at which the service-chain frame in progress ends (R94) -/
  svcDue : Nat := 0
  /-- the service-chain frame in progress: its first cc, the cc of a bit time, and its output bits (R94) -/
  svcFrom : Nat := 0
  svcBit : Nat := 0
  svcBits : BitVec 288 := 0
  svcClk : Bool := false
  svcLoad : Bool := false
  svcDout : Bool := false
  chainIn : Bool := false
  /-- the changes of input pins that are still to come (R574, log entry 308) -/
  pins : List PinEvent := []
  /-- CHAN and STACK command writes of STANDBY, which take effect at the exit: offset and word (R424) -/
  cmdLate : List (Nat × W32) := []
  -- tick and services (R41 to R46)
  tickNum : Nat := 0
  used : List Nat := [0, 0, 0, 0]
  scaled : List Nat := [40, 10, 40, 30]
  scaling : Bool := false
  -- regulation (R398 to R402): D in 10 MB/s, per-channel exact D in units of 1/160000 GB/s is recomputed
  deliv : Nat := 0
  ovcActive : Bool := false
  scale : Nat := 1024
  gbwEff : Vector Nat 64 := Vector.replicate 64 0
  plotRd : Vector Nat 64 := Vector.replicate 64 0
  plotWr : Vector Nat 64 := Vector.replicate 64 0
  -- MSI-X (R521 to R523)
  msixEn : Bool := false
  msixMask : Bool := false
  msixPend : BitVec 64 := 0
  msixLast : FMap Nat := []
  msixTable : FMap W32 := []
deriving DecidableEq, Repr

/-! ## The service node, Lodge, Bandstand and Belvedere -/

/-- A 64-bit pair latch and holding register of one master (R509); `tsec` is the TIME_SEC latch of R478. -/
structure PairRegs where
  latch : Option (Nat × W32) := none
  /-- the held word, with the privilege judged when it arrived (R512) -/
  hold : Option (Nat × W32 × Bool) := none
  tsec : List (Nat × W32) := []
deriving DecidableEq, Repr

/-- The store that an event record names (R355). -/
inductive Store where
  | none
  | memory
  | stack
  | glasshouse
  | orangery
  | tags
  | directory
deriving DecidableEq, Repr

def Store.num : Store → Nat
  | .none => 0 | .memory => 1 | .stack => 2 | .glasshouse => 3 | .orangery => 4 | .tags => 5 | .directory => 6

/-- An event record in the Lodge event queue (R355, R471). -/
structure EvRec where
  sec : Nat
  ns : Nat
  kind : Nat
  inst : Nat
  addr : Nat
  cls : Nat := 0
  dev : Nat := 0x7F
  detail : Nat := 0
  store : Store := .none
  /-- cc in which it entered the queue: it leaves in a later one (R47) -/
  at_ : Nat := 0
deriving DecidableEq, Repr

/-- The parties of dictionary access (R444). -/
inductive Party where
  | mailbox
  | network
deriving DecidableEq, Repr

/-- An open DOMAIN write (R456). -/
structure DomWrite where
  index : Nat
  sub : Nat
  bytes : List Byte
  last : Nat
  stale : Bool := false
deriving DecidableEq, Repr

/-- A commit or image load in progress (R468, R470). -/
structure Commit where
  bank : Nat
  /-- the record bytes to be written -/
  body : List Byte
  /-- header FLAGS: built by Uzohorn (R465) -/
  flags : Nat
  seq : Nat
  /-- 1 writing, 2 verifying, 3 marking (R451) -/
  stage : Nat := 1
  /-- bytes written in stage 1, read back in stage 2 -/
  pos : Nat := 0
  /-- steps 1 to 4 run for the second time -/
  again : Bool := false
  load : Bool := false
  /-- number of the tick of its acceptance: writing begins in a following one (R468) -/
  since : Nat := 0
  -- what comes into force with the image of a commit: keys and node ID
  eng : Option (BitVec 128) := none
  fac : Option (BitVec 128) := none
  node : Nat := 0xFF
deriving DecidableEq, Repr

/-- The Lodge: mailbox, event queue and history, network, sessions, Icehouse (chapter 11), ageing (chapter 12). -/
structure Lodge where
  /-- the mailbox request in progress: MBX_CMD and MBX_ARG as its GO found them (R452) -/
  mbxReq : Option (W32 × W32) := none
  /-- number of the tick in which it reached the Lodge (R448) -/
  mbxTick : Nat := 0
  /-- READ and WRITE frames that wait for the dictionary service, oldest first: tick number, TYPE, frame (R448) -/
  netq : List (Nat × Nat × Frame) := []
  mbxAbort : Nat := 0
  mbxRlen : Nat := 0
  dom : List (Party × DomWrite) := []
  evq : List EvRec := []
  evPop : Pops := {}
  /-- sequence of the next error-history record and its slot (R464, R471) -/
  rseq : Nat := 0
  histPos : Nat := 0
  /-- a record for which no EVENT frame has been sent, and the tick of the last frame (R457) -/
  evNew : Option (List Byte) := none
  evTick : Option Nat := none
  node : Nat := 255
  plca : Nat := 0
  /-- an ASSIGN accepted and not yet acknowledged: node, PLCA ID, its XID (R458) -/
  assign : Option (Nat × Nat × BitVec 16) := none
  /-- the new home-range set takes effect at the next tick (R105) -/
  nodePend : Bool := false
  chainFault : Bool := false
  /-- the Ethernet address of the controller, as its last frame gave it (R454, log entry 327) -/
  ctlMac : BitVec 48 := 0xFFFFFFFFFFFF
  netLink : Bool := false
  /-- the controller's last XID and the response to it (R457) -/
  lastXid : Option (BitVec 16) := none
  lastResp : List Byte := []
  -- the network session: level 0, 2 or 3, number, key, cc of its last tagged frame (R461, R462)
  netLevel : Nat := 0
  netSess : Nat := 0
  netKey : BitVec 128 := 0
  netLast : Nat := 0
  /-- a challenge that waits for its proof: level, session number, challenge -/
  netChal : Option (Nat × Nat × BitVec 128) := none
  fails : Nat := 0
  lockedAt : Option Nat := none
  -- the mailbox session (R463)
  mbxLevel : Nat := 0
  mbxChal : Option (BitVec 128) := none
  mbxLast : Nat := 0
  -- keys of the image in force, and keys to be committed (R451, R461)
  keyEng : Option (BitVec 128) := none
  keyFac : Option (BitVec 128) := none
  keyEngC : Option (BitVec 128) := none
  keyFacC : Option (BitVec 128) := none
  -- Icehouse: the device bytes, the bank in force (0 A, 1 B, 2 ROM defaults) and what start-up found (R464 to R467)
  ice : List Host.Cell := []
  /-- the cap on frequency codes that the image in force names (R280) -/
  freqCap : Nat := 0xE
  bank : Nat := 2
  seq : Nat := 0
  factory : Bool := true
  skipped : Nat := 0
  commit : Option Commit := none
  commitRes : Nat := 0
  imgNode : Nat := 0xFF
  /-- values to be committed, by index * 256 + subindex; an unlisted object has its default (R446) -/
  commitVal : FMap Nat := []
  -- ageing measurements (R491): latest D of each pair, sum and count of the day's, next times
  roD : FMap Nat := []
  roSum : FMap (Nat × Nat) := []
  roAt : Nat := 0
  /-- the ring-oscillator pairs, or the margins of port `nextEye`, are armed and wait to be read (R491) -/
  roArm : Bool := false
  eyeArm : Bool := false
  /-- cc of the arming of each (R40, R491) -/
  roArmAt : Nat := 0
  eyeArmAt : Nat := 0
  eyeAt : Nat := 0
  nextEye : Nat := 0
  /-- hours of powered time recorded, cc of the last day boundary, days counted (R492) -/
  powered : Nat := 0
  dayStart : Nat := 0
  day : Nat := 0
  tjHi : Option Int := none
  tjSum : Int := 0
  tjCnt : Nat := 0
  lseq : Nat := 0
  ledgerPos : Nat := 0
  ledgerCnt : Nat := 0
  /-- daily values of a measured quantity under one condition, newest first: day and value (R493) -/
  hist : FMap (List (Nat × Nat)) := []
  planSeq : Nat := 0
  adv : W32 := 0
  vcoreDay : Option Nat := none
  /-- objects 0x9000 subindexes 7 to 13 (R496) -/
  floors : List Nat := [16, 6, 10, 8, 50, 600, 365]
  -- proposals: MAX_GEN of a port, code of a channel, worn stacks (R494, R496)
  propGen : FMap Nat := []
  propCode : FMap Nat := []
  propWear : List Nat := []
  /-- the pavilion of object 0x7000 subindex 4 that a party's last segment ended in, with the bytes read in one cc (R558) -/
  fixImg : List (Party × Nat × List Byte) := []
  dayTrims : Nat := 0
  dayEq : Nat := 0
  dayRev : Nat := 0
deriving DecidableEq, Repr

/-- Discipline states (R480). -/
inductive TimeSt where
  | freerun
  | locking
  | locked
  | holdover
  | locked1588
deriving DecidableEq, Repr

/-- The Bandstand timebase and its discipline (chapter 12). -/
structure Band where
  sec : Nat := 0
  ns : Nat := 0
  /-- fraction of a nanosecond in units of 2^-40 ns, and the increment per cc in the same unit (R477) -/
  frac : Nat := 0
  inc : Nat := 366503875925
  st : TimeSt := .freerun
  /-- the source in force (R479) -/
  src : Nat := 1
  trefOk : Bool := false
  /-- a 25 MHz oscillator is fitted at TREF (R481) -/
  trefFit25 : Bool := false
  /-- TREF has shown edges since PWROK (R415) -/
  trefSeen : Bool := false
  /-- cc of the last loss of TREF (R481) -/
  trefBad : Nat := 0
  ppsOk : Bool := false
  ppsAt : Nat := 0
  /-- cc of the last valid Sync of the grandmaster, while PTP_OK (R483) -/
  ptpAt : Option Nat := none
  /-- TIME_STAT.ERR in 100 ps -/
  err : Int := 0
  /-- windows or seconds in a row inside the lock limit (R480) -/
  good : Nat := 0
  /-- the last one-second increments, newest first, at most 16 (R480) -/
  incs : List Nat := []
  /-- 2^-40 ns still to slew (R484) -/
  slew : Int := 0
  slewing : Bool := false
  stepPend : Option (Nat × Nat) := none
  /-- a follower step in 100 ps that waits for the next apply window (R483, R485) -/
  stepBack : Option Int := none
  holdAt : Nat := 0
  -- IEEE 1588 (R489, R490): grandmaster, cc of its last Sync, identities ignored until PWROK
  gm : Option (BitVec 64) := none
  gmAt : Nat := 0
  ignored : List (BitVec 64) := []
  /-- local arrival less origin of the last Sync, and the path delay, in ns -/
  syncRaw : Int := 0
  pathDelay : Int := 0
  /-- local time in ns at which the last Delay_Req left (R489) -/
  reqNs : Int := 0
  syncDue : Nat := 0
  delayReqDue : Nat := 0
  ppsOutAt : Nat := 0
  /-- the second of the last PPS_OUT boundary taken or passed over (R485, R488) -/
  ppsSec : Nat := 0
deriving DecidableEq, Repr

/-- A trace frame (R551): number of its HEADER record, records, closed, seconds. -/
structure TrcFrame where
  first : Nat
  count : Nat
  closed : Bool
  sec : Nat
deriving DecidableEq, Repr

/-- A traced occurrence of a cc, before filters and sampling (R549, R550): `src` the pavilion, port or channel; `port` and `plot` 0xFF
for none. -/
structure TrcOcc where
  src : Nat
  kind : Nat
  port : Nat
  plot : Nat
  addr : BitVec 48
  detail : BitVec 16
deriving DecidableEq, Repr

/-- The Belvedere (chapter 14). -/
structure Blv where
  cnt : Vector (BitVec 48) 552 := Vector.replicate 552 0
  ovf : Vector Bool 552 := Vector.replicate 552 false
  snap : Vector (BitVec 48) 552 := Vector.replicate 552 0
  snapOvf : Vector Bool 552 := Vector.replicate 552 false
  /-- what the counters that have advanced in this cc held before it (R519, R539) -/
  cntOld : FMap (BitVec 48 × Bool) := []
  armed : Bool := false
  partial_ : Bool := false
  snapNum : Nat := 0
  snapTick : Nat := 0
  clearPend : Bool := false
  /-- a CLEAR that has reached the Belvedere waits for the blocks whose clocks are stopped (R424) -/
  clearLate : Bool := false
  grpBusy : Bool := false
  /-- slots of the group read still to be read: cc, slot, counter (R542) -/
  grpDue : List (Nat × Nat × Nat) := []
  grpVal : List (BitVec 48 × Bool) := List.replicate 8 (0, false)
  /-- the account of the slot in progress of each pavilion, and at 256 + p those of pavilion p on their way to the counters,
  packed base 256 (R545 to R548): 1 SERVED, 2 SERVICE, 3 REPLAYED, 4 BLOCKED, 5 UNASKED -/
  slot : FMap Nat := []
  -- trace
  buf : FMap (BitVec 128) := []
  /-- next record number, read position, mark -/
  wr : Nat := 0
  rd : Nat := 0
  mark : Option Nat := none
  frames : List TrcFrame := []
  frameNum : Nat := 0
  sampleCtr : Nat := 0
  /-- staged records with their timebase seconds (R550) -/
  staging : List (Nat × BitVec 128) := []
  stPop : Pops := {}
  /-- occurrences of this cc that have not passed the filters yet (R550) -/
  occ : List TrcOcc := []
  idleAt : Nat := 0
  pop : Option (BitVec 128 × Nat) := none
  head : Nat := 0
deriving DecidableEq, Repr

/-- What leaves the hub: the model's own record of its outputs. -/
inductive Out where
  /-- answer of a register read by a master (R504, R506) -/
  | read (m : Master) (off : Nat) (v : BitVec 64)
  | abort (m : Master) (off : Nat)
  /-- an MSI-X message: vector, message address and data (R523) -/
  | msix (v : Nat) (addr : BitVec 64) (data : W32)
  | flit (n : PortId) (bits : BitVec 1024)
  /-- one training set on a physical lane (R61) -/
  | trainSet (n : PortId) (lane : Fin 4) (set : BitVec 128)
  | frame (f : List Byte)
  /-- an IEEE 1588 message: Ethernet destination and type, 0 Announce, 1 Sync, 2 Follow_Up, 3 Delay_Req, 4 Delay_Resp, with its
  fields (R489) -/
  | ptp (dst : BitVec 48) (etherType : BitVec 16) (kind : Nat) (fields : List Nat)
  | svcDout (bits : BitVec 288)
  | dma (addr : Nat) (recs : List (BitVec 128))
  | taskDone
deriving DecidableEq, Repr

/-- Why the machine stops with a fault. No command of this model faults: every store it models exists (R10, R464), so the
only constructor is the one a step with an impossible store access would use. Safe: it stops and proves nothing. -/
inductive Fault where
  /-- never raised; keeps the type inhabited. Safe. -/
  | noSuchStore
deriving DecidableEq, Repr

/-- Why a command is refused. -/
inductive Refusal where
  /-- raised by an arm of exec whose command has no meaning yet; safe: nothing happens -/
  | notModelled (mnemonic : String)
deriving DecidableEq, Repr

/-- The whole machine. -/
structure State where
  /-- the commands that wait, first in, first out (the model's own) -/
  pending : List Instr := []
  /-- cc since PWROK -/
  now : Nat := 0
  glb : Glb := {}
  /-- registers in force: BAR0 offset to value, unlisted ones at their reset value -/
  csr : FMap W32 := []
  /-- registers that software has written in this cc, with what they held before the write and the events since (R519, R520) -/
  swNow : FMap W32 := []
  /-- the stored bits that software has written in this cc, by register (R519) -/
  swBits : FMap W32 := []
  /-- bits that hardware has cleared in this cc, by register: software's write of the same cc does not set them (R520, R557) -/
  hwNow : FMap W32 := []
  /-- pending TICK values, whole registers by offset (R44) -/
  pend : FMap W32 := []
  /-- LAST_TICK of each block instance, by APPLY_STATUS offset (R534) -/
  lastTick : FMap Nat := []
  /-- pair latches and holding registers: 0 host, 1 Lodge, 2 + n port n (R509) -/
  pairs : FMap PairRegs := []
  ports : Vector Port 96 := Vector.replicate 96 {}
  pavs : Vector Pav 16 := Vector.replicate 16 {}
  chans : Vector Chan 16 := Vector.replicate 16 {}
  stks : Vector Stk 8 := Vector.replicate 8 {}
  lodge : Lodge := {}
  band : Band := {}
  blv : Blv := {}
  /-- counter of free values drawn (the model's own) -/
  freeCtr : Nat := 0
  /-- outputs, newest first (the model's own) -/
  outs : List Out := []
deriving DecidableEq, Repr

/-- The machine held in reset, before the rising edge of PWROK: every register at its reset value, every store empty. -/
def State.reset : State := {}

end Sys2Proof.Machine
end

