-- ==== Sys2Proof/Machine/Ops.lean ====
section
/-!
DEFINITION. The shared operations: accessors of the parts of State, registers in force, events and interrupts, the
address split and the interleave, credits and egress.
-/

namespace Sys2Proof.Machine

/-! ## Accessors -/

def State.port (s : State) (n : PortId) : Port := s.ports[n]
def State.modPort (s : State) (n : PortId) (f : Port → Port) : State := { s with ports := s.ports.set n (f s.ports[n]) }
def State.modLink (s : State) (n : PortId) (f : Link → Link) : State :=
  s.modPort n fun p => { p with link := f p.link }
def State.modIo (s : State) (n : PortId) (f : PortIo → PortIo) : State :=
  s.modPort n fun p => { p with io := f p.io }
def State.pav (s : State) (p : PavId) : Pav := s.pavs[p]
def State.modPav (s : State) (p : PavId) (f : Pav → Pav) : State := { s with pavs := s.pavs.set p (f s.pavs[p]) }
def State.chan (s : State) (c : ChanId) : Chan := s.chans[c]
def State.modChan (s : State) (c : ChanId) (f : Chan → Chan) : State := { s with chans := s.chans.set c (f s.chans[c]) }
def State.stk (s : State) (k : StackId) : Stk := s.stks[k]
def State.modStk (s : State) (k : StackId) (f : Stk → Stk) : State := { s with stks := s.stks.set k (f s.stks[k]) }
def State.modGlb (s : State) (f : Glb → Glb) : State := { s with glb := f s.glb }
def State.modLodge (s : State) (f : Lodge → Lodge) : State := { s with lodge := f s.lodge }
def State.modBand (s : State) (f : Band → Band) : State := { s with band := f s.band }
def State.modBlv (s : State) (f : Blv → Blv) : State := { s with blv := f s.blv }
def State.emit (s : State) (o : Out) : State := { s with outs := o :: s.outs }
def State.modPend (s : State) (f : FMap W32 → FMap W32) : State := { s with pend := f s.pend }
def State.modLast (s : State) (f : FMap Nat → FMap Nat) : State := { s with lastTick := f s.lastTick }
def State.modPairs (s : State) (f : FMap PairRegs → FMap PairRegs) : State := { s with pairs := f s.pairs }
/-- One more free value has been drawn. -/
def State.drawn (s : State) : State := { s with freeCtr := s.freeCtr + 1 }
/-- One core clock passes. -/
def State.later (s : State) : State := { s with now := s.now + 1 }

/-- The numbers of the ports, pavilions, channels and stacks, to run an operation over all of them. -/
def allPorts : List PortId := List.finRange 96
def allPavs : List PavId := List.finRange 16
def allChans : List ChanId := List.finRange 16
def allStks : List StackId := List.finRange 8

def forPorts (s : State) (f : PortId → State → State) : State := allPorts.foldl (fun s n => f n s) s
def forPavs (s : State) (f : PavId → State → State) : State := allPavs.foldl (fun s p => f p s) s
def forChans (s : State) (f : ChanId → State → State) : State := allChans.foldl (fun s c => f c s) s
def forStks (s : State) (f : StackId → State → State) : State := allStks.foldl (fun s k => f k s) s

def portOf? (n : Nat) : Option PortId := if h : n < 96 then some ⟨n, h⟩ else none
def pavOf (n : Nat) : PavId := ⟨n % 16, Nat.mod_lt _ (by decide)⟩
def chanOf (n : Nat) : ChanId := ⟨n % 16, Nat.mod_lt _ (by decide)⟩
def stkOf (n : Nat) : StackId := ⟨n % 8, Nat.mod_lt _ (by decide)⟩
/-- The stack that holds a pavilion's half (R25). -/
def stackOfPav (p : PavId) : StackId := ⟨p.val / 2, by omega⟩

/-- The hub runs: PWROK is high and no thermal trip has stopped it (R419, R428). -/
def State.alive (s : State) : Bool := s.glb.on && !s.glb.tripped

/-- The data-plane clocks run (R423 to R426, R540). -/
def State.clocksRun (s : State) : Bool := s.glb.pwr ≠ .standby && s.glb.pwr ≠ .hibernate && s.glb.pwr ≠ .exit
/-- The ports are clocked and their receivers on: not in STANDBY or HIBERNATE, nor in an EXIT before its third step (R424, R425,
R427). -/
def State.linksOn (s : State) : Bool := s.glb.pwr ≠ .standby && s.glb.pwr ≠ .hibernate && s.glb.exiting.elim true fun x => decide (2 ≤ x.2.2)

/-- A command's effect while the hub runs; a hub held in reset or tripped takes none (R419, R428). -/
def live (s : State) (f : State → State) : Host.Outcome State Fault Refusal :=
  if s.alive then .next (f s) else .next s

/-! ## Registers -/

/-- The block instance and the offset within it of a BAR0 offset (R524). -/
def blkOf (off : Nat) : Option (Blk × Nat × Nat) :=
  if off < 0x10000 then some (.glb, 0, off)
  else if off < 0x20000 then some (.band, 0, off - 0x10000)
  else if off < 0x30000 then some (.lodge, 0, off - 0x20000)
  else if off < 0x40000 then some (.ice, 0, off - 0x30000)
  else if off < 0x50000 then some (.blv, 0, off - 0x40000)
  else if off < 0x60000 then some (.reg, 0, off - 0x50000)
  else if off < 0x100000 then none
  else if off < 0x200000 then some (.pav, (off - 0x100000) / 0x10000, off % 0x10000)
  else if off < 0x380000 then some (.port, (off - 0x200000) / 0x4000, off % 0x4000)
  else if off < 0x400000 then none
  else if off < 0x500000 then some (.chan, (off - 0x400000) / 0x10000, off % 0x10000)
  else if off < 0x580000 then some (.stack, (off - 0x500000) / 0x10000, off % 0x10000)
  else if off < 0x1000000 then none
  else if off < 0x2000000 then some (.raw, 0, off - 0x1000000)
  else none

/-- The register of a list at an offset, with its index in its array. -/
def findReg (rel : Nat) : List RegDesc → Option (RegDesc × Nat)
  | [] => none
  | d :: rest =>
    if d.off ≤ rel then
      if d.count = 1 then (if rel = d.off then some (d, 0) else findReg rel rest)
      else if (rel - d.off) % d.stride = 0 && decide ((rel - d.off) / d.stride < d.count) then
        some (d, (rel - d.off) / d.stride)
      else findReg rel rest
    else findReg rel rest

/-- The register at a BAR0 offset: block, instance, index in its array and description (R525). In ports whose number
is not a multiple of 8 the counter selectors are reserved (R563). -/
def regAt (off : Nat) : Option (Blk × Nat × Nat × RegDesc) :=
  match blkOf off with
  | none => none
  | some (b, i, rel) =>
    if b = .port && i % 8 ≠ 0 && decide (0x180 ≤ rel) && decide (rel < 0x1A0) then none else
    match findReg rel b.regs with
    | none => none
    | some (d, j) => some (b, i, j, d)

/-- The value that the fields' reset values spell. -/
def fieldsReset : List Field → Nat
  | [] => 0
  | f :: rest => f.rst * 2 ^ f.lo + fieldsReset rest

/-- The reset value of the register at an offset (R15), with the index-dependent defaults of R27, R154, R155, R533. -/
def regReset (off : Nat) : W32 :=
  match regAt off with
  | none => 0
  | some (b, _, j, d) =>
    let v := fieldsReset d.fields
    if b = .glb && d.off = 0x400 then (if j % 5 = 0 then 0x3FF else 0)
    else if b = .glb && d.off = 0x100 then BitVec.ofNat 32 (0x80000000 + j)
    else if b = .glb && d.off = 0x480 && decide (0 < j) then 0x7F800000
    else if b = .glb && d.off = 0x484 && decide (0 < j) then 0
    else BitVec.ofNat 32 v

/-- The value in force of a stored register. -/
def State.rget (s : State) (off : Nat) : W32 := FMap.get regReset s.csr off
def State.rset (s : State) (off : Nat) (v : W32) : State := { s with csr := FMap.put regReset s.csr off v }
/-- Bits `hi:lo` in force of a stored register. -/
def State.rf (s : State) (off hi lo : Nat) : Nat := bitsOf (s.rget off) hi lo
def State.rbit (s : State) (off b : Nat) : Bool := (s.rget off).getLsbD b
def State.rfSet (s : State) (off hi lo v : Nat) : State := s.rset off (setBits (s.rget off) hi lo v)
/-- The bits of a register that software has written in this cc (R519). -/
def State.swWrote (s : State) (off : Nat) : W32 := (FMap.find? s.swBits off).getD 0
/-- Adds to a saturating count field; the increment is lost in a cc in which software writes the field (R102, R160, R191, R228,
R382, R441, R519, R520). -/
def State.rcount (s : State) (off hi lo n : Nat) : State :=
  if bitsOf (s.swWrote off) hi lo ≠ 0 then s else
  s.rfSet off hi lo (satAdd (s.rf off hi lo) n (2 ^ (hi + 1 - lo) - 1))
/-- Hardware clears a bit that software can write, and wins over software in this cc (R520, R557). -/
def State.hwClear (s : State) (off bit : Nat) : State :=
  let s := s.rfSet off bit bit 0
  { s with hwNow := FMap.insert s.hwNow off (setBits ((FMap.find? s.hwNow off).getD 0) bit bit 1) }
/-- The value that a register holds after the next tick (R44, R516). -/
def State.rpend (s : State) (off : Nat) : W32 := (FMap.find? s.pend off).getD (s.rget off)

/-! ## Events and interrupts -/

/-- The interrupt group of a status register (R521). -/
def intGroup (off : Nat) : Option Nat :=
  match blkOf off with
  | some (.glb, _, r) =>
    if r = 0x780 then some 0 else if r = 0x20 then some 1 else if r = 0x28 then some 2 else if r = 0x34 then some 3
    else if r = 0x810 then some 4 else if r = 0x44C then some 5
    else if r = 0x704 || r = 0x72C || r = 0x748 then some 6 else none
  | some (.band, _, r) => if r = 8 then some 7 else if r = 0x3C then some 8 else none
  | some (.lodge, _, r) => if r = 8 || r = 0x10 || r = 0x20C then some 9 else none
  | some (.ice, _, r) => if r = 0xC then some 9 else none
  | some (.reg, _, r) => if r = 0x808 then some 10 else none
  | some (.blv, _, r) => if r = 0x10 || r = 0x120 then some 11 else none
  | some (.pav, p, r) => if r = 0x100 || r = 0x150 || r = 0x180 then some (12 + p) else none
  | some (.chan, c, r) => if r = 0xC || r = 0x74 || r = 0x54 then some (28 + c) else none
  | some (.stack, k, r) => if r = 4 || r = 0x74 || r = 0x54 then some (44 + k) else none
  | some (.port, n, r) => if r = 0xC || r = 0x44 || r = 0x84 || r = 0x104 then some (52 + n / 8) else none
  | _ => none

/-- An event of a group sets its vector's pending bit when the group is enabled (R522). -/
def State.groupEvent (s : State) (g : Nat) : State :=
  if s.rbit (R.glbIntRoute g) 31 then
    s.modGlb fun x => { x with msixPend := x.msixPend ||| (1 <<< s.rf (R.glbIntRoute g) 5 0) }
  else s

/-- The value of a status register after an event: the bit set and the sequence advanced modulo 256 (R515). -/
def eventWord (v : W32) (bit : Nat) : W32 := setBits (setBits v bit bit 1) 7 0 ((bitsOf v 7 0 + 1) % 256)

/-- The single-bit event fields of a status register (R521). -/
def rsqBits (off : Nat) : Nat :=
  match regAt off with
  | none => 0
  | some (_, _, _, d) => d.fields.foldl (fun m f => if f.acc = .rsq && f.hi = f.lo then m + 2 ^ f.lo else m) 0

/-- What a status register would hold had software not cleared it in this cc: a hardware event of the same cc wins (R519). -/
def State.uncleared (s : State) (off : Nat) : W32 :=
  match FMap.find? s.swNow off with
  | none => s.rget off
  | some old => setBits (s.rget off ||| (old &&& BitVec.ofNat 32 (rsqBits off))) 7 0 (bitsOf old 7 0)
/-- A hardware event's word in a status register, also where software has written the register in this cc (R515, R519). -/
def State.hwSet (s : State) (off : Nat) (v : W32) : State :=
  let s := s.rset off v
  if (FMap.find? s.swNow off).isSome then { s with swNow := FMap.insert s.swNow off v } else s

/-- An event of a status register (R515, R521). -/
def State.raise (s : State) (off bit : Nat) : State :=
  let s := s.hwSet off (eventWord (s.uncleared off) bit)
  match intGroup off with
  | none => s
  | some g => s.groupEvent g

/-! ## Counters (R535 to R540) -/

/-- Software has written the counter in this cc, and the increments of the cc are lost (R519, R539). -/
def State.cntHeld (s : State) (i : Nat) : Bool := (FMap.find? s.swNow (R.blvImgLo i)).isSome

/-- Adds to one counter: it wraps at 2^48 and its OVF bit is sticky (R538). What it held before the cc is kept, for a software
write of the same cc (R539). -/
def State.cntRaw (s : State) (i n : Nat) : State :=
  if s.cntHeld i then s
  else if h : i < 552 then
    let v := s.blv.cnt[i].toNat + n
    let s' := s.modBlv fun b =>
      { b with cnt := b.cnt.set i (BitVec.ofNat 48 v), ovf := b.ovf.set i (b.ovf[i] || decide (2 ^ 48 ≤ v))
               cntOld := if (FMap.find? b.cntOld i).isSome then b.cntOld else FMap.insert b.cntOld i (b.cnt[i], b.ovf[i]) }
    if decide (2 ^ 48 ≤ v) && !s.blv.ovf[i] then s'.raise R.blvEvt 8 else s'
  else s

/-- Adds to a counter; global counters that select code 0x09 without a Plot filter count its overflow (R536, R537). -/
def State.cntAdd (s : State) (i n : Nat) : State :=
  let s' := s.cntRaw i n
  if s.cntHeld i then s
  else if h : i < 552 then
    if s.blv.cnt[i].toNat + n < 2 ^ 48 then s'
    else (List.range 8).foldl (fun s k =>
      let v := (FMap.find? s.csr (R.blvGsel k)).getD 0
      if v.getLsbD 31 && !v.getLsbD 30 && bitsOf v 7 0 = 9 then s.cntRaw (544 + k) 1 else s) s'
  else s'

/-- The Plot that a selector names; none while PLOT_EN is clear (R536). -/
def selPlot (v : W32) : Option PlotId := if v.getLsbD 30 then some (BitVec.ofNat 6 (bitsOf v 29 24)) else none

/-- Events of a code at a location: every enabled selector of the instance that names the code counts what its filter passes, `q none`
without a Plot filter and `q (some k)` for Plot k (R536, R537). `sel` is the first selector's offset, `base` the first programmable
counter, `k` how many. -/
def State.cntSel (s : State) (sel base k code : Nat) (q : Option PlotId → Nat) : State :=
  (List.range k).foldl (fun s i =>
    let v := (FMap.find? s.csr (sel + 4 * i)).getD 0
    if v.getLsbD 31 && bitsOf v 7 0 = code && q (selPlot v) ≠ 0 then s.cntAdd (base + i) (q (selPlot v)) else s) s

/-- The same while RUN is in force (R536). -/
def State.cntBy (s : State) (sel base k code : Nat) (q : Option PlotId → Nat) : State :=
  if !s.rbit R.blvCntCtl 30 then s else s.cntSel sel base k code q

/-- `n` events charged to a Plot or to none: a Plot filter passes those of its own Plot (R536). -/
def ofPlot (plot : Option PlotId) (n : Nat) (f : Option PlotId) : Nat := if f.isNone || f = plot then n else 0

/-- The quantity of a list of items, each with its Plot (R536). -/
def byPlot (xs : List (Option PlotId)) (f : Option PlotId) : Nat := if f.isNone then xs.length else (xs.filter fun x => x = f).length

/-- Events at a location, charged to a Plot or to none. -/
def State.cntEv (s : State) (sel base k code : Nat) (plot : Option PlotId) (n : Nat := 1) : State := s.cntBy sel base k code (ofPlot plot n)

def State.cntPav (s : State) (p : PavId) (code : Nat) (plot : Option PlotId := none) (n : Nat := 1) : State :=
  s.cntEv (R.pavPmcSel p 0) (16 * p + 6) 10 code plot n
def State.cntChan (s : State) (c : ChanId) (code : Nat) (plot : Option PlotId := none) (n : Nat := 1) : State :=
  s.cntEv (R.chanPmcSel c 0) (352 + 8 * c) 8 code plot n
def State.cntStk (s : State) (k : StackId) (code : Nat) (plot : Option PlotId := none) (n : Nat := 1) : State :=
  s.cntEv (R.stackPmcSel k 0) (480 + 8 * k) 8 code plot n
/-- Global events; HIBERNATE leaves the Belvedere without power (R427, R540). -/
def State.cntGlob (s : State) (code : Nat) (n : Nat := 1) (plot : Option PlotId := none) : State :=
  if s.glb.pwr = .hibernate then s else s.cntEv (R.blvGsel 0) 544 8 code plot n
/-- A port-group counter counts only the ports of its PORT_MASK (R536). -/
def State.cntPort (s : State) (n : PortId) (code : Nat) (plot : Option PlotId := none) (m : Nat := 1) : State :=
  if !s.rbit R.blvCntCtl 30 then s else
  let q := n.val / 8
  (List.range 8).foldl (fun s i =>
    let v := (FMap.find? s.csr (R.portPmcSel (8 * q) i)).getD 0
    if v.getLsbD 31 && bitsOf v 7 0 = code && v.getLsbD (16 + n.val % 8) && ofPlot plot m (selPlot v) ≠ 0 then s.cntAdd (256 + 8 * q + i) m
    else s) s

/-! ## Event records, rejections and guard events -/

/-- Capture runs and takes records of a kind (R550, R557). -/
def State.traces (s : State) (kind : Nat) : Bool :=
  s.rbit R.blvTrcCtl 31 && s.glb.pwr ≠ .hibernate && kind = [0x10, 0x20, 0x30, 0x40].getD (s.rf R.blvTrcCfg 31 30) 0
/-- A traced occurrence of this cc (R550). -/
def State.occur (s : State) (o : TrcOcc) : State := if s.traces o.kind then s.modBlv fun b => { b with occ := b.occ ++ [o] } else s
/-- PLOT of a record: 0xFF when nothing is charged (R549). -/
def plotByte (k : Option PlotId) : Nat := k.elim 0xFF (·.toNat)

/-- Pushes a record into the Lodge event queue, a flag queue of 256 that takes nothing in the place of a record that left in the same
cc (R47 to R49, R355, R471, R474). A record that enters is a traced event (R550). -/
def State.evPush (s : State) (r : EvRec) : State :=
  let s := s.cntGlob 5
  if s.lodge.evq.length + s.lodge.evPop.at_ s.now < 256 then
    (s.modLodge fun l => { l with evq := l.evq ++ [{ r with at_ := s.now }] }).occur
      { src := r.inst % 256, kind := 0x40, port := 0xFF, plot := 0xFF, addr := BitVec.ofNat 48 (r.addr / 64), detail := Config.evKind r.kind }
  else
    let o := R.lodgeEvqStat
    let v := s.uncleared o
    let s := s.hwSet o (setBits v 7 0 ((bitsOf v 7 0 + 1) % 256))
    (s.rcount o 31 20 1).groupEvent 9

/-- Internal numbers of the record kinds; their codes are free values (R471, Config.evKind). -/
inductive EvKind where
  | uncorrectable
  | poisonMade
  | tagParity
  | halt
  | failed
  | hard
  | repair
  | fatal
  | power
  | guard
  | cfgReject
  | sessionFail
  | trip
  | notHome
  | agentLost
  | dirRecovered
  | arbourLoss
  | linkDown
  | sectorPoison
deriving DecidableEq, Repr

def EvKind.num : EvKind → Nat
  | .uncorrectable => 0 | .poisonMade => 1 | .tagParity => 2 | .halt => 3 | .failed => 4 | .hard => 5 | .repair => 6
  | .fatal => 7 | .power => 8 | .guard => 9 | .cfgReject => 10 | .sessionFail => 11 | .trip => 12 | .notHome => 13
  | .agentLost => 14 | .dirRecovered => 15 | .arbourLoss => 16 | .linkDown => 17 | .sectorPoison => 18

/-- An event record with the timebase (R355). -/
def State.event (s : State) (k : EvKind) (inst addr : Nat) (cls : Nat := 0) (dev : Nat := 0x7F) (detail : Nat := 0) (store : Store := .none) : State :=
  s.evPush { sec := s.band.sec, ns := s.band.ns, kind := k.num, inst := inst, addr := addr, cls := cls, dev := dev, detail := detail, store := store }

/-- Place of a Lodge service among the budgets (R55). -/
def Service.num : Service → Nat
  | .train => 0
  | .scrub => 1
  | .dict => 2
  | .ice => 3

/-- A step of a Lodge service that takes `units` of 50 ns of Lodge time: it starts only if it fits in what is left of the service's
budget for the tick (R45). -/
def State.inBudget (s : State) (svc : Service) (units : Nat) (act : State → State) : State :=
  let i := Machine.Service.num svc
  let u := s.glb.used.getD i 0 + units
  if s.glb.scaled.getD i 0 < u then s else act (s.modGlb fun g => { g with used := g.used.set i u })

/-- A fatal cause (R354): its bit, an event and a record. -/
def State.fatal (s : State) (bit : Nat) : State :=
  ((s.raise R.glbFatalStat bit).modGlb fun g => { g with fatalNew := true }).event .fatal bit 0

/-- Reasons of CFG_REJECT_INFO (R529). -/
inductive Reason where
  | range
  | notIdle
  | busy
  | overcommit
deriving DecidableEq, Repr

def Reason.code : Reason → Nat
  | .range => 1
  | .notIdle => 2
  | .busy => 3
  | .overcommit => 4

/-- A rejected write or command (R518, R529, R471). -/
def State.cfgReject (s : State) (off bit : Nat) (r : Reason) : State :=
  let s := s.rset R.glbCfgRejectInfo (BitVec.ofNat 32 (((off / 4) % 2 ^ 24) * 256 + bit * 8 + r.code))
  (s.raise R.glbCfgRejectEvt 8).event .cfgReject 0 off (detail := bit)

/-- Master number of ACCESS_INFO (R528). -/
def Master.num : Master → Nat
  | .port n => n.val
  | .lodge => 0x7E
  | .host => 0x7F

/-- An ACCESS_EVT event with its record of the access (R528): 8 GUARD, 9 NARROW, 10 CROSS, 11 UNMAPPED. -/
def State.accessEvt (s : State) (m : Master) (off : Nat) (write : Bool) (bit : Nat) : State :=
  let s := s.rset R.glbAccessInfo (BitVec.ofNat 32 (((off / 4) % 2 ^ 24) * 256 + (if write then 128 else 0) + Master.num m))
  let s := s.raise R.glbAccessEvt bit
  if bit = 8 then s.event .guard (Master.num m) off else s

/-- The level of an interrupt group member: any RSQ event bit set (R521). -/
def statLevel (s : State) (off : Nat) : Bool := (s.rget off).toNat &&& rsqBits off ≠ 0

/-- The level of each interrupt group (R521). -/
def groupLevel (s : State) (g : Nat) : Bool :=
  if g = 0 then statLevel s R.glbFatalStat
  else if g = 1 then statLevel s R.glbAccessEvt
  else if g = 2 then statLevel s R.glbCfgRejectEvt
  else if g = 3 then statLevel s R.glbStartEvt
  else if g = 4 then statLevel s R.glbPwrEvt
  else if g = 5 then statLevel s R.glbIlStat
  else if g = 6 then statLevel s R.glbHcStat || statLevel s R.glbHcMopStat || statLevel s R.glbPlaceStat
  else if g = 7 then statLevel s R.bandSvcStat
  else if g = 8 then statLevel s R.bandTimeEvt
  else if g = 9 then statLevel s R.lodgeMbxStat || s.rf R.lodgeEvqStat 7 0 ≠ 0 || statLevel s R.lodgeAgeEvt || statLevel s R.iceEvt
  else if g = 10 then statLevel s R.regEvt
  else if g = 11 then statLevel s R.blvEvt || statLevel s R.blvTrcStat
  else if g < 28 then statLevel s (R.pavDirStat (g - 12)) || statLevel s (R.pavPlaceEvt (g - 12)) || statLevel s (R.pavErrStat (g - 12))
  else if g < 44 then statLevel s (R.chanEvt (g - 28)) || statLevel s (R.chanErrEvt (g - 28)) || statLevel s (R.chanSurveyStat (g - 28))
  else if g < 52 then statLevel s (R.stackEvt (g - 44)) || statLevel s (R.stackErrEvt (g - 44)) || statLevel s (R.stackSurveyStat (g - 44))
  else (List.range 8).any fun j => let n := 8 * (g - 52) + j
    statLevel s (R.portLinkEvt n) || statLevel s (R.portCohEvt n) || statLevel s (R.portIoEvt n) || statLevel s (R.portSvcStat n)

/-! ## Addresses and the interleave (R10, R26, R29, R103, R109, R194, R236, R283) -/

/-- PA[51:12]. -/
def sectorOf (la : LineAddr) : Nat := la.toNat / 64
def subOf (la : LineAddr) : Nat := la.toNat % 64
def setOf (la : LineAddr) : Nat := sectorOf la % 16384
def tagOf (la : LineAddr) : BitVec 26 := BitVec.ofNat 26 (sectorOf la / 16384)
/-- The line of a tag, set and sub-block. -/
def lineOf (tag : BitVec 26) (set sub : Nat) : LineAddr := BitVec.ofNat 46 ((tag.toNat * 16384 + set) * 64 + sub)
/-- Bit k of each nibble of PA[51:12], nibble g at bit g. -/
def nibbleBits (sec k : Nat) : Nat :=
  (List.range 10).foldl (fun a g => a + (if sec.testBit (4 * g + k) then 2 ^ g else 0)) 0
/-- Hash bit b (R26). -/
def hashBit (masks : Nat → Nat) (sec b : Nat) : Bool :=
  (List.range 4).foldl (fun a k => xor a (popBits (masks (4 * b + k) &&& nibbleBits sec k) 10 % 2 == 1)) false
/-- The interleave hash of PA[51:12] under the fold masks (R26). -/
def hashWith (masks : Nat → Nat) (sec : Nat) : Nat :=
  (List.range 4).foldl (fun a b => a + (if hashBit masks sec b then 2 ^ b else 0)) 0
def State.fold (s : State) (j : Nat) : Nat := s.rf (R.glbIlFold j) 9 0
def State.hash (s : State) (la : LineAddr) : Nat := hashWith s.fold (sectorOf la)
/-- The home pavilion: the interleave-map entry of the hash (R29). -/
def State.home (s : State) (la : LineAddr) : PavId := pavOf (s.glb.ilMap.getD (s.hash la) 0)
def State.chanFor (s : State) (la : LineAddr) : ChanId := chanOf (s.hash la)
def dirSet (la : LineAddr) : Nat := (la.toNat % 4096) ^^^ (la.toNat / 4096 % 4096)
def dirTag (la : LineAddr) : BitVec 34 := BitVec.ofNat 34 (la.toNat / 4096)
/-- The line of a directory tag and set (R109). -/
def dirLine (tag : BitVec 34) (set : Nat) : LineAddr := BitVec.ofNat 46 (tag.toNat * 4096 + (set ^^^ (tag.toNat % 4096)))
def ghSet (la : LineAddr) : Nat := (la.toNat % 2048) ^^^ (la.toNat / 2048 % 2048) ^^^ (la.toNat / 2 ^ 22 % 2048)
def ghTag (la : LineAddr) : BitVec 35 := BitVec.ofNat 35 (la.toNat / 2048)
def ghLine (tag : BitVec 35) (set : Nat) : LineAddr :=
  BitVec.ofNat 46 (tag.toNat * 2048 + (set ^^^ (tag.toNat % 2048) ^^^ (tag.toNat / 2 ^ 11 % 2048)))
/-- Address in GiB. -/
def gibOf (la : LineAddr) : Nat := la.toNat / 2 ^ 24

/-- The entry of a kept range list that contains a line (R103). -/
def rangeOf (rs : List (Nat × Nat × Nat)) (la : LineAddr) : Option (Nat × Nat × Nat) :=
  rs.find? fun r => decide (r.2.1 ≤ gibOf la) && decide (gibOf la < r.2.1 + r.2.2)
def State.isHome (s : State) (la : LineAddr) : Bool := (rangeOf s.glb.ranges la).isSome

/-- The kept home ranges for a node ID, judged in ascending order, and whether any applicable one is ignored (R103,
R104). -/
def keptRanges (s : State) (node : Nat) : List (Nat × Nat × Nat) × Bool :=
  (List.range 16).foldl (fun acc i =>
    let b := s.rget (R.glbHomeBase i); let size := s.rf (R.glbHomeSize i) 13 0
    let nd := bitsOf b 30 23; let base := bitsOf b 21 0
    if b.getLsbD 31 && (nd = node || nd = 0xFF) then
      let total := (acc.1.map fun r => r.2.2).sum
      if size = 0 || acc.1.any (fun r => decide (base < r.2.1 + r.2.2) && decide (r.2.1 < base + size)) || decide (2 ^ 22 < base + size)
          || decide (8192 < total + size) then (acc.1, true)
      else (acc.1 ++ [(i, base, size)], acc.2)
    else acc) ([], false)

/-- Takes the applicable set that a node ID gives (R104, R105). -/
def State.takeRanges (s : State) (node : Nat) : State :=
  let k := keptRanges s node
  s.modGlb fun g => { g with ranges := k.1, rangeIgnored := k.2 }

/-- Takes the bits at the given places out of a number and closes the rest up (R283). -/
def dropBits (x : Nat) (places : List Nat) : Nat → Nat → Nat → Nat
  | 0, _, _ => 0
  | n + 1, src, dst =>
    if places.contains src then dropBits x places n (src + 1) dst
    else (if x.testBit src then 2 ^ dst else 0) + dropBits x places n (src + 1) (dst + 1)

/-- The sizes of the map's entries before one (R283). -/
def prior (rs : List (Nat × Nat × Nat)) (i : Nat) : Nat := ((rs.filter fun r => decide (r.1 < i)).map fun r => r.2.2).sum

/-- The local line number of a line on its channel, if the fixed map holds it (R283 to R286). -/
def State.llOf (s : State) (la : LineAddr) : Option Nat :=
  match rangeOf s.glb.mapRanges la with
  | none => none
  | some r =>
    let ho := (gibOf la - r.2.1 + prior s.glb.mapRanges r.1) * 2 ^ 18 + sectorOf la % 2 ^ 18
    some (dropBits ho s.glb.pivots 31 0 0 * 64 + subOf la)

/-- Puts the low bits of `v` back at the given places, the rest of `x` around them. -/
def addBits (x v : Nat) (places : List Nat) : Nat → Nat → Nat
  | 0, _ => 0
  | n + 1, dst =>
    if places.contains dst then (if v.testBit 0 then 2 ^ dst else 0) + addBits x (v / 2) places n (dst + 1)
    else (if x.testBit 0 then 2 ^ dst else 0) + addBits (x / 2) v places n (dst + 1)

/-- The line of a local line number of a channel: the pivots are the ones that give the channel's hash (R283). -/
def State.paOfLl (s : State) (c ll : Nat) : LineAddr :=
  let cand := (List.range 16).map fun v =>
    let ho := addBits (ll / 64) v s.glb.pivots 31 0
    let g := ho / 2 ^ 18
    let r := (s.glb.mapRanges.find? fun r => decide (prior s.glb.mapRanges r.1 ≤ g) && decide (g < prior s.glb.mapRanges r.1 + r.2.2)).getD (0, 0, 0)
    BitVec.ofNat 46 (((g - prior s.glb.mapRanges r.1 + r.2.1) * 2 ^ 18 + ho % 2 ^ 18) * 64 + ll % 64)
  (cand.find? fun (la : LineAddr) => s.hash la = c).getD 0

/-- Home-range 64 MiB-unit requirement of each channel (R284). -/
def mapReqOf (rs : List (Nat × Nat × Nat)) : Nat := (rs.map fun r => r.2.2).sum

/-- The four pivots among PA[29:12], by the column vectors of the fold masks (R282). -/
def choosePivots (masks : Nat → Nat) : List Nat :=
  let col (i : Nat) : Nat := (List.range 4).foldl (fun a b => a + (if (masks (4 * b + i % 4)).testBit (i / 4) then 2 ^ b else 0)) 0
  (List.range 18).foldl (fun (acc : List Nat × List Nat) i =>
    if acc.1.length = 4 || acc.2.contains (col i) then acc
    else (acc.1 ++ [i], acc.2 ++ acc.2.map fun x => x ^^^ col i)) ([], [0]) |>.1

/-! ## Messages -/

namespace Op
def rdS : BitVec 8 := 0x01
def rdO : BitVec 8 := 0x02
def upg : BitVec 8 := 0x03
def rdOnce : BitVec 8 := 0x04
def wrLine : BitVec 8 := 0x05
def wrPart : BitVec 8 := 0x06
def wrStash : BitVec 8 := 0x07
def cClean : BitVec 8 := 0x08
def cInv : BitVec 8 := 0x09
def cCleanInv : BitVec 8 := 0x0A
def fence : BitVec 8 := 0x0B
def fwdS : BitVec 8 := 0x20
def fwdO : BitVec 8 := 0x21
def inv : BitVec 8 := 0x22
def rcl : BitVec 8 := 0x23
def stashOffer : BitVec 8 := 0x24
def done : BitVec 8 := 0x40
def comp : BitVec 8 := 0x41
def invAck : BitVec 8 := 0x42
def fwdAck : BitVec 8 := 0x43
def rspCrossed : BitVec 8 := 0x44
def evAck : BitVec 8 := 0x45
def stashAcc : BitVec 8 := 0x46
def stashDecl : BitVec 8 := 0x47
def ioAck : BitVec 8 := 0x48
def dataS : BitVec 8 := 0x60
def dataE : BitVec 8 := 0x61
def dataM : BitVec 8 := 0x62
def dataO : BitVec 8 := 0x63
def dataI : BitVec 8 := 0x64
def wbD : BitVec 8 := 0x68
def evC : BitVec 8 := 0x69
def recallD : BitVec 8 := 0x6A
def fwdAckD : BitVec 8 := 0x6B
def ioDat : BitVec 8 := 0x6C
def ioWr : BitVec 8 := 0x80
def ioRd : BitVec 8 := 0xA0
end Op

namespace Status
def ok : BitVec 4 := 0
def notHome : BitVec 4 := 1
def agentLost : BitVec 4 := 2
def fenceLoss : BitVec 4 := 3
def ioTimeout : BitVec 4 := 4
def unsupported : BitVec 4 := 5
end Status

/-- Slots of a message by its opcode (R79). -/
def slotsOf (op : BitVec 8) : Nat :=
  if op = Op.wrLine || op = Op.wrStash || op = Op.dataS || op = Op.dataE || op = Op.dataM || op = Op.dataO || op = Op.dataI
    || op = Op.wbD || op = Op.recallD || op = Op.fwdAckD || op = Op.ioDat then 5
  else if op = Op.wrPart || op = Op.ioWr then 6 else 1

/-- The class code of a message (R67, R79): 0 REQ, 1 FWD, 2 RSP, 3 DAT, 4 PST, 5 NPI. -/
def classOf (op : BitVec 8) : Nat := op.toNat / 32

/-- The header slot (R77). -/
def encodeHdr (h : Hdr) : BitVec 128 :=
  BitVec.ofNat 128 (h.opcode.toNat + h.tid.toNat * 2 ^ 8 + h.oid.toNat * 2 ^ 18 + h.plot.toNat * 2 ^ 24 + h.pa.toNat * 2 ^ 30
    + h.tport.toNat * 2 ^ 76 + h.priv.toNat * 2 ^ 83 + h.user.toNat * 2 ^ 84 + h.retry.toNat * 2 ^ 85 + h.poison.toNat * 2 ^ 86
    + h.relaxed.toNat * 2 ^ 87 + h.status.toNat * 2 ^ 88 + h.htid.toNat * 2 ^ 92 + h.size.toNat * 2 ^ 106 + h.offset.toNat * 2 ^ 109
    + h.perr.toNat * 2 ^ 115)

/-- The header that a slot spells; the reserved bits are ignored (R77). -/
def decodeHdr (x : BitVec 128) : Hdr :=
  { opcode := BitVec.ofNat 8 (bitsOf x 7 0), tid := BitVec.ofNat 10 (bitsOf x 17 8), oid := BitVec.ofNat 6 (bitsOf x 23 18)
    plot := BitVec.ofNat 6 (bitsOf x 29 24), pa := BitVec.ofNat 46 (bitsOf x 75 30), tport := BitVec.ofNat 7 (bitsOf x 82 76)
    priv := x.getLsbD 83, user := x.getLsbD 84, retry := x.getLsbD 85, poison := x.getLsbD 86, relaxed := x.getLsbD 87
    status := BitVec.ofNat 4 (bitsOf x 91 88), htid := BitVec.ofNat 14 (bitsOf x 105 92), size := BitVec.ofNat 3 (bitsOf x 108 106)
    offset := BitVec.ofNat 6 (bitsOf x 114 109), perr := x.getLsbD 115 }

/-- The slots of a message: header, byte mask of a partial write, data (R81). -/
def encodeMsg (m : Msg) : List (BitVec 128) :=
  let k := slotsOf m.hdr.opcode
  let data := (List.range 4).map fun i => BitVec.ofNat 128 (m.data.toNat >>> (128 * i))
  [encodeHdr m.hdr] ++ (if k = 6 then [m.mask.setWidth 128] else []) ++ (if k = 1 then [] else data)

/-- The message that its slots spell (R81). -/
def decodeMsg (xs : List (BitVec 128)) : Msg :=
  let h := decodeHdr (xs.headD 0)
  let k := slotsOf h.opcode
  let rest := xs.drop (if k = 6 then 2 else 1)
  let data := (List.range 4).foldl (fun a i => a + (rest.getD i 0).toNat * 2 ^ (128 * i)) 0
  { hdr := h, mask := if k = 6 then (xs.getD 1 0).setWidth 64 else 0, data := if k = 1 then 0 else BitVec.ofNat 512 data }

/-- A link that carries messages to its agent now or will resume to (R129, R177). -/
def Link.up (l : Link) : Bool := l.st = .active || l.st = .lowpower
/-- A link in service, so that messages queued for it are kept (R93). -/
def Link.keeps (l : Link) : Bool := l.st = .active || l.st = .lowpower || l.st = .recovery

/-- Queues a message for a port. A port whose link is not in service has its answers discarded, which releases the TID
all the same (R93, R142). -/
def State.sendPort (s : State) (n : PortId) (m : Msg) (rel : Option (BitVec 10) := none) (fwd : Option (Nat × Nat) := none) : State :=
  if (s.port n).link.keeps then
    s.modLink n fun l => { l with egress := l.egress ++ [{ msg := m, relTid := rel, fwd := fwd, at_ := s.now }], idleSince := s.now }
  else
    match rel with
    | none => s
    | some t => s.modIo n fun io => { io with tids := io.tids.filter (· ≠ t) }

/-- Sends a message to a port over the crossbar; a DAT message is counted there (R24, R537). -/
def State.send (s : State) (n : PortId) (m : Msg) (rel : Option (BitVec 10) := none) (fwd : Option (Nat × Nat) := none) : State :=
  (if classOf m.hdr.opcode = 3 then s.cntGlob 8 1 (some m.hdr.plot) else s).sendPort n m rel fwd

/-- Returns a credit of a class to a port's agent in the next flit (R82). -/
def State.credBack (s : State) (n : PortId) (cls : Nat) : State :=
  s.modLink n fun l => { l with credRet := l.credRet.set cls (l.credRet.getD cls 0 + 1) }

/-- A REQ credit leaves the ingress queue: withheld while more are outstanding than CRED_CFG grants (R84, R85). -/
def State.reqCredBack (s : State) (n : PortId) : State :=
  if (s.port n).link.reqOut > s.rf (R.portCredCfg n) 9 0 then s.modLink n fun l => { l with reqOut := l.reqOut - 1 }
  else s.credBack n 0

/-- The port's message `num` came over the link as it is now trained; one from before a link loss gets no answer and returns no
credit (R82, R93). -/
def State.current (s : State) (n : PortId) (num : Nat) : Bool := decide ((s.port n).io.numUp ≤ num)

/-- The answer to a port's message `num`, made at the port (R93). -/
def State.answerPort (s : State) (n : PortId) (num : Nat) (m : Msg) (rel : Option (BitVec 10) := none) : State :=
  if s.current n num then s.sendPort n m rel else s

/-- The answer to a port's message `num`, over the crossbar (R24, R93). -/
def State.answerFor (s : State) (n : PortId) (num : Nat) (m : Msg) (rel : Option (BitVec 10) := none) : State :=
  (if classOf m.hdr.opcode = 3 then s.cntGlob 8 1 (some m.hdr.plot) else s).answerPort n num m rel

/-- The credit of a port's message `num` (R82). -/
def State.credFor (s : State) (n : PortId) (num cls : Nat) : State :=
  if s.current n num then (if cls = 0 then s.reqCredBack n else s.credBack n cls) else s

/-- A protocol error: LINK_EVT.PROTOCOL (R80, R100). -/
def State.protoErr (s : State) (n : PortId) : State := s.raise (R.portLinkEvt n) 13

/-- A draw of the hub's random source (R461): the model's free value. -/
def State.draw (s : State) : BitVec 128 × State := (Config.random s.freeCtr, s.drawn)

/-- Port serving its agent for stash targets and I/O dispatch: enabled, not being quiesced (R129, R177, R430). -/
def Port.serves (p : Port) : Bool := p.io.enabled && p.io.qst = .none

end Sys2Proof.Machine
end

