-- ==== Sys2Proof/Machine/Flags.lean ====
section
/-!
DEFINITION. The status registers: clearing by the event sequence.
-/

namespace Sys2Proof.Machine

/-- A status register after a write-back of its event sequence: every event bit clears when the low byte matches, and
nothing clears otherwise (R515). `bits` are the register's event bits; the sequence keeps its value. -/
def clearWord (v : W32) (bits : Nat) (w : W32) : W32 :=
  if bitsOf w 7 0 = bitsOf v 7 0 then v &&& ~~~(BitVec.ofNat 32 bits) else v

/-- LODGE.EVQ_STAT: a matching write sets OVERRUN, which is its sequence, to zero (R474, R515). -/
def clearOverrun (v : W32) (w : W32) : W32 := if bitsOf w 7 0 = bitsOf v 7 0 then setBits v 7 0 0 else v

end Sys2Proof.Machine
end

