-- ==== Sys2Proof/Machine/Codes.lean ====
section
/-!
DEFINITION. The check codes: CRC-32C, the flit FEC, the memory and stack Reed-Solomon codes, SECDED, the poison patterns
and the decode classes (R69, R70, R339 to R345), and the scrambler (R59).
-/

namespace Sys2Proof.Machine

/-! ## CRC-32C -/

/-- One bit of the reflected CRC-32C (R69). -/
def crcBits : Nat → Nat → Nat
  | 0, c => c
  | n + 1, c => crcBits n (if c.testBit 0 then (c >>> 1) ^^^ 0x82F63B78 else c >>> 1)

/-- CRC-32C of bytes with the initial value and final exclusive-or of R69. -/
def crc32c (bytes : List Byte) : W32 :=
  BitVec.ofNat 32 ((bytes.foldl (fun c b => crcBits 8 (c ^^^ b.toNat)) 0xFFFFFFFF) ^^^ 0xFFFFFFFF)

/-- One bit of the reflected CRC-32 of IEEE 802.3. -/
def ethCrcBits : Nat → Nat → Nat
  | 0, c => c
  | n + 1, c => ethCrcBits n (if c.testBit 0 then (c >>> 1) ^^^ 0xEDB88320 else c >>> 1)
/-- The frame check sequence of an Ethernet frame (R454, R591). PRESUMED: the CRC-32 of IEEE 802.3 (log entry 328). -/
def ethFcs (bytes : List Byte) : W32 :=
  BitVec.ofNat 32 ((bytes.foldl (fun c b => ethCrcBits 8 (c ^^^ b.toNat)) 0xFFFFFFFF) ^^^ 0xFFFFFFFF)

/-! ## Reed-Solomon codes -/

/-- Product in GF(2^w) with field polynomial `poly`, over `n` bits of `b`. -/
def gfMulN (w poly a b : Nat) : Nat → Nat
  | 0 => 0
  | n + 1 =>
    let r := gfMulN w poly (let a2 := a * 2; if a2.testBit w then a2 ^^^ poly else a2) (b / 2) n
    if b.testBit 0 then r ^^^ a else r

def gf8 (a b : Nat) : Nat := gfMulN 8 0x11D a b 8
def gf16 (a b : Nat) : Nat := gfMulN 16 0x1100B a b 16

/-- The two check symbols of generator (x + 1)(x + α), higher degree first (R70, R339, R340). -/
def rs2Encode (mul : Nat → Nat → Nat) (syms : List Nat) : Nat × Nat :=
  syms.foldl (fun r d => let fb := d ^^^ r.1; (r.2 ^^^ mul fb 3, mul fb 2)) (0, 0)

/-- Syndrome at a root, the highest-degree symbol first. -/
def rsSyndrome (mul : Nat → Nat → Nat) (root : Nat) (syms : List Nat) : Nat := syms.foldl (fun a d => mul a root ^^^ d) 0

/-- α to the power n. -/
def gfPow (mul : Nat → Nat → Nat) : Nat → Nat
  | 0 => 1
  | n + 1 => mul (gfPow mul n) 2

/-- The symbol in which a two-check word has its only error, with the error value; its index counts from the highest
degree. -/
def rs2Locate (mul : Nat → Nat → Nat) (syms : List Nat) : Option (Nat × Nat) :=
  let s0 := rsSyndrome mul 1 syms; let s1 := rsSyndrome mul 2 syms; let n := syms.length
  if s0 = 0 then none else
  ((List.range n).find? fun i => mul s0 (gfPow mul (n - 1 - i)) = s1).map fun i => (i, s0)

/-- Every syndrome of a two-check word is zero. -/
def rs2Clean (mul : Nat → Nat → Nat) (syms : List Nat) : Bool := rsSyndrome mul 1 syms = 0 && rsSyndrome mul 2 syms = 0

/-- Decode classes of R344. -/
inductive Cls where
  | good
  | corrected
  | poison
  | uncorrectable
deriving DecidableEq, Repr

/-- The code of a class in RAW_STAT (R370). -/
def Cls.code : Cls → Nat
  | .good => 0
  | .corrected => 1
  | .poison => 2
  | .uncorrectable => 3

/-- A decoded read: class, data and the device or symbol corrected (0x7F when none). -/
structure Dec where
  cls : Cls
  data : Line
  loc : Nat := 0x7F
deriving DecidableEq, Repr

/-! ### Main memory -/

def nib (d : Nat) (lo : Nat) : Nat := (d >>> lo) % 16

/-- Data symbol of device `d` in codeword `i` (R339, R340). -/
def memSym (g : MemGen) (data : Line) (i d : Nat) : Nat :=
  match g with
  | .d5 => (List.range 4).foldl (fun a t => a + nib data.toNat (32 * (4 * i + t) + 4 * d) * 16 ^ t) 0
  | .d4 => (List.range 2).foldl (fun a t => a + nib data.toNat (64 * (2 * i + t) + 4 * d) * 16 ^ t) 0

def memMul : MemGen → Nat → Nat → Nat
  | .d5 => gf16
  | .d4 => gf8
/-- Data devices and symbol width of a generation. -/
def memDev : MemGen → Nat
  | .d5 => 8
  | .d4 => 16
def symBits : MemGen → Nat
  | .d5 => 16
  | .d4 => 8

/-- The check bits of a line, codeword after codeword, the lower-numbered check device first (R356). -/
def memCheck (g : MemGen) (data : Line) : BitVec 128 :=
  BitVec.ofNat 128 ((List.range 4).foldl (fun a i =>
    let c := rs2Encode (memMul g) ((List.range (memDev g)).map (memSym g data i))
    a + (c.1 + c.2 * 2 ^ symBits g) * 2 ^ (2 * symBits g * i)) 0)

def memEncode (g : MemGen) (data : Line) : Stored := { data := data, check := memCheck g data }

/-- The poison pattern of a memory line (R345). -/
def memPoison (g : MemGen) : Stored :=
  { data := 0, check := BitVec.ofNat 128 (match g with
      | .d5 => (List.range 8).foldl (fun a i => a + 0x9B5D * 2 ^ (16 * i)) 0
      | .d4 => (List.range 8).foldl (fun a i => a + 0xB5 * 2 ^ (8 * i)) 0) }

/-- The symbols of codeword `i` of a stored line, device 0 first. -/
def memWord (g : MemGen) (st : Stored) (i : Nat) : List Nat :=
  (List.range (memDev g)).map (memSym g st.data i)
    ++ (List.range 2).map fun k => (st.check.toNat >>> (2 * symBits g * i + symBits g * k)) % 2 ^ symBits g

/-- Exclusive-or of an error value into the nibbles of device `d` in codeword `i`. -/
def memFlip (g : MemGen) (data : Line) (i d e : Nat) : Line :=
  match g with
  | .d5 => data ^^^ BitVec.ofNat 512 ((List.range 4).foldl (fun a t => a + nib e (4 * t) * 2 ^ (32 * (4 * i + t) + 4 * d)) 0)
  | .d4 => data ^^^ BitVec.ofNat 512 ((List.range 2).foldl (fun a t => a + nib e (4 * t) * 2 ^ (64 * (2 * i + t) + 4 * d)) 0)

/-- Decodes a memory line (R339, R340, R344): corrected only when every word in error locates the same device. -/
def memDecode (g : MemGen) (st : Stored) : Dec :=
  if st = memPoison g then { cls := .poison, data := 0 } else
  let bad := (List.range 4).filter fun i => !rs2Clean (memMul g) (memWord g st i)
  if bad = [] then { cls := .good, data := st.data } else
  let locs := bad.map fun i => (i, rs2Locate (memMul g) (memWord g st i))
  match locs.head? with
  | some (_, some (d, _)) =>
    if locs.all fun x => match x.2 with
      | some (d', _) => d' = d
      | none => false
    then
      let data := locs.foldl (fun a x => match x.2 with
        | some (_, e) => if d < memDev g then memFlip g a x.1 d e else a
        | none => a) st.data
      { cls := .corrected, data := data, loc := d }
    else { cls := .uncorrectable, data := 0 }
  | _ => { cls := .uncorrectable, data := 0 }

/-! ### Stacks -/

/-- Coefficients of the stack generator (x + 1)(x + α)…(x + α^7), below the leading one, highest degree first (R341). -/
def stackGen : List Nat :=
  (List.range 8).foldl (fun (g : List Nat) i =>
    let r := gfPow gf8 i
    ((g ++ [0]).zip (0 :: g)).map fun (x : Nat × Nat) => x.1 ^^^ gf8 r x.2) [1] |>.drop 1

/-- The eight check bytes of 64 data bytes (R341). -/
def stackCheckSyms (syms : List Nat) : List Nat :=
  syms.foldl (fun r d =>
    let fb := d ^^^ r.headD 0
    ((r.drop 1 ++ [0]).zip stackGen).map fun (x : Nat × Nat) => x.1 ^^^ gf8 fb x.2) (List.replicate 8 0)

def lineSyms (d : Line) : List Nat := (List.range 64).map fun k => (lineByte d k).toNat
def stackCheck (d : Line) : BitVec 128 :=
  BitVec.ofNat 128 (leNat ((stackCheckSyms (lineSyms d)).map (BitVec.ofNat 8)))
def stackEncode (d : Line) : Stored := { data := d, check := stackCheck d }
/-- The stack poison pattern (R345). -/
def stackPoison : Stored := { data := 0, check := BitVec.ofNat 128 0x5A5A5A5A5A5A5A5A }

/-- Decodes a sub-block (R341, R344): one symbol corrected. -/
def stackDecode (st : Stored) : Dec :=
  if st = stackPoison then { cls := .poison, data := 0 } else
  let syms := lineSyms st.data ++ (List.range 8).map fun k => (st.check.toNat >>> (8 * k)) % 256
  let syn := (List.range 8).map fun j => rsSyndrome gf8 (gfPow gf8 j) syms
  if syn.all (· = 0) then { cls := .good, data := st.data } else
  let e := syn.headD 0
  match (List.range 72).find? fun i => e ≠ 0 && (List.range 8).all fun j => decide (gf8 e (gfPow gf8 (j * (71 - i))) = syn.getD j 0) with
  | some i => { cls := .corrected, data := if i < 64 then setLineByte st.data i (lineByte st.data i ^^^ BitVec.ofNat 8 e) else st.data, loc := i }
  | none => { cls := .uncorrectable, data := 0 }

/-! ### SECDED -/

/-- Takes `n` members of a pool, one after the other; `k` numbers the draws. -/
def pick (pool : List Nat) (k : Nat) : Nat → List Nat
  | 0 => []
  | n + 1 =>
    let i := if pool.length = 0 then 0 else Config.hsiaoPick k % pool.length
    pool.getD i 0 :: pick (pool.eraseIdx i) (k + 1) n
/-- The 9-bit columns of a weight. -/
def columns (w : Nat) : List Nat := (List.range 512).filter fun x => popBits x 9 = w
/-- The columns of the data bits: distinct, of odd weight, and as light as they can be, the 84 of weight 3 and 44 of weight 5
(R342). Which 44 and their order are free. -/
def hsiaoCols : List Nat := pick (columns 3 ++ pick (columns 5) 0 44) 44 128
def hsiaoCol (j : Nat) : BitVec 9 := BitVec.ofNat 9 (hsiaoCols.getD j 0)

/-- The nine check bits of a 128-bit word (R342). -/
def secdedEnc (w : BitVec 128) : BitVec 9 :=
  (List.range 128).foldl (fun a j => if w.getLsbD j then a ^^^ hsiaoCol j else a) 0

def lineWord (d : Line) (w : Nat) : BitVec 128 := BitVec.ofNat 128 (d.toNat >>> (128 * w))
def chkWord (c : BitVec 36) (w : Nat) : BitVec 9 := BitVec.ofNat 9 (c.toNat >>> (9 * w))
/-- The 36 check bits of a line. -/
def sramCheck (d : Line) : BitVec 36 :=
  BitVec.ofNat 36 ((List.range 4).foldl (fun a w => a + (secdedEnc (lineWord d w)).toNat * 2 ^ (9 * w)) 0)
def sramEncode (d : Line) : SramLine := { data := d, check := sramCheck d }
/-- The Glasshouse poison pattern in WINDOW (R345). -/
def windowPoison : SramLine := { data := 0, check := BitVec.ofNat 36 (2 ^ 36 - 1) }

/-- One word: none if uncorrectable, else the bits to flip in data. -/
def secdedFix (d : BitVec 128) (c : BitVec 9) : Option (Bool × BitVec 128) :=
  let syn := secdedEnc d ^^^ c
  if syn = 0 then some (false, d)
  else match (List.range 128).find? fun j => hsiaoCol j = syn with
    | some j => some (true, d ^^^ BitVec.ofNat 128 (2 ^ j))
    | none => if (List.range 9).any fun j => syn = BitVec.ofNat 9 (2 ^ j) then some (true, d) else none

/-- Decodes an SRAM line (R342, R344); the poison pattern counts in WINDOW only. -/
def sramDecode (window : Bool) (l : SramLine) : Dec :=
  if window && l = windowPoison then { cls := .poison, data := 0 } else
  let ws := (List.range 4).map fun w => secdedFix (lineWord l.data w) (chkWord l.check w)
  if ws.any (· = none) then { cls := .uncorrectable, data := 0 } else
  let fixed := ws.map fun x => x.getD (false, 0)
  let data := (List.range 4).foldl (fun a w => a + (fixed.getD w (false, 0)).2.toNat * 2 ^ (128 * w)) 0
  { cls := if fixed.any (·.1) then .corrected else .good, data := BitVec.ofNat 512 data }

/-! ### Tag, Glasshouse and directory parity -/

def TagSt.code : TagSt → Nat
  | .invalid => 0
  | .valid => 1
  | .filling => 2
  | .evicting => 3
def tagStOf (n : Nat) : TagSt := if n = 0 then .invalid else if n = 1 then .valid else if n = 2 then .filling else .evicting

/-- The 170 bits of a tag entry (R196). -/
def TagEntry.pack (t : TagEntry) : BitVec 170 :=
  BitVec.ofNat 170 (t.tag.toNat + t.st.code * 2 ^ 26 + t.plot.toNat * 2 ^ 28 + t.present.toNat * 2 ^ 34 + t.dirty.toNat * 2 ^ 98
    + t.dsumA.toNat * 2 ^ 162 + t.dsumAP.toNat * 2 ^ 163 + t.dsumB.toNat * 2 ^ 164 + t.dsumBP.toNat * 2 ^ 165 + t.par.toNat * 2 ^ 166)
def TagEntry.unpack (x : BitVec 170) : TagEntry :=
  { tag := BitVec.ofNat 26 x.toNat, st := tagStOf (bitsOf x 27 26), plot := BitVec.ofNat 6 (bitsOf x 33 28)
    present := BitVec.ofNat 64 (bitsOf x 97 34), dirty := BitVec.ofNat 64 (bitsOf x 161 98)
    dsumA := x.getLsbD 162, dsumAP := x.getLsbD 163, dsumB := x.getLsbD 164, dsumBP := x.getLsbD 165, par := BitVec.ofNat 4 (bitsOf x 169 166) }

/-- The four parity bits that a tag entry's fields need (R196). -/
def TagEntry.parity (t : TagEntry) : BitVec 4 :=
  let x := t.pack.toNat
  let p (hi lo : Nat) : Nat := popBits (natBits x hi lo) (hi + 1 - lo) % 2
  BitVec.ofNat 4 (p 33 0 + 2 * p 97 34 + 4 * p 129 98 + 8 * p 161 130)
/-- A tag entry with its summaries and parity rewritten (R198). -/
def TagEntry.seal (t : TagEntry) : TagEntry :=
  let d := decide (t.dirty ≠ 0)
  let t := { t with dsumA := d, dsumB := d, dsumAP := !d, dsumBP := !d }
  { t with par := t.parity }
/-- An entry that passes every parity check of R196. -/
def TagEntry.parOk (t : TagEntry) : Bool := t.par = t.parity && (t.dsumAP != t.dsumA) && (t.dsumBP != t.dsumB)
/-- Known clean in the sense of R349. -/
def TagEntry.knownClean (t : TagEntry) : Bool :=
  (t.dsumAP != t.dsumA) && (t.dsumBP != t.dsumB) && !t.dsumA && !t.dsumB
    && (((t.par ^^^ t.parity) &&& 0xE ≠ 0) || t.dirty = 0)

def parityNat (n : Nat) (w : Nat) : Bool := popBits n w % 2 == 1
/-- The 42 bits of a Glasshouse entry (R349), in the order TAG, VALID, POISON, DIRTY A, DIRTY B, PAR_T, A's and B's parity. -/
def GhEntry.pack (t : GhEntry) : BitVec 42 :=
  BitVec.ofNat 42 (t.tag.toNat + t.valid.toNat * 2 ^ 35 + t.poison.toNat * 2 ^ 36 + t.dirtyA.toNat * 2 ^ 37 + t.dirtyB.toNat * 2 ^ 38
    + t.parT.toNat * 2 ^ 39 + t.parA.toNat * 2 ^ 40 + t.parB.toNat * 2 ^ 41)
def GhEntry.unpack (x : BitVec 42) : GhEntry :=
  { tag := BitVec.ofNat 35 x.toNat, valid := x.getLsbD 35, poison := x.getLsbD 36, dirtyA := x.getLsbD 37, dirtyB := x.getLsbD 38
    parT := x.getLsbD 39, parA := x.getLsbD 40, parB := x.getLsbD 41 }
def GhEntry.tagParity (t : GhEntry) : Bool := parityNat (t.pack.toNat % 2 ^ 37) 37
def GhEntry.seal (t : GhEntry) : GhEntry := { t with parT := t.tagParity, parA := t.dirtyA, parB := t.dirtyB }
def GhEntry.parOk (t : GhEntry) : Bool := t.parT = t.tagParity && t.parA = t.dirtyA && t.parB = t.dirtyB
def GhEntry.knownClean (t : GhEntry) : Bool := t.parA = t.dirtyA && t.parB = t.dirtyB && !t.dirtyA && !t.dirtyB

def DirSt.code : DirSt → Nat
  | .free => 0
  | .shared => 1
  | .exclusive => 2
  | .ownedShared => 3
def dirStOf (n : Nat) : DirSt := if n = 0 then .free else if n = 1 then .shared else if n = 2 then .exclusive else .ownedShared
/-- The 144 bits of a directory entry (R110). -/
def DirEntry.pack (d : DirEntry) : BitVec 144 :=
  BitVec.ofNat 144 (d.tag.toNat + d.st.code * 2 ^ 34 + d.owner.toNat * 2 ^ 36 + d.blk.toNat * 2 ^ 43 + d.sharers.toNat * 2 ^ 44 + d.par.toNat * 2 ^ 140)
def DirEntry.unpack (x : BitVec 144) : DirEntry :=
  { tag := BitVec.ofNat 34 x.toNat, st := dirStOf (bitsOf x 35 34), owner := BitVec.ofNat 7 (bitsOf x 42 36), blk := x.getLsbD 43
    sharers := BitVec.ofNat 96 (bitsOf x 139 44), par := BitVec.ofNat 4 (bitsOf x 143 140) }
def DirEntry.parity (d : DirEntry) : BitVec 4 :=
  let x := d.pack.toNat
  let p (hi lo : Nat) : Nat := popBits (natBits x hi lo) (hi + 1 - lo) % 2
  BitVec.ofNat 4 (p 43 0 + 2 * p 75 44 + 4 * p 107 76 + 8 * p 139 108)
/-- A directory entry with its parity rewritten (R111). -/
def DirEntry.seal (d : DirEntry) : DirEntry := { d with par := d.parity }

/-! ## Flits -/

/-- The positions that FEC code `i` covers, data in increasing position and then the two check bytes, the CRC bytes among
the data (R70). -/
def fecPos (i : Nat) : List Nat :=
  ((List.range 128).filter fun k => k % 3 = i && !(decide (118 ≤ k) && decide (k < 124))) ++ (List.range 124).filter fun k => k % 3 = i && decide (118 ≤ k)
/-- A flit's bytes with the FEC check bytes filled in (R70). -/
def fecEncode (bytes : List Byte) : List Byte :=
  (List.range 3).foldl (fun bs i =>
    let ps := fecPos i
    let c := rs2Encode gf8 ((ps.take (ps.length - 2)).map fun k => (bytes.getD k 0).toNat)
    (bs.set (ps.getD (ps.length - 2) 0) (BitVec.ofNat 8 c.1)).set (ps.getD (ps.length - 1) 0) (BitVec.ofNat 8 c.2)) bytes
/-- FEC decoding: the bytes, whether any was corrected, and whether every code decoded (R70). -/
def fecDecode (bytes : List Byte) : List Byte × Bool × Bool :=
  (List.range 3).foldl (fun acc i =>
    let ps := fecPos i
    let syms := ps.map fun k => (acc.1.getD k 0).toNat
    if rs2Clean gf8 syms then acc else
    match rs2Locate gf8 syms with
    | some (j, e) => let k := ps.getD j 0; (acc.1.set k (acc.1.getD k 0 ^^^ BitVec.ofNat 8 e), true, acc.2.2)
    | none => (acc.1, acc.2.1, false)) (bytes, false, true)

/-- The PAM4 level of two bits of a lane, first bit most significant, by Gray code (R59). -/
def pamLevel (first second : Bool) : Nat := if first then (if second then 2 else 3) else if second then 1 else 0
/-- The bits of a lane's bytes, least significant first, as PAM4 levels (R59). -/
def lanePam (bytes : List Byte) : List Nat :=
  bytes.flatMap fun b => (List.range 4).map fun k => pamLevel (b.getLsbD (2 * k)) (b.getLsbD (2 * k + 1))
/-- The levels on each of `w` lanes of a flit's bytes, byte k on lane k mod w (R59). -/
def flitPam (w : Nat) (bytes : List Byte) : List (List Nat) :=
  (List.range w).map fun j => lanePam ((List.range (128 / (if w = 0 then 1 else w))).map fun i => bytes.getD (i * w + j) 0)

/-- One step of the additive scrambler x^23 + x^18 + 1: the output bit and the next register (R59). DESIGN CHOICE: a
left-shifting Fibonacci register whose output bit is the feedback bit; the spec gives only G(x) and the seed. -/
def scrStep (r : Nat) : Bool × Nat :=
  let b := xor (r.testBit 22) (r.testBit 17)
  (b, (r * 2 + b.toNat) % 2 ^ 23)
/-- The keystream byte of a lane, first bit least significant, and the next register. -/
def scrByte : Nat → Nat → Nat × Nat
  | 0, r => (0, r)
  | n + 1, r => let (b, r') := scrStep r; let (k, r'') := scrByte n r'; (b.toNat + 2 * k, r'')
/-- Scrambles or descrambles bytes striped over `w` lanes (R59). -/
def scramble (w : Nat) : List Byte → Nat → List Nat → List Byte × List Nat
  | [], _, st => ([], st)
  | b :: rest, k, st =>
    let lane := k % (if w = 0 then 1 else w)
    let (key, r) := scrByte 8 (st.getD lane 0x7FFFFF)
    let (out, st') := scramble w rest (k + 1) (st.set lane r)
    ((b ^^^ BitVec.ofNat 8 key) :: out, st')

def flitBytes (x : BitVec 1024) : List Byte := leBytes x.toNat 128
def flitOf (bs : List Byte) : BitVec 1024 := BitVec.ofNat 1024 (leNat bs)

end Sys2Proof.Machine
end

