-- ==== Sys2Proof/Machine/Mem.lean ====
section
/-!
DEFINITION. The memory channels: geometry, queues, scheduling, lazy zero, decode handling, the error ledger
(chapters 7 and 8).
-/

namespace Sys2Proof.Machine

/-! ## Geometry (R280, R281, R286) -/

/-- Data rate in MT/s of a frequency code; 0 for a reserved one (R280). -/
def rateOf (code : Nat) : Nat :=
  [0, 2133, 2400, 2666, 2933, 3200, 0, 0, 4000, 4400, 4800, 5200, 5600, 6000, 6400, 0].getD code 0
/-- The generation that a code belongs to (R280). -/
def genOfCode (code : Nat) : Option MemGen :=
  if rateOf code = 0 then none else if code < 8 then some .d4 else some .d5
/-- Capacity of a DIMM in GiB: 16 data devices per rank and die (R279, R286). -/
def spdGib (d : Spd) : Nat := d.ranks * 2 ^ d.cidBits * 2 * d.densityGbit
/-- A configuration that R279 lists. -/
def spdOk (d : Spd) : Bool :=
  d.x4Registered && (d.ranks = 1 || d.ranks = 2) && decide (d.cidBits ≤ 2) &&
    (match d.gen with
      | .d5 => d.densityGbit = 16 || d.densityGbit = 24 || d.densityGbit = 32
      | .d4 => d.densityGbit = 8 || d.densityGbit = 16)
/-- Installed capacity in GiB. -/
def Chan.installed (ch : Chan) : Nat := (ch.slot0.elim 0 spdGib) + (ch.slot1.elim 0 spdGib)
/-- Used capacity in GiB, at most 512 (R281). -/
def Chan.used (ch : Chan) : Nat := min ch.installed 512
/-- Lines of the used capacity. -/
def Chan.lines (ch : Chan) : Nat := ch.used * 2 ^ 24
def Chan.memGen (ch : Chan) : MemGen := ch.gen.getD .d5

/-- Widths of SC, BG, COL, BA, CID, RANK, DIMM (R286). -/
def Chan.widths (ch : Chan) : List Nat :=
  let d := ch.slot0.getD { gen := .d5, densityGbit := 16, cidBits := 0, ranks := 1, maxCode := 0xE, ident := 0, x4Registered := true }
  let (sc, bg) := match ch.memGen with
    | .d5 => (1, 3)
    | .d4 => (0, 2)
  [sc, bg, 7, 2, d.cidBits, d.ranks - 1, if ch.slot1.isSome then 1 else 0]

/-- The DRAM fields of a local line number, in the order of R286, ROW last. -/
def splitFields : List Nat → Nat → List Nat
  | [], x => [x]
  | w :: ws, x => (x % 2 ^ w) :: splitFields ws (x / 2 ^ w)
def Chan.fields (ch : Chan) (ll : Nat) : List Nat := splitFields ch.widths ll
/-- The part that a channel or stack shares with the other kind. -/
def State.com (s : State) (m : MemUnit) : MemCom :=
  match m with
  | .chan c => (s.chan c).com
  | .stack k => (s.stk k).com
def State.modCom (s : State) (m : MemUnit) (f : MemCom → MemCom) : State :=
  match m with
  | .chan c => s.modChan c fun ch => { ch with com := f ch.com }
  | .stack k => s.modStk k fun x => { x with com := f x.com }

/-- The bank of a line: DIMM, rank, die, subchannel, bank group and bank as one number (R364). -/
def Chan.bank (ch : Chan) (ll : Nat) : Nat :=
  let f := ch.fields ll
  ((((f.getD 6 0 * 2 + f.getD 5 0) * 4 + f.getD 4 0) * 2 + f.getD 0 0) * 8 + f.getD 1 0) * 4 + f.getD 3 0
def Chan.row (ch : Chan) (ll : Nat) : Nat := (ch.fields ll).getD 7 0

/-! ## Training records (R309) -/

/-- The bytes of a training record before its CRC. -/
def TrainRec.bytes (r : TrainRec) : List Byte := leBytes r.code 1 ++ leBytes r.id0.toNat 36 ++ leBytes r.id1.toNat 36 ++ leBytes r.settings.toNat 64
/-- The record's CRC-32C matches. -/
def TrainRec.good (r : TrainRec) : Bool := r.crc = crc32c r.bytes
/-- A record with its CRC. -/
def trainRec (code : Nat) (id0 id1 : BitVec 288) (settings : BitVec 512) : TrainRec :=
  let r : TrainRec := { code := code, id0 := id0, id1 := id1, settings := settings, crc := 0 }
  { r with crc := crc32c r.bytes }

/-! ## Refresh (R300) -/

/-- The refresh interval in cc (R300). -/
def State.refreshCc (s : State) (m : MemUnit) : Nat :=
  let base := match m with
    | .chan c => if (s.chan c).memGen = .d4 then 23400 else 11700
    | .stack _ => 11700
  if (s.com m).ref2x then base / 2 else base
/-- Ranks of a channel's DIMMs, or pseudo-channels of a stack, as refresh numbers them. -/
def State.refRanks (s : State) (m : MemUnit) : List Nat :=
  match m with
  | .chan c => List.range ((s.chan c).slot0.elim 0 (·.ranks)) ++ (List.range ((s.chan c).slot1.elim 0 (·.ranks))).map (· + 2)
  | .stack _ => List.range 32
/-- Refresh begins as a unit enters service, its ranks staggered over one interval. -/
def State.refStart (s : State) (m : MemUnit) : State :=
  let rs := s.refRanks m; let iv := s.refreshCc m
  s.modCom m fun x => { x with postponed := rs.zipIdx.map fun y => (y.1, s.now + iv + y.2 * (iv / rs.length)) }
/-- Refresh commands that a rank or pseudo-channel is owed. -/
def State.refOwed (s : State) (m : MemUnit) (rank : Nat) : Nat :=
  match FMap.find? (s.com m).postponed rank with
  | none => 0
  | some due => if s.now < due then 0 else (s.now - due) / s.refreshCc m + 1
/-- A rank or pseudo-channel takes no command before its refresh: it is owed more than the 4 that may be postponed, or has no demand
command to postpone for. -/
def State.refBars (s : State) (m : MemUnit) (rank : Nat) (demand : Bool) : Bool :=
  let n := s.refOwed m rank
  decide (4 < n) || (decide (0 < n) && !demand)
/-- Demand commands wait for a rank of a channel. -/
def Chan.demandOn (ch : Chan) (rank : Nat) : Bool :=
  ch.rq.any (fun r => r.plot.isSome && ch.bank r.ll / 256 = rank) || ch.wq.any fun w => ch.bank w.ll / 256 = rank

/-! ## Lazy zero (R316 to R321) -/

def regionOf (ll : Nat) : Nat := ll / 32768
/-- The fill slot of a region. -/
def Chan.fillOf (ch : Chan) (region : Nat) : Option FillSlot :=
  (ch.fills.filterMap id).find? fun f => f.region = region
/-- A line has passed in a fill (R320). -/
def FillSlot.passed (f : FillSlot) (ll : Nat) : Bool := decide ((ll % 32768 + 32768 - f.start) % 32768 < f.issued)
/-- A read of the line goes to DRAM: its region is initialized, or its fill has passed it (R317, R320, R321). -/
def Chan.written (ch : Chan) (ll : Nat) : Bool :=
  ch.init.contains (regionOf ll) || ((ch.fillOf (regionOf ll)).elim false fun f => f.passed ll)
def Chan.freeSlots (ch : Chan) : Nat := (ch.fills.filter (· = none)).length
/-- Adds a region to the ascending list of initialized ones. -/
def insertNat (x : Nat) : List Nat → List Nat
  | [] => [x]
  | y :: ys => if x < y then x :: y :: ys else if x = y then y :: ys else y :: insertNat x ys
/-- Starts a fill in the lowest free slot (R319). -/
def startFill (f : FillSlot) : List (Option FillSlot) → List (Option FillSlot)
  | [] => []
  | none :: rest => some f :: rest
  | some g :: rest => some g :: startFill f rest

/-- What an unlisted line of DRAM holds: zeros with good check bits, or free values where contents were lost (R31). -/
def Chan.dramDefault (ch : Chan) (ll : Nat) : Stored :=
  match ch.lost with
  | none => {}
  | some n => memEncode ch.memGen (Config.lostLine n ll)
def Chan.dramGet (ch : Chan) (ll : Nat) : Stored := FMap.get ch.dramDefault ch.dram ll
def Chan.dramPut (ch : Chan) (ll : Nat) (st : Stored) : Chan := { ch with dram := FMap.put ch.dramDefault ch.dram ll st }

/-! ## Queues (R293 to R297, R395, R402) -/

/-- Drain mode follows the write-queue depth and its marks (R297). -/
def State.updDrain (s : State) (c : ChanId) : State :=
  let hi := s.rf (R.chanSched c) 31 24; let lo := s.rf (R.chanSched c) 23 16
  s.modChan c fun ch => { ch with drain := if hi ≤ ch.wq.length then true else if ch.wq.length ≤ lo then false else ch.drain }

/-- Charges one line to a Plot's budget at a channel; a budget stops at 0 (R402). -/
def State.charge (s : State) (c : ChanId) (plot : Option PlotId) : State :=
  match plot with
  | none => s
  | some k => s.modChan c fun ch => { ch with budget := ch.budget.set k.toNat (ch.budget[k.toNat]'(k.isLt) - 1) (k.isLt) }

/-- A channel in TRAINING, SELF_REFRESH or FREQ_CHANGE keeps what its queues hold and takes no push (R292, R304). -/
def Chan.away (ch : Chan) : Bool := ch.com.st = .training || ch.com.st = .selfRefresh || ch.com.st = .freqChange
/-- The write queue of a channel takes a push now: a place that a write left in this cc is not usable yet (R47, R48, R292, R293). A
FAILED channel takes every push (R352). -/
def State.wqTakes (s : State) (c : ChanId) : Bool :=
  let ch := s.chan c
  ch.com.st = .failed || (decide (ch.wq.length + ch.wqPop.at_ s.now < 128) && !ch.away)
/-- The read queue of a channel takes a push now (R47, R48, R292, R293). -/
def State.rqRoom (s : State) (c : ChanId) : Bool :=
  let ch := s.chan c
  decide (ch.rq.length + ch.rqPop.at_ s.now < 64) && !ch.away
/-- The channel as its queues stood at the start of the cc: what was pushed in this cc is not there yet (R47, R48, R294). -/
def Chan.before (ch : Chan) (now : Nat) : Chan :=
  { ch with rq := ch.rq.filter fun r => decide (r.at_ < now), wq := ch.wq.filter fun w => decide (w.at_ < now) }

/-- A push accepted by the write queue (R293, R295); it removes waiting rewrites and repair write-backs of the line (R348), but no raw
write. A FAILED channel discards it (R352). -/
def State.wqPush (s : State) (c : ChanId) (ll : Nat) (st : Stored) (plot : Option PlotId) (raw : Bool := false) : State :=
  if (s.chan c).com.st = .failed then s else
  let s := s.modChan c fun ch =>
    { ch with wq := ch.wq ++ [{ ll := ll, st := st, at_ := s.now, plot := plot, raw := raw }]
              fixq := ch.fixq.filter fun x => x.ll ≠ ll || x.raw
              pprRun := ch.pprRun.map fun r => { r with buf := r.buf.filter (·.1 ≠ ll) } }
  (s.charge c plot).updDrain c

/-- A scrub, poison or repair rewrite: pushed, or waiting for a place (R348). -/
def State.rewrite (s : State) (c : ChanId) (ll : Nat) (st : Stored) : State :=
  if s.wqTakes c then s.wqPush c ll st none
  else s.modChan c fun ch => { ch with fixq := ch.fixq ++ [{ ll := ll, st := st, at_ := s.now, plot := none }] }

/-- The newest queued write of a line (R294). -/
def Chan.queued (ch : Chan) (ll : Nat) : Option WqEnt := (ch.wq.filter (·.ll = ll)).getLast?

/-! ## Priorities (R386, R393, R394, R397) -/

/-- A Plot is guaranteed (R386). -/
def State.guaranteed (s : State) (k : Nat) : Bool := s.rf (R.regPlotGbw k) 15 0 ≠ 0 || s.rf (R.regPlotLat k) 15 0 ≠ 0
/-- The pavilion that homes a channel (R394). -/
def State.homeOfChan (s : State) (c : ChanId) : PavId := pavOf (s.glb.ilMap.getD c.val 0)
/-- plot_priority of R394; work charged to no Plot ranks at 0 (R385). -/
def State.plotPriority (s : State) (c : ChanId) (plot : Option PlotId) : Nat :=
  match plot with
  | none => 0
  | some k =>
    let pr := ((s.pav (s.homeOfChan c)).meters[k.toNat]'(k.isLt)).pri
    if s.rf (R.regPlotGbw k.toNat) 15 0 > 0 && (s.chan c).budget[k.toNat]'(k.isLt) > 0 then max pr 4 else pr

/-- Reads of a best-effort Plot (R397). -/
def State.bestEffort (s : State) (r : RqEnt) : Bool := r.plot.elim false fun k => !s.guaranteed k.toNat

/-- A read that is answered without a DRAM command (R294, R318, R352). -/
def Chan.noCommand (ch : Chan) (r : RqEnt) : Bool := (ch.queued r.ll).isSome || !ch.written r.ll || ch.com.st = .failed

/-- The bank that a repair holds (R364 step 3). -/
def Chan.heldBank (ch : Chan) : Option Nat :=
  match ch.pprRun with
  | none => none
  | some r => if r.held then some (ch.bank ((ch.ledger[r.entry % 64]'(Nat.mod_lt _ (by decide))).ll)) else none
/-- The reads that can be chosen when the given banks can take a command: a held bank takes the repair's own (R364). -/
def Chan.readyReads (ch : Chan) (ready : List Nat) : List RqEnt :=
  ch.rq.filter fun r => ch.noCommand r || (ready.contains (ch.bank r.ll) && (r.src = .repair || some (ch.bank r.ll) ≠ ch.heldBank))

def Chan.openRow (ch : Chan) (ll : Nat) : Bool := FMap.find? ch.rows (ch.bank ll) = some (ch.row ll)

/-- select_read of R296 over reads in queue order. -/
def State.selectRead (s : State) (c : ChanId) (ready : List RqEnt) : Option RqEnt :=
  let ch := s.chan c
  let cap := s.rf (R.chanSched c) 9 0 * 30
  let pri (r : RqEnt) : Nat := if cap ≤ s.now - r.at_ then 8 else s.plotPriority c r.plot
  let top := (ready.map pri).foldl max 0
  let xs := ready.filter fun r => pri r = top
  match xs.find? fun r => ch.openRow r.ll with
  | some r => some r
  | none => xs.head?

/-- select_read_floor of R397. -/
def State.selectReadFloor (s : State) (c : ChanId) (ready : List RqEnt) : Option RqEnt :=
  match (if 99 ≤ (s.chan c).sinceBe then ready.find? s.bestEffort else none) with
  | some r => some r
  | none => s.selectRead c ready

/-- A write that can issue: its line is written memory, or it can start a fill (R297, R319, R321); a line not yet passed
waits for its fill. -/
def Chan.canWrite (ch : Chan) (w : WqEnt) : Bool :=
  ch.written w.ll || ((ch.fillOf (regionOf w.ll)).isNone && decide (0 < ch.freeSlots))
/-- The oldest queued write of each line only (R295). -/
def Chan.firstOf (ch : Chan) (w : WqEnt) : Bool := (ch.wq.find? fun x => x.ll = w.ll) = some w
def Chan.readyWrites (ch : Chan) (ready : List Nat) : List WqEnt :=
  ch.wq.filter fun w => ch.canWrite w && ch.firstOf w && ready.contains (ch.bank w.ll) && some (ch.bank w.ll) ≠ ch.heldBank
/-- The next write: open-row writes first, then the oldest (R296). -/
def Chan.selectWrite (ch : Chan) (ready : List Nat) : Option WqEnt :=
  let xs := ch.readyWrites ready
  match xs.find? fun w => ch.openRow w.ll with
  | some w => some w
  | none => xs.head?

/-! ## The error ledger (R361 to R366) -/

def hours24 : Nat := 86400
def Chan.entryOf (ch : Chan) (ll : Nat) : Option (Fin 64) := (List.finRange 64).find? fun i => ch.ledger[i].valid && ch.ledger[i].ll = ll
def State.modLedger (s : State) (c : ChanId) (i : Fin 64) (f : Ledger → Ledger) : State :=
  s.modChan c fun ch => { ch with ledger := ch.ledger.set i (f ch.ledger[i]) }

/-- Shows the lowest waiting HARD entry as the channel's repair request (R364 step 1). -/
def State.nextRepair (s : State) (c : ChanId) : State :=
  if (s.chan c).pprReq.isSome then s else
  match (List.finRange 64).find? fun i => let e := (s.chan c).ledger[i]; e.valid && e.hard && e.repair = 1 with
  | none => s
  | some i => (s.modChan c fun ch => { ch with pprReq := some i.val }).raise (R.chanErrEvt c) 11

/-- An entry becomes HARD: event, page-retire advisory and repair request (R363, R364, R366). -/
def State.makeHard (s : State) (c : ChanId) (i : Fin 64) : State :=
  if (s.chan c).ledger[i].hard then s else
  let s := s.modLedger c i fun e => { e with hard := true, repair := 1 }
  let s := s.raise (R.chanErrEvt c) 9
  let pa := (s.paOfLl c.val (s.chan c).ledger[i].ll).toNat * 64
  let s := s.rfSet (R.chanRetirePaLo c) 31 12 (pa / 4096 % 2 ^ 20)
  let s := s.rcount (R.chanRetirePaLo c) 7 0 1
  let s := s.rset (R.chanRetirePaHi c) (BitVec.ofNat 32 (pa / 2 ^ 32))
  let s := s.event .hard c.val pa (store := .memory)
  s.nextRepair c

/-- The slot for a new entry: a free one, else the non-HARD one with the oldest T_LAST (R362). -/
def Chan.ledgerSlot (ch : Chan) : Option (Fin 64) :=
  match (List.finRange 64).find? fun i => !ch.ledger[i].valid with
  | some i => some i
  | none => (List.finRange 64).foldl (fun best i =>
      if ch.ledger[i].hard then best else
      match best with
      | none => some i
      | some b => if ch.ledger[i].tLast < ch.ledger[b].tLast then some i else some b) none

/-- A CORRECTED read updates the ledger (R362, R363). -/
def State.ledgerCorrected (s : State) (c : ChanId) (ll loc : Nat) : State :=
  let t := s.band.sec
  match (s.chan c).entryOf ll with
  | none =>
    match (s.chan c).ledgerSlot with
    | none => s.raise (R.chanErrEvt c) 10
    | some i => s.modLedger c i fun _ => { valid := true, ll := ll, count := 1, tLast := t, loc := loc }
  | some i =>
    let e := (s.chan c).ledger[i]
    let recur := e.rw && decide (t ≤ e.tRw + hours24)
    let e' : Ledger := { e with count := satAdd e.count 1 15, tLast := t, loc := loc, recur := if recur then satAdd e.recur 1 3 else e.recur }
    let s := s.modLedger c i fun _ => e'
    let due := (e'.count = 2 && !e.rw) || recur
    let s := if due then s.modChan c fun ch => { ch with targets := ch.targets.filter (· ≠ ll) ++ [ll] } else s
    if e'.recur = 3 && !e.hard then s.makeHard c i else s

/-- An UNCORRECTABLE read makes the line's entry HARD, entering the line if it has none (R363). -/
def State.ledgerUncorrectable (s : State) (c : ChanId) (ll : Nat) : State :=
  match (s.chan c).entryOf ll with
  | some i => s.makeHard c i
  | none =>
    match (s.chan c).ledgerSlot with
    | none => s.raise (R.chanErrEvt c) 10
    | some i => (s.modLedger c i fun _ => { valid := true, ll := ll, tLast := s.band.sec }).makeHard c i

/-- A rewrite of a line sets RW, and T_RW the first time (R363). -/
def State.ledgerRewritten (s : State) (c : ChanId) (ll : Nat) : State :=
  match (s.chan c).entryOf ll with
  | none => s
  | some i => s.modLedger c i fun e => if e.rw then e else { e with rw := true, tRw := s.band.sec }

/-! ## A read leaves the queue (R294, R318, R347, R352) -/

/-- Survey bookkeeping of one line read (R360). -/
def State.surveyLine (s : State) (m : MemUnit) (cls : Cls) (addr : Nat) : State :=
  let (lo, err, first, last) := match m with
    | .chan c => (R.chanSurveyLinesLo c, R.chanSurveyErr c, R.chanSurveyFirstLo c, R.chanSurveyLastLo c)
    | .stack k => (R.stackSurveyLinesLo k, R.stackSurveyErr k, R.stackSurveyFirstLo k, R.stackSurveyLastLo k)
  let n := (s.rget lo).toNat + (s.rget (lo + 4)).toNat * 2 ^ 32 + 1
  let s := (s.rset lo (BitVec.ofNat 32 n)).rset (lo + 4) (BitVec.ofNat 32 (n / 2 ^ 32))
  if cls = .corrected || cls = .uncorrectable then
    let s := if cls = .corrected then s.rcount err 31 16 1 else s.rcount err 15 0 1
    let lw := BitVec.ofNat 32 (addr % 2 ^ 32); let hw := BitVec.ofNat 32 (2 ^ 31 + addr / 2 ^ 32)
    let s := if s.rbit (first + 4) 31 then s else (s.rset first lw).rset (first + 4) hw
    (s.rset last lw).rset (last + 4) hw
  else s

/-- The raw access ends: RAW_STAT (R356, R357, R370). -/
def State.rawEnd (s : State) (result cls loc : Nat) : State :=
  (s.rset R.rawRawStat (BitVec.ofNat 32 (result * 2 ^ 10 + cls * 2 ^ 8 + loc))).modGlb fun g => { g with rawBusy := false, rawDone := none }
/-- RAW_DATA and RAW_CHECK take a line (R356, R371). -/
def State.rawSet (s : State) (data : Line) (check : BitVec 128) : State :=
  let s := (List.range 16).foldl (fun s i => s.rset (R.rawRawData i) (BitVec.ofNat 32 (data.toNat >>> (32 * i)))) s
  (List.range 4).foldl (fun s i => s.rset (R.rawRawCheck i) (BitVec.ofNat 32 (check.toNat >>> (32 * i)))) s
def State.rawData (s : State) : Line := BitVec.ofNat 512 ((List.range 16).foldl (fun a i => a + (s.rget (R.rawRawData i)).toNat * 2 ^ (32 * i)) 0)
def State.rawCheck (s : State) : BitVec 128 := BitVec.ofNat 128 ((List.range 4).foldl (fun a i => a + (s.rget (R.rawRawCheck i)).toNat * 2 ^ (32 * i)) 0)
/-- A raw read has its bits: READ_RAW stores them, READ_DEC decodes them (R356). The result waits for RAW_ACCESS_DONE. -/
def State.rawRead (s : State) (st : Stored) (d : Dec) : State :=
  let dec := s.rf R.rawRawCtl 30 28 = 2
  let s := s.rawSet (if dec then d.data else st.data) st.check
  s.modGlb fun g => { g with rawDone := some (0, if dec then d.cls.code else 0, if dec then d.loc else 0x7F) }

/-- Answers a read: to its miss register, the survey, the repair buffer or the raw window; patrol and targeted reads end here. -/
def State.answer (s : State) (c : ChanId) (r : RqEnt) (data : Line) (poison : Bool) (st : Stored) (d : Dec) : State :=
  match r.src with
  | .miss _ _ _ => s.modChan c fun ch => { ch with rets := ch.rets ++ [{ src := r.src, pa := r.pa, data := data, poison := poison, err := d.cls = .corrected || d.cls = .uncorrectable }] }
  | .patrol => s
  | .targeted => s
  | .repair => s.modChan c fun ch => { ch with pprRun := ch.pprRun.map fun x =>
      { x with buf := x.buf ++ [(r.ll, if poison then memPoison ch.memGen else memEncode ch.memGen data)] } }
  | .survey => (s.surveyLine (.chan c) d.cls (r.pa.toNat * 64)).modChan c fun ch => { ch with com := { ch.com with surveyOut := ch.com.surveyOut - 1 } }
  | .raw => s.rawRead st d

/-- Handling of the class of a memory read (R347, R348, R362, R363); raw reads change nothing (R357). -/
def State.memClass (s : State) (c : ChanId) (r : RqEnt) (d : Dec) : State :=
  if r.src = .raw then s else
  let g := (s.chan c).memGen
  let wb := match r.src with
    | .patrol => true
    | .targeted => true
    | .survey => false
    | .repair => false
    | _ => s.rbit (R.chanScrubCtl c) 8
  match d.cls with
  | .good => if r.src = .targeted then (s.rewrite c r.ll (memEncode g d.data)).ledgerRewritten c r.ll else s
  | .poison => s
  | .corrected =>
    let s := (s.rcount (R.chanErrCnt c) 31 16 1).cntChan c 0x0E r.plot
    let s := s.ledgerCorrected c r.ll d.loc
    if wb then (s.rewrite c r.ll (memEncode g d.data)).ledgerRewritten c r.ll else s
  | .uncorrectable =>
    let s := (s.rcount (R.chanErrCnt c) 15 0 1).raise (R.chanErrEvt c) 8
    let s := s.rewrite c r.ll (memPoison g)
    let s := (s.ledgerUncorrectable c r.ll).ledgerRewritten c r.ll
    (s.event .uncorrectable c.val (r.pa.toNat * 64) 3 d.loc (store := .memory)).fatal 8

/-- A traced channel command: 1 read, 2 write, 3 activate, 4 refresh; whether the write queue answers it, and whether its row was open
(R549, R550). -/
def State.chanCmd (s : State) (c : ChanId) (code : Nat) (ll : Nat) (plot : Option PlotId) (answered open_ : Bool := false) : State :=
  s.occur { src := c.val, kind := 0x30, port := 0xFF, plot := plotByte plot, addr := BitVec.ofNat 48 ll
            detail := BitVec.ofNat 16 (code + (if answered then 16 else 0) + if open_ then 32 else 0) }

/-- A command opens the row of a line: an activate where it was not open (R296, R537). `quiet` counts nothing (R357). -/
def State.openFor (s : State) (c : ChanId) (ll : Nat) (plot : Option PlotId) (quiet : Bool) : State :=
  if (s.chan c).openRow ll then s else
  let s := (s.modChan c fun ch => { ch with rows := FMap.insert ch.rows (ch.bank ll) (ch.row ll) }).chanCmd c 3 ll plot
  if quiet then s else s.cntChan c 4 plot

/-- A chosen read leaves the queue and is answered from the newest write that the queue accepted before this cc (R294); a line of an
uninitialized region is zeros with no DRAM command (R318), or a free value where the contents have been lost (R31). `u` disturbs the
stored bits first (R347). A raw read updates no counter (R357). -/
def State.issueRead (s : State) (c : ChanId) (r : RqEnt) (u : Upset) : State :=
  let ch := (s.chan c).before s.now
  let cnt (s : State) (k : Nat) : State := if r.src = .raw then s else s.cntChan c k r.plot
  let s := s.modChan c fun ch => { ch with rq := ch.rq.erase r, rqPop := ch.rqPop.add s.now, sinceBe := if s.bestEffort r then 0 else ch.sinceBe + 1 }
  if ch.com.st = .failed then s.answer c r 0 true {} { cls := .poison, data := 0 } else
  let s := if r.src = .patrol || r.src = .targeted || r.src = .survey then s.cntChan c 0x0D else s
  match ch.queued r.ll with
  | some w =>
    let d := memDecode ch.memGen w.st
    let s := ((cnt s 5).chanCmd c 1 r.ll r.plot true).memClass c r d
    s.answer c r d.data (d.cls = .poison || d.cls = .uncorrectable) w.st d
  | none =>
    if !ch.written r.ll then
      let z : Line := ch.lost.elim 0 fun n => Config.lostLine n r.ll
      (cnt s 6).answer c r z false {} { cls := .good, data := z }
    else
      let st0 := ch.dramGet r.ll
      let st : Stored := { data := st0.data ^^^ u.data, check := st0.check ^^^ u.check }
      let hit := ch.openRow r.ll
      let s := (s.modChan c fun ch => ch.dramPut r.ll st).openFor c r.ll r.plot (r.src = .raw)
      let s := ((cnt s 1).charge c r.plot).chanCmd c 1 r.ll r.plot false hit
      let s := if hit then cnt s 3 else s
      let d := memDecode ch.memGen st
      let s := s.memClass c r d
      s.answer c r d.data (d.cls = .poison || d.cls = .uncorrectable) st d

/-- A queued write's DRAM command: the write leaves the queue; one to an uninitialized region starts its fill (R295, R319). -/
def State.issueWrite (s : State) (c : ChanId) (w : WqEnt) : State :=
  let hit := (s.chan c).openRow w.ll
  let s := s.modChan c fun ch =>
    let ch := if ch.written w.ll then ch else
      { ch with fills := startFill { region := regionOf w.ll, start := w.ll % 32768, issued := 1, background := false } ch.fills }
    { (ch.dramPut w.ll w.st) with wq := ch.wq.erase w, wqPop := ch.wqPop.add s.now }
  let s := (s.openFor c w.ll w.plot w.raw).chanCmd c 2 w.ll w.plot false hit
  (if w.raw then s else s.cntChan c 2 w.plot).updDrain c

/-- The line that a fill writes next (R320). -/
def FillSlot.line (f : FillSlot) : Nat := f.region * 32768 + (f.start + f.issued) % 32768

/-- Sends the next line of a fill slot, with the data of a write that waits for it (R320, R321). -/
def State.issueFill (s : State) (c : ChanId) (slot : Nat) (f : FillSlot) : State :=
  let ll := f.line
  let hit := (s.chan c).openRow ll
  let q := ((s.chan c).before s.now).wq.find? fun w => w.ll = ll
  let s := s.modChan c fun ch =>
    let ch := { (ch.dramPut ll (q.elim {} (·.st))) with wq := q.elim ch.wq (ch.wq.erase ·), wqPop := if q.isSome then ch.wqPop.add s.now else ch.wqPop }
    if f.issued + 1 = 32768 then { ch with fills := ch.fills.set slot none, init := insertNat f.region ch.init }
    else { ch with fills := ch.fills.set slot (some { f with issued := f.issued + 1 }) }
  (((s.openFor c ll none false).chanCmd c 2 ll none false hit).cntChan c 0x0C).updDrain c

/-- A read enters a channel's read queue (R210, R293). -/
def State.rqPush (s : State) (c : ChanId) (e : RqEnt) : State := s.modChan c fun ch => { ch with rq := ch.rq ++ [e] }

end Sys2Proof.Machine
end

