-- ==== Sys2Proof/Machine/Cache.lean ====
section
/-!
DEFINITION. The hub cache of a pavilion: tags, replacement, lookup, miss registers, evictions, the Orangery, the
Glasshouse and the stack command path (chapters 5, 6 and 8).
-/

namespace Sys2Proof.Machine

/-! ## Tags and replacement -/

def tagKey (set way : Nat) : Nat := set * 16 + way
def Pav.tag (v : Pav) (set way : Nat) : TagEntry := FMap.get (fun _ => {}) v.tags (tagKey set way)
/-- Writes a tag entry with its summaries and parity (R198). -/
def Pav.setTag (v : Pav) (set way : Nat) (t : TagEntry) : Pav :=
  { v with tags := FMap.put (fun _ => {}) v.tags (tagKey set way) t.seal }
def Pav.plruOf (v : Pav) (set : Nat) : Nat := FMap.get (fun _ => 0) v.plru set
def Pav.setPlru (v : Pav) (set x : Nat) : Pav := { v with plru := FMap.put (fun _ => 0) v.plru set x }

/-- Some way of the mask lies under a node of the tree (R204). -/
def under (cand : List Nat) (n : Nat) : Bool :=
  cand.any fun w => let l := 16 + w; l = n || l / 2 = n || l / 4 = n || l / 8 = n || l / 16 = n
/-- plru_victim of R204. -/
def plruVictim (plru : Nat) (cand : List Nat) : Nat :=
  let step (n : Nat) : Nat :=
    let go := if plru.testBit (n - 1) then 1 else 0
    if under cand (2 * n + go) then 2 * n + go else 2 * n + (1 - go)
  step (step (step (step 1))) - 16
/-- touch of R204. -/
def plruTouch (plru w : Nat) : Nat :=
  let put (x n : Nat) : Nat :=
    let parent := n / 2
    let cleared := if x.testBit (parent - 1) then x - 2 ^ (parent - 1) else x
    if n % 2 = 0 then cleared + 2 ^ (parent - 1) else cleared
  put (put (put (put plru (16 + w)) ((16 + w) / 2)) ((16 + w) / 4)) ((16 + w) / 8)
def Pav.touch (v : Pav) (set w : Nat) : Pav := v.setPlru set (plruTouch (v.plruOf set) w)

def Pav.modMeter (v : Pav) (k : PlotId) (f : PlotMeter → PlotMeter) : Pav :=
  { v with meters := v.meters.set k.toNat (f (v.meters[k.toNat]'(k.isLt))) (k.isLt) }
def Pav.occ (v : Pav) (k : PlotId) : Nat := (v.meters[k.toNat]'(k.isLt)).occ
def Pav.occAdd (v : Pav) (k : PlotId) : Pav := v.modMeter k fun m => { m with occ := m.occ + 1 }
def Pav.occSub (v : Pav) (k : PlotId) : Pav := v.modMeter k fun m => { m with occ := m.occ - 1 }
/-- The unreserved Orangery lines (R218). -/
def Pav.unreserved (v : Pav) : Nat := 256 - (v.orang.length + v.orRsv)

/-- The registers in use with their numbers, and the first that passes a test. -/
def Pav.missList (v : Pav) : List (Nat × MissReg) := v.miss
def Pav.findMiss (v : Pav) (q : Nat × MissReg → Bool) : Option (Nat × MissReg) := List.find? q v.miss

/-- The sector of a miss register. -/
def MissReg.set_ (r : MissReg) : Nat := setOf r.base
/-- A register covers a line: it reads it, has read it, or holds data for it; a member that waits for an Evicting way is not
covered until its read issues (R214). A committed member that a later write has overtaken is covered no longer, nor one recalled
from the Orangery; until it commits, a recalled member is held as a full-line write to a pending way is (R222, log entry 309). -/
def MissReg.covers (r : MissReg) (la : LineAddr) : Bool :=
  let i := la.toNat - r.base.toNat
  decide (r.base.toNat ≤ la.toNat) && decide (i < r.gsize)
    && ((r.want.getLsbD i && !r.waitEv.getLsbD i) || r.written.getLsbD i) && (!r.done.getLsbD i || r.buf.any fun b => b.1 = i)
/-- NW: transactions that wait on a register for data or for a commit (R214, R215). -/
def MissReg.nw (r : MissReg) : Nat := r.waiters.length + r.writers.length
/-- Locked ways (R258); no lock takes effect outside SECTORED (R239, R258). -/
def State.locked (s : State) (p : PavId) (way : Nat) : Bool := (s.pav p).place = .sectored && s.rbit (R.pavLockMask p) way
/-- Pinned ways (R206). -/
def Pav.pinned (v : Pav) (set way : Nat) : Bool :=
  let t := v.tag set way
  t.st = .filling || t.st = .evicting || v.merging.any (fun x => x.1 = set && x.2.1 = way)
    || v.missList.any fun r => r.2.way = way && r.2.set_ = set

def ways16 : List Nat := List.range 16
/-- The minimum and maximum quota of a Plot in sectors (R389). -/
def State.minOf (s : State) (k : PlotId) : Nat := 256 * s.rf (R.regPlotCache k.toNat) 26 16
def State.maxOf (s : State) (k : PlotId) : Nat := 256 * s.rf (R.regPlotCache k.toNat) 10 0

/-- choose_sector_victim of R206. -/
def State.chooseVictim (s : State) (p : PavId) (set : Nat) (k : PlotId) : Option Nat :=
  let v := s.pav p
  let elig := ways16.filter fun w => !s.locked p w && !v.pinned set w && (v.tag set w).parOk
  let full := decide (s.maxOf k ≤ v.occ k)
  let free := elig.filter fun w => (v.tag set w).st = .invalid
  if !full && !free.isEmpty then free.head? else
  let cand := if full then elig.filter fun w => (v.tag set w).st = .valid && (v.tag set w).plot = k
    else elig.filter fun w => (v.tag set w).plot = k || decide (s.minOf (v.tag set w).plot < v.occ (v.tag set w).plot)
  if cand.isEmpty then none else
  let w := plruVictim (v.plruOf set) cand
  if v.unreserved < popcount (v.tag set w).dirty || 8 ≤ v.evicts.length then none else some w

/-! ## Lookup (R200, R237) -/

/-- The outcome of a lookup for the home copy. -/
inductive Look where
  | evicting
  | hit (way : Nat)
  | reg (r : Nat)
  | orang
  | sector (way : Nat)
  | pendReg (way : Nat)
  | miss
deriving DecidableEq, Repr

def Pav.regFor (v : Pav) (la : LineAddr) : Option Nat := (v.findMiss fun r => r.2.covers la).map (·.1)
def Pav.orFor (v : Pav) (la : LineAddr) : Option OrLine := v.orang.find? fun o => o.pa = la
/-- An Evicting way of the sector still holds the sub-block, or its copy is in flight (R200 order 1), or the sector waits to be poisoned
(R350). -/
def Pav.evictHolds (v : Pav) (la : LineAddr) : Bool :=
  (v.evicts.any fun e => e.set = setOf la && e.tag = tagOf la &&
    ((v.tag e.set e.way).present.getLsbD (subOf la) || e.inFlight.contains (subOf la)))
  || v.poisonQ.any fun x => x.1 = setOf la && (v.tag x.1 x.2).tag = tagOf la && (v.orFor la).isNone
/-- The non-Evicting way that holds a sector's tag. -/
def Pav.wayOf (v : Pav) (la : LineAddr) : Option Nat :=
  ways16.find? fun w => let t := v.tag (setOf la) w
    (t.st = .valid || t.st = .filling) && t.tag = tagOf la && t.parOk

/-- The way that a live miss register holds pending for a line's sector (R200 order 6). -/
def Pav.pendFor (v : Pav) (la : LineAddr) : Option Nat :=
  (v.findMiss fun r => r.2.pendAlloc && r.2.base.toNat / 64 = la.toNat / 64).map fun r => r.2.way

/-- The sectored lookup (R200). -/
def Pav.lookSec (v : Pav) (la : LineAddr) : Look :=
  if v.evictHolds la then .evicting else
  match v.wayOf la with
  | some w =>
    if (v.tag (setOf la) w).present.getLsbD (subOf la) then .hit w
    else match v.regFor la with
      | some r => .reg r
      | none => if (v.orFor la).isSome then .orang else .sector w
  | none => match v.regFor la with
      | some r => .reg r
      | none =>
        if (v.orFor la).isSome then .orang else
        match v.pendFor la with
        | some w => .pendReg w
        | none => .miss

/-- The place of a GH_CACHE line in the Glasshouse SRAM, as the debug window shows it (R235). DESIGN CHOICE: the spec does not say where
the line of a set and way lies; the model puts it at set * 16 + way (log entry 310). -/
def ghKey (set way : Nat) : Nat := set * 16 + way
def Pav.ghe (v : Pav) (set way : Nat) : GhEntry := FMap.get (fun _ => {}) v.gh (ghKey set way)
def Pav.setGhe (v : Pav) (set way : Nat) (e : GhEntry) : Pav := { v with gh := FMap.put (fun _ => {}) v.gh (ghKey set way) e.seal }
def Pav.ghLineAt (v : Pav) (idx : Nat) : SramLine := FMap.get (fun _ => {}) v.ghData idx
/-- Stores a Glasshouse line; a rewrite waiting for it is dropped (R348). -/
def Pav.setGhLine (v : Pav) (idx : Nat) (l : SramLine) : Pav :=
  { v with ghData := FMap.put (fun _ => {}) v.ghData idx l, sramFix := v.sramFix.filter fun x => !(x.1 = none && x.2.1 = idx) }
/-- The Glasshouse lookup (R237). -/
def Pav.lookGh (v : Pav) (la : LineAddr) : Look :=
  match ways16.find? fun w => let e := v.ghe (ghSet la) w; e.valid && e.tag = ghTag la && e.parOk with
  | some w => .hit w
  | none => match v.regFor la with
    | some r => .reg r
    | none => if (v.orFor la).isSome then .orang else .miss

/-- How a pavilion's lookups use its contents (R239, R245, R256, R353). -/
inductive Mode where
  /-- boot window -/
  | window
  /-- Glasshouse line cache; `alloc` clear while nothing may be allocated -/
  | gh (alloc : Bool)
  /-- sectored -/
  | sec (alloc : Bool)
  /-- contents unused: cache disabled, or a window already moved -/
  | bypass
deriving DecidableEq, Repr

/-- What holds a pavilion's contents: its placement, or in Transition the one it leaves (R239). -/
def Pav.holds (v : Pav) : Place := if v.place = .transition then v.from_ else v.place

def State.mode (s : State) (p : PavId) : Mode :=
  let v := s.pav p
  match v.place with
  | .window => .window
  | .ghCache => if s.glb.hcEn then .gh (!s.glb.disableClean) else .bypass
  | .sectored => if s.glb.hcEn then .sec (!s.glb.disableClean && (s.stk (stackOfPav p)).com.st ≠ .failed) else .bypass
  | .transition =>
    if v.from_ = .window || !s.glb.hcEn then .bypass else if v.from_ = .ghCache then .gh false else .sec false

def State.look (s : State) (p : PavId) (la : LineAddr) : Look :=
  match s.mode p with
  | .window => .miss
  | .gh _ => (s.pav p).lookGh la
  | .sec _ => (s.pav p).lookSec la
  | .bypass => match (s.pav p).regFor la with
    | some r => .reg r
    | none => if ((s.pav p).orFor la).isSome then .orang else .miss

/-- Writes that hit are pushed, not committed (R246, R256, R353). -/
def State.writeThrough (s : State) (p : PavId) : Bool :=
  s.glb.disableClean || ((s.pav p).place = .sectored && (s.stk (stackOfPav p)).com.st = .failed)

/-! ## Pushes to the write queues (R47, R208, R219, R224) -/

def State.modTxn (s : State) (p : PavId) (e : Nat) (f : Txn → Txn) : State :=
  s.modPav p fun v => match FMap.find? v.tt e with
    | none => v
    | some t => { v with tt := FMap.insert v.tt e (f t) }
def State.setFetch (s : State) (p : PavId) (e : Nat) (x : Fetch) : State := s.modTxn p e fun t => { t with fetch := x }

/-- A table entry number that no transaction has: the tag of a read whose transaction no longer wants it. -/
def noTxn : Nat := 1024
def StackOp.orphan (o : StackOp) (e : Nat) : StackOp :=
  match o with
  | .demand x => if x = e then .demand noTxn else o
  | .merge x => if x = e then .demand noTxn else o
  | _ => o
/-- The reads under way for a transaction go on without it: newer data has reached it, or it has ended. -/
def State.dropFetch (s : State) (p : PavId) (e : Nat) : State :=
  s.modPav p fun v =>
    { v with stackq := v.stackq.map fun c => { c with op := c.op.orphan e }
             stackRet := v.stackRet.map fun r => { r with cmd := { r.cmd with op := r.cmd.op.orphan e } }
             miss := v.missList.map fun r => (r.1, { r.2 with waiters := r.2.waiters.filter fun w => w.1 ≠ e }) }

/-- Registers give up the copies of a committed line: newer data has overtaken them (R214). -/
def Pav.dropBuf (v : Pav) (pa : LineAddr) : Pav :=
  { v with miss := v.miss.map fun r =>
      let i := pa.toNat - r.2.base.toNat
      if decide (r.2.base.toNat ≤ pa.toNat) && decide (i < r.2.gsize) && r.2.done.getLsbD i then (r.1, { r.2 with buf := r.2.buf.filter fun b => b.1 ≠ i }) else r }

/-- Clears PRESENT and DIRTY of a sub-block; an emptied Valid sector becomes Invalid (R246, R251, R256). -/
def State.clearSub (s : State) (p : PavId) (set way sub : Nat) : State :=
  s.modPav p fun v =>
    let t := v.tag set way
    let t' := { t with present := setBits t.present sub sub 0, dirty := setBits t.dirty sub sub 0 }
    if t.st = .filling then (v.setTag set way t').dropBuf (lineOf t.tag set sub)
    else if t.st ≠ .valid then v
    else (if t'.present = 0 then (v.setTag set way {}).occSub t.plot else v.setTag set way t').dropBuf (lineOf t.tag set sub)

/-- A WrPart that hit holds its sub-block from its lookup to its commit: PRESENT and DIRTY keep (R202). -/
def Pav.partHolds (v : Pav) (set way sub : Nat) : Bool :=
  v.merging.any fun x => x.1 = set && x.2.1 = way && (FMap.find? v.tt x.2.2).elim false fun t => subOf t.pa = sub

/-- An uncorrectable clean sub-block leaves the cache: PRESENT clears, and the sector stays (R347). -/
def State.loseSub (s : State) (p : PavId) (set way sub : Nat) : State :=
  s.modPav p fun v => let t := v.tag set way; v.setTag set way { t with present := setBits t.present sub sub 0 }

/-- The register whose Plot a pending way takes: the one that allocated it (R213, R385). -/
def Pav.pendReg (v : Pav) (set way : Nat) : Option (Nat × MissReg) :=
  let mine (r : Nat × MissReg) : Bool := r.2.pendAlloc && r.2.way = way && r.2.set_ = set
  (v.findMiss fun r => mine r && r.2.allocating).or (v.findMiss mine)

/-- An eviction or poisoning has ended: the way takes the tag of a pending allocation, or becomes Invalid (R213, R217). What
registers hold for it commits then (`State.regsCommit`). -/
def State.wayFree (s : State) (p : PavId) (set way : Nat) : State :=
  s.modPav p fun v =>
    match v.pendReg set way with
    | none => v.setTag set way {}
    | some r =>
      let v := (v.setTag set way { tag := tagOf r.2.base, st := .filling, plot := r.2.plot }).occAdd r.2.plot
      { v with miss := v.missList.map fun x => if x.2.pendAlloc && x.2.way = way && x.2.set_ = set then (x.1, { x.2 with pendAlloc := false }) else x }

/-- The poisoning of a sector ends with its last push, and with the last of its copies that were in flight (R350 step 3). -/
def State.poisonEnd (s : State) (p : PavId) (set way : Nat) : State :=
  match (s.pav p).evicts.find? fun e => e.set = set && e.way = way && e.poisoning && e.inFlight.isEmpty with
  | none => s
  | some e =>
    let s := s.modPav p fun v =>
      { (if e.countsOcc then v.occSub e.plot else v) with evicts := v.evicts.filter fun x => !(x.set = set && x.way = way) }
    (s.wayFree p set way).event .sectorPoison p.val ((lineOf e.tag set 0).toNat * 64) (store := .tags)

/-- What the acceptance of a push completes. -/
def State.pushDone (s : State) (p : PavId) (f : PushFor) (la : LineAddr) : State :=
  match f with
  | .nothing => s
  | .txn e => s.setFetch p e .performed
  | .cmo e => s.setFetch p e .performed
  | .mop set way sub inval by_ =>
    let s := if s.glb.mop.busy && by_ = .engine then s.modGlb fun g => { g with mop := { g.mop with wb := satAdd g.mop.wb 1 (2 ^ 32 - 1) } } else s
    let v := s.pav p
    if !inval then s
    else if v.place = .ghCache || (v.place = .transition && v.from_ = .ghCache) then
      let e := v.ghe set way
      if e.dirtyA || e.tag ≠ ghTag la then s else s.modPav p fun v => v.setGhe set way {}
    else
      let t := v.tag set way
      if t.dirty.getLsbD sub || t.tag ≠ tagOf la || v.partHolds set way sub then s else s.clearSub p set way sub
  | .walk => s
  | .poisonSub set way sub =>
    let s := s.modPav p fun v => { v with evicts := v.evicts.map fun e => if e.set = set && e.way = way then { e with inFlight := e.inFlight.filter (· ≠ sub) } else e }
    s.poisonEnd p set way

/-- The stored form of a line on its channel. -/
def Chan.encode (ch : Chan) (data : Line) (poison : Bool) : Stored := if poison then memPoison ch.memGen else memEncode ch.memGen data

/-- Offers a line to its channel's write queue once (R47, R208, R219). -/
def State.tryPush (s : State) (p : PavId) (j : Push) : Option State :=
  let c := s.chanFor j.pa
  if !s.wqTakes c then none else
  match s.llOf j.pa with
  | none => some (s.pushDone p j.for_ j.pa)
  | some ll => some (((s.wqPush c ll ((s.chan c).encode j.data j.poison) j.plot).pushDone p j.for_ j.pa).cntPav p 9 j.plot)

/-- A push of the poisoning of a sector. -/
def Push.poisons (j : Push) : Bool :=
  match j.for_ with
  | .poisonSub _ _ _ => true
  | _ => false

/-- Pushes a line, or lets it wait behind the pavilion's other pushes (R47). Poison pushes of a sector go ahead of the others,
in their own order (R350). -/
def State.pushLine (s : State) (p : PavId) (j : Push) : State :=
  let q := (s.pav p).pushq
  if j.poisons then
    match (if q.any Push.poisons then none else s.tryPush p j) with
    | some s' => s'
    | none => s.modPav p fun v => { v with pushq := v.pushq.filter Push.poisons ++ [j] ++ v.pushq.filter fun x => !x.poisons }
  else if q.any fun x => x.poisons || x.pa = j.pa then s.modPav p fun v => { v with pushq := v.pushq ++ [j] }
  else match s.tryPush p j with
    | some s' => s'
    | none => s.modPav p fun v => { v with pushq := v.pushq ++ [j] }

/-! ## Stack command path -/

def stackKey (set way sub : Nat) : Nat := (way * 16384 + set) * 64 + sub
def State.stackCmd (s : State) (p : PavId) (set way sub : Nat) (pa : LineAddr) (op : StackOp) (plot : Option PlotId := none) : State :=
  s.modPav p fun v => { v with stackq := v.stackq ++ [{ set := set, way := way, sub := sub, pa := pa, plot := plot, op := op, at_ := s.now }] }

/-- Commits data into a sub-block of a way: PRESENT and, for a write, DIRTY are set and the stack write is queued (R202,
R211). A register's older copy of the line is no longer used. -/
def State.commitSec (s : State) (p : PavId) (set way sub : Nat) (pa : LineAddr) (data : Line) (poison dirty : Bool) (plot : Option PlotId) : State :=
  let s := s.modPav p fun v =>
    let t := v.tag set way
    { (v.setTag set way { t with present := setBits t.present sub sub 1, dirty := if dirty then setBits t.dirty sub sub 1 else t.dirty }) with
      stackq := v.stackq.filter fun c => !(c.set = set && c.way = way && c.sub = sub && (match c.op with
        | .rewrite _ => true
        | _ => false))
      stackRet := v.stackRet.map fun r => if r.cmd.set = set && r.cmd.way = way && r.cmd.sub = sub then { r with stale := true } else r
      miss := (v.dropBuf pa).miss }
  s.stackCmd p set way sub pa (.write (if poison then stackPoison else stackEncode data)) plot

/-- Commits a line into a Glasshouse way (R237). -/
def State.commitGh (s : State) (p : PavId) (set way : Nat) (pa : LineAddr) (data : Line) (poison dirty : Bool) : State :=
  s.modPav p fun v =>
    let e := v.ghe set way
    let d := dirty || (e.valid && e.tag = ghTag pa && e.dirtyA)
    (v.setGhe set way { tag := ghTag pa, valid := true, poison := poison, dirtyA := d, dirtyB := d }).setGhLine (ghKey set way) (sramEncode (if poison then 0 else data))

/-- Starts the eviction of a Valid way: its copy reads are queued in ascending order, and where nothing is dirty its
sub-blocks drop in the next cc (R217). -/
def State.startEvict (s : State) (p : PavId) (set way : Nat) : State :=
  let t := (s.pav p).tag set way
  let s := (s.cntPav p 7 (some t.plot))
  let s := s.modPav p fun v =>
    let v := (v.setTag set way { t with st := .evicting }).occSub t.plot
    { v with orRsv := v.orRsv + popcount t.dirty
             evicts := v.evicts ++ [{ set := set, way := way, tag := t.tag, plot := t.plot, dropAt := if t.dirty = 0 then some (s.now + 1) else none }] }
  (List.range 64).foldl (fun s b => if t.dirty.getLsbD b then s.stackCmd p set way b (lineOf t.tag set b) .evict (some t.plot) else s) s

/-- Adds a line to the Orangery as its youngest. -/
def State.orAdd (s : State) (p : PavId) (pa : LineAddr) (data : Line) (poison : Bool) (plot : Option PlotId) : State :=
  s.modPav p fun v => { v with orang := v.orang ++ [{ pa := pa, line := sramEncode data, poison := poison, plot := plot }] }
/-- Merges a write into an Orangery line in place (R208); a rewrite waiting for it is dropped (R348). -/
def State.orPut (s : State) (p : PavId) (pa : LineAddr) (data : Line) (poison : Bool) : State :=
  s.modPav p fun v => { v with orang := v.orang.map fun o => if o.pa = pa then { o with line := sramEncode data, poison := poison } else o
                               sramFix := v.sramFix.filter fun x => x.1 ≠ some pa }
def State.orDrop (s : State) (p : PavId) (pa : LineAddr) : State :=
  s.modPav p fun v => { v with orang := v.orang.filter fun o => o.pa ≠ pa
                               sramFix := v.sramFix.filter fun x => x.1 ≠ some pa }

/-- Reads an Orangery line: its data, poison, and the handling of its class (R347). -/
def State.orRead (s : State) (p : PavId) (o : OrLine) : State × Line × Bool :=
  if o.poison then (s, 0, true) else
  let d := sramDecode false o.line
  match d.cls with
  | .good => (s, d.data, false)
  | .poison => (s, d.data, false)
  | .corrected =>
    ((s.rcount (R.pavErrCnt p) 15 0 1).modPav p fun v => { v with sramFix := v.sramFix ++ [(some o.pa, 0, sramEncode d.data)] }, d.data, false)
  | .uncorrectable =>
    let s := s.modPav p fun v => { v with orang := v.orang.map fun x => if x.pa = o.pa then { x with poison := true } else x }
    (((s.raise (R.pavErrStat p) 9).event .uncorrectable p.val (o.pa.toNat * 64) 3 (store := .orangery)).fatal 10, 0, true)

/-- Errors that the engine meets (R255, R270). -/
def State.mopErrs (s : State) (n : Nat) : State := s.modGlb fun g => { g with mop := { g.mop with errs := satAdd g.mop.errs n 0xFFFF } }
/-- A read of the engine met a data error of a class, which is handled under R347 (R255). -/
def State.mopCls (s : State) (c : Cls) : State := if s.glb.mop.busy && (c = .corrected || c = .uncorrectable) then s.mopErrs 1 else s

/-- Reads a Glasshouse line by index; `dirty` decides the handling of an uncorrectable one in GH_CACHE (R347). The line is
returned as none when a clean entry must be refetched. -/
def State.ghRead (s : State) (p : PavId) (idx : Nat) (window dirty poison : Bool) : State × Option (Line × Bool) :=
  if poison then (s, some (0, true)) else
  let d := sramDecode window ((s.pav p).ghLineAt idx)
  match d.cls with
  | .good => (s, some (d.data, false))
  | .poison => (s, some (0, true))
  | .corrected =>
    ((s.rcount (R.pavErrCnt p) 15 0 1).modPav p fun v => { v with sramFix := v.sramFix ++ [(none, idx, sramEncode d.data)] }, some (d.data, false))
  | .uncorrectable =>
    let s := s.raise (R.pavErrStat p) 9
    if window then
      (((s.modPav p fun v => v.setGhLine idx windowPoison).event .uncorrectable p.val (idx * 64) 3 (store := .glasshouse)).fatal 10, some (0, true))
    else if dirty then
      (((s.modPav p fun v => v.setGhe (idx / 16) (idx % 16) { v.ghe (idx / 16) (idx % 16) with poison := true }).event .uncorrectable p.val (idx * 64) 3 (store := .glasshouse)).fatal 10, some (0, true))
    else ((s.modPav p fun v => v.setGhe (idx / 16) (idx % 16) {}).event .uncorrectable p.val (idx * 64) 3 (store := .glasshouse), none)

/-! ## Data on its way to memory -/

/-- A stack command that reads a sub-block for a direct write-back (R224). -/
def StackOp.writesBack (o : StackOp) : Bool :=
  match o with
  | .mop _ _ => true
  | .wbTxn _ => true
  | _ => false
/-- Data of a line is on its way to the write queue: a push that waits, or a direct write-back that has been read. Until the
queue has it, memory is older (R208, R224). -/
def Pav.wbOut (v : Pav) (la : LineAddr) : Bool :=
  (v.pushq.any fun j => j.pa = la) || v.stackRet.any fun r => r.cmd.pa = la && r.cmd.op.writesBack
/-- A line waits in the eviction buffer or is on its way to the write queue (R122, R138). -/
def Pav.lineWaits (v : Pav) (la : LineAddr) : Bool := (v.evBuf.any fun e => e.pa = la) || v.wbOut la
/-- Data on its way to memory holds up an access that would go to memory; one that hits and may commit has the newest data
in the cache. -/
def State.pushHeld (s : State) (p : PavId) (la : LineAddr) : Bool :=
  (s.pav p).wbOut la && !(match s.look p la with
    | .hit _ => !s.writeThrough p
    | _ => false)
/-- An access to a line waits: for the eviction buffer (R138), or for data on its way to memory. -/
def State.lineHeld (s : State) (p : PavId) (la : LineAddr) : Bool := ((s.pav p).evBuf.any fun e => e.pa = la) || s.pushHeld p la

/-! ## Miss registers -/

/-- The register that a new miss takes. DESIGN CHOICE: the spec names none of the free ones; the model takes the lowest (log entry
311). -/
def Pav.freeReg (v : Pav) : Option Nat := (List.range 512).find? fun i => (FMap.find? v.miss i).isNone
def State.modReg (s : State) (p : PavId) (r : Nat) (f : MissReg → MissReg) : State :=
  s.modPav p fun v => match FMap.find? v.miss r with
    | none => v
    | some x => { v with miss := FMap.insert v.miss r (f x) }

/-- Takes a way for a Plot under R206: the way, now holding the sector or pending; none when none may be taken. A chosen
Invalid way takes the tag at once; a victim starts its eviction, and the way takes the tag when that ends (R213, R217). -/
def State.allocWay (s : State) (p : PavId) (la : LineAddr) (k : PlotId) (fillSt : TagSt) : Option (State × Nat) :=
  let set := setOf la
  match s.chooseVictim p set k with
  | none => none
  | some w =>
    let s := s.modPav p fun v => v.touch set w
    if ((s.pav p).tag set w).st = .invalid then
      some (s.modPav p fun v => (v.setTag set w { tag := tagOf la, st := fillSt, plot := k }).occAdd k, w)
    else some (s.startEvict p set w, w)

/-- The Glasshouse victim of R237: the way to use, its dirty line moved to the Orangery. DESIGN CHOICE: 'no Orangery line is unreserved'
bars allocation where the victim is dirty and would need a line; an Invalid way or a clean victim is taken all the same (log entry
312). -/
def State.allocGh (s : State) (p : PavId) (la : LineAddr) : Option (State × Nat) :=
  let v := s.pav p
  let set := ghSet la
  let heldW := fun w => v.missList.any fun r => r.2.way = w && ghSet r.2.base = set
  match ways16.find? fun w => !(v.ghe set w).valid && !heldW w with
  | some w => some (s.modPav p fun v => v.touch set w, w)
  | none =>
    let cand := ways16.filter fun w => !heldW w && (v.ghe set w).parOk
    if cand.isEmpty then none else
    let w := plruVictim (v.plruOf set) cand
    let e := v.ghe set w
    if e.dirtyA && v.unreserved = 0 then none else
    let (s, got) := if e.dirtyA then s.ghRead p (ghKey set w) false true e.poison else (s, none)
    let s := match got with
      | some (d, po) => s.orAdd p (ghLine e.tag set) d po none
      | none => s
    some (s.modPav p fun v => (v.setGhe set w {}).touch set w, w)

/-- Prefetch group size of a Plot: degree + 1 (R209, R226). -/
def State.groupSize (s : State) (k : PlotId) : Nat := 2 ^ s.rf (R.glbPlotPf (k.toNat / 16)) (2 * (k.toNat % 16) + 1) (2 * (k.toNat % 16))

/-- A sub-block's memory read is out although a written line has taken its place; its data is discarded on return (R212). -/
def MissReg.readOut (x : MissReg) (i : Nat) : Bool := x.written.getLsbD i && x.want.getLsbD i && x.issued.getLsbD i
/-- A written line takes the place of a sub-block; nothing is still to return where the memory data is already in (R212). -/
def MissReg.write (x : MissReg) (i : Nat) (d : Line) (po : Bool) (k : Option PlotId) (w : List (Nat × Nat)) : MissReg :=
  { x with written := setBits x.written i i 1, arrived := setBits x.arrived i i 1, done := setBits x.done i i 0
           plots := (i, k) :: x.plots.filter fun y => y.1 ≠ i
           want := if x.arrived.getLsbD i && !x.written.getLsbD i then setBits x.want i i 0 else x.want
           buf := (x.buf.filter fun b => b.1 ≠ i) ++ [(i, d, po)], writers := x.writers ++ w }
/-- A lookup that merges into a register touches the register's way (R205); a disabled cache touches none (R245). -/
def State.touchReg (s : State) (p : PavId) (r : Nat) : State :=
  match FMap.find? (s.pav p).miss r, s.mode p with
  | some x, .sec _ => if x.way < 16 then s.modPav p fun v => v.touch x.set_ x.way else s
  | some x, .gh _ => if x.way < 16 then s.modPav p fun v => v.touch (ghSet x.base) x.way else s
  | _, _ => s

/-- The Plot that the write of a register's sub-block is charged to (R385). -/
def MissReg.plotOf (x : MissReg) (i : Nat) : Option PlotId := (List.find? (fun (y : Nat × Option PlotId) => y.1 = i) x.plots).elim (some x.plot) (·.2)

/-- Commits what a register holds and frees it when nothing is left (R211 to R216, R246). A line to be pushed stays in the
register until the write queue takes it (R216). -/
def State.regCommit (s : State) (p : PavId) (r : Nat) : State :=
  match FMap.find? (s.pav p).miss r with
  | none => s
  | some x =>
    if x.pendAlloc then s else
    let s := (List.range x.gsize).foldl (fun s i =>
      match FMap.find? (s.pav p).miss r with
      | none => s
      | some x =>
      if !x.arrived.getLsbD i || x.done.getLsbD i then s else
      match x.buf.find? fun b => b.1 = i with
      | none => s
      | some (_, data, po) =>
        let la := x.base + BitVec.ofNat 46 i
        let wr := x.written.getLsbD i
        let finish (s : State) : State :=
          let ws := x.writers.filter fun w => w.2 = i
          let s := s.modReg p r fun x =>
            { x with done := setBits x.done i i 1, writers := x.writers.filter fun w => w.2 ≠ i
                     buf := if x.recalled.getLsbD i then x.buf.filter fun b => b.1 ≠ i else x.buf }
          ws.foldl (fun s w => s.setFetch p w.1 .performed) s
        let t := (s.pav p).tag (setOf la) x.way
        let sect := !((s.pav p).place = .ghCache || ((s.pav p).place = .transition && (s.pav p).from_ = .ghCache))
        let lost := sect && (t.tag ≠ tagOf la || t.st = .invalid || t.st = .evicting)
        if x.way = 16 || (wr && (!s.glb.hcEn || s.writeThrough p || lost)) then
          if wr then
            -- no way, or the cache is disabled: the written line goes to the write queue (R208, R246)
            if !s.wqTakes (s.chanFor la) || (s.pav p).pushq.any (fun j => j.poisons || j.pa = la) then s else
            let ws := x.writers.filter fun w => w.2 = i
            let s := if x.way < 16 && !lost && sect then s.clearSub p (setOf la) x.way (subOf la) else s
            let s := s.modReg p r fun x => { x with done := setBits x.done i i 1, writers := x.writers.filter fun w => w.2 ≠ i, buf := x.buf.filter fun b => b.1 ≠ i }
            s.pushLine p { pa := la, data := data, poison := po, plot := x.plotOf i, for_ := (ws.head?).elim .nothing fun w => .txn w.1 }
          else finish s
        else
          if !sect then finish (s.commitGh p (ghSet la) x.way la data po wr)
          else if lost || (!wr && t.present.getLsbD (subOf la)) then finish s
          else finish (s.commitSec p (setOf la) x.way (subOf la) la data po wr (x.plotOf i))) s
    match FMap.find? (s.pav p).miss r with
    | none => s
    | some x =>
      let all := (List.range x.gsize).all fun i =>
        !(x.want.getLsbD i || x.written.getLsbD i || x.waitEv.getLsbD i) || (x.done.getLsbD i && !x.readOut i)
      if all && x.waiters.isEmpty && x.writers.isEmpty then
        s.modPav p fun v =>
          let v := { v with miss := FMap.erase v.miss r }
          if x.allocating && x.way < 16 then
            let t := v.tag (setOf x.base) x.way
            if t.st = .filling then v.setTag (setOf x.base) x.way { t with st := .valid } else v
          else v
      else s

/-- A WrPart takes its turn on a sub-block that a register holds: its bytes merge into the data, which then commits dirty
(R212); poison stays (R148). -/
def State.regMerge (s : State) (p : PavId) (r i e : Nat) (t : Txn) : State :=
  s.modReg p r fun x =>
    match x.buf.find? fun b => b.1 = i with
    | none => x
    | some b => x.write i (mergeBytes b.2.1 t.wdata t.mask) b.2.2 (some t.plot) [(e, i)]
/-- The registers of a pavilion commit what they may: after a way has taken its tag (R213), or the write queue has room. -/
def State.regsCommit (s : State) (p : PavId) : State :=
  ((s.pav p).missList.filter fun r => !r.2.pendAlloc && (r.2.arrived &&& ~~~r.2.done) ≠ 0).foldl (fun s r => s.regCommit p r.1) s

/-- Serves one waiter of a register's sub-block: a WrPart merges, a read takes the data into DATA (R211, R212). -/
def State.serveWaiter (s : State) (p : PavId) (r i e : Nat) (la : LineAddr) (data : Line) (po : Bool) : State :=
  match FMap.find? (s.pav p).tt e with
  | none => s
  | some t =>
    if t.fetch ≠ .busy || t.pa ≠ la then s
    else if t.kind = .req Op.wrPart then s.regMerge p r i e t
    else s.modTxn p e fun t => { t with buf := some (data, po), fetch := .ready }

/-- Gives a register's data for a sub-block to its waiters (R211). -/
def State.regDeliver (s : State) (p : PavId) (r i : Nat) (data : Line) (po : Bool) : State :=
  match FMap.find? (s.pav p).miss r with
  | none => s
  | some x =>
    let s := s.modReg p r fun x => { x with waiters := x.waiters.filter fun w => w.2 ≠ i }
    (x.waiters.filter fun w => w.2 = i).foldl (fun s w => s.serveWaiter p r i w.1 (x.base + BitVec.ofNat 46 i) data po) s

/-- An Orangery line is recalled into a member of a register (R210, R222); an error that a PRELOAD meets in it is counted (R255). -/
def State.orRecall (s : State) (p : PavId) (r i : Nat) (o : OrLine) (engine : Bool) : State :=
  let cls := if o.poison then Cls.poison else (sramDecode false o.line).cls
  let (s, d, po) := s.orRead p o
  ((if engine then s.mopCls cls else s).orDrop p o.pa).modReg p r fun x =>
    { x with waitEv := setBits x.waitEv i i 0, written := setBits x.written i i 1, recalled := setBits x.recalled i i 1, arrived := setBits x.arrived i i 1
             buf := x.buf ++ [(i, d, po)], plots := (i, o.plot) :: x.plots }

/-- A sub-block that a register may not read yet: it is still in an Evicting way (R210), or on its way to the write queue. -/
def Pav.subHeld (v : Pav) (la : LineAddr) : Bool := v.evictHolds la || v.wbOut la

/-- Allocates a miss register for a line and way (16 for none), with the group of R209; `need` is the waiting entry, `wr`
data to hold for a pending way (R201, R210). None when no register is free. -/
def State.allocReg (s : State) (p : PavId) (la : LineAddr) (way : Nat) (pend alloc : Bool) (k : Option PlotId) (g : Nat) (need : Option Nat)
    (wr : Option (Line × Bool)) : Option (State × Nat) :=
  match (s.pav p).freeReg with
  | none => none
  | some r =>
    let base : LineAddr := BitVec.ofNat 46 (la.toNat / g * g)
    let c := la.toNat - base.toNat
    let v := s.pav p
    let bits (f : Nat → Bool) : BitVec 8 := BitVec.ofNat 8 ((List.range g).foldl (fun a i => a + (if f i then 2 ^ i else 0)) 0)
    let ln (i : Nat) : LineAddr := base + BitVec.ofNat 46 i
    let present (i : Nat) : Bool := way < 16 && !pend && v.place = .sectored && (v.tag (setOf la) way).present.getLsbD (subOf (ln i))
    let others (i : Nat) : Bool := i = c || (v.regFor (ln i)).isNone
    let want := match wr with
      | some _ => 0
      | none => bits fun i => others i && !present i && (i = c || (v.orFor (ln i)).isNone) && !v.subHeld (ln i)
    let waitEv := match wr with
      | some _ => 0
      | none => bits fun i => others i && !present i && v.subHeld (ln i) && (v.evictHolds (ln i) || (v.orFor (ln i)).isNone)
    let x : MissReg :=
      { base := base, gsize := g, crit := c, way := way, pendAlloc := pend, allocating := alloc, plot := k.getD 0, want := want, waitEv := waitEv
        plots := if wr.isSome then [(c, k)] else []
        waiters := match wr, need with
          | none, some e => [(e, c)]
          | _, _ => []
        writers := match wr, need with
          | some _, some e => [(e, c)]
          | _, _ => []
        written := if wr.isSome then bits (· = c) else 0
        arrived := if wr.isSome then bits (· = c) else 0
        buf := wr.elim [] fun d => [(c, d.1, d.2)] }
    let s := s.modPav p fun v => { v with miss := FMap.insert v.miss r x }
    -- group members in the Orangery are recalled into the register's way (R210, R222)
    let s := if wr.isSome || way = 16 then s else
      (List.range g).foldl (fun s i =>
        if i = c || present i || v.evictHolds (ln i) || (v.regFor (ln i)).isSome then s else
        match (s.pav p).orFor (ln i) with
        | none => s
        | some o => s.orRecall p r i o false) s
    some (s.regCommit p r, r)

/-! ## Full-line writes (R201, R202, R208) -/

/-- What became of a write or read of the home copy. -/
inductive Did where
  /-- performed, or the data is at hand -/
  | done
  /-- under way: a register, a stack read or a waiting push completes it -/
  | waits
  /-- a resource is full: try again (R36) -/
  | replay
  /-- the sector is Evicting (R140) -/
  | sector
deriving DecidableEq, Repr

/-- Pushes a write without allocation (R208). `count`: a sector miss that found no victim. -/
def State.noAllocWrite (s : State) (p : PavId) (la : LineAddr) (data : Line) (po : Bool) (k : Option PlotId) (e : Option Nat) (count : Bool) : State × Did :=
  let s := if count then (s.rcount (R.pavHcErr p) 31 16 1).cntPav p 0x0E k else s
  let s := s.pushLine p { pa := la, data := data, poison := po, plot := k, for_ := e.elim .nothing .txn }
  if (s.pav p).pushq.any fun j => j.pa = la then (s, .waits) else (s, .done)

/-- Stores a boot-window line (R233). -/
def windowIdx (la : LineAddr) : Nat := (la.toNat / 2 ^ 10 % 256) * 64 + la.toNat % 64
def State.windowPut (s : State) (p : PavId) (la : LineAddr) (data : Line) (po : Bool) : State :=
  s.modPav p fun v => v.setGhLine (windowIdx la) (if po then windowPoison else sramEncode data)

/-- The boot window covers a line (R231). -/
def State.inWindow (s : State) (la : LineAddr) : Bool := !s.glb.noWindow && la.toNat / 2 ^ 18 = s.rf R.glbBootWin 27 0

/-- Pushes a window line to memory, with its poison (R240). -/
def State.windowPush (s : State) (p : PavId) (la : LineAddr) : State :=
  let (s, got) := s.ghRead p (windowIdx la) true true false
  let b := got.getD (0, true)
  s.pushLine p { pa := la, data := b.1, poison := b.2, for_ := .walk }

/-- While WINDOW moves to memory, an access to a line not yet pushed pushes it first (R240 step 3). -/
def State.windowFirst (s : State) (p : PavId) (la : LineAddr) : State :=
  let v := s.pav p
  if v.place = .transition && v.from_ = .window && s.inWindow la && decide (v.walkPos ≤ windowIdx la) && !v.moved.contains (windowIdx la) then
    (s.modPav p fun v => { v with moved := windowIdx la :: v.moved }).windowPush p la
  else s

/-- An access to the home copy is counted by its outcome in R200 (R537); merges are counted as they are made. -/
def State.cntLook (s : State) (p : PavId) (m : Mode) (lk : Look) (k : Option PlotId) : State :=
  match m, lk with
  | .sec _, .hit _ => s.cntPav p 2 k
  | .sec _, .sector _ => s.cntPav p 3 k
  | .sec _, .pendReg _ => s.cntPav p 3 k
  | .sec _, .miss => s.cntPav p 4 k
  | _, .orang => s.cntPav p 5 k
  | _, _ => s
/-- Counts an access that went through; one that is replayed, or waits for an Evicting sector, is looked up again. -/
def State.looked (s : State) (p : PavId) (la : LineAddr) (k : Option PlotId) (r : State × Did) : State × Did :=
  match r with
  | (s', .done) => (s'.cntLook p (s.mode p) (s.look p la) k, .done)
  | (s', .waits) => (s'.cntLook p (s.mode p) (s.look p la) k, .waits)
  | x => x

/-- A full-line write joins the register that covers its line (R212); a request that finds 8 waiters there is replayed
(R215). -/
def State.regJoin (s : State) (p : PavId) (r : Nat) (la : LineAddr) (data : Line) (po : Bool) (k : Option PlotId) (e : Option Nat) : State × Did :=
  let full := (FMap.find? (s.pav p).miss r).elim false fun x => decide (8 ≤ x.nw)
  if e.isSome && full then (s.rcount (R.pavHcErr p) 15 0 1, .replay)
  else
    ((((s.touchReg p r).cntPav p 6 k).modReg p r fun x => let i := la.toNat - x.base.toNat; x.write i data po k (e.elim [] fun e => [(e, i)])).regCommit p r,
      .waits)

/-- Writes a whole line into the home copy: a WrLine, WrStash, merged WrPart, WbD, RecallD, FwdAckD or poison (R120, R201,
R208). `e` is the transaction it completes, `k` the Plot charged. Outside `alloc` an Orangery line is not recalled (R208,
R239). DESIGN CHOICE: a write charged to no Plot takes no new sector, since a sector counts towards its Plot and such work is limited by
no share (R385, log entry 313). -/
def State.writeLine (s : State) (p : PavId) (la : LineAddr) (data : Line) (po : Bool) (k : Option PlotId) (e : Option Nat) : State × Did :=
  let push (s : State) (count : Bool) := s.noAllocWrite p la data po k e count
  match s.mode p with
  | .window => (s.windowPut p la data po, .done)
  | .bypass =>
    match s.look p la with
    | .reg r => s.regJoin p r la data po k e
    | .orang => (s.orPut p la data po, .done)
    | _ => push s false
  | .gh alloc =>
    match s.look p la with
    | .hit w =>
      if s.writeThrough p then push (s.modPav p fun v => v.setGhe (ghSet la) w {}) false
      else ((s.commitGh p (ghSet la) w la data po true).modPav p fun v => v.touch (ghSet la) w, .done)
    | .reg r => s.regJoin p r la data po k e
    | lk =>
      let inOr := lk = .orang
      match (if alloc then s.allocGh p la else none) with
      | some (s, w) => ((if inOr then s.orDrop p la else s).commitGh p (ghSet la) w la data po true, .done)
      | none =>
        if inOr then (s.orPut p la data po, .done)
        else push s alloc
  | .sec alloc =>
    let set := setOf la; let sub := subOf la
    match s.look p la with
    | .evicting => (s, .sector)
    | .hit w =>
      if s.writeThrough p then push (s.clearSub p set w sub) false
      else ((s.commitSec p set w sub la data po true k).modPav p fun v => v.touch set w, .done)
    | .reg r => s.regJoin p r la data po k e
    | .sector w =>
      if !alloc then push s false else ((s.commitSec p set w sub la data po true k).modPav p fun v => v.touch set w, .done)
    | .pendReg w =>
      if !alloc then push s false else
      match s.allocReg p la w true false k 1 e (some (data, po)) with
      | some (s, _) => (s, .waits)
      | none => (s, .replay)
    | lk =>
      let inOr := lk = .orang
      if inOr && !alloc then (s.orPut p la data po, .done) else
      match (if inOr then (s.pav p).wayOf la else none), (if inOr then (s.pav p).pendFor la else none) with
      | some w, _ => (((s.orDrop p la).commitSec p set w sub la data po true k).modPav p fun v => v.touch set w, .done)
      | none, some w =>
        match ((s.orDrop p la).modPav p fun v => v.touch set w).allocReg p la w true false k 1 e (some (data, po)) with
        | some (s', _) => (s', .waits)
        | none => (s, .replay)
      | none, none =>
        match (if alloc then k.bind fun k => s.allocWay p la k .valid else none) with
        | some (s1, w) =>
          let s1 := if inOr then s1.orDrop p la else s1
          if ((s1.pav p).tag set w).st = .evicting then
            match s1.allocReg p la w true true k 1 e (some (data, po)) with
            | some (s2, _) => (s2, .waits)
            | none => (s, .replay)
          else (s1.commitSec p set w sub la data po true k, .done)
        | none =>
          if inOr then (s.orPut p la data po, .done)
          else push s (alloc && k.isSome)

/-- A full-line write as an access of its own: it is counted by its outcome (R537). -/
def State.putLine (s : State) (p : PavId) (la : LineAddr) (data : Line) (po : Bool) (k : Option PlotId) (e : Option Nat) : State × Did :=
  s.looked p la k (s.writeLine p la data po k e)

/-! ## Reads (R201, R208, R211, R215, R222) -/

/-- A read without a way: a register for the line alone (R208). -/
def State.noAllocRead (s : State) (p : PavId) (la : LineAddr) (k : PlotId) (e : Nat) (count : Bool) : State × Did :=
  let s := if count then (s.rcount (R.pavHcErr p) 31 16 1).cntPav p 0x0E (some k) else s
  match s.allocReg p la 16 false false (some k) 1 (some e) none with
  | some (s, _) => (s, .waits)
  | none => (s, .replay)

def State.toBuf (s : State) (p : PavId) (e : Nat) (d : Line) (po : Bool) : State := s.modTxn p e fun t => { t with buf := some (d, po), fetch := .ready }

/-- Joins a covering register, or takes the data that it still holds (R205, R215). -/
def State.mergeRead (s : State) (p : PavId) (la : LineAddr) (r e : Nat) : State × Did :=
  let s0 := s
  let s := s.touchReg p r
  match FMap.find? (s.pav p).miss r with
  | none => (s, .replay)
  | some x =>
    let i := la.toNat - x.base.toNat
    if 8 ≤ x.nw then (s0.rcount (R.pavHcErr p) 15 0 1, .replay) else
    let s := s.cntPav p 6 ((FMap.find? (s.pav p).tt e).map (·.plot))
    match x.buf.find? fun b => b.1 = i with
    | some (_, d, po) =>
      match FMap.find? (s.pav p).tt e with
      | none => (s, .replay)
      | some t =>
        if t.kind = .req Op.wrPart then ((s.regMerge p r i e t).regCommit p r, .waits) else (s.toBuf p e d po, .done)
    | none => (s.modReg p r fun x => { x with waiters := x.waiters ++ [(e, i)] }, .waits)

/-- Reads the home copy of a line for a transaction's DATA (R120, R200, R201). -/
def State.readHome (s : State) (p : PavId) (la : LineAddr) (k : PlotId) (e : Nat) : State × Did :=
  match s.mode p with
  | .window =>
    let (s, got) := s.ghRead p (windowIdx la) true true false
    match got with
    | some (d, po) => (s.toBuf p e d po, .done)
    | none => (s, .replay)
  | .bypass =>
    match s.look p la with
    | .reg r => s.mergeRead p la r e
    | .orang =>
      match (s.pav p).orFor la with
      | some o => let (s, d, po) := s.orRead p o; (s.toBuf p e d po, .done)
      | none => (s, .replay)
    | _ => s.noAllocRead p la k e false
  | .gh alloc =>
    match s.look p la with
    | .hit w =>
      let x := (s.pav p).ghe (ghSet la) w
      let (s, got) := s.ghRead p (ghKey (ghSet la) w) false x.dirtyA x.poison
      match got with
      | some (d, po) => ((s.toBuf p e d po).modPav p fun v => v.touch (ghSet la) w, .done)
      | none => (s, .replay)
    | .reg r => s.mergeRead p la r e
    | .orang =>
      match (s.pav p).orFor la with
      | none => (s, .replay)
      | some o =>
        let (s, d, po) := s.orRead p o
        match (if alloc then s.allocGh p la else none) with
        | some (s, w) => (((s.orDrop p la).commitGh p (ghSet la) w la d po true).toBuf p e d po, .done)
        | none => (s.toBuf p e d po, .done)
    | _ =>
      if (s.pav p).freeReg.isNone then (s, .replay) else
      match (if alloc then s.allocGh p la else none) with
      | some (s, w) =>
        match s.allocReg p la w false false (some k) 1 (some e) none with
        | some (s, _) => (s, .waits)
        | none => (s, .replay)
      | none => s.noAllocRead p la k e alloc
  | .sec alloc =>
    let set := setOf la
    match s.look p la with
    | .evicting => (s, .sector)
    | .hit w => ((s.stackCmd p set w (subOf la) la (.demand e) (some k)).modPav p fun v => v.touch set w, .waits)
    | .reg r => s.mergeRead p la r e
    | .orang =>
      match (s.pav p).orFor la with
      | none => (s, .replay)
      | some o =>
        let (s, d, po) := s.orRead p o
        if !alloc then (s.toBuf p e d po, .done) else
        match (s.pav p).wayOf la with
        | some w => ((((s.orDrop p la).commitSec p set w (subOf la) la d po true (some k)).modPav p fun v => v.touch set w).toBuf p e d po, .done)
        | none =>
          match (if alloc then (s.pav p).pendFor la else none), (if alloc then s.allocWay p la k .valid else none) with
          | some w, _ =>
            match ((s.orDrop p la).modPav p fun v => v.touch set w).allocReg p la w true false (some k) 1 none (some (d, po)) with
            | some (s1, _) => (s1.toBuf p e d po, .done)
            | none => (s, .replay)
          | none, some (s1, w) =>
            let s1 := s1.orDrop p la
            if ((s1.pav p).tag set w).st = .evicting then
              match s1.allocReg p la w true true (some k) 1 none (some (d, po)) with
              | some (s2, _) => (s2.toBuf p e d po, .done)
              | none => (s, .replay)
            else ((s1.commitSec p set w (subOf la) la d po true (some k)).toBuf p e d po, .done)
          | none, none => (s.toBuf p e d po, .done)
    | .sector w =>
      if !alloc then s.noAllocRead p la k e false else
      match s.allocReg p la w false false (some k) (s.groupSize k) (some e) none with
      | some (s, _) => (s, .waits)
      | none => (s, .replay)
    | .pendReg w =>
      if !alloc then s.noAllocRead p la k e false else
      match s.allocReg p la w true false (some k) (s.groupSize k) (some e) none with
      | some (s, _) => (s, .waits)
      | none => (s, .replay)
    | .miss =>
      if (s.pav p).freeReg.isNone then (s, .replay) else
      match (if alloc then s.allocWay p la k .filling else none) with
      | some (s, w) =>
        let pend := ((s.pav p).tag set w).st = .evicting
        match s.allocReg p la w pend true (some k) (s.groupSize k) (some e) none with
        | some (s, _) => (s, .waits)
        | none => (s, .replay)
      | none => s.noAllocRead p la k e alloc

/-- Asks for the home copy of a line, and counts the access by its outcome (R200, R537). -/
def State.readLine (s : State) (p : PavId) (la : LineAddr) (k : PlotId) (e : Nat) : State × Did := s.looked p la (some k) (s.readHome p la k e)

/-! ## Tag parity (R349, R350, R351) -/

/-- The pavilion halts (R351). -/
def State.haltPav (s : State) (p : PavId) : State :=
  ((s.modPav p fun v => { v with halted := true }).event .halt p.val 0 (store := .tags)).fatal 12

/-- Starts the poisoning of a possibly dirty sector with a known tag; while 8 ways are Evicting it waits (R350). -/
def State.poisonSector (s : State) (p : PavId) (set way : Nat) : State :=
  let v := s.pav p
  let t := v.tag set way
  if 8 ≤ v.evicts.length && !(v.evicts.any fun e => e.set = set && e.way = way) then
    s.modPav p fun v => { v with poisonQ := if v.poisonQ.contains (set, way) then v.poisonQ else v.poisonQ ++ [(set, way)] } else
  let flight := (v.evicts.find? fun e => e.set = set && e.way = way).elim [] (·.inFlight)
  let subs := (List.range 64).filter fun b => !flight.contains b && (v.orFor (lineOf t.tag set b)).isNone
  let unread := (v.stackq.filter fun q => q.set = set && q.way = way && q.op = .evict).length
  let s := s.modPav p fun v =>
    { (v.setTag set way { tag := t.tag, st := .evicting, plot := t.plot }) with
      poisonQ := v.poisonQ.erase (set, way)
      orRsv := v.orRsv - unread
      evicts := (v.evicts.filter fun e => !(e.set = set && e.way = way)) ++
        [{ set := set, way := way, tag := t.tag, plot := t.plot, inFlight := subs ++ flight, poisoning := true, countsOcc := t.st = .valid || t.st = .filling }]
      stackq := v.stackq.filter fun q => !(q.set = set && q.way = way && q.op = .evict) }
  (subs.foldl (fun s b => s.pushLine p { pa := lineOf t.tag set b, data := 0, poison := true, plot := some t.plot, for_ := .poisonSub set way b }) s).poisonEnd p set way
/-- Sectors that wait to be poisoned start as Evicting places come free (R350 step 1). -/
def State.poisonNext (s : State) (p : PavId) : State :=
  match (s.pav p).poisonQ with
  | [] => s
  | x :: _ => if (s.pav p).evicts.length < 8 then s.poisonSector p x.1 x.2 else s

/-- Live miss registers of a way that has been invalidated go on with no way (R349). -/
def State.regsLoseWay (s : State) (p : PavId) (set way : Nat) : State :=
  s.modPav p fun v => { v with miss := v.missList.map fun r => if r.2.way = way && r.2.set_ = set then (r.1, { r.2 with way := 16, pendAlloc := false }) else r }

/-- occ as the walk of the tags finds it at its end (R349); a sector being poisoned counts until its end (R350 step 3). -/
def Pav.recount (v : Pav) : Pav :=
  { v with meters := Vector.ofFn fun k => { v.meters[k] with
      occ := (v.tags.filter fun t => (t.2.st = .valid || t.2.st = .filling) && t.2.plot.toNat = k.val).length
        + (v.evicts.filter fun e => e.countsOcc && e.plot.toNat = k.val).length } }

/-- One tag entry that fails its parity (R349). -/
def State.tagFault (s : State) (p : PavId) (set way : Nat) : State :=
  let t := (s.pav p).tag set way
  let s := (s.rcount (R.pavErrCnt p) 31 16 1).event .tagParity p.val ((lineOf t.tag set 0).toNat * 64) (store := .tags)
  let par0 := (t.par ^^^ t.parity).getLsbD 0 = false
  if t.knownClean then
    -- copies already issued complete: the way stays Evicting until they have
    let s := match (s.pav p).evicts.find? fun e => e.set = set && e.way = way with
      | some e => s.modPav p fun v => v.setTag set way { tag := e.tag, st := .evicting, plot := e.plot }
      | none => s.modPav p fun v => v.setTag set way {}
    let s := s.regsLoseWay p set way
    if par0 then
      (if t.st = .valid || t.st = .filling then s.modPav p fun v => v.occSub t.plot else s).raise (R.pavErrStat p) 10
    else s.modPav p fun v => { v with recountLeft := 16384 }
  else if par0 then ((s.raise (R.pavErrStat p) 11).fatal 11).poisonSector p set way
  else s.haltPav p

/-- Every way of a set is checked at a lookup; one whose poisoning waits has had its check (R199, R350). -/
def State.checkTags (s : State) (p : PavId) (set : Nat) : State :=
  ways16.foldl (fun s w => if ((s.pav p).tag set w).parOk || (s.pav p).halted || (s.pav p).poisonQ.contains (set, w) then s else s.tagFault p set w) s

/-- A Glasshouse entry that fails its parity (R349). -/
def State.ghFault (s : State) (p : PavId) (set way : Nat) : State :=
  let e := (s.pav p).ghe set way
  let s := (s.rcount (R.pavErrCnt p) 31 16 1).event .tagParity p.val ((ghLine e.tag set).toNat * 64) (store := .glasshouse)
  let parT := e.parT = e.tagParity
  if e.knownClean then
    let s := s.modPav p fun v =>
      { (v.setGhe set way {}) with miss := v.missList.map fun r => if r.2.way = way && ghSet r.2.base = set then (r.1, { r.2 with way := 16 }) else r }
    if parT then s.raise (R.pavErrStat p) 10 else s
  else if parT then ((s.modPav p fun v => v.setGhe set way { e with poison := true, dirtyA := true, dirtyB := true }).raise (R.pavErrStat p) 11).fatal 11
  else s.haltPav p
def State.checkGh (s : State) (p : PavId) (set : Nat) : State :=
  ways16.foldl (fun s w => if ((s.pav p).ghe set w).parOk || (s.pav p).halted then s else s.ghFault p set w) s
/-- A lookup for the home copy of a line reads the entries of its set and checks them (R199, R349). -/
def State.readTags (s : State) (p : PavId) (la : LineAddr) : State :=
  if (s.pav p).halted then s else
  match s.mode p with
  | .sec _ => s.checkTags p (setOf la)
  | .gh _ => s.checkGh p (ghSet la)
  | _ => s

/-- Applies a disturbance of stored SRAM bits (R149, R347, R349). -/
def State.disturb (s : State) (p : PavId) (u : SramUpset) : State :=
  s.modPav p fun v =>
    match u with
    | .none => v
    | .tag set way m => { v with tags := FMap.put (fun _ => {}) v.tags (tagKey set way) (TagEntry.unpack ((v.tag set way).pack ^^^ m)) }
    | .busyBank => v
    | .gh set way m => { v with gh := FMap.put (fun _ => {}) v.gh (ghKey set way) (GhEntry.unpack ((v.ghe set way).pack ^^^ m)) }
    | .dir set way m =>
      let k := set * 24 + way
      { v with dir := FMap.put (fun _ => {}) v.dir k (DirEntry.unpack ((FMap.get (fun _ => {}) v.dir k).pack ^^^ m)) }
    | .glasshouse i d c =>
      let l := v.ghLineAt i
      { v with ghData := FMap.put (fun _ => {}) v.ghData i { data := l.data ^^^ d, check := l.check ^^^ c } }
    | .orangery pa d c => { v with orang := v.orang.map fun o =>
        if o.pa = pa then { o with line := { data := o.line.data ^^^ d, check := o.line.check ^^^ c } } else o }

end Sys2Proof.Machine
end

