-- ==== Sys2Proof/Machine/Operands.lean ====
section
/-!
DEFINITION. Operand forms: the messages that the hub builds, and what a message operand or a register access says.
-/

namespace Sys2Proof.Machine

/-- A message with the opcode of its command (R79). -/
def withOp (m : Msg) (op : BitVec 8) : Msg := { m with hdr := { m.hdr with opcode := op } }

/-- A Comp with a STATUS (R78, R106, R116); `perr` marks a protocol error (R80). -/
def compMsg (tid : BitVec 10) (pa : LineAddr) (st : BitVec 4) (htid : BitVec 14 := 0) (perr : Bool := false) : Msg :=
  { hdr := { opcode := Op.comp, tid := tid, pa := pa, status := st, htid := htid, perr := perr } }

/-- An EvAck carries the eviction's TID and PA (R123). -/
def evAckMsg (h : Hdr) (st : BitVec 4) : Msg := { hdr := { opcode := Op.evAck, tid := h.tid, pa := h.pa, status := st } }

/-- Home transaction number of a pavilion's table entry (R77). -/
def htidOf (p : PavId) (e : Nat) : BitVec 14 := BitVec.ofNat 14 (p.val * 1024 + e)
/-- Pavilion and table entry that a HTID names (R77). -/
def htidPav (h : BitVec 14) : PavId := pavOf (h.toNat / 1024)
def htidEnt (h : BitVec 14) : Nat := h.toNat % 1024

/-- A data message; poisoned data is sent as zero (R116, R346). -/
def dataMsg (op : BitVec 8) (t : Txn) (htid : BitVec 14) (data : Line) (poison : Bool) (st : BitVec 4) : Msg :=
  { hdr := { opcode := op, tid := t.tid, plot := t.plot, pa := t.pa, htid := htid, poison := poison, status := st }
    data := if poison then 0 else data }

/-- A forward: requester's TID and port, the home's HTID (R77, R116, R135). -/
def fwdMsg (op : BitVec 8) (t : Txn) (htid : BitVec 14) : Msg :=
  { hdr := { opcode := op, tid := t.tid, plot := t.plot, pa := t.pa, tport := BitVec.ofNat 7 t.port, htid := htid } }

/-- The data of a write-back message: poisoned data is stored as zero with its mark (R124, R346). -/
def msgData (m : Msg) : Line := if m.hdr.poison then 0 else m.data

/-- The reads of R118, with the data that completes a StashAcc (R388). -/
def isReadOp (op : BitVec 8) : Bool :=
  op = Op.rdS || op = Op.rdO || op = Op.upg || op = Op.rdOnce || op = Op.stashAcc
def isWriteOp (op : BitVec 8) : Bool := op = Op.wrLine || op = Op.wrPart || op = Op.wrStash
def isCmoOp (op : BitVec 8) : Bool := op = Op.cClean || op = Op.cInv || op = Op.cCleanInv

/-- A privileged access: the Lodge, the host while HOST_PRIV is set, an agent's PRIV access from a port of PRIV_PORTS,
judged when it arrives at the service node (R512). -/
def State.privileged (s : State) (a : Access) : Bool :=
  match a.master with
  | .host => s.rbit R.glbPrivCtl 0
  | .lodge => true
  | .port n => a.priv && s.rbit (R.glbPrivPorts (n.val / 32)) (n.val % 32)

end Sys2Proof.Machine
end

