-- ==== Sys2Proof/Machine/Home.lean ====
section
/-!
DEFINITION. The home of a line: the directory, the transactions and their waves of forwards, evictions, dead agents and
the port sweep (chapter 3).
-/

namespace Sys2Proof.Machine

/-! ## The directory (R108 to R111, R133) -/

def ways24 : List Nat := List.range 24
def dirKey (set way : Nat) : Nat := set * 24 + way
def Pav.dirAt (v : Pav) (set way : Nat) : DirEntry := FMap.get (fun _ => {}) v.dir (dirKey set way)
/-- Writes an entry with its four parity bits (R111); a free way holds zeros. -/
def Pav.setDir (v : Pav) (set way : Nat) (d : DirEntry) : Pav :=
  { v with dir := FMap.put (fun _ => {}) v.dir (dirKey set way) (if d.st = .free then {} else d.seal) }
def Pav.nruOf (v : Pav) (set way : Nat) : Bool := FMap.get (fun _ => false) v.nru (dirKey set way)
def Pav.setNru (v : Pav) (set way : Nat) (b : Bool) : Pav := { v with nru := FMap.put (fun _ => false) v.nru (dirKey set way) b }
/-- The way that holds a line's entry. -/
def Pav.dirFind (v : Pav) (la : LineAddr) : Option Nat :=
  ways24.find? fun w => let d := v.dirAt (dirSet la) w; d.st ≠ .free && d.tag = dirTag la
/-- The entry of a line; a free one when it has none (Uncached). -/
def Pav.entry (v : Pav) (la : LineAddr) : DirEntry := (v.dirFind la).elim {} (v.dirAt (dirSet la))

/-- The owner that an entry lists (R108). -/
def DirEntry.own (d : DirEntry) : Option Nat :=
  if d.st = .exclusive || d.st = .ownedShared then some d.owner.toNat else none
/-- The sharers that an entry lists, as port numbers in ascending order. -/
def DirEntry.shr (d : DirEntry) : List Nat := (List.range 96).filter d.sharers.getLsbD
def DirEntry.lists (d : DirEntry) (n : Nat) : Bool := d.own = some n || (d.st ≠ .free && d.sharers.getLsbD n)
/-- Owner and sharer bits (R134). -/
def DirEntry.holders (d : DirEntry) : Nat := popcount d.sharers + (if d.own.isSome then 1 else 0)
/-- An entry with an owner and sharers: its state follows (R108). -/
def dirMake (tag : BitVec 34) (own : Option Nat) (sh : BitVec 96) (blk : Bool) : DirEntry :=
  match own with
  | none => if sh = 0 then {} else { tag := tag, st := .shared, owner := 0x7F, blk := blk, sharers := sh }
  | some o => { tag := tag, st := if sh = 0 then .exclusive else .ownedShared, owner := BitVec.ofNat 7 o, blk := blk, sharers := sh }
def bit96 (n : Nat) : BitVec 96 := BitVec.ofNat 96 (2 ^ n)

/-- The transactions of a pavilion with their entry numbers. -/
def Pav.txns (v : Pav) : List (Nat × Txn) := v.tt
/-- The transaction that blocks a line (R114). -/
def Pav.blocker (v : Pav) (la : LineAddr) : Option (Nat × Txn) := List.find? (fun (x : Nat × Txn) => x.2.active && x.2.pa = la) v.tt
/-- The way promised to a table entry (R134). -/
def Pav.promised (v : Pav) (e : Nat) : Option (Nat × Nat) := (List.find? (fun (x : Nat × Nat × Nat) => x.2.2 = e) v.promises).map fun x => (x.1, x.2.1)

/-- Ports under a sweep that an entry lists (R152). -/
def State.sweptIn (s : State) (own : Option Nat) (sh : BitVec 96) : List Nat :=
  (List.range 96).filter fun n => (own = some n || sh.getLsbD n) && (portOf? n).elim false fun n => (s.port n).io.sweeping

/-- Writes the entry of a line: into its way, or into the way promised to the line's transaction. An entry that becomes
Uncached is freed (R133); while a read that is to be granted the line blocks it, the way stays promised to that read. A pavilion that
comes to list a port under a sweep has not finished, or no longer (R152). -/
def State.putEntry (s : State) (p : PavId) (la : LineAddr) (own : Option Nat) (sh : BitVec 96) : State :=
  let swept := s.sweptIn own sh
  s.modPav p fun v =>
    let v := { v with sweeps := v.sweeps ++ swept.filter fun n => !v.sweeps.contains n }
    let b := v.blocker la
    let d := dirMake (dirTag la) own sh b.isSome
    let set := dirSet la
    let way : Option Nat := match v.dirFind la with
      | some w => some w
      | none => (b.bind fun (x : Nat × Txn) => v.promised x.1).map fun (y : Nat × Nat) => y.2
    match way with
    | none => v
    | some w =>
      let v := v.setDir set w d
      if d.st ≠ .free then v else
      match b with
      | none => { v with retryDue := if v.retryDue.contains set then v.retryDue else set :: v.retryDue }
      | some (e, t) =>
        let keep := match t.kind with
          | .req op => isReadOp op && op ≠ Op.rdOnce && !t.issued
          | _ => false
        if keep && (v.promised e).isNone then { v with promises := (set, w, e) :: v.promises }
        else if keep then v
        else { v with promises := v.promises.filter fun (x : Nat × Nat × Nat) => x.2.2 ≠ e
                      retryDue := if v.retryDue.contains set then v.retryDue else set :: v.retryDue }

/-- Removes a port from a line's entry (R123, R147). -/
def State.dropAgent (s : State) (p : PavId) (la : LineAddr) (n : Nat) : State :=
  let d := (s.pav p).entry la
  if !d.lists n then s
  else s.putEntry p la (if d.own = some n then none else d.own) (d.sharers &&& ~~~bit96 n)

/-- An entry without the holders whose answers its transaction has processed. -/
def DirEntry.left (d : DirEntry) (acked : List Nat) : DirEntry :=
  if acked.isEmpty then d
  else dirMake d.tag (d.own.bind fun o => if acked.contains o then none else some o) (acked.foldl (fun x n => x &&& ~~~bit96 n) d.sharers) d.blk

/-- An answer of a holder has been processed: a recall transaction removes the port from the entry at once (R135, R152), a
request's entry is written with the final state when its data or Comp issues (R118). -/
def State.ackAgent (s : State) (p : PavId) (e : Nat) (t : Txn) (n : Nat) : State :=
  match t.kind with
  | .req _ => s.modTxn p e fun t => { t with acked := n :: t.acked }
  | _ => s.dropAgent p t.pa n

/-- The Plot that a transaction's work is charged to: none for a recall transaction (R385). -/
def Txn.chargeTo (t : Txn) : Option PlotId :=
  match t.kind with
  | .req _ => some t.plot
  | _ => none

/-! ## Table entries -/

def recallSlots : List Nat := (List.range 32).map (· + 992)
def Pav.freeRecall (v : Pav) : Option Nat := recallSlots.find? fun e => (FMap.find? v.tt e).isNone

/-- Writes the BLK bit of a line's entry, if it has one (R110). -/
def Pav.setBlk (v : Pav) (la : LineAddr) (b : Bool) : Pav :=
  match v.dirFind la with
  | none => v
  | some w => v.setDir (dirSet la) w { v.dirAt (dirSet la) w with blk := b }

/-- Starts a recall transaction in a reserved entry (R112, R135); its forwards go out when it is advanced. -/
def State.startRecall (s : State) (p : PavId) (k : TKind) (la : LineAddr) : Option (State × Nat) :=
  match (s.pav p).freeRecall with
  | none => none
  | some e =>
    some (s.modPav p fun v =>
      { (v.setBlk la true) with tt := FMap.insert v.tt e { kind := k, pa := la, active := true, phase := .forward } }, e)

/-- The line has no blocking transaction and no recall waits for it. -/
def Pav.unblocked (v : Pav) (la : LineAddr) : Bool := (v.blocker la).isNone

/-! ## Directory parity (R111, R149, R150) -/

def DirEntry.par0Ok (d : DirEntry) : Bool := (d.par ^^^ d.parity).getLsbD 0 = false
def DirEntry.parOk (d : DirEntry) : Bool := d.par = d.parity

/-- Lines whose recovery has been waiting and may now start: unblocked, with a reserved entry free (R149). -/
def State.recoverNow (s : State) (p : PavId) : State :=
  (s.pav p).recoverQ.foldl (fun s la =>
    if !(s.pav p).unblocked la then s else
    match s.startRecall p (.recallLine true) la with
    | none => s
    | some (s, _) => s.modPav p fun v => { v with recoverQ := v.recoverQ.erase la }) s

/-- One entry read with a parity failure. Where PAR0 passes the line is known and is recovered; one that a transaction blocks is
recovered when that transaction ends (R149). An entry whose recovery is due or under way has been counted (R160). A way that an unknown
line leaves free lets the parked requests of the set retry (R136, R150). -/
def State.dirFault (s : State) (p : PavId) (set way : Nat) : State :=
  let d := (s.pav p).dirAt set way
  let la := dirLine d.tag set
  if d.par0Ok && ((s.pav p).recoverQ.contains la || (s.pav p).tt.any fun x => x.2.pa = la && x.2.kind = .recallLine true) then s else
  let s := (s.rcount (R.pavDirErr p) 31 16 1).raise (R.pavDirStat p) 9
  if !d.par0Ok then
    let s := s.modPav p fun v =>
      { (v.setDir set way {}) with suspect := if v.suspect.contains set then v.suspect else set :: v.suspect
                                   retryDue := if v.retryDue.contains set then v.retryDue else set :: v.retryDue }
    s.rfSet (R.pavDirStat p) 31 19 (s.pav p).suspect.length
  else (s.modPav p fun v => { v with recoverQ := v.recoverQ ++ [la] }).recoverNow p
/-- The ways of a set are checked as they are read (R111). -/
def State.checkDir (s : State) (p : PavId) (set : Nat) : State :=
  ways24.foldl (fun s w => if ((s.pav p).dirAt set w).parOk then s else s.dirFault p set w) s
/-- The directory entry of a line is read, for an answer, a timeout or a final state: its set is checked (R111). -/
def State.readEntry (s : State) (p : PavId) (la : LineAddr) : State := if (s.pav p).halted then s else s.checkDir p (dirSet la)

/-- Writes the final state of a write or CMO (R118, R121, R122). -/
def State.finalState (s : State) (p : PavId) (t : Txn) : State :=
  if t.acked.isEmpty then s
  else
    let s := s.readEntry p t.pa
    let d := ((s.pav p).entry t.pa).left t.acked
    s.putEntry p t.pa d.own d.sharers

/-! ## Choosing a directory way (R134, R136) -/

/-- What choose_way gave. -/
inductive WayGot where
  | got
  | pending
  | parked
deriving DecidableEq, Repr

/-- choose_way of R134 for a table entry, whose set is checked as it is read (R111); a recall that finds no reserved entry
parks the request too. -/
def State.chooseWay (s : State) (p : PavId) (set e : Nat) : State × WayGot :=
  let s := s.checkDir p set
  let v := s.pav p
  let mine (w : Nat) : Bool := v.promises.any fun x => x.1 = set && x.2.1 = w
  match ways24.find? fun w => (v.dirAt set w).st = .free && !mine w with
  | some w => ((s.modPav p fun v => { v with promises := (set, w, e) :: v.promises }).cntPav p 0x0A, .got)
  | none =>
    let cand := ways24.filter fun w => !(v.dirAt set w).blk && !mine w
    if cand.isEmpty || v.freeRecall.isNone then (s, .parked) else
    let s := if cand.all (v.nruOf set) then s.modPav p fun v => cand.foldl (fun v w => v.setNru set w false) v else s
    let v := s.pav p
    let best := (cand.filter fun w => !v.nruOf set w).foldl (fun (b : Option Nat) w =>
      match b with
      | none => some w
      | some x => if (v.dirAt set w).holders < (v.dirAt set x).holders then some w else some x) none
    match best with
    | none => (s, .parked)
    | some w =>
      match s.startRecall p (.recallDir e) (dirLine (v.dirAt set w).tag set) with
      | none => (s, .parked)
      | some (s, _) => ((s.modPav p fun v => { v with promises := (set, w, e) :: v.promises }).cntPav p 0x0B, .pending)

/-- A transaction gets a way, waits for one, or parks on the set (R134, R136). -/
def State.takeWay (s : State) (p : PavId) (e : Nat) : State :=
  match FMap.find? (s.pav p).tt e with
  | none => s
  | some t =>
    let (s, g) := s.chooseWay p (dirSet t.pa) e
    match g with
    | .got => s.modTxn p e fun t => { t with phase := .data }
    | .pending => s.modTxn p e fun t => { t with phase := .waitSet }
    | .parked =>
      let s := if t.parkedOnce then s else s.rcount (R.pavDirErr p) 15 0 1
      let c := (s.pav p).waitCtr
      let s := if t.parkedOnce then s else s.modPav p fun v => { v with waitCtr := c + 1 }
      s.modTxn p e fun t => { t with phase := .waitSet, waitSeq := if t.parkedOnce then t.waitSeq else c, parkedOnce := true }

/-- The account of the pavilion's lookup slot in this cc (R546). -/
def State.slotUse (s : State) (p : PavId) (acct : Nat) : State :=
  s.modBlv fun b => if (FMap.find? b.slot p.val).isSome then b else { b with slot := FMap.insert b.slot p.val acct }

/-! ## Completion, meters, ordering (R118, R164, R387, R388) -/

/-- A request of a port has reached its ordering point (R164, R165). -/
def State.orderPoint (s : State) (n num : Nat) : State :=
  match portOf? n with
  | none => s
  | some n => s.modIo n fun io => { io with opens := io.opens.map fun o => if o.num = num && o.doneAt.isNone then { o with doneAt := some s.now } else o }

def State.meterRd (s : State) (p : PavId) (k : PlotId) : State := s.modPav p fun v => v.modMeter k fun m => { m with rd := m.rd + 1 }
def State.meterWr (s : State) (p : PavId) (k : PlotId) : State := s.modPav p fun v => v.modMeter k fun m => { m with wr := m.wr + 1 }
/-- One latency sample of a read (R388). -/
def State.sample (s : State) (p : PavId) (t : Txn) : State :=
  s.modPav p fun v => v.modMeter t.plot fun m => { m with latSum := m.latSum + (s.now - t.arrive.getD s.now), latCnt := m.latCnt + 1 }

/-- The EvAcks of crossed evictions leave once the transaction's data or Comp has issued (R137). -/
def State.flushAcks (s : State) (p : PavId) (e : Nat) : State :=
  match FMap.find? (s.pav p).tt e with
  | none => s
  | some t =>
    let s := t.evAcks.foldl (fun s a => match portOf? a.1 with
      | none => s
      | some n => s.send n (evAckMsg a.2 Status.ok)) s
    s.modTxn p e fun t => { t with evAcks := [] }

/-- Sets with a parked request that has no way (R136). -/
def Pav.parkedSets (v : Pav) : List Nat :=
  ((List.filter (fun (x : Nat × Txn) => x.2.phase = .waitSet && (v.promised x.1).isNone) v.tt).map fun (x : Nat × Txn) => dirSet x.2.pa).dedup

/-- A transaction ends: its line is unblocked, its promise lapses, and the head of the line's wait list starts its lookup
(R114, R115, R136). A reserved entry that frees lets the parked requests of every set try for their recall again (R136). -/
def State.endTxn (s : State) (p : PavId) (e : Nat) : State :=
  match FMap.find? (s.pav p).tt e with
  | none => s
  | some t =>
    let s := ((s.readEntry p t.pa).flushAcks p e).dropFetch p e
    let s := match t.kind with
      | .req op => if isReadOp op then s.cntPav p 0x11 (some t.plot) else s
      | _ => s
    s.modPav p fun v =>
      let v := { v with tt := FMap.erase v.tt e, promises := v.promises.filter (fun x => x.2.2 ≠ e), merging := v.merging.filter fun x => x.2.2 ≠ e }
      let v := v.setBlk t.pa false
      let set := dirSet t.pa
      let parked := List.any v.tt fun (x : Nat × Txn) => x.2.phase = .waitSet && (v.promised x.1).isNone && dirSet x.2.pa = set
      let v := if parked && !v.retryDue.contains set then { v with retryDue := set :: v.retryDue } else v
      let v := if 992 ≤ e then { v with retryDue := (v.parkedSets.filter fun x => !v.retryDue.contains x) ++ v.retryDue } else v
      let head := (List.filter (fun (x : Nat × Txn) => x.2.phase = .waitLine && x.2.pa = t.pa) v.tt).foldl (fun (b : Option (Nat × Txn)) x =>
        match b with
        | none => some x
        | some y => if x.2.waitSeq < y.2.waitSeq then some x else some y) none
      match head with
      | none => v
      | some (h, th) => { v with tt := FMap.insert v.tt h { th with phase := .lookup } }

/-- The Comp of a request that takes a table entry and needs no Done; its TID is released as it leaves (R116, R142), and a
write joins the port's ring (R144). -/
def State.comp (s : State) (p : PavId) (e : Nat) (st : BitVec 4) : State :=
  match FMap.find? (s.pav p).tt e with
  | none => s
  | some t =>
    match portOf? t.port with
    | none => s.endTxn p e
    | some n =>
      let s := s.answerFor n t.num (compMsg t.tid t.pa st (htidOf p e)) (some t.tid)
      let s := match t.kind with
        | .req op => if isWriteOp op then s.modIo n fun io => { io with ring := ((t.tid, t.pa, st) :: io.ring).take 64 } else s
        | _ => s
      (s.orderPoint t.port t.num).modTxn p e fun t => { t with issued := true }

/-- A valid stash target (R90, R129). The writer is none: the home sends no forward but an Inv to the requester of the
transaction that blocks the line (R117; DEDUCED). -/
def State.stashOk (s : State) (writer n : Nat) : Bool :=
  match portOf? n with
  | none => false
  | some n => decide (n.val ≠ writer) && (s.port n).io.enabled && (s.port n).io.qst = .none && (s.port n).link.up && decide (2 ≤ (s.port n).link.level)
      && s.rbit (R.portCohCtl n) 2 && s.rbit (R.portCohCtl n) 0

/-- Sends a forward and expects its answer. -/
def State.forward (s : State) (p : PavId) (e : Nat) (n : Nat) (op : BitVec 8) : State :=
  match FMap.find? (s.pav p).tt e, portOf? n with
  | some t, some pn =>
    let s := s.modTxn p e fun t =>
      { t with outs := t.outs ++ [{ port := n, op := op }], fwdOwner := if op = Op.fwdS || op = Op.fwdO then some n else t.fwdOwner }
    (s.send pn (fwdMsg op t (htidOf p e)) none (some (p.val, e))).cntPav p 0x0C t.chargeTo
  | _, _ => s

/-! ## Sinking data of agents (R123, R128, R135, R138) -/

/-- Newer data of a line replaces what its transaction has read or is reading (R137); a WrPart reads the sub-block once the data has
been committed (R202). -/
def State.freshen (s : State) (p : PavId) (la : LineAddr) (data : Line) (po : Bool) : State :=
  match (s.pav p).blocker la with
  | none => s
  | some (e, t) =>
    match t.kind with
    | .req op =>
      if op = Op.wrPart && !t.issued && t.fetch ≠ .performed then (s.dropFetch p e).modTxn p e fun t => { t with buf := none, fetch := .idle }
      else if isReadOp op && !t.issued then (s.dropFetch p e).modTxn p e fun t => { t with buf := some (data, po), fetch := .ready } else s
    | _ => s

/-- Writes an agent's data into the home copy as dirty; what cannot proceed, or meets a halted pavilion, waits in the eviction buffer
(R123, R138, R351). -/
def State.sink (s : State) (p : PavId) (la : LineAddr) (data : Line) (po : Bool) (k : Option PlotId) : State :=
  let s := ((s.readTags p la).freshen p la data po).windowFirst p la
  if (s.pav p).halted || s.lineHeld p la then
    s.modPav p fun v => { v with evBuf := v.evBuf ++ [{ pa := la, data := data, poison := po, plot := k }] }
  else
    match s.putLine p la data po k none with
    | (s', .done) => s'
    | (s', .waits) => s'
    | (_, _) => s.modPav p fun v => { v with evBuf := v.evBuf ++ [{ pa := la, data := data, poison := po, plot := k }] }

/-- Retries the eviction buffer, oldest first (R138, R141). -/
def State.drainEvBuf (s : State) (p : PavId) : State :=
  if (s.pav p).halted then s else
  ((s.pav p).evBuf.take 128).foldl (fun s x =>
    -- an older entry of the line still waits
    if ((s.pav p).evBuf.find? fun y => y.pa = x.pa) ≠ some x || s.pushHeld p x.pa then s else
    let s := s.readTags p x.pa
    if (s.pav p).halted then s else
    match s.putLine p x.pa x.data x.poison x.plot none with
    | (s', .done) => s'.modPav p fun v => { v with evBuf := v.evBuf.erase x }
    | (s', .waits) => s'.modPav p fun v => { v with evBuf := v.evBuf.erase x }
    | (_, _) => s) s

/-- Poisons a line in the hub copy (R147). -/
def State.poisonLine (s : State) (p : PavId) (la : LineAddr) (k : Option PlotId) : State := (s.sink p la 0 true k).event .poisonMade p.val (la.toNat * 64) (store := .tags)

/-! ## Evictions (R123, R137, R138, R139) -/

/-- Applies an eviction to the entry and the home copy. -/
def State.applyEvict (s : State) (p : PavId) (n : PortId) (m : Msg) : State :=
  let la := m.hdr.pa
  let acked := ((s.pav p).blocker la).elim [] fun (x : Nat × Txn) => x.2.acked
  let d := ((s.pav p).entry la).left acked
  if m.hdr.opcode = Op.wbD then
    if d.own = some n.val then
      ((s.dropAgent p la n).sink p la (msgData m) m.hdr.poison (some m.hdr.plot)).meterWr p m.hdr.plot
    else (s.protoErr n).dropAgent p la n
  else s.dropAgent p la n

/-- An eviction reaches its home (R138). -/
def State.evict (s : State) (p : PavId) (n : PortId) (m : Msg) : State :=
  let la := m.hdr.pa
  let s := s.readEntry p la
  match (s.pav p).blocker la with
  | none => (s.applyEvict p n m).send n (evAckMsg m.hdr Status.ok)
  | some (e, t) =>
    let isReq := match t.kind with
      | .req op => isReadOp op
      | _ => false
    if isReq && t.port = n.val && !t.waitEvict && !t.issued then s.modTxn p e fun t => { t with heldEvict := some m }
    else
      let out := t.outs.find? fun o => o.port = n.val
      let crossable := match out with
        | none => false
        | some o => o.op ≠ Op.inv || m.hdr.opcode = Op.wbD
      let inCross := t.cross.any fun x => x.1 = n.val
      let isRcl := match t.kind with
        | .req _ => false
        | _ => true
      let s := s.applyEvict p n m
      let s := s.modTxn p e fun t =>
        { t with gone := if crossable then n.val :: t.gone else t.gone
                 cross := t.cross.filter fun x => x.1 ≠ n.val
                 waitEvict := if t.port = n.val then false else t.waitEvict }
      if (crossable || inCross) && !isRcl && !t.issued then s.modTxn p e fun t => { t with evAcks := t.evAcks ++ [(n.val, m.hdr)] }
      else s.send n (evAckMsg m.hdr Status.ok)

/-! ## Issue of data (R116, R118) -/

/-- The requester's own eviction, held for the final state, is applied now (R138). -/
def State.lateEvict (s : State) (p : PavId) (e : Nat) : State :=
  match (FMap.find? (s.pav p).tt e).bind fun t => t.heldEvict.bind fun m => (portOf? t.port).map fun n => (n, t.num, m) with
  | none => s
  | some (n, num, m) => ((s.modTxn p e fun t => { t with heldEvict := none }).applyEvict p n m).answerFor n num (evAckMsg m.hdr Status.ok)

/-- The home issues the data, or the Comp of an Upg, that completes a grant: the final state is written in the same cc
(R118). `fin` is none where the state does not change. From here the requester's Done releases its TID (R142). A Comp of an Upg whose
owner was lost says AgentLost: it needs no Done, releases the TID as it leaves, and ends the transaction (R116, R142, R147). -/
def State.grant (s : State) (p : PavId) (e : Nat) (op : BitVec 8) (fin : Option (Option Nat × BitVec 96)) : State :=
  match FMap.find? (s.pav p).tt e, (FMap.find? (s.pav p).tt e).bind fun t => portOf? t.port with
  | some t, some n =>
    let s := s.readEntry p t.pa
    let lost := op = Op.comp && t.agentLost
    let s := if t.kind = .req Op.stashAcc || lost then s else s.modIo n fun io => { io with answered := t.tid :: io.answered }
    let st := if t.agentLost then Status.agentLost else Status.ok
    let s := match fin with
      | none => s
      | some (o, sh) => s.putEntry p t.pa o sh
    let s := s.modTxn p e fun t => { t with issued := true, issuedOp := op, phase := .doneWait, tstart := some s.now }
    let s :=
      if op = Op.comp then s.answerFor n t.num (compMsg t.tid t.pa st (htidOf p e)) (if lost then some t.tid else none)
      else
        let b := t.buf.getD (0, false)
        let s := if b.2 || t.agentLost then s.cntPav p 0x12 (some t.plot) else s
        ((s.answerFor n t.num (dataMsg op t (htidOf p e) b.1 (b.2 || t.agentLost) st)).meterRd p t.plot).sample p t
    let s := (s.flushAcks p e).lateEvict p e
    if lost then s.endTxn p e else s
  | _, _ => s

/-- Three-hop data: the final state is written when the owner's acknowledgement is processed (R118, R388). -/
def State.grantOwner (s : State) (p : PavId) (e : Nat) (op : BitVec 8) (fin : Option (Option Nat × BitVec 96)) : State :=
  match FMap.find? (s.pav p).tt e with
  | none => s
  | some t =>
    let s := s.readEntry p t.pa
    let s := match fin with
      | none => s
      | some (o, sh) => s.putEntry p t.pa o sh
    let s := s.modTxn p e fun t => { t with issued := true, issuedOp := op, phase := .doneWait, tstart := some s.now }
    (((s.meterRd p t.plot).sample p t).flushAcks p e).lateEvict p e

/-! ## What a transaction does next -/

/-- Asks for the home copy, if it has not been asked for (R120). -/
def State.tryFetch (s : State) (p : PavId) (e : Nat) : State :=
  match FMap.find? (s.pav p).tt e with
  | none => s
  | some t =>
    if t.fetch ≠ .idle && t.fetch ≠ .replay then s else
    let s := (s.readTags p t.pa).windowFirst p t.pa
    if (s.pav p).halted then s else
    if s.lineHeld p t.pa then s.setFetch p e .replay else
    match (s.modTxn p e fun t => { t with fetch := .busy }).readLine p t.pa t.plot e with
    | (s', .done) => s'
    | (s', .waits) => s'
    | (s', .replay) => s'.setFetch p e .replay
    | (s', .sector) => s'.modTxn p e fun t => { t with fetch := .replay, phase := .waitSector }

/-- Issues data from the home copy once it is at hand. -/
def State.fromHome (s : State) (p : PavId) (e : Nat) (op : BitVec 8) (fin : Option (Option Nat × BitVec 96)) : State :=
  let s := s.tryFetch p e
  match FMap.find? (s.pav p).tt e with
  | none => s
  | some t => if t.fetch = .ready then s.grant p e op fin else s

/-- The next wave of a read (R118). A sector that is Evicting holds it up before any forward (R140). -/
def State.readStep (s : State) (p : PavId) (e : Nat) (t : Txn) (op : BitVec 8) : State :=
  let d := ((s.pav p).entry t.pa).left t.acked
  let others := d.shr.filter (· ≠ t.port)
  let listed := d.lists t.port
  let excl : Option (Option Nat × BitVec 96) := some (some t.port, 0)
  let needs := (op = Op.rdS || op = Op.rdO || op = Op.upg || op = Op.stashAcc) && ((s.pav p).entry t.pa).st = .free && ((s.pav p).promised e).isNone
  if t.ownerData then
    if op = Op.rdS then
      let lvl1 := (d.own.bind portOf?).elim false fun o => decide ((s.port o).link.level < 2)
      if lvl1 then s.grantOwner p e Op.dataS (some (none, d.sharers ||| bit96 (d.own.getD 0) ||| bit96 t.port))
      else s.grantOwner p e Op.dataS (some (d.own, d.sharers ||| bit96 t.port))
    else if op = Op.rdOnce then
      let lvl1 := (d.own.bind portOf?).elim false fun o => decide ((s.port o).link.level < 2)
      s.grantOwner p e Op.dataI (if lvl1 then some (none, d.sharers ||| bit96 (d.own.getD 0)) else none)
    else s.grantOwner p e Op.dataM excl
  else if t.regrant ≠ 0 then s.fromHome p e t.regrant none
  -- a retry of the set's parked requests goes first (R136)
  else if needs then (if (s.pav p).retryDue.contains (dirSet t.pa) && (s.pav p).parkedSets.contains (dirSet t.pa) then s else s.takeWay p e)
  else if op = Op.upg && listed then
    let inv := others ++ (match d.own with
      | some o => if o = t.port then [] else [o]
      | none => [])
    if !inv.isEmpty then (inv.mergeSort).foldl (fun s n => s.forward p e n Op.inv) (s.modTxn p e fun t => { t with phase := .collect })
    else s.grant p e Op.comp excl
  else if op = Op.rdO || op = Op.upg then
    if !others.isEmpty then
      let s := if d.own.isNone then s.tryFetch p e else s
      others.foldl (fun s n => s.forward p e n Op.inv) (s.modTxn p e fun t => { t with phase := .collect })
    else match d.own with
      | some o => if o = t.port then s.fromHome p e Op.dataE excl else (s.modTxn p e fun t => { t with phase := .forward }).forward p e o Op.fwdO
      | none => s.fromHome p e Op.dataE excl
  else if op = Op.stashAcc then s.fromHome p e Op.dataE excl
  else match d.own with
    | some o =>
      if o = t.port then s.fromHome p e Op.dataI none
      else (s.modTxn p e fun t => { t with phase := .forward }).forward p e o Op.fwdS
    | none =>
      if op = Op.rdOnce then s.fromHome p e Op.dataI none
      else if others.isEmpty && !listed then s.fromHome p e Op.dataE excl
      else s.fromHome p e Op.dataS (some (none, d.sharers ||| bit96 t.port))

/-- A second half of a read whose way has just come: the read itself now issues. -/
def State.readStep2 (s : State) (p : PavId) (e : Nat) (op : BitVec 8) : State :=
  match FMap.find? (s.pav p).tt e with
  | none => s
  | some t => if t.phase = .waitSet || t.phase = .waitSector || t.outs ≠ [] || t.issued then s else s.readStep p e t op

/-- What became of a write attempt, recorded in the transaction. -/
def State.tookWrite (r : State × Did) (p : PavId) (e : Nat) : State :=
  match r with
  | (s, .done) => s.setFetch p e .performed
  | (s, .waits) => s.modTxn p e fun t => if t.fetch = .performed then t else { t with fetch := .busy }
  | (s, .replay) => s.setFetch p e .replay
  | (s, .sector) => s.modTxn p e fun t => { t with fetch := .replay, phase := .waitSector }

/-- Performs a full-line write (R120, R201); that of a WrPart, whose base has been read, is no access of its own (R537). -/
def State.doWrite (s : State) (p : PavId) (e : Nat) (t : Txn) (data : Line) (po : Bool) : State :=
  let s := (s.readTags p t.pa).windowFirst p t.pa
  if (s.pav p).halted then s else
  if s.lineHeld p t.pa then s.setFetch p e .replay
  else
    let s := s.setFetch p e .busy
    State.tookWrite (if t.kind = .req Op.wrPart then s.writeLine p t.pa data po (some t.plot) (some e) else s.putLine p t.pa data po (some t.plot) (some e)) p e

/-- A WrPart that hits pins the way from its lookup on (R202). -/
def State.pinPart (s : State) (p : PavId) (e set way : Nat) : State :=
  s.modPav p fun v => if v.merging.any fun x => x.2.2 = e then v else { v with merging := v.merging ++ [(set, way, e)] }

/-- A lookup of a write that hits touches its way, whatever answers it still waits for (R205). -/
def State.touchHit (s : State) (p : PavId) (la : LineAddr) : State :=
  match s.mode p, s.look p la with
  | .sec _, .hit w => s.modPav p fun v => v.touch (setOf la) w
  | .gh _, .hit w => s.modPav p fun v => v.touch (ghSet la) w
  | _, _ => s

/-- Performs a WrPart: a hit reads, merges and commits; otherwise, and where a hit is to be pushed (R256), its base is read as for a
read (R121, R202, R212). -/
def State.doPart (s : State) (p : PavId) (e : Nat) (t : Txn) : State :=
  match t.buf with
  | some (d, po) => s.doWrite p e t (mergeBytes d t.wdata t.mask) po
  | none =>
    let s := (s.readTags p t.pa).windowFirst p t.pa
    if (s.pav p).halted then s else
    if s.lineHeld p t.pa then s.setFetch p e .replay else
    match s.mode p, s.look p t.pa, s.writeThrough p with
    | .sec _, .hit w, false =>
      let s := ((s.modPav p fun v => v.touch (setOf t.pa) w).cntPav p 2 (some t.plot)).pinPart p e (setOf t.pa) w
      (s.setFetch p e .busy).stackCmd p (setOf t.pa) w (subOf t.pa) t.pa (.merge e) (some t.plot)
    | _, _, _ =>
      let s := s.tryFetch p e
      match FMap.find? (s.pav p).tt e with
      | none => s
      | some t' => match t'.buf with
        | some (d, po) => s.doWrite p e t' (mergeBytes d t.wdata t.mask) po
        | none => s

/-- Writes the home copy of a CMO's line to memory, or finds nothing to write (R122, R223, R224). `inv`: CCleanInv, which
also clears the cached copy. -/
def State.doClean (s : State) (p : PavId) (e : Nat) (t : Txn) (inv : Bool) : State :=
  let s := s.windowFirst p t.pa
  if (s.pav p).lineWaits t.pa then s.setFetch p e .replay else
  match s.mode p with
  | .window => s.setFetch p e .performed
  | _ =>
    match s.look p t.pa with
    | .evicting => s.modTxn p e fun t => { t with fetch := .replay, phase := .waitSector }
    | .reg _ => s.setFetch p e .replay
    | .orang =>
      match (s.pav p).orFor t.pa with
      | none => s
      | some o =>
        if !s.wqTakes (s.chanFor t.pa) || (s.pav p).pushq.any Push.poisons then s.setFetch p e .replay else
        let (s, d, po) := s.orRead p o
        ((s.orDrop p t.pa).setFetch p e .busy).pushLine p { pa := t.pa, data := d, poison := po, plot := o.plot, for_ := .cmo e }
    | .hit w =>
      match s.mode p with
      | .sec _ =>
        let x := (s.pav p).tag (setOf t.pa) w
        if x.dirty.getLsbD (subOf t.pa) then (s.setFetch p e .busy).stackCmd p (setOf t.pa) w (subOf t.pa) t.pa (.wbTxn e) (some x.plot)
        else (if inv then s.clearSub p (setOf t.pa) w (subOf t.pa) else s).setFetch p e .performed
      | _ =>
        let x := (s.pav p).ghe (ghSet t.pa) w
        if x.dirtyA || x.dirtyB then
          let (s, got) := s.ghRead p (ghKey (ghSet t.pa) w) false true x.poison
          let b := got.getD (0, true)
          let s := s.modPav p fun v => v.setGhe (ghSet t.pa) w (if inv then {} else { v.ghe (ghSet t.pa) w with dirtyA := false, dirtyB := false })
          (s.setFetch p e .busy).pushLine p { pa := t.pa, data := b.1, poison := b.2, plot := none, for_ := .cmo e }
        else (if inv then s.modPav p fun v => v.setGhe (ghSet t.pa) w {} else s).setFetch p e .performed
    | _ => s.setFetch p e .performed

/-- A CCleanInv whose write-back has been accepted clears the cached sub-block, unless it has become dirty again (R122,
R251). -/
def State.dropClean (s : State) (p : PavId) (la : LineAddr) : State :=
  match s.mode p, s.look p la with
  | .sec _, .hit w => if ((s.pav p).tag (setOf la) w).dirty.getLsbD (subOf la) then s else s.clearSub p (setOf la) w (subOf la)
  | .gh _, .hit w => if ((s.pav p).ghe (ghSet la) w).dirtyA then s else s.modPav p fun v => v.setGhe (ghSet la) w {}
  | _, _ => s

/-- A write or CMO has been performed: Comp, and for a stash the offer (R121, R122, R130). -/
def State.writeDone (s : State) (p : PavId) (e : Nat) (t : Txn) (op : BitVec 8) : State :=
  let s := if isWriteOp op then s.meterWr p t.plot else s
  let s := if op = Op.cCleanInv then s.dropClean p t.pa else s
  let s := (s.finalState p t).comp p e (if t.agentLost then Status.agentLost else Status.ok)
  if op = Op.wrStash && s.stashOk t.port t.tport.toNat then
    match portOf? t.tport.toNat with
    | none => s.endTxn p e
    | some n =>
      let s := (s.flushAcks p e).modTxn p e fun t => { t with phase := .stash, offer := true, acked := [] }
      s.send n (fwdMsg Op.stashOffer t (htidOf p e)) none (some (p.val, e))
  else s.endTxn p e

/-- The next wave of a write or CMO, or its performance (R121, R122). -/
def State.writeStep (s : State) (p : PavId) (e : Nat) (t : Txn) (op : BitVec 8) : State :=
  let d := ((s.pav p).entry t.pa).left t.acked
  let ownF : List (Nat × BitVec 8) := match d.own with
    | none => []
    | some o => [(o, if op = Op.wrLine || op = Op.wrStash then Op.inv else Op.rcl)]
  let shF : List (Nat × BitVec 8) := if op = Op.cClean then [] else d.shr.map fun n => (n, Op.inv)
  let fwd := (ownF ++ shF)
  let s := match s.mode p, (if op = Op.wrPart then s.look p t.pa else .miss) with
    | .sec _, .hit w => s.pinPart p e (setOf t.pa) w
    | _, _ => s
  if t.fetch = .performed then s.writeDone p e t op
  else if !fwd.isEmpty && t.fetch ≠ .busy then
    let s := if isWriteOp op then s.touchHit p t.pa else s
    fwd.foldl (fun s f => s.forward p e f.1 f.2) (s.modTxn p e fun t => { t with phase := .collect })
  else if t.fetch = .busy then s
  else
    let s := s.modTxn p e fun t => { t with phase := .data }
    let s :=
      if op = Op.wrPart then s.doPart p e t
      else if op = Op.cClean then s.doClean p e t false
      else if op = Op.cCleanInv then s.doClean p e t true
      else if op = Op.cInv then s.setFetch p e .performed
      else s.doWrite p e t t.wdata false
    match FMap.find? (s.pav p).tt e with
    | none => s
    | some t => if t.fetch = .performed then s.writeDone p e t op else s

/-- Ports that a broadcast recall goes to (R149). -/
def State.recallPorts (s : State) : List Nat :=
  (List.range 96).filter fun n => (portOf? n).elim false fun n => (s.port n).io.enabled && s.rbit (R.portCohCtl n) 2

/-- The next step of a recall transaction (R32, R135, R149, R152). -/
def State.recallStep (s : State) (p : PavId) (e : Nat) (t : Txn) : State :=
  let d := (s.pav p).entry t.pa
  let all := (d.own.elim [] fun o => [o]) ++ d.shr
  match t.kind with
  | .req _ => s
  | .recallDir _ => if all.isEmpty then s.endTxn p e else all.foldl (fun s n => s.forward p e n Op.rcl) s
  | .recallFence => if all.isEmpty then s.endTxn p e else all.foldl (fun s n => s.forward p e n Op.rcl) s
  | .recallSweep n => if all.contains n then s.forward p e n Op.rcl else s.endTxn p e
  | .recallLine par =>
    if !t.issued then
      s.recallPorts.foldl (fun s n => s.forward p e n Op.rcl) (s.modTxn p e fun t => { t with issued := true })
    else
      -- the faulty way is freed, even one that stood as free (R149 step 4)
      let s := if !par then s else (s.putEntry p t.pa none 0).modPav p fun v =>
        ways24.foldl (fun v w => let d := v.dirAt (dirSet t.pa) w
          if !d.parOk && d.tag = dirTag t.pa then v.setDir (dirSet t.pa) w {} else v) v
      ((s.raise (R.pavDirStat p) 8).event .dirRecovered p.val (t.pa.toNat * 64) (store := .directory)).endTxn p e

/-- A request needs the home copy: not an Upg of a listed holder, a read that an owner serves, or a CInv (R200). -/
def Pav.needsHome (v : Pav) (t : Txn) (op : BitVec 8) : Bool :=
  let d := (v.entry t.pa).left t.acked
  if isReadOp op then t.regrant ≠ 0 || ((d.own.isNone || d.own = some t.port) && !(op = Op.upg && d.lists t.port)) else op ≠ Op.cInv

/-- A request whose lookup finds its sub-block in an Evicting way: nothing has been sent or asked for yet (R140). -/
def State.meetsEvicting (s : State) (p : PavId) (t : Txn) (op : BitVec 8) : Bool :=
  t.phase = .data && t.fetch = .idle && t.buf.isNone && t.acked.isEmpty && !t.ownerData && (s.pav p).needsHome t op && s.look p t.pa = .evicting

/-- Moves a transaction on when no answer is outstanding. A halted pavilion's transactions stay frozen (R351). -/
def State.advance (s : State) (p : PavId) (e : Nat) : State :=
  match FMap.find? (s.pav p).tt e with
  | none => s
  | some t =>
    if (s.pav p).halted || !t.active || t.outs ≠ [] || t.cross ≠ [] || t.waitEvict then s else
    match t.phase with
    | .doneWait => if t.doneSeen then s.endTxn p e else s
    | .stash => s
    | .waitSector => s
    | .waitSet =>
      match (s.pav p).promised e with
      | none => s
      | some (set, w) =>
        if ((s.pav p).dirAt set w).st = .free then
          match t.kind with
          | .req op => (s.modTxn p e fun t => { t with phase := .data }).readStep2 p e op
          | _ => s
        else s
    | _ =>
      match t.kind with
      | .req op =>
        if s.meetsEvicting p t op then s.modTxn p e fun t => { t with phase := .waitSector }
        else if isReadOp op then (s.readStep p e t op).readStep2 p e op else s.writeStep p e t op
      | _ => s.recallStep p e t

/-! ## Dead agents (R146, R147) -/

/-- A line poisoned while the port is being quiesced sets SVC_STAT.LOST (R431). -/
def State.quiesceLost (s : State) (n : PortId) : State :=
  if (s.port n).io.qst = .none then s else s.raise (R.portSvcStat n) 10

/-- The forward to a port, or the wait for its eviction, times out (R147). -/
def State.timeoutFwd (s : State) (p : PavId) (e : Nat) (n : PortId) : State :=
  match FMap.find? (s.pav p).tt e with
  | none => s
  | some t =>
    let s := s.readEntry p t.pa
    let d := (s.pav p).entry t.pa
    let out := t.outs.find? fun o => o.port = n.val
    let owner := d.own = some n.val
    let inv := out.elim false fun o => o.op = Op.inv
    let s := s.modTxn p e fun t =>
      { t with outs := t.outs.filter (fun o => o.port ≠ n.val), cross := t.cross.filter (fun x => x.1 ≠ n.val)
               fwdOwner := if t.fwdOwner = some n.val then none else t.fwdOwner
               waitEvict := if t.port = n.val then false else t.waitEvict }
    let s :=
      if owner && !inv then
        let s := (s.dropAgent p t.pa n).poisonLine p t.pa t.chargeTo
        let s := s.quiesceLost n
        s.modTxn p e fun t => { t with agentLost := true }
      else s.dropAgent p t.pa n
    (s.raise (R.portCohEvt n) 11).event .agentLost n.val (t.pa.toNat * 64)

/-- The Done of a read's data does not come (R147). -/
def State.timeoutDone (s : State) (p : PavId) (e : Nat) (n : PortId) : State :=
  match FMap.find? (s.pav p).tt e with
  | none => s
  | some t =>
    let bad := t.issuedOp = Op.dataE || t.issuedOp = Op.dataM || t.issuedOp = Op.dataO || t.issuedOp = Op.comp
    let s := (s.readEntry p t.pa).dropAgent p t.pa n
    let s := if bad then s.poisonLine p t.pa t.chargeTo else s
    let s := if bad then s.quiesceLost n else s
    ((s.raise (R.portCohEvt n) 11).event .agentLost n.val (t.pa.toNat * 64)).endTxn p e

/-- An offer expires: the target's list takes its address, once for each offer (R131). -/
def State.offerExpire (s : State) (p : PavId) (e : Nat) (n : PortId) (t : Txn) : State :=
  let s := s.modIo n fun io => { io with expired := (t.pa :: io.expired).take 16 }
  (s.raise (R.portCohEvt n) 9).endTxn p e

/-- Waits that a link out of service answers at once (R93); not in a halted pavilion, whose transactions stay frozen (R351). -/
def State.deadWaits (s : State) (p : PavId) (e : Nat) : State :=
  match FMap.find? (s.pav p).tt e with
  | none => s
  | some t =>
    if (s.pav p).halted then s else
    let dead (n : PortId) : Bool := !(s.port n).link.keeps
    let s := t.outs.foldl (fun s o => match portOf? o.port with
      | none => s
      | some n => if dead n then s.timeoutFwd p e n else s) s
    match portOf? t.tport.toNat with
    | none => s
    | some n => if t.phase = .stash && t.offer && dead n then s.offerExpire p e n t else s

/-! ## The port sweep (R152) -/

def Pav.sweepLines (v : Pav) (n : Nat) : List LineAddr :=
  (List.filter (fun (x : Nat × DirEntry) => x.2.lists n) v.dir).map fun x => dirLine x.2.tag (x.1 / 24)
def Pav.sweepRecalls (v : Pav) : Nat := (v.txns.filter fun x => match x.2.kind with
  | .recallSweep _ => true
  | _ => false).length

/-- Starts the sweep recalls of a port that may start now, in set order; a pavilion with nothing listed has finished. Entries
that fail parity are recovered as the walk reads them (R111). -/
def State.sweepPort (s : State) (p : PavId) (n : Nat) : State :=
  let s := (List.filter (fun (x : Nat × DirEntry) => !x.2.parOk) (s.pav p).dir).foldl (fun s x => s.dirFault p (x.1 / 24) (x.1 % 24)) s
  let s := ((s.pav p).sweepLines n).foldl (fun s la =>
    if 16 ≤ (s.pav p).sweepRecalls || !(s.pav p).unblocked la then s else
    match s.startRecall p (.recallSweep n) la with
    | none => s
    | some (s, e) => (s.advance p e).deadWaits p e) s
  if ((s.pav p).sweepLines n).isEmpty && !((s.pav p).txns.any fun x => x.2.kind = .recallSweep n) then
    s.modPav p fun v => { v with sweeps := v.sweeps.filter (· ≠ n) }
  else s

/-- A port whose link-down handling has ended returns to DETECT, unless DISABLE or a quiesce keeps it (R60, R432). -/
def State.linkSettle (s : State) (n : PortId) : State :=
  let p := s.port n
  if p.link.st = .down && !p.io.sweeping && p.io.qst = .none then
    s.modLink n fun l => { l with st := if s.rbit (R.portLinkCtl n) 30 then .disabled else .detect, since := s.now }
  else s

/-- SWEEP_DONE once every pavilion has finished (R152). -/
def State.sweepCheck (s : State) : State :=
  forPorts s fun n s =>
    if (s.port n).io.sweeping && !(allPavs.any fun p => (s.pav p).sweeps.contains n.val) then
      ((s.modIo n fun io => { io with sweeping := false, swept := true }).raise (R.portCohEvt n) 8).linkSettle n
    else s

/-! ## The pavilion's engine runs -/

/-- One round over the pavilion: dead waits, each transaction's next step, the eviction buffer and the sweeps. -/
def State.pumpOnce (s : State) (p : PavId) : State :=
  let s := if (s.pav p).halted then s else ((s.recoverNow p).poisonNext p).regsCommit p
  let s := ((s.pav p).txns.map (·.1)).foldl (fun s e => (s.deadWaits p e).advance p e) s
  let s := s.drainEvBuf p
  if (s.pav p).halted then s else (s.pav p).sweeps.foldl (fun s n => s.sweepPort p n) s

/-- Rounds enough for a sweep whose recalls are answered at once, 16 in flight (R152). -/
def Pav.sweepRounds (v : Pav) : Nat := (v.sweeps.map fun n => (v.sweepLines n).length / 16 + 1).sum
/-- Lets everything that can move in a pavilion move: a wave, its performance and what its end releases. -/
def State.pump (s : State) (p : PavId) : State :=
  let k := (s.pav p).sweepRounds
  let s := (List.range (4 + k)).foldl (fun s _ => s.pumpOnce p) s
  if k = 0 then s else s.sweepCheck

/-! ## The lookup (R115, R139, R143, R150, R151, R200, R234, R285) -/

/-- A line without memory behind it (R285). -/
def State.unmapped (s : State) (la : LineAddr) : Bool := s.glb.mapValid && (s.llOf la).isNone

/-- A request that must wait behind its line's transaction or earlier waiters (R115). -/
def Pav.mustWait (v : Pav) (e : Nat) (t : Txn) : Bool :=
  v.txns.any fun x => x.1 ≠ e && x.2.pa = t.pa &&
    (x.2.active || ((x.2.phase = .waitLine || (x.2.phase = .lookup && x.2.waitSeq ≠ 0)) && (t.waitSeq = 0 || x.2.waitSeq < t.waitSeq)))

/-- A lookup in a recovering set or share without an entry first recovers the line (R32, R150, R151). -/
def State.mustRecover (s : State) (p : PavId) (la : LineAddr) : Bool :=
  let v := s.pav p
  (v.entry la).st = .free && (v.suspect.contains (dirSet la) || v.rebuild.contains (s.hash la))

/-- The transaction starts: its line is blocked, reads reach their ordering point, and the table's row is taken. -/
def State.begin (s : State) (p : PavId) (e : Nat) (t : Txn) (op : BitVec 8) : State :=
  let d := (s.pav p).entry t.pa
  let s := s.modPav p fun v => match v.dirFind t.pa with
    | some w => (v.setNru (dirSet t.pa) w true).setBlk t.pa true
    | none => v
  let regrant : BitVec 8 := if t.retry && isReadOp op && d.lists t.port then
      (if d.own = some t.port then (if d.st = .ownedShared then Op.dataO else Op.dataE) else Op.dataS) else 0
  let wait := !t.retry && op ≠ Op.upg && d.own = some t.port
  let s := s.modTxn p e fun t => { t with active := true, phase := if wait then .crossed else .data, regrant := regrant, waitEvict := wait
                                          tstart := if wait then some s.now else t.tstart }
  let s := if isReadOp op then s.orderPoint t.port t.num else s
  s.modPav p fun v => v.setBlk t.pa true

/-- A lookup of a table entry's request (R200). -/
def State.lookup (s : State) (p : PavId) (e : Nat) : State :=
  match FMap.find? (s.pav p).tt e with
  | none => s
  | some t =>
    match t.kind with
    | .req op =>
      if (s.pav p).halted || t.phase ≠ .lookup || t.active then s else
      let s := if t.arrive.isNone then s.modTxn p e fun t => { t with arrive := some s.now } else s
      let s := (s.cntPav p 1 (some t.plot)).readTags p t.pa
      if (s.pav p).halted then s else
      if (s.pav p).mustWait e t then
        let s := s.cntPav p 0x0D (some t.plot)
        if t.waitSeq ≠ 0 then s.modTxn p e fun t => { t with phase := .waitLine }
        else
          let c := (s.pav p).waitCtr
          (s.modPav p fun v => { v with waitCtr := c + 1 }).modTxn p e fun t => { t with phase := .waitLine, waitSeq := c + 1 }
      else if (s.pav p).place = .window && !s.inWindow t.pa then
        (((s.raise (R.pavPlaceEvt p) 8).modTxn p e fun t => { t with active := true }).comp p e Status.unsupported).endTxn p e
      else if (s.pav p).place ≠ .window && s.unmapped t.pa then
        (((s.raise (R.chanEvt (s.chanFor t.pa)) 17).modTxn p e fun t => { t with active := true }).comp p e Status.unsupported).endTxn p e
      else
        -- a retry of the set's parked requests goes ahead of any new lookup in it (R136)
        if (s.pav p).retryDue.contains (dirSet t.pa) && (s.pav p).parkedSets.contains (dirSet t.pa) then s else
        let s := s.checkDir p (dirSet t.pa)
        let wait (s : State) (rec : Bool) : State :=
          let c := (s.pav p).waitCtr
          (s.modPav p fun v => { v with waitCtr := c + 1 }).modTxn p e fun t =>
            { t with phase := .waitLine, waitSeq := if t.waitSeq = 0 then c + 1 else t.waitSeq, recovered := rec || t.recovered }
        if !(s.pav p).unblocked t.pa then wait s false
        else if (s.pav p).recoverQ.contains t.pa then s
        else if s.mustRecover p t.pa && !t.recovered then
          match s.startRecall p (.recallLine false) t.pa with
          | some (s, _) => wait s true
          | none => s
        else s.begin p e t op
    | _ => s

end Sys2Proof.Machine
end

