-- ==== Sys2Proof/Machine/Ice.lean ====
section
/-!
DEFINITION. The Icehouse: its bytes, the two banks with header and valid mark, the records of an image, and the two rings
of self-checked records (R464 to R467, R471, R492).
-/

namespace Sys2Proof.Machine

/-! ## Device bytes (R464) -/

/-- What an unlisted byte of the Icehouse reads as: a blank device. -/
def iceBlank (_ : Nat) : Byte := 0
def iceByte (ice : FMap Byte) (a : Nat) : Byte := FMap.get iceBlank ice a
def iceRead (ice : FMap Byte) (a n : Nat) : List Byte := (List.range n).map fun i => iceByte ice (a + i)
def iceWrite (ice : FMap Byte) (a : Nat) (bs : List Byte) : FMap Byte :=
  match bs with
  | [] => ice
  | b :: rest => iceWrite (FMap.put iceBlank ice a b) (a + 1) rest

def zeros (n : Nat) : List Byte := List.replicate n 0

/-! ## Self-checked records of 64 bytes -/

/-- 60 bytes with their CRC-32C (R465, R471, R492). -/
def sealed (bs : List Byte) : List Byte :=
  let b := (bs ++ zeros 60).take 60
  b ++ leBytes (crc32c b).toNat 4
def sealedOk (bs : List Byte) : Bool := crc32c (bs.take 60) = BitVec.ofNat 32 (leNat ((bs.drop 60).take 4))

/-- Serial comparison: `b` is newer than `a` (R467). -/
def newer (a b : Nat) : Bool := let d := (b + 2 ^ 32 - a) % 2 ^ 32; decide (1 ≤ d) && decide (d < 2 ^ 31)

/-- The slots of a ring that hold anything, in order. -/
def ringSlots (ice : FMap Byte) (base : Nat) : List Nat :=
  ((List.filter (fun (c : Nat × Byte) => decide (base ≤ c.1) && decide (c.1 < base + 0x200000)) ice).map fun (c : Nat × Byte) => (c.1 - base) / 64).dedup
def ringRec (ice : FMap Byte) (base slot : Nat) : List Byte := iceRead ice (base + 64 * slot) 64
/-- The valid slots of a ring with their sequences. -/
def ringValid (ice : FMap Byte) (base : Nat) : List (Nat × Nat) :=
  ((ringSlots ice base).filter fun i => sealedOk (ringRec ice base i)).map fun i => (i, leNat ((ringRec ice base i).take 4))
/-- The valid record with the highest sequence (R471, R492). -/
def ringNewest (ice : FMap Byte) (base : Nat) : Option (Nat × Nat) :=
  (ringValid ice base).foldl (fun (a : Option (Nat × Nat)) x => match a with
    | none => some x
    | some y => if newer y.2 x.2 then some x else some y) none
/-- The valid records of a ring from the oldest on. -/
def ringRead (ice : FMap Byte) (base : Nat) : List Byte :=
  match ringNewest ice base with
  | none => []
  | some (k, _) =>
    let v := (ringValid ice base).map (·.1)
    ((v.filter fun i => decide (k < i)) ++ v.filter fun i => decide (i ≤ k)).flatMap (ringRec ice base)

def ledgerBase : Nat := 0x400000
def historyBase : Nat := 0x600000

/-! ## The error history (R457, R471) -/

/-- The 64 bytes of an error-history record. -/
def historyBytes (seq : Nat) (r : EvRec) : List Byte :=
  sealed (leBytes seq 4 ++ leBytes r.sec 6 ++ leBytes r.ns 4 ++ leBytes (Config.evKind r.kind).toNat 2 ++ leBytes (Config.evInst ((r.store.num * 64 + r.kind) * 1024 + r.inst)).toNat 2
    ++ leBytes r.addr 8 ++ leBytes r.cls 1 ++ leBytes r.dev 1 ++ leBytes (Config.evDetail (r.kind * 1024 + r.detail)).toNat 32)

/-- Writes a record to the ring (R471). Its EVENT frame is not queued behind one of the same tick (R457). -/
def State.historyWrite (s : State) (r : EvRec) : State :=
  s.modLodge fun l =>
    let bs := historyBytes l.rseq r
    { l with ice := iceWrite l.ice (historyBase + 64 * l.histPos) bs, histPos := (l.histPos + 1) % 32768, rseq := (l.rseq + 1) % 2 ^ 32, evNew := if l.evTick = some s.glb.tickNum then none else some bs }

/-- The Lodge writes the oldest entry of its event queue, which entered in an earlier cc (R47, R48, R471). -/
def State.eventWrite (s : State) : State :=
  match s.lodge.evq with
  | [] => s
  | r :: rest => if s.now ≤ r.at_ then s else (s.modLodge fun l => { l with evq := rest, evPop := l.evPop.add s.now }).historyWrite r

/-- Icehouse units of a record of 64 bytes, at 16 bytes in 50 ns (R45, R464). -/
def recordUnits : Nat := 4
/-- Records that the ICE budgets of 1 ms of ticks let the Lodge write (R45, R464). -/
def State.recordsPerMs (s : State) : Nat := 1000 / max (s.rf R.bandTickCfg 9 0) 1 * (s.glb.scaled.getD (Machine.Service.num .ice) 0 / recordUnits)
/-- What the always-on supply still lets the Lodge write as the hub goes down: the event queue in its order, and one record more behind
it, with whether that one was written (R428, R471, R581). DESIGN CHOICE: the ICE budgets of 1 ms bound it, and it is done at once (log
entry 322). -/
def State.historyFlush (s : State) (r : EvRec) : State × Bool :=
  let n := s.recordsPerMs
  let q := s.lodge.evq
  let s' := (q.take n).foldl (fun s e => (s.modLodge fun l => { l with evq := l.evq.drop 1 }).historyWrite e) s
  if q.length < n then (s'.historyWrite r, true) else (s', false)

/-! ## Banks (R465 to R467) -/

def bankBase (b : Nat) : Nat := b * 0x200000
def markBase (b : Nat) : Nat := bankBase b + 0x1FFFC0

/-- The header of an image. -/
def headerBytes (flags seq : Nat) (body : List Byte) : List Byte :=
  sealed (leBytes 0x45434849 4 ++ leBytes 1 2 ++ leBytes flags 2 ++ leBytes seq 4 ++ leBytes body.length 4 ++ leBytes (crc32c body).toNat 4)
/-- The valid mark of an image with this header. -/
def markBytes (hdr : List Byte) : List Byte :=
  sealed (leBytes 0x4B52414D 4 ++ (hdr.drop 8).take 4 ++ (hdr.drop 60).take 4)

/-- A header that passes its own checks: MAGIC, FORMAT, HDR_CRC, and a LENGTH that fits. -/
def headerOk (hdr : List Byte) : Bool :=
  leNat (hdr.take 4) = 0x45434849 && leNat ((hdr.drop 4).take 2) = 1 && sealedOk hdr && decide (leNat ((hdr.drop 12).take 4) ≤ 0x1FFF80)
def headerLen (hdr : List Byte) : Nat := leNat ((hdr.drop 12).take 4)
def headerSeq (hdr : List Byte) : Nat := leNat ((hdr.drop 8).take 4)
def bodyOk (hdr body : List Byte) : Bool := crc32c body = BitVec.ofNat 32 (leNat ((hdr.drop 16).take 4))

/-- The sequence and record bytes of a valid bank (R467). -/
def bankRead (ice : FMap Byte) (b : Nat) : Option (Nat × List Byte) :=
  let hdr := iceRead ice (bankBase b) 64
  if !headerOk hdr then none else
  let body := iceRead ice (bankBase b + 64) (headerLen hdr)
  let mark := iceRead ice (markBase b) 64
  if bodyOk hdr body && leNat (mark.take 4) = 0x4B52414D && (mark.drop 4).take 4 = (hdr.drop 8).take 4 && (mark.drop 8).take 4 = (hdr.drop 60).take 4 && sealedOk mark
  then some (headerSeq hdr, body) else none

/-- Start-up's choice: bank, sequence and records; none for ROM factory defaults (R467). -/
def bankSelect (ice : FMap Byte) : Option (Nat × Nat × List Byte) :=
  match bankRead ice 0, bankRead ice 1 with
  | none, none => none
  | some a, none => some (0, a.1, a.2)
  | none, some b => some (1, b.1, b.2)
  | some a, some b => if newer a.1 b.1 then some (1, b.1, b.2) else some (0, a.1, a.2)

/-! ## Records of an image (R466) -/

/-- One record: TYPE, reserved, LEN, data, padding to 8 bytes. -/
def recordBytes (ty : Nat) (data : List Byte) : List Byte :=
  leBytes ty 2 ++ zeros 2 ++ leBytes data.length 4 ++ data ++ zeros ((8 - data.length % 8) % 8)

/-- The records that bytes hold; `k` bounds their number. -/
def recordsOf : Nat → List Byte → List (Nat × List Byte)
  | 0, _ => []
  | k + 1, bs =>
    if bs.length < 8 then [] else
    let len := leNat ((bs.drop 4).take 4)
    (leNat (bs.take 2), (bs.drop 8).take len) :: recordsOf k (bs.drop (8 + (len + 7) / 8 * 8))

/-- The entries of a settings record: index, subindex, value bytes. -/
def entriesOf : Nat → List Byte → List (Nat × Nat × List Byte)
  | 0, _ => []
  | k + 1, bs =>
    if bs.length < 4 then [] else
    let len := leNat ((bs.drop 3).take 1)
    (leNat (bs.take 2), leNat ((bs.drop 2).take 1), (bs.drop 4).take len) :: entriesOf k (bs.drop (4 + len))

/-- Entries of a fixed size. -/
def chunks (size : Nat) : Nat → List Byte → List (List Byte)
  | 0, _ => []
  | k + 1, bs => if bs.length < size || size = 0 then [] else bs.take size :: chunks size k (bs.drop size)

/-- Little-endian number in `n` bytes from byte `a`. -/
def field (bs : List Byte) (a n : Nat) : Nat := leNat ((bs.drop a).take n)

-- The layouts inside the records of types 2 to 8 are the model's own: R466 names their contents only.

/-- A training record: unit (16 + k for a stack), code, identities of 36 bytes, settings, CRC (R308, R309). -/
def trainBytes (u : Nat) (r : TrainRec) : List Byte := leBytes u 1 ++ r.bytes ++ leBytes r.crc.toNat 4
def trainOf (bs : List Byte) : Nat × TrainRec :=
  (field bs 0 1, { code := field bs 1 1, id0 := BitVec.ofNat 288 (field bs 2 36), id1 := BitVec.ofNat 288 (field bs 38 36), settings := BitVec.ofNat 512 (field bs 74 64), crc := BitVec.ofNat 32 (field bs 138 4) })
/-- Bytes of a training record in the image. -/
def trainSize : Nat := 142
/-- A port's equalisation set with its tag and generation (R64). -/
def eqBytes (n : Nat) (e : SavedEq) : List Byte := leBytes n 1 ++ leBytes e.gen 1 ++ leBytes e.tag.toNat 2 ++ leBytes e.settings 8
def eqOf (bs : List Byte) : Nat × SavedEq := (field bs 0 1, { gen := field bs 1 1, tag := BitVec.ofNat 16 (field bs 2 2), settings := field bs 4 8 })
/-- A repair record (R365). -/
def repairBytes (c : Nat) (r : RepairRec) : List Byte := leBytes c 1 ++ leBytes r.row 8 ++ leBytes r.ident.toNat 36
def repairOf (bs : List Byte) : Nat × RepairRec := (field bs 0 1, { row := field bs 1 8, ident := BitVec.ofNat 288 (field bs 9 36) })
/-- Bytes of a repair record in the image. -/
def repairSize : Nat := 45
/-- The interleave map and the fenced set (R34). -/
def mapBytes (il : List Nat) (fenced : BitVec 16) : List Byte := il.map (BitVec.ofNat 8) ++ leBytes fenced.toNat 2
/-- A key of a session level (R451). -/
def keyBytes (level : Nat) : Option (BitVec 128) → List Byte
  | none => []
  | some k => leBytes level 1 ++ leBytes k.toNat 16

/-! ## The commands -/

/-- EVENT_RECORD_WRITE (R45, R471). -/
def execEventRecordWrite (s : State) : Host.Outcome State Fault Refusal := live s fun s => s.inBudget .ice recordUnits fun s => s.eventWrite

end Sys2Proof.Machine
end

