-- ==== Sys2Proof/Machine/Stack.lean ====
section
/-!
DEFINITION. The commands of a pavilion's store paths: lookups and their replays, miss registers, the stack command path,
the Orangery, and pushes (R36, R47, R136, R202, R210, R211, R217, R219, R299, R347).
-/

namespace Sys2Proof.Machine

/-! ## The stack command path -/

/-- Pseudo-channel of a sub-block within its stack (R289). -/
def pcOf (p : PavId) (set way sub : Nat) : Nat := ((sub % 16) ^^^ ((way * 16384 + set) % 16)) + 16 * (p.val % 2)
/-- Bank, bank group and stack ID of a sector as one number, and its row (R289). -/
def stkBank (set way : Nat) : Nat := (way * 16384 + set) / 4 % 64
def stkRow (set way : Nat) : Nat := (way * 16384 + set) / 256

/-- Slot of a sub-block in its row, and its two column addresses (R289). -/
def stkSlot (set way sub : Nat) : Nat := sub / 16 + 4 * ((way * 16384 + set) % 4)
def stkCols (set way sub : Nat) : Nat × Nat := (2 * stkSlot set way sub, 2 * stkSlot set way sub + 1)
/-- Where a half's array holds a sub-block: pseudo-channel, bank, row and first column as one number (R288, R289). -/
def stkCell (p : PavId) (set way sub : Nat) : Nat :=
  ((pcOf p set way sub * 64 + stkBank set way) * 1024 + stkRow set way) * 32 + (stkCols set way sub).1

/-- Level of a command (R299). -/
def StackOp.level (o : StackOp) : Nat :=
  match o with
  | .evict => 1
  | .demand _ => 2
  | .merge _ => 2
  | .wbTxn _ => 2
  | .write _ => 3
  | .mop _ _ => 4
  | .patrol => 4
  | .survey => 4
  | .raw => 4
  | .rewrite _ => 4
  | .rawWrite _ => 4

def StackCmd.same (a b : StackCmd) : Bool := a.set = b.set && a.way = b.way && a.sub = b.sub
def Pav.stkOpen (v : Pav) (c : StackCmd) (pc : Nat) : Bool := FMap.find? v.stkRows (pc * 64 + stkBank c.set c.way) = some (stkRow c.set c.way)

/-- The next command of a pseudo-channel: the first level with one, open rows first, then the oldest; commands to one
sub-block keep their order (R299), and so do the copy reads of an eviction, over all pseudo-channels (R217). -/
def Pav.nextStack (v : Pav) (p : PavId) (pc : Nat) : Option StackCmd :=
  let mine := v.stackq.filter fun c => pcOf p c.set c.way c.sub = pc
  let ready := mine.filter fun c => (mine.find? fun x => x.same c) = some c
    && (c.op ≠ .evict || (v.stackq.find? fun x => x.op = .evict && x.set = c.set && x.way = c.way) = some c)
  let top := (ready.map fun c => c.op.level).foldl min 5
  let xs := ready.filter fun c => c.op.level = top
  match xs.find? fun c => v.stkOpen c pc with
  | some c => some c
  | none => xs.head?

/-- A stack command reads. -/
def StackOp.reads (o : StackOp) : Bool :=
  match o with
  | .write _ => false
  | .rewrite _ => false
  | .rawWrite _ => false
  | _ => true

/-- What the tags do in the slot that issues a command (R217, R224). -/
def State.stackTags (s : State) (p : PavId) (c : StackCmd) : State :=
  match c.op with
  | .evict =>
    s.modPav p fun v =>
      let t := v.tag c.set c.way
      let dirty := setBits t.dirty c.sub c.sub 0
      let v := v.setTag c.set c.way { t with present := setBits t.present c.sub c.sub 0, dirty := dirty }
      { v with evicts := v.evicts.map fun e => if e.set = c.set && e.way = c.way then
          { e with inFlight := e.inFlight ++ [c.sub], dropAt := if dirty = 0 then some (s.now + 1) else none } else e }
  | .mop _ _ => s.modPav p fun v => let t := v.tag c.set c.way; v.setTag c.set c.way { t with dirty := setBits t.dirty c.sub c.sub 0 }
  | .wbTxn _ => s.modPav p fun v => let t := v.tag c.set c.way; v.setTag c.set c.way { t with dirty := setBits t.dirty c.sub c.sub 0 }
  | _ => s

/-- A walk's write-back meets a sub-block that a WrPart has hit and not committed: its DIRTY bit keeps (R202). -/
def Pav.wbPinned (v : Pav) (c : StackCmd) : Bool :=
  match c.op with
  | .mop _ _ => v.partHolds c.set c.way c.sub
  | _ => false
/-- A direct write-back is not made: the way no longer holds the line, or holds it clean, or a WrPart holds it. -/
def Pav.wbVoid (v : Pav) (c : StackCmd) : Bool :=
  let t := v.tag c.set c.way
  c.op.writesBack && (t.st = .invalid || t.tag ≠ tagOf c.pa || !t.dirty.getLsbD c.sub || v.wbPinned c)
/-- Such a command is dropped without a read; a transaction that waits on it looks its line up again (R224), a CLEAN_INV that
finds its sub-block clean clears PRESENT (R251), and the engine returns to a sector that is pinned (R253). -/
def State.wbDrop (s : State) (p : PavId) (c : StackCmd) : State :=
  let s := s.modPav p fun v => { v with stackq := v.stackq.erase c }
  let t := (s.pav p).tag c.set c.way
  match c.op with
  | .wbTxn e => s.setFetch p e .replay
  | .mop inval b =>
    if t.tag ≠ tagOf c.pa then s
    else if (s.pav p).wbPinned c then
      if s.glb.mop.busy && b = .engine then
        s.modGlb fun g => { g with mop := { g.mop with again := g.mop.again ++ [(p.val, c.set, c.way, t.tag.toNat)] } }
      else s
    else if inval && !t.dirty.getLsbD c.sub then s.clearSub p c.set c.way c.sub else s
  | _ => s

/-- A raw access updates no counter (R357). -/
def StackOp.isRaw (o : StackOp) : Bool :=
  match o with
  | .raw => true
  | .rawWrite _ => true
  | _ => false

/-- Issues one command. A FAILED stack takes writes and drops them, and answers reads as uncorrectable (R353). `u` disturbs
the stored bits that a read finds. -/
def State.stackIssue (s : State) (p : PavId) (pc : Nat) (c : StackCmd) (u : Upset) : State :=
  let k := stackOfPav p
  let failed := (s.stk k).com.st = .failed
  let key := stkCell p c.set c.way c.sub
  let hit := (s.pav p).stkOpen c pc
  let s := s.modPav p fun v => { v with stackq := v.stackq.erase c, stkRows := FMap.insert v.stkRows (pc * 64 + stkBank c.set c.way) (stkRow c.set c.way) }
  let s := s.stackTags p c
  let cnt (s : State) (i : Nat) : State := if c.op.isRaw then s else s.cntStk k i c.plot
  let s := if failed then s else if hit then cnt s 3 else cnt s 4
  let put (s : State) (st : Stored) : State :=
    if failed then s else cnt (s.modPav p fun v => { v with stack := FMap.put (fun _ => {}) v.stack key st }) 2
  match c.op with
  | .write st => put s st
  | .rewrite st => put s st
  | .rawWrite st => put s st
  | _ =>
    let st0 := FMap.get (fun _ => ({} : Stored)) (s.pav p).stack key
    let st : Stored := { data := st0.data ^^^ u.data, check := st0.check ^^^ u.check }
    let s := if failed then s else cnt (s.modPav p fun v => { v with stack := FMap.put (fun _ => {}) v.stack key st }) 1
    let s := if c.op = .evict then s.cntStk k 5 c.plot else s
    s.modPav p fun v => { v with stackRet := v.stackRet ++ [{ cmd := c, st := st, failed := failed }] }

/-! ## Stack reads that return (R202, R217, R347) -/

/-- What a returned read gives: its data, poison, and whether a clean sub-block must be fetched again (R347). -/
def State.stackClass (s : State) (p : PavId) (r : StackRet) : State × Line × Bool × Bool :=
  let k := stackOfPav p
  let c := r.cmd
  let d := if r.failed then { cls := .uncorrectable, data := 0 } else stackDecode r.st
  let dirty := match c.op with
    | .evict => true
    | .wbTxn _ => true
    | .mop _ _ => true
    | _ => ((s.pav p).tag c.set c.way).dirty.getLsbD c.sub
  let newer := r.stale || (s.pav p).stackq.any fun x => x.same c && (match x.op with
    | .write _ => true
    | _ => false)
  let fix (s : State) (st : Stored) : State := if newer then s else s.stackCmd p c.set c.way c.sub c.pa (.rewrite st) c.plot
  match d.cls with
  | .good => (s, d.data, false, false)
  | .poison => (s, 0, true, false)
  | .corrected =>
    let s := (s.rcount (R.stackErrCnt k) 31 16 1).cntStk k 7 c.plot
    let wb := match c.op with
      | .patrol => true
      | .survey => false
      | _ => s.rbit (R.stackScrubCtl k) 8
    (if wb then fix s (stackEncode d.data) else s, d.data, false, false)
  | .uncorrectable =>
    let s := ((s.rcount (R.stackErrCnt k) 15 0 1).raise (R.stackErrEvt k) 8).event .uncorrectable k.val ((p.val % 2) * 2 ^ 24 + stackKey c.set c.way c.sub) 3 d.loc (store := .stack)
    if dirty then (((fix s stackPoison).fatal 9), 0, true, false)
    else
      let t := (s.pav p).tag c.set c.way
      -- the patrol and surveys change no PRESENT bit (R224)
      let still := (t.st = .valid || t.st = .filling) && t.tag = tagOf c.pa && !newer && c.op ≠ .patrol && c.op ≠ .survey
      (if still then s.loseSub p c.set c.way c.sub else s, 0, true, true)

/-- The last copied line is in the Orangery and the clean sub-blocks have been dropped: the way is free (R217 step 3). -/
def State.evictEnd (s : State) (p : PavId) (set way : Nat) : State :=
  match (s.pav p).evicts.find? fun e => e.set = set && e.way = way && !e.poisoning with
  | none => s
  | some e =>
    let waiting := (s.pav p).stackq.any fun c => c.set = set && c.way = way && c.op = .evict
    if e.inFlight.isEmpty && !waiting && e.dropAt.isNone then
      (s.modPav p fun v => { v with evicts := v.evicts.filter fun x => !(x.set = set && x.way = way) }).wayFree p set way
    else s

/-- The slot that drops the clean sub-blocks of evictions whose last copy read has issued (R217 step 2). -/
def State.evictDrop (s : State) (p : PavId) : State :=
  ((s.pav p).evicts.filter fun e => e.dropAt.elim false fun t => decide (t ≤ s.now)).foldl (fun s e =>
    (s.modPav p fun v =>
      { (v.setTag e.set e.way { v.tag e.set e.way with present := 0, dirty := 0 }) with
        evicts := v.evicts.map fun x => if x.set = e.set && x.way = e.way then { x with dropAt := none } else x }).evictEnd p e.set e.way) s

/-- A returned stack read other than an eviction copy. -/
def State.stackReturn (s : State) (p : PavId) (r : StackRet) : State :=
  let c := r.cmd
  let k := stackOfPav p
  match c.op with
  | .raw => s.rawRead r.st (stackDecode r.st)
  | .survey =>
    let cls := (stackDecode r.st).cls
    let (s, _, _, _) := s.stackClass p r
    (s.surveyLine (.stack k) cls ((p.val % 2) * 2 ^ 24 + stackKey c.set c.way c.sub)).modStk k fun x =>
      { x with com := { x.com with surveyOut := x.com.surveyOut - 1 } }
  | .patrol => (s.stackClass p r).1
  | op =>
    let (s, data, po, again) := s.stackClass p r
    match op with
    | .demand e =>
      match FMap.find? (s.pav p).tt e with
      | none => s
      | some t =>
        if t.fetch ≠ .busy || t.pa ≠ c.pa then s
        else if again then s.setFetch p e .replay
        else s.modTxn p e fun t => { t with buf := some (data, po), fetch := .ready }
    | .merge e =>
      let s := s.modPav p fun v => { v with merging := v.merging.filter fun x => x.2.2 ≠ e }
      match FMap.find? (s.pav p).tt e with
      | none => s
      | some t =>
        let x := (s.pav p).tag c.set c.way
        let holds := (x.st = .valid || x.st = .filling) && x.tag = tagOf c.pa && x.present.getLsbD c.sub && (s.stk k).com.st ≠ .failed
        let line := mergeBytes data t.wdata t.mask
        if again then s.setFetch p e .replay
        -- its lookup hit: the merged line commits there, whatever EN has become since (R202, R244), but after the tick of DISABLE_CLEAN it
        -- is pushed (R256)
        else if holds && !s.writeThrough p then (s.commitSec p c.set c.way c.sub c.pa line po true (some t.plot)).setFetch p e .performed
        else State.tookWrite (s.writeLine p c.pa line po (some t.plot) (some e)) p e
    | .wbTxn e => s.pushLine p { pa := c.pa, data := data, poison := po, plot := c.plot, for_ := .cmo e }
    | .mop inval by_ =>
      let s := if by_ = .engine then s.mopCls (if r.failed then .uncorrectable else (stackDecode r.st).cls) else s
      s.pushLine p { pa := c.pa, data := data, poison := po, plot := c.plot, for_ := .mop c.set c.way c.sub inval by_ }
    | _ => s

/-- A returned eviction copy enters the Orangery (R217 step 2). -/
def State.copyReturn (s : State) (p : PavId) (r : StackRet) : State :=
  let c := r.cmd
  let (s, data, po, _) := s.stackClass p r
  let s := s.orAdd p c.pa data po c.plot
  let s := s.modPav p fun v =>
    { v with orRsv := v.orRsv - 1
             evicts := v.evicts.map fun e => if e.set = c.set && e.way = c.way then { e with inFlight := e.inFlight.erase c.sub } else e }
  ((s.cntPav p 8 c.plot).evictEnd p c.set c.way).poisonEnd p c.set c.way

/-! ## Miss registers -/

/-- Sub-blocks that waited for an Evicting way and have left it: recalled from the Orangery, or now to be read (R210). A register with no
way recalls nothing: its waiters look the line up again and are served from the Orangery (R208, R245). -/
def State.regUnwait (s : State) (p : PavId) (r : Nat) : State :=
  match FMap.find? (s.pav p).miss r with
  | none => s
  | some x =>
    (List.range x.gsize).foldl (fun s i =>
      let la := x.base + BitVec.ofNat 46 i
      if !x.waitEv.getLsbD i || x.want.getLsbD i || (s.pav p).subHeld la then s else
      match (s.pav p).orFor la with
      | some o =>
        if x.way = 16 then
          let ws := x.waiters.filter fun w => w.2 = i
          let s := s.modReg p r fun x => { x with waitEv := setBits x.waitEv i i 0, waiters := x.waiters.filter fun w => w.2 ≠ i }
          ws.foldl (fun s w => s.setFetch p w.1 .replay) s
        else s.orRecall p r i o x.preload
      | none => s.modReg p r fun x => { x with want := setBits x.want i i 1 }) s

/-- The next sub-block of a register to read: the critical one first, then ascending with wrap (R210). -/
def MissReg.nextRead (x : MissReg) : Option Nat :=
  ((List.range x.gsize).map fun j => (x.crit + j) % x.gsize).find? fun i => x.want.getLsbD i && !x.issued.getLsbD i && !x.written.getLsbD i

/-- A channel's read queue takes a read of a Plot now (R47, R292, R391). -/
def State.rqTakes (s : State) (c : ChanId) (k : PlotId) (noPlot : Bool) : Bool :=
  let ch := s.chan c
  s.rqRoom c &&
    (noPlot || decide ((ch.rq.filter fun r => r.plot = some k).length < s.rf (R.regPlotShare k.toNat) 6 0))

/-- A register's read that waits for a place of its channel still waits. -/
def State.stillWaits (s : State) (c : ChanId) (y : PlotId × PavId × Nat) : Bool :=
  match FMap.find? (s.pav y.2.1).miss y.2.2 with
  | none => false
  | some x => x.plot = y.1 && x.nextRead.elim false fun i => s.chanFor (x.base + BitVec.ofNat 46 i) = c
/-- The register whose read of the Plot has waited longest for the channel; it takes the next place (R391). -/
def State.nextWaiter (s : State) (c : ChanId) (k : PlotId) : Option (PlotId × PavId × Nat) := (s.chan c).waitRd.find? fun y => y.1 = k && s.stillWaits c y

/-- Pushes the next read of a register into its channel's read queue, unless an earlier one of its Plot waits (R210, R391). -/
def State.missRead (s : State) (p : PavId) (r : Nat) : State :=
  let s := s.regUnwait p r
  match FMap.find? (s.pav p).miss r with
  | none => s
  | some x =>
    match x.nextRead with
    | none => s.regCommit p r
    | some i =>
      let la := x.base + BitVec.ofNat 46 i
      let c := s.chanFor la
      let me := (x.plot, p, r)
      if !s.rqTakes c x.plot false || (s.nextWaiter c x.plot).elim false (fun y => decide (y ≠ me)) then
        s.modChan c fun ch => { ch with waitRd := if ch.waitRd.contains me then ch.waitRd else ch.waitRd.filter (s.stillWaits c) ++ [me] }
      else
      let s := s.modChan c fun ch => { ch with waitRd := ch.waitRd.filter fun y => y ≠ me }
      let s := s.modReg p r fun x => { x with issued := setBits x.issued i i 1, waitEv := setBits x.waitEv i i 0 }
      s.rqPush c { ll := (s.llOf la).getD 0, pa := la, plot := some x.plot, at_ := s.now, src := .miss p r (subOf la) }

/-- A fill finds its sub-block's PRESENT bit set: a write has committed since the read was issued (R211). -/
def State.overtaken (s : State) (p : PavId) (x : MissReg) (la : LineAddr) : Bool :=
  let t := (s.pav p).tag (setOf la) x.way
  decide (x.way < 16) && !x.pendAlloc && (s.pav p).holds ≠ .ghCache && (t.st = .valid || t.st = .filling) && t.tag = tagOf la && t.present.getLsbD (subOf la)
/-- The waiters of a dropped fill take their data from the stack (R211). -/
def State.toStack (s : State) (p : PavId) (r i way : Nat) (la : LineAddr) : State :=
  match FMap.find? (s.pav p).miss r with
  | none => s
  | some x =>
    let s := s.modReg p r fun x => { x with waiters := x.waiters.filter fun w => w.2 ≠ i }
    (x.waiters.filter fun w => w.2 = i).foldl (fun s w =>
      match FMap.find? (s.pav p).tt w.1 with
      | none => s
      | some t =>
        if t.kind = .req Op.wrPart then (s.pinPart p w.1 (setOf la) way).stackCmd p (setOf la) way (subOf la) la (.merge w.1) (some t.plot)
        else s.stackCmd p (setOf la) way (subOf la) la (.demand w.1) (some t.plot)) s

/-- Data of a sub-block returns to its register (R211, R212). A sub-block that a written line has replaced is discarded. -/
def State.fillReturn (s : State) (p : PavId) (r sub : Nat) : State :=
  match FMap.find? (s.pav p).miss r with
  | none => s
  | some x =>
    let i := sub - subOf x.base
    let la := x.base + BitVec.ofNat 46 i
    let c := s.chanFor la
    match (s.chan c).rets.find? fun m => m.src = .miss p r sub && m.pa = la with
    | none => s
    | some m =>
      let s := s.modChan c fun ch => { ch with rets := ch.rets.erase m }
      let s :=
        if x.written.getLsbD i then s.modReg p r fun x => { x with want := setBits x.want i i 0 }
        else
          if s.overtaken p x la then (s.modReg p r fun x => { x with arrived := setBits x.arrived i i 1, done := setBits x.done i i 1 }).toStack p r i x.way la
          else (s.modReg p r fun x => { x with arrived := setBits x.arrived i i 1, buf := x.buf ++ [(i, m.data, m.poison)] }).regDeliver p r i m.data m.poison
      let s := if x.preload && m.err then s.mopErrs 1 else s
      s.regCommit p r

/-! ## Pushes -/

/-- Offers the waiting pushes again, each line's in order, and the rewrites and raw accesses of the channel (R47, R357). -/
def State.pushRetry (s : State) (p : PavId) : State :=
  let s := (s.pav p).pushq.foldl (fun s j =>
    if ((s.pav p).pushq.find? fun x => x.pa = j.pa) ≠ some j then s else
    match s.tryPush p j with
    | none => s
    | some s' => s'.modPav p fun v => { v with pushq := v.pushq.erase j }) s
  let c := chanOf p.val
  let s := match (s.chan c).rawWait with
    | none => s
    | some r => if s.rqRoom c && !s.glb.hold then (s.modChan c fun ch => { ch with rawWait := none }).rqPush c r else s
  (s.chan c).fixq.foldl (fun s w =>
    if s.wqTakes c && !(w.raw && s.glb.hold) then
      let s := (s.modChan c fun ch => { ch with fixq := ch.fixq.erase w }).wqPush c w.ll w.st none w.raw
      if w.raw then s.modGlb fun g => { g with rawDone := some (0, 0, 0x7F) } else s
    else s) s

/-- Drains the oldest Orangery line, as far as R220 lets it (R219). -/
def State.orDrain (s : State) (p : PavId) : State :=
  match (s.pav p).orang with
  | [] => s
  | o :: _ =>
    let c := s.chanFor o.pa
    let free := (s.pav p).unreserved
    if 64 ≤ free && 96 ≤ (s.chan c).wq.length then s
    else if !s.wqTakes c || (s.pav p).pushq.any (fun j => j.poisons || j.pa = o.pa) then s
    else
      let (s, d, po) := s.orRead p o
      (s.orDrop p o.pa).pushLine p { pa := o.pa, data := d, poison := po, plot := o.plot }

/-- An in-place rewrite of a corrected SRAM line (R347). -/
def State.sramFixOne (s : State) (p : PavId) : State :=
  match (s.pav p).sramFix with
  | [] => s
  | (none, i, l) :: rest => s.modPav p fun v => { v with sramFix := rest, ghData := FMap.put (fun _ => {}) v.ghData i l }
  | (some la, _, l) :: rest =>
    s.modPav p fun v => { v with sramFix := rest, orang := v.orang.map fun o => if o.pa = la then { o with line := l } else o }

/-- A transaction whose access was replayed, or that waits on an Evicting sector, tries again (R36, R140). -/
def State.replay (s : State) (p : PavId) (e : Nat) : State :=
  match FMap.find? (s.pav p).tt e with
  | none => s
  | some t =>
    if t.active && (t.phase = .waitSector || t.fetch = .replay) then
      let s := (s.readTags p t.pa).readEntry p t.pa
      if (s.pav p).halted then s else (s.modTxn p e fun t => { t with phase := if t.phase = .waitSector then .data else t.phase }).advance p e
    else s

/-- A request will be looked up again (R546). -/
def State.unfinished (s : State) (p : PavId) (e : Nat) : Bool :=
  match FMap.find? (s.pav p).tt e with
  | none => false
  | some t => !t.active || t.phase = .waitSector || (t.phase = .waitSet && ((s.pav p).promised e).isNone) || t.fetch = .replay
/-- The account of a request lookup: it finished or will be looked up again (R546). -/
def State.slotLookup (s : State) (p : PavId) (e : Nat) : State := s.slotUse p (if s.unfinished p e then 3 else 1)

/-- A lookup's place in the table of R200; none in another placement, and where the lookup needs no home copy (R200). -/
def State.lookOrder (s : State) (p : PavId) (t : Txn) : Option Nat :=
  match s.mode p, t.kind with
  | .sec _, .req op =>
    if !(s.pav p).needsHome t op then none else
    match s.look p t.pa with
    | .evicting => some 1
    | .hit _ => some 2
    | .reg _ => some 3
    | .orang => some 4
    | .sector _ => some 5
    | .pendReg _ => some 6
    | .miss => some 7
  | _, _ => none

/-- The traced occurrence of a request lookup: `s` before it, `s'` after it. Outcome 8 is a wait-list join, 9 a replay; one that the table
of R200 does not give is a free value (R549, R550). -/
def State.traceLookup (s s' : State) (p : PavId) (e : Nat) (t : Txn) : State :=
  if !s'.traces 0x10 then s' else
  let op := match t.kind with
    | .req op => op.toNat
    | _ => 0
  let joins := (FMap.find? (s'.pav p).tt e).elim false fun t => t.phase = .waitLine
  let out : Option Nat := if joins then some 8 else if s.lookOrder p t = some 1 then some 1 else if s'.unfinished p e then some 9 else s.lookOrder p t
  let (s', k) := match out with
    | some k => (s', k)
    | none => (s'.drawn, (Config.lookOutcome s'.freeCtr).toNat)
  s'.occur { src := p.val, kind := 0x10, port := if t.port = 127 then 0xFF else t.port, plot := plotByte t.chargeTo, addr := t.pa.setWidth 48
             detail := BitVec.ofNat 16 (op + k * 256) }

/-- A request lookup ends: its slot's account and its trace record (R546, R550). -/
def State.lookEnd (s s' : State) (p : PavId) (e : Nat) (t : Txn) : State := State.traceLookup s (s'.slotLookup p e) p e t

/-- The oldest parked request of a set (R136). -/
def Pav.oldestParked (v : Pav) (set : Nat) : Option Nat :=
  ((v.txns.filter fun x => x.2.phase = .waitSet && dirSet x.2.pa = set && (v.promised x.1).isNone).foldl (fun (b : Option (Nat × Txn)) x =>
    match b with
    | none => some x
    | some y => if x.2.waitSeq < y.2.waitSeq then some x else some y) none).map fun (y : Nat × Txn) => y.1

/-- A set's retries have ended (R136). -/
def State.retryStop (s : State) (p : PavId) (set : Nat) : State := s.modPav p fun v => { v with retryDue := v.retryDue.filter (· ≠ set) }
/-- A parked request's retry of choose_way: the retries of the set go on until one parks again or none is left (R136). -/
def State.parkedRetry (s : State) (p : PavId) (set e : Nat) : State :=
  let s := s.takeWay p e
  if ((s.pav p).promised e).isSome then
    let s := s.modTxn p e fun t => { t with phase := .waitSet }
    let s := s.advance p e
    if ((s.pav p).oldestParked set).isNone then s.retryStop p set else s
  else s.retryStop p set

/-! ## The commands -/

/-- A hit whose stack bank is busy in this slot is looked up again (R36, R546). -/
def State.bankBusy (s : State) (p : PavId) (t : Txn) (u : SramUpset) : Bool := u = .busyBank && s.lookOrder p t = some 2 && (s.pav p).unblocked t.pa

/-- HOME_LOOKUP (R200): a disturbance of stored bits, then the lookup. -/
def execHomeLookup (p : PavId) (e : Fin 1024) (u : SramUpset) (s : State) : Host.Outcome State Fault Refusal :=
  live s fun s =>
    let s := s.disturb p u
    match FMap.find? (s.pav p).tt e with
    | none => s
    | some t =>
      if t.phase = .lookup && !t.active && !(s.pav p).halted then
        State.lookEnd s (if s.bankBusy p t u then (s.cntPav p 1 (some t.plot)).readTags p t.pa else (s.lookup p e).pump p) p e t
      else s

/-- LOOKUP_REPLAY (R36): a request that has nothing to replay makes no lookup. -/
def execLookupReplay (p : PavId) (e : Fin 1024) (s : State) : Host.Outcome State Fault Refusal :=
  live s fun s =>
    match FMap.find? (s.pav p).tt e with
    | none => s
    | some t =>
      if t.active && (t.phase = .waitSector || t.fetch = .replay) && !(s.pav p).halted then State.lookEnd s ((s.replay p e).pump p) p e t else s

/-- PARKED_RETRY (R136). -/
def execParkedRetry (p : PavId) (set : Nat) (s : State) : Host.Outcome State Fault Refusal :=
  live s fun s =>
    if (s.pav p).halted || !(s.pav p).retryDue.contains set then s else
    match (s.pav p).oldestParked set with
    | none => (s.retryStop p set).pump p
    | some e =>
      match FMap.find? (s.pav p).tt e with
      | none => s
      | some t => State.lookEnd s ((s.parkedRetry p set e).pump p) p e t

/-- MISS_READ_ISSUE (R210). -/
def execMissReadIssue (p : PavId) (r : Fin 512) (s : State) : Host.Outcome State Fault Refusal :=
  live s fun s => (s.missRead p r).pump p

/-- FILL_RETURN (R211). -/
def execFillReturn (p : PavId) (r : Fin 512) (sub : Fin 64) (s : State) : Host.Outcome State Fault Refusal :=
  live s fun s => ((s.fillReturn p r sub).slotUse p 2).pump p

/-- STACK_COMMAND_ISSUE (R299): only a stack that serves commands, or a FAILED one that answers them, issues (R292); a pseudo-channel's
refresh goes first as R300 says. -/
def execStackCommandIssue (p : PavId) (pc : Fin 32) (u : Upset) (s : State) : Host.Outcome State Fault Refusal :=
  live s fun s =>
    let st := (s.stk (stackOfPav p)).com.st
    let demand := (s.pav p).stackq.any fun c => pcOf p c.set c.way c.sub = pc.val && decide (c.op.level < 4)
    if (st = .inService && !s.refBars (.stack (stackOfPav p)) pc.val demand) || st = .failed then
      match (s.pav p).nextStack p pc with
      | none => s
      | some c => if (s.pav p).wbVoid c then s.wbDrop p c else s.stackIssue p pc c u
    else s

/-- STACK_READ_RETURN (R202). -/
def execStackReadReturn (p : PavId) (s : State) : Host.Outcome State Fault Refusal :=
  live s fun s =>
    match (s.pav p).stackRet.find? fun r => r.cmd.op ≠ .evict with
    | none => s
    | some r => ((s.modPav p fun v => { v with stackRet := v.stackRet.erase r }).stackReturn p r).pump p

/-- EVICTION_COPY_RETURN (R217). -/
def execEvictionCopyReturn (p : PavId) (s : State) : Host.Outcome State Fault Refusal :=
  live s fun s =>
    match (s.pav p).stackRet.find? fun r => r.cmd.op = .evict with
    | none => s
    | some r => (((s.modPav p fun v => { v with stackRet := v.stackRet.erase r }).copyReturn p r).slotUse p 2).pump p

/-- ORANGERY_DRAIN (R219). -/
def execOrangeryDrain (p : PavId) (s : State) : Host.Outcome State Fault Refusal :=
  live s fun s => (s.orDrain p).pump p

/-- QUEUE_PUSH_RETRY (R47). -/
def execQueuePushRetry (p : PavId) (s : State) : Host.Outcome State Fault Refusal :=
  live s fun s => (s.pushRetry p).pump p

/-- SRAM_REWRITE (R347). -/
def execSramRewrite (p : PavId) (s : State) : Host.Outcome State Fault Refusal :=
  live s fun s => (s.sramFixOne p).slotUse p 2

end Sys2Proof.Machine
end

