-- ==== Sys2Proof/Machine/Link.lean ====
section
/-!
DEFINITION. The Qorys link of a port: training, the flit layer, retry, credits, low power, link loss and the service chain
(chapter 2).
-/

namespace Sys2Proof.Machine

/-! ## States and limits (R58, R60) -/

def State.linkTo (s : State) (n : PortId) (st : LinkSt) : State := s.modLink n fun l => { l with st := st, since := s.now, setsOut := 0 }

/-- The hub's limit of a training state in cc (R60). -/
def Link.limit (l : Link) : Option Nat :=
  match l.st with
  | .poll => some (2000 * ccPerUs)
  | .config => some (2000 * ccPerUs)
  | .speed => some (200 * ccPerUs)
  | .eq => some ((if l.eqLoad then (if l.eqFull then 26000 else 2000) else 24000) * ccPerUs)
  | .delay => some (100 * ccPerUs)
  | _ => none

/-- Time of one flit in cc: 4 ns at QCL-3 width 4 (R58). -/
def Link.flitCc (l : Link) : Nat :=
  12 * (4 / (if l.width = 0 then 4 else l.width)) * (if l.gen = 3 then 1 else if l.gen = 2 then 2 else 4)

/-- The REQ, PST and NPI credits granted when a port is enabled (R83, R429). -/
def State.grantCredits (s : State) (n : PortId) : State :=
  let req := s.rf (R.portCredCfg n) 9 0
  s.modLink n fun l => { l with credRet := ((l.credRet.set 0 (l.credRet.getD 0 0 + req)).set 4 (l.credRet.getD 4 0 + 64)).set 5 (l.credRet.getD 5 0 + 16)
                                reqOut := l.reqOut + req }

/-- ACTIVE is reached from training: sequences and credits start afresh (R60, R71, R82, R429). The first flit follows the hub's END set
directly (R61), whose end `nextFlit` holds. -/
def State.linkUp (s : State) (n : PortId) : State :=
  let s := s.modLink n fun l =>
    { l with st := .active, since := s.now, txSeq := 0, txLast := 0xFFF, rxExp := 0, rxAck := none, retry := [], replay := [], txSlots := [], rxSlots := []
             discarding := false, retryReqs := 0, retryDue := none, sendRetryReq := false, recAttempts := 0
             cred := [0, 0, 0, 0, 0, 0], credSeen := [0, 0, 0, 0, 0, 0], credRet := [0, 0, 64, 64, 0, 0], reqOut := 0, held := [], credMinDone := false
             scrRx := List.replicate 4 0x7FFFFF, scrTx := List.replicate 4 0x7FFFFF, idleSince := s.now }
  (s.modIo n fun io => { io with tids := [], answered := [], nextNum := io.nextNum + 1, numUp := io.nextNum + 1, eqPend := none, eqChg := none, eqArm := none }).raise (R.portLinkEvt n) 8

/-- The link resumes service after RECOVERY or LOWPOWER: sequences, credits and the retry buffer are kept (R71, R75, R82). The first flit
follows the hub's END set directly (R61). -/
def State.linkResume (s : State) (n : PortId) : State :=
  s.modLink n fun l => { l with st := .active, since := s.now, scrRx := List.replicate 4 0x7FFFFF, scrTx := List.replicate 4 0x7FFFFF
                                idleSince := s.now, recAttempts := 0, retryReqs := 0 }

/-- After RECOVERY the receiver names its expected SEQ, so that what was lost is sent again (R75). -/
def State.linkRetry (s : State) (n : PortId) : State :=
  s.modLink n fun l =>
    { l with sendRetryReq := true, retryReqs := if l.discarding then 1 else 0, retryDue := if l.discarding then some (s.now + ccPerUs) else none }

/-- The port enters RECOVERY (R75, R97). -/
def State.enterRecovery (s : State) (n : PortId) : State :=
  ((s.linkTo n .recovery).modLink n fun l => { l with echoes := [], recAttempts := 0 }).raise (R.portLinkEvt n) 10

/-! ## Link loss (R93) -/

/-- A port sweep starts in every pavilion; its walk reads and checks the slice (R111, R152). -/
def State.sweepStart (s : State) (n : PortId) : State :=
  let s := s.modIo n fun io => { io with sweeping := true, swept := false }
  forPavs s fun p s =>
    let s := (((s.pav p).dir.map fun x => x.1 / 24).dedup).foldl (fun s set => s.checkDir p set) s
    s.modPav p fun v => { v with sweeps := (v.sweeps.filter (· ≠ n.val)) ++ [n.val] }

/-- Everything that waits for the port times out at once (R93, R146), but for a halted pavilion's transactions (R351). -/
def State.waitsEnd (s : State) (n : PortId) : State :=
  forPavs s fun p s =>
    (s.pav p).txns.foldl (fun s x =>
      match (if (s.pav p).halted then none else FMap.find? (s.pav p).tt x.1) with
      | none => s
      | some t =>
        let s := if t.outs.any (fun o => o.port = n.val) || t.cross.any (fun c => c.1 = n.val) || (t.waitEvict && t.port = n.val)
          then s.timeoutFwd p x.1 n else s
        if t.phase = .doneWait && t.port = n.val && t.outs.isEmpty && !t.doneSeen then s.timeoutDone p x.1 n else s) s

/-- EvAcks still owed to the port are discarded with the other answers to it (R93). -/
def State.acksEnd (s : State) (n : PortId) : State :=
  forPavs s fun p s => if (s.pav p).halted then s else (s.pav p).txns.foldl (fun s x => s.modTxn p x.1 fun t => { t with evAcks := t.evAcks.filter fun a => a.1 ≠ n.val }) s

/-- Entry to DOWN (R93, R430). DESIGN CHOICE: R98 does not say what LINK_STAT's fields hold in DOWN, DISABLED and DETECT: GEN, WIDTH and
LEVEL clear, while REVERSED, POL_INV, LANE_FAIL and EQ_FAST keep what the last training left (log entry 314). -/
def State.linkDown (s : State) (n : PortId) : State :=
  let l := (s.port n).link
  if l.st = .down || l.st = .disabled then s else
  let gone := l.egress.filterMap (·.relTid)
  let s := s.modLink n fun l =>
    { st := .down, since := s.now, saved := l.saved, eqNew := l.eqNew, eqSetting := l.eqSetting, polInv := l.polInv, laneFail := l.laneFail
      reversed := l.reversed, eqFast := l.eqFast, rxq := l.rxq, present := l.present, btnRun := l.btnRun, btnState := l.btnState, preRun := l.preRun
      delayPs := l.delayPs }
  let s := s.modIo n fun io => { io with enabled := false, tids := io.tids.filter fun t => !gone.contains t }
  let s := (s.raise (R.portLinkEvt n) 9).event .linkDown n.val 0
  let s := (s.waitsEnd n).acksEnd n
  let s := match (s.port n).io.qst with
    | .none => s.sweepStart n
    | .refusing => (s.modIo n fun io => { io with qst := .sweeping }).sweepStart n
    | .sweeping => s
    | .down => s
  let s := forPavs s fun p s => s.pump p
  (s.sweepCheck).linkSettle n

/-! ## Training (R61 to R65) -/

/-- A received set with its lane's polarity taken out, and whether the marker came inverted (R61). -/
def setNormal (set : BitVec 128) (inv : Bool) : BitVec 128 := if inv then ~~~set else set
def setByte (set : BitVec 128) (k : Nat) : Nat := bitsOf set (8 * k + 7) (8 * k)
/-- The check byte matches (R61). -/
def setOk (set : BitVec 128) : Bool := ((List.range 16).foldl (fun a k => a ^^^ setByte set k) 0) = 0
def setMarker (set : BitVec 128) : Bool := setByte set 0 = 0x1D && setByte set 1 = 0x7E
def setMarkerInv (set : BitVec 128) : Bool := setByte set 0 = 0xE2 && setByte set 1 = 0x81

/-- Physical lanes of a width's logical lanes (R63). -/
def lanesOf (width : Nat) (rev : Bool) : List Nat := (List.range width).map fun k => if rev then 3 - k else k
/-- The widest width that the agent requests and whose lanes work (R63). -/
def chooseWidth (req : Nat) (ok : BitVec 4) (rev : Bool) : Nat :=
  ([4, 2, 1].find? fun w => decide (w ≤ req) && (lanesOf w rev).all ok.getLsbD).getD 0
/-- LINK_CTL.MIN_WIDTH as lanes (R97). -/
def State.minWidth (s : State) (n : PortId) : Nat := 2 ^ s.rf (R.portLinkCtl n) 29 28
/-- The target generation (R62). -/
def targetGen (agent : BitVec 3) (cap : Nat) : Nat := ([3, 2].find? fun g => decide (g ≤ cap) && agent.getLsbD (g - 1)).getD 1

/-- The median of the 16 one-way delays, at 100 ps resolution (R65). -/
def medianDelay (xs : List Nat) : Nat :=
  let ys := xs.mergeSort
  (ys.getD 7 0 + ys.getD 8 0) / 2 / 100 * 100

/-! ## The hub's own training sets (R61, R65, R89, R91) -/

/-- A training set: kind, logical lane, saved-equalisation tag, and bytes 8 to 11. The hub supports QCL-1 to QCL-3, runs level
3 and asks for width 4 (R61, R89). -/
def hubSet (kind lane : Nat) (tag : BitVec 16) (arg : BitVec 32) : BitVec 128 :=
  let b := [0x1D, 0x7E, kind, lane, 0x37, 4] ++ (leBytes tag.toNat 2).map (·.toNat) ++ (leBytes arg.toNat 4).map (·.toNat) ++ [0, 0, 0]
  BitVec.ofNat 128 (leNat ((b ++ [b.foldl (· ^^^ ·) 0]).map (BitVec.ofNat 8)))

/-- The kind of the next set of a training state (R60, R61, R65). DESIGN CHOICE: the spec lists no order of sets. -/
def Link.setKind (l : Link) : Nat :=
  match l.st with
  | .config => if l.agentGens = 0 then 1 else 2
  | .eq => 3
  | .delay => if l.setsOut < 16 then 4 else if l.echoes.length = 16 then 0x0F else 1
  | .recovery => if l.setsOut = 0 then 2 else if l.setsOut ≤ 16 then 4 else if l.echoes.length = 16 then 0x0F else 1
  | .lowpower => 0x0F
  | _ => 1

/-- The physical lanes that carry sets: all four until CONFIG has set the width, then the width's lanes (R60, R63). -/
def Link.setLanes (l : Link) : List Nat := if l.st = .poll || l.st = .config || l.width = 0 then [0, 1, 2, 3] else lanesOf l.width l.reversed

/-- Sends one set of a kind on each lane, after the one in progress; it takes 128 bit times (R57, R61). -/
def State.sendKind (s : State) (n : PortId) (kind : Nat) : State :=
  let l := (s.port n).link
  let tag := (l.saved.head?.map fun e => e.tag).getD 0
  let arg : BitVec 32 := if kind = 3 then BitVec.ofNat 32 l.eqSetting else 0
  let s := l.setLanes.foldl (fun s i =>
    let lane := if l.st = .poll || l.st = .config then (if l.st = .poll then 0xFF else if l.reversed then 3 - i else i) else if l.reversed then 3 - i else i
    s.emit (.trainSet n (Fin.ofNat 4 i) (hubSet kind lane tag arg))) s
  s.modLink n fun l => { l with setsOut := l.setsOut + 1, nextFlit := max s.now l.nextFlit + (if l.gen = 3 then 6 else if l.gen = 2 then 12 else 24) }
/-- Sends the next set of the training state. -/
def State.sendSets (s : State) (n : PortId) : State := s.sendKind n (s.port n).link.setKind
/-- The hub's END set ends the training, and its first flit follows (R61). -/
def State.sendEnd (s : State) (n : PortId) : State := s.sendKind n 0x0F

/-- The hub sends sets while it trains (R60). -/
def Link.training (l : Link) : Bool :=
  l.st = .poll || l.st = .config || l.st = .speed || l.st = .eq || l.st = .delay || l.st = .recovery

/-- EQ has failed, or SPEED or EQ has exceeded its limit: back to the previous generation (R62). -/
def State.genFallback (s : State) (n : PortId) : State :=
  let l := (s.port n).link
  let g := if l.st = .eq then l.gen - 1 else l.gen
  ((s.linkTo n .speed).modLink n fun x => { x with fallback := true, gen := g, eqFast := l.eqFast && l.st ≠ .eq, eqLoad := false, eqFull := false }).raise (R.portLinkEvt n) 11

/-- EQ has succeeded: the next generation, or the delay measurement (R62). -/
def State.eqDone (s : State) (n : PortId) : State :=
  let l := (s.port n).link
  if l.gen < l.target then s.linkTo n .speed else (s.linkTo n .delay).modLink n fun l => { l with echoes := [] }

/-- CONFIG, or the width part of RECOVERY, is confirmed by the agent (R62, R63, R75, R89). DESIGN CHOICE: RECOVERY takes the
widest width as CONFIG does, and LANE_FAIL shows only lanes that do not work. DESIGN CHOICE: a first training that settles on fewer lanes
than requested raises no DEGRADED, which the spec leaves open; a width below the one in force does (R100, log entry 315). -/
def State.widthSet (s : State) (n : PortId) (req : Nat) (ok : BitVec 4) : State × Bool :=
  let l := (s.port n).link
  let w := chooseWidth req ok l.reversed
  if w = 0 || w < s.minWidth n then (s.linkDown n, false)
  else
    let less := decide (l.width ≠ 0) && decide (w < l.width)
    let s := s.modLink n fun l => { l with width := w, laneFail := ~~~ok }
    (if less then s.raise (R.portLinkEvt n) 11 else s, true)

/-- The saved set that EQ at a generation may load (R64). -/
def State.eqSaved (s : State) (n : PortId) (gen : Nat) : Option SavedEq :=
  let l := (s.port n).link
  if s.rbit (R.portLinkCtl n) 25 then l.saved.find? fun e => e.gen = gen && e.tag = l.agentTag else none

/-- EQ at the next generation begins, fast-loaded where R64 allows it. -/
def State.eqEnter (s : State) (n : PortId) : State :=
  let g := (s.port n).link.gen + 1
  (s.linkTo n .eq).modLink n fun l => { l with gen := g, eqLoad := (s.eqSaved n g).isSome, eqFull := false }

/-- One EQ set: the eye check of a fast-load, or full equalisation (R64). -/
def State.eqStep (s : State) (n : PortId) (obs : TrainObs) : State :=
  let l := (s.port n).link
  match (if l.eqLoad && !l.eqFull then s.eqSaved n l.gen else none) with
  | some e =>
    if obs.fastEyeOk then (s.modLink n fun l => { l with eqFast := true, eqSetting := e.settings }).eqDone n
    else s.modLink n fun l => { l with eqFull := true }
  | none =>
    if obs.eyeOk then
      (s.modLink n fun l =>
        { l with eqFast := false, eqFull := false, eqSetting := obs.eqSettings
                 eqNew := (l.eqNew.filter fun e => e.gen ≠ l.gen) ++ [{ gen := l.gen, tag := l.agentTag, settings := obs.eqSettings }] }).eqDone n
    else s.genFallback n

/-- One training set received on a physical lane (R60 to R65). DESIGN CHOICE: which kind of set ends which state. DESIGN CHOICE: R65 does
not say whether the 16 DELAY sets and echoes are counted per link or per lane: the hub sends 16 rounds on every lane and takes the first
16 echoes of any lane (log entry 316). -/
def State.trainSet (s : State) (n : PortId) (lane : Fin 4) (raw : BitVec 128) (obs : TrainObs) : State :=
  let l := (s.port n).link
  let known := l.polInv.getLsbD lane
  let flip := setMarkerInv (setNormal raw known)
  let set := setNormal raw (xor known flip)
  let kind := setByte set 2
  if !setMarker set || !setOk set then s else
  let s := if flip then s.modLink n fun l => { l with polInv := setBits l.polInv lane.val lane.val (if known then 0 else 1) } else s
  if !(kind = 1 || kind = 2 || kind = 3 || kind = 4 || kind = 0x0F) then s else
  match l.st with
  | .poll =>
    let locked := setBits l.locked lane.val lane.val 1
    let s := s.modLink n fun l => { l with locked := locked, gen := 1 }
    if obs.laneOk &&& ~~~locked = 0 then s.linkTo n .config else s
  | .config =>
    let lvl := setByte set 4 / 16 % 4
    let s := s.modLink n fun l =>
      { l with agentGens := BitVec.ofNat 3 (setByte set 4), level := lvl, agentTag := BitVec.ofNat 16 (setByte set 6 + 256 * setByte set 7)
               reversed := if lane.val = 3 && setByte set 3 = 0 then true else if lane.val = 0 && setByte set 3 = 0 then false else l.reversed }
    if kind ≠ 2 then s else
    if lvl = 0 then (s.linkDown n).raise (R.portLinkEvt n) 13 else
    let (s, ok) := s.widthSet n (setByte set 5) obs.laneOk
    if !ok then s else
    let t := targetGen (s.port n).link.agentGens (s.rf (R.portLinkCtl n) 27 26)
    let s := s.modLink n fun l => { l with target := t, fallback := false, eqFull := false, eqLoad := false, echoes := [] }
    if t = 1 then s.linkTo n .delay else s.linkTo n .speed
  | .speed =>
    if l.fallback then (s.linkTo n .delay).modLink n fun l => { l with fallback := false, echoes := [] }
    else s.eqEnter n
  | .eq => if kind = 3 then (s.modLink n fun l => { l with eqPeer := BitVec.ofNat 32 (bitsOf set 95 64) }).eqStep n obs else s
  | .delay =>
    if kind = 4 then
      let ta := bitsOf set 95 64
      s.modLink n fun l => { l with echoes := (l.echoes ++ [(obs.roundTripPs - ta) / 2]).take 16 }
    else if kind = 0x0F && l.echoes.length = 16 then
      let d := medianDelay l.echoes
      (((s.modLink n fun l => { l with delayPs := d }).rset (R.portLinkDelay n) (BitVec.ofNat 32 d)).sendEnd n).linkUp n
    else s
  | .recovery =>
    if kind = 2 then (s.widthSet n (setByte set 5) obs.laneOk).1
    else if kind = 4 then
      let ta := bitsOf set 95 64
      s.modLink n fun l => { l with echoes := (l.echoes ++ [(obs.roundTripPs - ta) / 2]).take 16 }
    else if kind = 0x0F && l.echoes.length = 16 then
      let d := medianDelay l.echoes
      ((((s.modLink n fun l => { l with delayPs := d }).rset (R.portLinkDelay n) (BitVec.ofNat 32 d)).sendEnd n).linkResume n).linkRetry n
    else s
  | .lowpower => if kind = 0x0F && s.linksOn && !s.glb.lowAsk then (s.sendEnd n).linkResume n else s
  | _ => s

/-! ## The flit layer (R66 to R76) -/

/-- Credits that a header field returns (R67, R82). -/
def State.takeCredit (s : State) (n : PortId) (field : Nat) : State :=
  let cls := field % 8; let cnt := field / 8 % 128
  if cnt = 0 || 6 ≤ cls then s else
  s.modLink n fun l => { l with cred := l.cred.set cls (l.cred.getD cls 0 + cnt), credSeen := l.credSeen.set cls (l.credSeen.getD cls 0 + cnt) }

/-- ACK: the flits it covers, counted back by at most 2,047, leave the retry buffer (R71, R72). -/
def State.takeAck (s : State) (n : PortId) (ack : Nat) : State :=
  s.modLink n fun l => { l with retry := l.retry.filter fun e => !decide ((ack + 4096 - e.1) % 4096 < 2048) }

/-- A flit error: what follows is discarded until the expected sequence, and RETRY_REQ is sent (R74). -/
def State.flitError (s : State) (n : PortId) : State :=
  s.modLink n fun l =>
    if l.discarding then l
    else { l with discarding := true, sendRetryReq := true, retryReqs := 1, retryDue := some (s.now + ccPerUs) }

/-- RETRY_REQ received: every held flit from the named sequence is sent again, in order (R74). -/
def State.retryFrom (s : State) (n : PortId) (seq : Nat) : State :=
  s.modLink n fun l => { l with replay := (l.retry.map (·.1)).filter fun x => decide ((x + 4096 - seq) % 4096 < 2048) }

/-- An opcode that an agent may send (R79). -/
def agentMaySend (op : BitVec 8) : Bool :=
  (decide (1 ≤ op.toNat) && decide (op.toNat ≤ 0x0B)) ||
    [Op.done, Op.invAck, Op.fwdAck, Op.rspCrossed, Op.stashAcc, Op.stashDecl, Op.ioAck, Op.dataS, Op.dataE, Op.dataM, Op.dataI, Op.wbD, Op.evC,
      Op.recallD, Op.fwdAckD, Op.ioDat, Op.ioWr, Op.ioRd].contains op

/-- A message in error, by class: the credit returns; a REQ or NPI, and a PST that is no IOWr, is answered (R80). A message
in FWD, which agents never send, came under no credit and is only logged. -/
def State.badMsg (s : State) (n : PortId) (m : Msg) : State :=
  let c := classOf m.hdr.opcode
  let s := s.protoErr n
  let s := if c = 0 then s.reqCredBack n else if decide (2 ≤ c) && decide (c < 6) then s.credBack n c else s
  if (c = 0 || c = 4 || c = 5) && m.hdr.opcode ≠ Op.ioWr then s.send n (compMsg m.hdr.tid m.hdr.pa Status.unsupported 0 true) else s

/-- The Plot that ingress gives a REQ, PST or NPI message (R383, R384). -/
def State.ingressPlot (s : State) (n : PortId) (m : Msg) : Msg :=
  if s.rbit (R.portPlotCtl n) 7 then { m with hdr := { m.hdr with plot := BitVec.ofNat 6 (s.rf (R.portPlotCtl n) 5 0) } } else m

/-- The Plot that a received message is charged to: that of ingress for a REQ, PST or NPI, the header's for the data of a WbD, RecallD
or FwdAckD, none for another (R383, R385). -/
def State.plotIn (s : State) (n : PortId) (m : Msg) : Option PlotId :=
  let op := m.hdr.opcode
  if classOf op = 0 || classOf op = 4 || classOf op = 5 then some (s.ingressPlot n m).hdr.plot
  else if op = Op.wbD || op = Op.recallD || op = Op.fwdAckD then some m.hdr.plot else none

/-- A received message is counted (R537), and is a traced occurrence (R550). -/
def State.countIn (s : State) (n : PortId) (m : Msg) : State :=
  let op := m.hdr.opcode
  let k := s.plotIn n m
  let s := s.occur { src := n.val, kind := 0x20, port := n.val, plot := plotByte k, addr := m.hdr.pa.setWidth 48
                     detail := BitVec.ofNat 16 (op.toNat + m.hdr.tid.toNat % 256 * 256) }
  if classOf op = 0 then s.cntPort n 1 k else if classOf op = 3 then s.cntPort n 2 k
  else if op = Op.ioWr then s.cntPort n 0x0A k else if op = Op.ioRd then s.cntPort n 0x0B k else s

/-- Data that an owner sends to a requester: passed on over the port-to-port path to the port of the transaction that its
HTID names (R116, R127). Data for no such transaction, or from a port whose forward has been answered for it, is a late
answer and is never used (R80, R147). -/
def State.ownerData (s : State) (n : PortId) (m : Msg) : State :=
  match FMap.find? (s.pav (htidPav m.hdr.htid)).tt (htidEnt m.hdr.htid) with
  | none => (s.protoErr n).credBack n 3
  | some t =>
    match portOf? t.port with
    | none => (s.protoErr n).credBack n 3
    | some r =>
      if t.pa = m.hdr.pa && t.fwdOwner = some n.val then
        (((s.modTxn (htidPav m.hdr.htid) (htidEnt m.hdr.htid) fun t => { t with fwdOwner := none }).modIo r fun io => { io with answered := t.tid :: io.answered }).credBack n 3).answerFor r t.num
          { m with data := msgData m }
      else (s.protoErr n).credBack n 3

/-- One message off the link (R80, R87). A DataE or DataI of an owner has no command of its own: it is passed on at once. -/
def State.msgIn (s : State) (n : PortId) (m : Msg) : State :=
  let op := m.hdr.opcode
  let s := (s.modLink n fun l => { l with idleSince := s.now }).countIn n m
  if !agentMaySend op then s.badMsg n m
  else if op = Op.dataE || op = Op.dataI then s.ownerData n m
  else s.modLink n fun l => { l with rxq := l.rxq ++ [m] }

/-- Takes whole messages out of the received slots (R81). `k` bounds the slots looked at. -/
def State.slotsIn (s : State) (n : PortId) : Nat → State
  | 0 => s
  | k + 1 =>
    match (s.port n).link.rxSlots with
    | [] => s
    | x :: rest =>
      let op := BitVec.ofNat 8 (bitsOf x 7 0)
      if op = 0 then State.slotsIn (s.modLink n fun l => { l with rxSlots := rest }) n k
      else
        let len := slotsOf op
        let all := (s.port n).link.rxSlots
        if all.length < len then s
        else State.slotsIn ((s.modLink n fun l => { l with rxSlots := all.drop len }).msgIn n (decodeMsg (all.take len))) n k

/-- A LINK_CTL flit: the answer to the hub's request, or a request of the agent, which the hub accepts (R68, R76, R91, R92). DESIGN
CHOICE: R92 does not say what a MARGIN request does while an earlier one is outstanding: its count takes the place of what is left of the
earlier one (log entry 317). -/
def State.linkCtl (s : State) (n : PortId) (req resp : Nat) (arg : BitVec 64) : State :=
  if resp ≠ 0 then
    match (s.port n).link.ctlReq with
    | none => s
    | some (code, _, _) =>
      if req ≠ 0 && req ≠ code.toNat then s else
      let s := s.modLink n fun l => { l with ctlReq := none }
      if code = 1 && resp = 1 then s.linkTo n .lowpower else s
  else if req = 0x02 then
    s.modLink n fun l => { l with marginOut := arg.toNat % 256, ctlOut := l.ctlOut ++ [(0x02, 0x01, 0)] }
  else if req = 0x01 then
    (s.modLink n fun l => { l with ctlOut := l.ctlOut ++ [(0x01, 0x01, 0)] })
  else s

/-- A PROT flit in order is accepted and its slots are taken (R73). -/
def State.protIn (s : State) (n : PortId) (seq : Nat) (bytes : List Byte) : State :=
  let slots := (List.range 7).map fun k => BitVec.ofNat 128 (leNat ((bytes.drop (6 + 16 * k)).take 16))
  let s := s.modLink n fun l =>
    { l with rxExp := (seq + 1) % 4096, rxAck := some seq, discarding := false, retryReqs := 0, retryDue := none, sendRetryReq := false, rxSlots := l.rxSlots ++ slots }
  s.slotsIn n ((s.port n).link.rxSlots.length)

/-- A flit received on an active link (R67 to R74). A PROT flit that the FEC cannot decode is not accepted; it is a flit error, and
counts as one, where its CRC fails (R73, R74, R102, log entry 33). -/
def State.flitIn (s : State) (n : PortId) (x : BitVec 1024) : State :=
  let l := (s.port n).link
  if l.st ≠ .active then s else
  let (plain, regs) := scramble l.width (flitBytes x) 0 l.scrRx
  let s := s.modLink n fun l => { l with scrRx := regs }
  let (bytes, fixed, fecOk) := if l.gen = 3 then fecDecode plain else (plain, false, true)
  let s := if fixed then (s.rcount (R.portLinkErr n) 15 0 1).cntPort n 6 else s
  if crc32c (bytes.take 118) ≠ BitVec.ofNat 32 (leNat (bytes.drop 124)) then
    ((s.rcount (R.portLinkErr n) 31 16 1).cntPort n 7).flitError n
  else
    let h := leNat (bytes.take 6)
    let seq := natBits h 11 0; let ty := natBits h 27 24
    let ahead := (seq + 4096 - l.rxExp) % 4096
    let s := s.takeAck n (natBits h 23 12)
    let dup := ty = 1 && decide (2049 ≤ ahead)
    let s := if ty = 1 && (dup || decide (ahead ≠ 0)) then s else (s.takeCredit n (natBits h 37 28)).takeCredit n (natBits h 47 38)
    if 6 ≤ ty then s.flitError n else
    if ty = 1 then
      let s := s.cntPort n 5
      if ahead = 0 then (if fecOk then s.protIn n seq bytes else s) else if dup then s else s.flitError n
    else if ty = 2 then s.retryFrom n (leNat ((bytes.drop 6).take 2) % 4096)
    else if ty = 3 then s.linkCtl n (leNat ((bytes.drop 6).take 1)) (leNat ((bytes.drop 7).take 1)) (BitVec.ofNat 64 (leNat ((bytes.drop 8).take 8)))
    else if ty = 5 then s.modLink n fun l => { l with marginIn := l.marginIn - 1 }
    else s

/-! ## The service chain (R94 to R96) -/

/-- Three frames in a row that differ from the filtered value change it (R95). -/
def filter3 (state sample : Bool) (run : Nat) : Bool × Nat :=
  if sample = state then (state, 0) else if run = 2 then (sample, 0) else (state, run + 1)

/-- ACT of a port (R96). -/
def State.actOut (s : State) (n : PortId) : Bool :=
  let p := s.port n
  if p.io.qst = .refusing || p.io.qst = .sweeping then (s.now + Config.blinkPhase) / 750000000 % 2 = 0
  else p.io.enabled && p.link.up
/-- SAFE of a port (R96). -/
def State.safeOut (s : State) (n : PortId) : Bool :=
  let p := s.port n
  p.io.quiesced && (p.link.st = .down || p.link.st = .disabled || p.link.st = .detect)

/-- One BUTTON sample: a press is three 1s in a row after a 0. Whether a 0 has been read since the last press, the 1s since
it, and whether this is a press (R95). -/
def buttonStep (armed sample : Bool) (run : Nat) : Bool × Nat × Bool :=
  if !sample then (true, 0, false) else if !armed then (false, 0, false) else if run = 2 then (false, 0, true) else (true, run + 1, false)

/-- One service-chain frame: a quiesce that has reached DOWN has its SAFE frame (R94, R95, R430 step 6). -/
def State.svcFrame (s : State) (din : BitVec 288) : State :=
  let s := forPorts s fun n s =>
    if (s.port n).io.qst = .down && !(s.port n).io.quiesced then (s.modIo n fun io => { io with quiesced := true }).raise (R.portSvcStat n) 8 else s
  let dout := (List.range 96).foldl (fun a i => match portOf? i with
    | none => a
    | some n => a + ((if s.actOut n then 1 else 0) + (if s.safeOut n then 2 else 0)) * 2 ^ (3 * i)) 0
  let s := (s.modGlb fun g => { g with svcBits := BitVec.ofNat 288 dout }).emit (.svcDout (BitVec.ofNat 288 dout))
  forPorts s fun n s =>
    let l := (s.port n).link
    let (b, br, press) := buttonStep l.btnState (din.getLsbD (3 * n.val)) l.btnRun
    let (p, pr) := filter3 l.present (din.getLsbD (3 * n.val + 1)) l.preRun
    let s := s.modLink n fun l => { l with btnState := b, btnRun := br, present := p, preRun := pr }
    if press then s.raise (R.portLinkEvt n) 12 else s

/-! ## The commands -/

/-- RECEIVER_DETECT (R60): the lanes that detect a receiver. -/
def execReceiverDetect (n : PortId) (lanes : BitVec 4) (s : State) : Host.Outcome State Fault Refusal :=
  live s fun s =>
    if (s.port n).link.st = .detect && lanes ≠ 0 && s.linksOn && !s.rbit (R.portLinkCtl n) 30 then
      let s := s.modIo n fun io => { io with quiesced := false }
      (s.linkTo n .poll).modLink n fun l => { l with locked := 0, polInv := 0, gen := 1, width := 0, reversed := false }
    else s

/-- TRAINING_SET_RECEIVE (R61). In STANDBY it only raises WAKE_REQ (R424); in HIBERNATE the ports are off. -/
def execTrainingSetReceive (n : PortId) (lane : Fin 4) (set : BitVec 128) (obs : TrainObs) (s : State) : Host.Outcome State Fault Refusal :=
  live s fun s => if s.glb.pwr = .standby then (s.raise R.glbPwrEvt 11).event .power n.val 0 else if s.linksOn then s.trainSet n lane set obs else s

/-- TRAINING_STATE_TIMEOUT (R60, R62). -/
def execTrainingStateTimeout (n : PortId) (s : State) : Host.Outcome State Fault Refusal :=
  live s fun s =>
    let l := (s.port n).link
    match l.limit with
    | none => s
    | some k =>
      if s.now ≤ l.since + k || !s.linksOn then s
      else if (l.st = .speed && !l.fallback) || l.st = .eq then s.genFallback n
      else s.linkDown n

/-- CREDIT_MINIMUM_TIMEOUT (R83). -/
def execCreditMinimumTimeout (n : PortId) (s : State) : Host.Outcome State Fault Refusal :=
  live s fun s =>
    let l := (s.port n).link
    if l.st ≠ .active || l.credMinDone || s.now < l.since + 10 * ccPerUs then s
    else if decide (l.credSeen.getD 1 0 < 8) || decide (l.credSeen.getD 2 0 < 8) || decide (l.credSeen.getD 3 0 < 8) then
      (s.linkDown n).raise (R.portLinkEvt n) 13
    else s.modLink n fun l => { l with credMinDone := true }

/-- FLIT_RECEIVE (R73). -/
def execFlitReceive (n : PortId) (bytes : BitVec 1024) (s : State) : Host.Outcome State Fault Refusal :=
  live s fun s => s.flitIn n bytes

/-- RETRY_REQ_REPEAT (R74, R75). -/
def execRetryReqRepeat (n : PortId) (s : State) : Host.Outcome State Fault Refusal :=
  live s fun s =>
    let l := (s.port n).link
    match l.retryDue with
    | none => s
    | some t =>
      if l.st ≠ .active || !l.discarding || s.now < t then s
      else if s.rf (R.portLinkCtl n) 23 16 ≤ l.retryReqs then s.enterRecovery n
      else s.modLink n fun l => { l with sendRetryReq := true, retryReqs := l.retryReqs + 1, retryDue := some (s.now + ccPerUs) }

/-- RETRY_REQ (R74): a received RETRY_REQ flit. -/
def execRetryReq (n : PortId) (seq : BitVec 12) (s : State) : Host.Outcome State Fault Refusal :=
  live s fun s => if (s.port n).link.st = .active then s.retryFrom n seq.toNat else s

/-- RECOVERY_TIMEOUT (R75). -/
def execRecoveryTimeout (n : PortId) (s : State) : Host.Outcome State Fault Refusal :=
  live s fun s =>
    let l := (s.port n).link
    if l.st ≠ .recovery || !s.linksOn || s.now ≤ l.since + 40 * ccPerUs then s
    else if 2 ≤ l.recAttempts then s.linkDown n
    else s.modLink n fun l => { l with recAttempts := l.recAttempts + 1, since := s.now, echoes := [], setsOut := 0 }

/-- LINK_CTL_REPEAT (R76). -/
def execLinkCtlRepeat (n : PortId) (s : State) : Host.Outcome State Fault Refusal :=
  live s fun s =>
    match (s.port n).link.ctlReq with
    | none => s
    | some (c, a, t) =>
      if (s.port n).link.st = .active && decide (t + ccPerUs ≤ s.now) then
        s.modLink n fun l => { l with ctlReq := some (c, a, s.now), ctlOut := l.ctlOut ++ [(c, 0, a)] }
      else s

/-- The hub asks the agent into LOWPOWER (R91). -/
def State.lpAsk (s : State) (n : PortId) : State :=
  s.modLink n fun l => { l with ctlReq := some (1, 0, s.now), ctlOut := l.ctlOut ++ [(1, 0, 0)] }

/-- LP_ENTER (R91): 1 µs with no message waiting in either direction, while LP_EN is set. -/
def execLpEnter (n : PortId) (s : State) : Host.Outcome State Fault Refusal :=
  live s fun s =>
    let l := (s.port n).link
    if l.st = .active && s.rbit (R.portLinkCtl n) 24 && l.ctlReq.isNone && l.egress.isEmpty && l.rxq.isEmpty && l.txSlots.isEmpty
        && decide (l.idleSince + ccPerUs ≤ s.now) then
      s.lpAsk n
    else s

/-- LOWPOWER_WAKE (R91): a message waits at either end, and the hub sends training sets. No link wakes in STANDBY, or while
the links are being taken into it (R423 step 3, R424). -/
def execLowpowerWake (n : PortId) (s : State) : Host.Outcome State Fault Refusal :=
  live s fun s => if (s.port n).link.st = .lowpower && s.linksOn && !s.glb.lowAsk then (s.sendEnd n).linkResume n else s

/-- LINK_DOWN (R93). -/
def execLinkDown (n : PortId) (s : State) : Host.Outcome State Fault Refusal :=
  live s fun s => if (s.port n).link.st = .detect then s else s.linkDown n

/-- Length of a service-chain frame at the rate in force, in cc: 288 bit times of SVC_CLK_DIV µs (R94, R97). -/
def State.frameCc (s : State) : Nat := 288 * s.rf (R.portLinkCtl 0) 15 8 * ccPerUs

/-- SVC_FRAME (R94): frames follow one another with no gap; none starts before the last has ended. -/
def execSvcFrame (din : BitVec 288) (s : State) : Host.Outcome State Fault Refusal :=
  live s fun s => if s.now < s.glb.svcDue then s else 
    (s.modGlb fun g => { g with svcDue := s.now + s.frameCc, svcFrom := s.now, svcBit := s.frameCc / 288 }).svcFrame din

/-- WAKE_REQ (R424): an agent sends training sets in STANDBY. -/
def execWakeReq (n : PortId) (s : State) : Host.Outcome State Fault Refusal :=
  live s fun s => if s.glb.pwr = .standby then (s.raise R.glbPwrEvt 11).event .power n.val 0 else s

/-! ## Dead agents -/

/-- The port's link goes DOWN after a forward timeout, if DEAD_FENCE or a quiesce says so (R147, R431). -/
def State.deadFence (s : State) (n : PortId) : State :=
  if s.rbit (R.portCohCtl n) 1 || (s.port n).io.qst ≠ .none then s.linkDown n else s

/-- FWD_TIMEOUT (R146, R147): a forward to the port, a wait for its eviction, or the Done of its read has waited too long. -/
def execFwdTimeout (p : PavId) (e : Fin 1024) (n : PortId) (s : State) : Host.Outcome State Fault Refusal :=
  live s fun s =>
    let tmo := s.rf R.glbCohCtl 16 0 * ccPerUs
    match FMap.find? (s.pav p).tt e with
    | none => s
    | some t =>
      if (s.pav p).halted then s else
      let fwdDue := t.outs.any (fun o => o.port = n.val && o.sent.elim false fun x => decide (x + tmo ≤ s.now))
        || t.cross.any (fun c => c.1 = n.val && decide (c.2 + tmo ≤ s.now))
        || (t.waitEvict && t.port = n.val && t.tstart.elim false fun x => decide (x + tmo ≤ s.now))
      let doneDue := t.phase = .doneWait && t.port = n.val && t.outs.isEmpty && !t.doneSeen && t.tstart.elim false fun x => decide (x + tmo ≤ s.now)
      if fwdDue then (((s.timeoutFwd p e n).advance p e).deadFence n).pump p
      else if doneDue then ((s.timeoutDone p e n).deadFence n).pump p
      else s

/-- STASH_OFFER_TIMEOUT (R130, R131): 1 µs after the offer left its port. -/
def execStashOfferTimeout (p : PavId) (e : Fin 1024) (s : State) : Host.Outcome State Fault Refusal :=
  live s fun s =>
    match FMap.find? (s.pav p).tt e with
    | none => s
    | some t =>
      match portOf? t.tport.toNat with
      | none => s
      | some n =>
        if !(s.pav p).halted && t.phase = .stash && t.offer && (t.offerSent.elim false fun x => decide (x + ccPerUs ≤ s.now)) then (s.offerExpire p e n t).pump p else s

end Sys2Proof.Machine
end

