-- ==== Sys2Proof/Machine/Ingress.lean ====
section
/-!
DEFINITION. The coherent messages of a port: REQ ingress, order identifiers and Fences, table entries and REQ credits, and
the answers, evictions and data that agents send (chapters 3 and 4, R383 to R396).
-/

namespace Sys2Proof.Machine

/-! ## Order (R163 to R172) -/

/-- Every earlier REQ of the port with the OID has reached its ordering point, and the port knows it (R165). -/
def PortIo.oidFree (io : PortIo) (now num : Nat) (oid : BitVec 6) : Bool :=
  io.opens.all fun o => !(decide (o.num < num) && o.oid = oid) || o.doneAt.elim false fun t => decide (t + 6 ≤ now)
/-- No Fence that arrived earlier still waits for its Comp (R169). -/
def PortIo.fenceFree (io : PortIo) (num : Nat) : Bool := io.fences.all fun f => !decide (f.num < num)
/-- A REQ of the ingress queue may leave it as far as order goes. -/
def PortIo.reqFree (io : PortIo) (now : Nat) (x : InMsg) : Bool := io.fenceFree x.num && io.oidFree now x.num x.msg.hdr.oid

/-- Takes a message out of the port's accepted messages; one that no flit brought is counted here (R537). -/
def State.takeMsg (s : State) (n : PortId) (m : Msg) : State :=
  if (s.port n).link.rxq.contains m then s.modLink n fun l => { l with rxq := l.rxq.erase m } else s.countIn n m

/-- A REQ that the port answers itself, once its order allows (R85, R106, R132, R144, R430). A write answered so joins the
port's ring with its STATUS, unless the answer itself came from the ring (R144). -/
def State.localAnswer (s : State) (n : PortId) (x : InMsg) (st : BitVec 4) : State :=
  let h := x.msg.hdr
  let s := s.modIo n fun io =>
    { io with ingress := io.ingress.filter fun y => y.num ≠ x.num
              opens := io.opens.filter fun o => o.num ≠ x.num
              ring := if isWriteOp h.opcode && !(h.retry && io.ring.any fun r => r.1 = h.tid && r.2.1 = h.pa)
                then ((h.tid, h.pa, st) :: io.ring).take 64 else io.ring }
  (s.credFor n x.num 0).answerPort n x.num (compMsg x.msg.hdr.tid x.msg.hdr.pa st) (some x.msg.hdr.tid)

/-- A Fence passes ingress: it returns its credit and waits for its Comp (R85, R166, R168). -/
def State.fenceTake (s : State) (n : PortId) (x : InMsg) : State :=
  (s.credFor n x.num 0).modIo n fun io =>
    { io with ingress := io.ingress.filter fun y => y.num ≠ x.num
              fences := io.fences ++ [{ num := x.num, tid := x.msg.hdr.tid, pa := x.msg.hdr.pa, at_ := x.at_ }] }

/-- The IODat that answers an IORd (R181). -/
def rdAnswer (r : Msg) (data : Line) (poison : Bool) (st : BitVec 4) : Msg :=
  { hdr := { opcode := Op.ioDat, tid := r.hdr.tid, plot := r.hdr.plot, pa := r.hdr.pa, poison := poison, status := st }, data := data }

/-- An IORd that the port answers itself (R173, R430). -/
def State.localRead (s : State) (n : PortId) (x : InMsg) (st : BitVec 4) : State :=
  let h := x.msg.hdr
  let s := s.modIo n fun io => { io with ingress := io.ingress.filter fun y => y.num ≠ x.num }
  (s.credFor n x.num 5).answerPort n x.num (if st = Status.notHome then compMsg h.tid h.pa st else rdAnswer x.msg 0 true st)

/-- Answers every REQ and IORd of a port that the port answers itself and that may leave ingress (R169), and passes the Fences that
a power entry held (R423). -/
def State.localAnswers (s : State) (n : PortId) : State :=
  if s.glb.hold then s else
  (s.port n).io.ingress.foldl (fun s x =>
    match x.loc with
    | none => s
    | some st =>
      if x.msg.hdr.opcode = Op.fence then s.fenceTake n x
      else if x.msg.hdr.opcode = Op.ioRd then (if (s.port n).io.fenceFree x.num then s.localRead n x st else s)
      else if (s.port n).io.reqFree s.now x then s.localAnswer n x st else s) s

/-- A read that only a caching agent may send (R132). -/
def cachingOp (op : BitVec 8) : Bool := op = Op.rdS || op = Op.rdO || op = Op.upg

/-- An address outside every home range (R106). -/
def State.notHome (s : State) (n : PortId) (la : LineAddr) : State := (s.raise (R.portCohEvt n) 10).event .notHome n.val (la.toNat * 64)

/-- How the port answers a REQ itself: a reissued write that has completed, a port being quiesced, a non-caching agent, an
address outside the home ranges; none for a request that goes to its home (R106, R132, R144, R430). DESIGN CHOICE: R132 goes
before R106, and NOT_HOME is then not recorded. -/
def State.localStatus (s : State) (n : PortId) (m : Msg) : Option (BitVec 4) :=
  let h := m.hdr
  let io := (s.port n).io
  match (if h.retry && isWriteOp h.opcode then io.ring.find? fun r => r.1 = h.tid && r.2.1 = h.pa else none) with
  | some r => some r.2.2
  | none =>
    if io.qst ≠ .none then some Status.unsupported
    else if cachingOp h.opcode && !s.rbit (R.portCohCtl n) 2 then some Status.unsupported
    else if !s.isHome h.pa then some Status.notHome
    else none

/-- A REQ other than Fence passes ingress (R106, R132, R142, R144, R163, R430). -/
def State.reqIn (s : State) (n : PortId) (m : Msg) : State :=
  let s := s.takeMsg n m
  let m := s.ingressPlot n m
  let h := m.hdr
  let io := (s.port n).io
  if io.tids.contains h.tid then
    if h.retry then s.reqCredBack n
    else ((s.protoErr n).reqCredBack n).sendPort n (compMsg h.tid h.pa Status.unsupported 0 true)
  else
    let loc := s.localStatus n m
    let s := if loc = some Status.notHome && !s.isHome h.pa && io.qst = .none then s.notHome n h.pa else s
    let s := s.modIo n fun io =>
      { io with nextNum := io.nextNum + 1, tids := io.tids ++ [h.tid]
                ingress := io.ingress ++ [{ num := io.nextNum, msg := m, at_ := s.now, loc := loc }]
                opens := io.opens ++ [{ num := io.nextNum, oid := h.oid, tid := h.tid, write := isWriteOp h.opcode || isCmoOp h.opcode }] }
    s.localAnswers n

/-- A Fence arrives and passes ingress, unless a power entry holds it there (R166, R423). DEDUCED: one that arrives behind a waiting
Fence passes too. -/
def State.fenceIn (s : State) (n : PortId) (m : Msg) : State :=
  let s := s.takeMsg n m
  let h := m.hdr
  let io := (s.port n).io
  if io.tids.contains h.tid then
    if h.retry then s.reqCredBack n
    else ((s.protoErr n).reqCredBack n).sendPort n (compMsg h.tid h.pa Status.unsupported 0 true)
  else
    let x : InMsg := { num := io.nextNum, msg := m, at_ := s.now, loc := some Status.ok }
    let s := s.modIo n fun io => { io with nextNum := io.nextNum + 1, tids := io.tids ++ [h.tid], ingress := io.ingress ++ [x] }
    if s.glb.hold then s else s.fenceTake n x

/-- Resolved Arbour entries leave from the head, each returning its PST credit (R176); one pushed in this cc is not there yet, and the
place of one that leaves is usable from the next cc (R47, R48). -/
def State.arbPop (s : State) (n : PortId) : Nat → State
  | 0 => s
  | k + 1 =>
    match (s.port n).io.arb with
    | [] => s
    | x :: rest =>
      if (x.st = .acked || x.st = .discarded) && decide (x.at_ < s.now) then
        State.arbPop ((s.modIo n fun io => { io with arb := rest, arbPop := io.arbPop.add s.now }).credFor n x.num 4) n k
      else s

/-- An Arbour entry is discarded (R170, R178). DESIGN CHOICE: an entry of the CSR window records target 127. -/
def State.arbDiscard (s : State) (n : PortId) (slot : Nat) (loss : Bool) : State :=
  match (s.port n).io.arb.find? fun x => x.slot = slot with
  | none => s
  | some x =>
    let s := s.modIo n fun io =>
      { io with arb := io.arb.map (fun y => if y.slot = slot then { y with st := .discarded } else y), lossNow := io.lossNow || loss }
    let tgt := match x.target with
      | .port t => t.val
      | .svc => 127
    (((s.raise (R.portIoEvt n) 9).rcount (R.portIoErr n) 31 16 1).event .arbourLoss n.val (x.msg.hdr.pa.toNat * 64)
      (detail := tgt * 64 + x.msg.hdr.oid.toNat)).arbPop n 64

/-- What R168 asks before a Fence's Comp; a posted write that still waits in ingress has not been acknowledged either. -/
def PortIo.fenceReady (io : PortIo) (f : FenceWait) : Bool :=
  (io.ingress.all fun x => !(decide (x.num < f.num) && x.msg.hdr.opcode = Op.ioWr))
    && (io.opens.all fun o => !(decide (o.num < f.num) && o.write && o.doneAt.isNone))
    && (io.arb.all fun x => !(decide (x.num < f.num) && (x.st = .waiting || x.st = .sent)))

/-- A Fence's Comp issues and clears LOSS; a loss of the same cc is kept for the next Fence (R170, R172). -/
def State.fenceComp (s : State) (n : PortId) (f : FenceWait) (loss : Bool) : State :=
  let s := s.modIo n fun io => { io with fences := io.fences.filter fun x => x.num ≠ f.num, loss := false }
  let s := if loss then s.raise (R.portIoEvt n) 8 else s
  ((s.answerPort n f.num (compMsg f.tid f.pa (if loss then Status.fenceLoss else Status.ok)) (some f.tid)).cntPort n 0x0C).localAnswers n

/-! ## Table entries (R85, R112, R390, R396) -/

/-- The pavilion gives table entries to new requests (R30, R351). -/
def State.pavTakes (s : State) (p : PavId) : Bool := !(s.pav p).halted && !(s.glb.fence.running && s.glb.fence.pav = p.val)

def Pav.requests (v : Pav) : List (Nat × Txn) := List.filter (fun (x : Nat × Txn) => decide (x.1 < 992)) v.tt
/-- A request of a Plot is within its table share and an entry is free (R112, R390). -/
def State.shareFree (s : State) (p : PavId) (k : PlotId) : Bool :=
  let rs := (s.pav p).requests
  decide (rs.length < 992) && decide ((rs.filter fun x => x.2.plot = k).length < 16 * s.rf (R.regPlotShare k.toNat) 21 16)

/-- The request of a port that can take an entry of a pavilion: the first in arrival order that order, its home and its
share let go (R112, R165, R169, R390); one that arrived in this cc is not in the queue yet (R47). -/
def State.eligible (s : State) (p : PavId) (n : PortId) : Option InMsg :=
  let io := (s.port n).io
  if s.glb.hold || !s.pavTakes p then none else
  io.ingress.find? fun x => x.loc.isNone && x.tgt.isNone && decide (x.at_ < s.now) && io.reqFree s.now x && s.home x.msg.hdr.pa = p && s.shareFree p x.msg.hdr.plot

/-- The port group whose turn it is: the next in order with a request that can take an entry (R112). -/
def State.turnGroup (s : State) (p : PavId) : Option Nat :=
  let t := s.glb.turn.getD p.val 0
  ((List.range 12).map fun i => (t + i) % 12).find? fun g => (List.range 8).any fun j => match portOf? (8 * g + j) with
    | none => false
    | some n => (s.eligible p n).isSome

/-- The delay of a REQ credit in cc; 0 for none (R396). -/
def State.creditHold (s : State) (n : PortId) (k : PlotId) (c : ChanId) : Nat :=
  let ch := s.chan c
  let f := s.rf R.regThrCtl 7 0
  if !s.guaranteed k.toNat && ch.congested && (List.range 64).any s.guaranteed && f ≠ 0
      && decide ((s.port n).link.held.length < s.rf (R.portCredCfg n) 9 0 / 2) then
    min (f * (max (ch.rq.length - s.rf R.regMqMark 7 0) (ch.wq.length - s.rf R.regMqMark 23 16)) * 30) (10 * ccPerUs)
  else 0

/-- Adds a due time in ascending order. -/
def insertDue (x : Nat) : List Nat → List Nat
  | [] => [x]
  | y :: ys => if x < y then x :: y :: ys else y :: insertDue x ys

/-- A waiting request takes the lowest free entry; its REQ credit returns, at once or held back (R85, R112, R396). -/
def State.ttAllocate (s : State) (p : PavId) (n : PortId) (x : InMsg) : State :=
  match (List.range 992).find? fun e => (FMap.find? (s.pav p).tt e).isNone with
  | none => s
  | some e =>
    let h := x.msg.hdr
    let t : Txn := { kind := .req h.opcode, port := n.val, tid := h.tid, oid := h.oid, plot := h.plot, pa := h.pa, retry := h.retry
                     tport := h.tport, mask := x.msg.mask, wdata := x.msg.data, num := x.num }
    let s := s.modIo n fun io => { io with ingress := io.ingress.filter fun y => y.num ≠ x.num }
    let s := s.modPav p fun v => { v with tt := FMap.insert v.tt e t }
    let s := s.modGlb fun g => { g with turn := g.turn.set p.val ((n.val / 8 + 1) % 12) }
    let d := s.creditHold n h.plot (s.chanFor h.pa)
    if d = 0 || !s.current n x.num then s.credFor n x.num 0 else s.modLink n fun l => { l with held := insertDue (s.now + d) l.held }

/-! ## Answers to forwards (R116, R123, R125 to R128, R131, R135, R137) -/

/-- An RSP or DAT in error: discarded, its credit returned, logged (R80). -/
def State.badAnswer (s : State) (n : PortId) (m : Msg) : State := (s.protoErr n).credBack n (classOf m.hdr.opcode)

/-- Messages that a non-caching agent may not send (R132), and that a level-1 agent may not (R90). -/
def State.answerBarred (s : State) (n : PortId) (op : BitVec 8) : Bool :=
  (!s.rbit (R.portCohCtl n) 2 && (op = Op.wbD || op = Op.evC || op = Op.recallD || op = Op.fwdAck || op = Op.fwdAckD || op = Op.rspCrossed
      || op = Op.stashAcc || op = Op.stashDecl))
    || (decide ((s.port n).link.level = 1) && (op = Op.stashAcc || op = Op.stashDecl))

/-- The transaction that an answer's HTID and PA name. -/
def State.txnOf (s : State) (m : Msg) : Option (PavId × Nat × Txn) :=
  match FMap.find? (s.pav (htidPav m.hdr.htid)).tt (htidEnt m.hdr.htid) with
  | none => none
  | some t => if t.pa = m.hdr.pa then some (htidPav m.hdr.htid, htidEnt m.hdr.htid, t) else none

/-- An answer for a transaction of a halted pavilion, which stays frozen (R351). -/
def State.frozen (s : State) (m : Msg) : Bool :=
  [Op.invAck, Op.fwdAck, Op.fwdAckD, Op.recallD, Op.rspCrossed, Op.stashAcc, Op.stashDecl].contains m.hdr.opcode
    && (s.pav (htidPav m.hdr.htid)).halted && (s.txnOf m).isSome

/-- The data of a Recall's or forward's answer to a frozen transaction stays in the eviction buffer; nothing else of the answer acts
(R87, R351). -/
def State.frozenData (s : State) (n : PortId) (m : Msg) : State :=
  match s.txnOf m with
  | none => s
  | some (p, _, t) =>
    let asked := t.outs.any fun o => o.port = n.val && ((o.op = Op.rcl && m.hdr.opcode = Op.recallD) || (o.op = Op.fwdS && m.hdr.opcode = Op.fwdAckD))
    let owner := ((s.pav p).entry t.pa).own = some n.val || match t.kind with
      | .recallLine _ => true
      | _ => false
    if asked && owner then
      s.modPav p fun v => { v with evBuf := v.evBuf ++ [{ pa := t.pa, data := msgData m, poison := m.hdr.poison, plot := some m.hdr.plot }] }
    else s

/-- A message that arrives for a pavilion starts its clock (R422). -/
def State.wakePav (s : State) (p : PavId) : State := if (s.pav p).gated then s.modPav p fun v => { v with gated := false } else s
/-- The pavilion to which an answer's HTID takes it. -/
def State.wakeFor (s : State) (m : Msg) : State :=
  if [Op.ioAck, Op.ioDat, Op.wbD, Op.evC].contains m.hdr.opcode then s else s.wakePav (htidPav m.hdr.htid)

/-- An RSP or DAT leaves ingress whatever else waits: its credit returns, and one to a home crosses the crossbar (R24, R87). An answer
to a frozen transaction ends there. -/
def State.answerIn (s : State) (n : PortId) (m : Msg) (f : State → State) : State :=
  let s := s.takeMsg n m
  if s.answerBarred n m.hdr.opcode then s.badAnswer n m
  else
    let s := s.credBack n (classOf m.hdr.opcode)
    let s := if classOf m.hdr.opcode = 3 then s.cntGlob 8 1 (s.plotIn n m) else s
    if s.frozen m then s.frozenData n m else f (s.wakeFor m)

/-- The outstanding forward of a transaction to a port. -/
def Txn.outTo (t : Txn) (n : Nat) : Option FwdOut := t.outs.find? fun o => o.port = n
/-- A forward has been answered. -/
def State.answered (s : State) (p : PavId) (e n : Nat) : State := s.modTxn p e fun t => { t with outs := t.outs.filter fun o => o.port ≠ n }

/-- InvAck: the port holds the line no longer; answering FwdS or FwdO it is a protocol error, handled as an owner timeout (R125, R126). -/
def State.invAck (s : State) (n : PortId) (m : Msg) : State :=
  match s.txnOf m with
  | none => s.protoErr n
  | some (p, e, t) =>
    match t.outTo n with
    | none => s.protoErr n
    | some o =>
      if o.op = Op.inv || o.op = Op.rcl then
        (((((s.readEntry p t.pa).answered p e n).ackAgent p e t n).advance p e).pump p).slotUse p 2
      else if o.op = Op.stashOffer then s.protoErr n
      else (((((s.protoErr n).timeoutFwd p e n).advance p e).deadFence n).pump p).slotUse p 2

/-- FwdAck: the owner has sent the data (R118, R127). -/
def State.fwdAck (s : State) (n : PortId) (m : Msg) : State :=
  match s.txnOf m with
  | none => s.protoErr n
  | some (p, e, t) =>
    match t.outTo n with
    | none => s.protoErr n
    | some o =>
      if o.op = Op.fwdS || o.op = Op.fwdO then
        ((((s.readEntry p t.pa).answered p e n).modTxn p e fun t => { t with ownerData := true }).advance p e).pump p
      else s.protoErr n

/-- What a sub-block holds is poison: the newest write on its way to the stack, else the stack itself. -/
def Pav.stackPoisoned (v : Pav) (p : PavId) (set way sub : Nat) : Bool :=
  let put (c : StackCmd) : Option Stored := match c.op with
    | .write st => if c.set = set && c.way = way && c.sub = sub then some st else none
    | _ => none
  let st := (v.stackq.filterMap put).getLast?.getD (FMap.get (fun _ => ({} : Stored)) v.stack (stkCell p set way sub))
  (stackDecode st).cls = .poison
/-- What memory holds of a line is poison: its newest queued write, else the written DRAM (R294). -/
def State.memPoisoned (s : State) (la : LineAddr) : Bool :=
  let ch := s.chan (s.chanFor la)
  match s.llOf la with
  | none => false
  | some ll =>
    match ch.queued ll with
    | some w => (memDecode ch.memGen w.st).cls = .poison
    | none => ch.written ll && (memDecode ch.memGen (ch.dramGet ll)).cls = .poison
/-- The home copy of a line is poisoned, wherever its newest data is (R148, R346). -/
def State.homePoisoned (s : State) (p : PavId) (la : LineAddr) : Bool :=
  let v := s.pav p
  match (v.evBuf.filter fun e => e.pa = la).getLast? with
  | some e => e.poison
  | none =>
    let memory := ((v.pushq.filter fun j => j.pa = la).getLast?).elim (s.memPoisoned la) (·.poison)
    match s.mode p, s.look p la with
    | .window, _ => (sramDecode true (v.ghLineAt (windowIdx la))).cls = .poison
    | .gh _, .hit w => (v.ghe (ghSet la) w).poison
    | _, .hit w => v.stackPoisoned p (setOf la) w (subOf la)
    | _, .evicting => (v.evicts.find? fun e => e.set = setOf la && e.tag = tagOf la).elim true fun e => v.stackPoisoned p e.set e.way (subOf la)
    | _, .reg r => ((FMap.find? v.miss r).bind fun x => x.buf.find? fun b => b.1 = la.toNat - x.base.toNat).elim memory (·.2.2)
    | _, .orang => (v.orFor la).elim memory (·.poison)
    | _, _ => memory

/-- FwdAckD: the data goes into the hub cache as dirty before the FwdAck part is processed (R128). A poisoned line stays poisoned: R148's
list of what clears poison does not name FwdAckD. -/
def State.fwdAckD (s : State) (n : PortId) (m : Msg) : State :=
  match s.txnOf m with
  | none => s.protoErr n
  | some (p, e, t) =>
    match t.outTo n with
    | none => s.protoErr n
    | some o =>
      if o.op = Op.fwdS then
        let s := s.readEntry p t.pa
        let po := m.hdr.poison || s.homePoisoned p t.pa
        let s := (s.sink p t.pa (if po then 0 else msgData m) po (some m.hdr.plot)).meterWr p m.hdr.plot
        (((s.answered p e n).modTxn p e fun t => { t with ownerData := true }).advance p e).pump p
      else s.protoErr n

/-- A RecallD that answers no Recall: its data is discarded, and a listed sharer's bit is cleared (R123). -/
def State.strayRecallD (s : State) (n : PortId) (la : LineAddr) : State :=
  let s := s.protoErr n
  let p := s.home la
  if !s.isHome la || (s.pav p).halted then s else
  let s := (s.wakePav p).checkDir p (dirSet la)
  if ((s.pav p).entry la).own = some n.val then s else s.dropAgent p la n

/-- RecallD: an owner's data goes into the hub cache as dirty; from another port the data is discarded, and it still counts
as that port's answer (R123, R135). A broadcast recall takes the data of the port that has it (R149). -/
def State.recallD (s : State) (n : PortId) (m : Msg) : State :=
  match s.txnOf m with
  | none => s.strayRecallD n m.hdr.pa
  | some (p, e, t) =>
    match t.outTo n with
    | none => s.strayRecallD n m.hdr.pa
    | some o =>
      if o.op = Op.rcl then
        let s := s.readEntry p t.pa
        let broadcast := match t.kind with
          | .recallLine _ => true
          | _ => false
        let owner := ((s.pav p).entry t.pa).own = some n.val
        let s := (s.answered p e n).ackAgent p e t n
        let s := if owner || broadcast then (s.sink p t.pa (msgData m) m.hdr.poison (some m.hdr.plot)).meterWr p m.hdr.plot else s.protoErr n
        ((s.advance p e).pump p).slotUse p 2
      else s.strayRecallD n m.hdr.pa

/-- RspCrossed: the home waits for the port's eviction, unless it has been applied (R137). -/
def State.rspCrossed (s : State) (n : PortId) (m : Msg) : State :=
  match s.txnOf m with
  | none => s.protoErr n
  | some (p, e, t) =>
    match t.outTo n with
    | none => s.protoErr n
    | some o =>
      if o.op = Op.stashOffer then s.protoErr n else
      let s := (((s.readEntry p t.pa).answered p e n).modTxn p e fun t => { t with fwdOwner := if t.fwdOwner = some n.val then none else t.fwdOwner }).modTxn p e fun t =>
        if t.gone.contains n.val then { t with gone := t.gone.erase n.val }
        else { t with cross := t.cross ++ [(n.val, s.now)], phase := .crossed }
      (s.advance p e).pump p

/-- Done (R116, R127, R142): the TID of a read that has been answered is released, and the transaction ends with its last
answer. -/
def State.done (s : State) (n : PortId) (m : Msg) : State :=
  let stash := match s.txnOf m with
    | some (_, _, t) => t.kind = .req Op.stashAcc
    | none => false
  let s := if stash || !(s.port n).io.answered.contains m.hdr.tid then s
    else s.modIo n fun io => { io with tids := io.tids.filter (· ≠ m.hdr.tid), answered := io.answered.filter (· ≠ m.hdr.tid) }
  match s.txnOf m with
  | none => s.protoErr n
  | some (p, e, t) =>
    if (s.pav p).halted then s else
    let read := match t.kind with
      | .req op => isReadOp op
      | _ => false
    let early := t.outs.any fun o => o.op = Op.fwdS || o.op = Op.fwdO
    if read && t.port = n.val && t.tid = m.hdr.tid && !t.doneSeen && (t.phase = .doneWait || early) then
      ((s.modTxn p e fun t => { t with doneSeen := true }).advance p e).pump p
    else s.protoErr n

/-- The stash offer that an answer matches. -/
def State.offerOf (s : State) (n : PortId) (m : Msg) : Option (PavId × Nat × Txn) :=
  match s.txnOf m with
  | none => none
  | some (p, e, t) => if t.phase = .stash && t.offer && t.tport.toNat = n.val then some (p, e, t) else none

/-- An answer to an offer that has expired, or a protocol error (R131). -/
def State.lateStash (s : State) (n : PortId) (m : Msg) : State :=
  if (s.port n).io.expired.contains m.hdr.pa then
    let s := s.modIo n fun io => { io with expired := io.expired.erase m.hdr.pa }
    if m.hdr.opcode = Op.stashAcc then s.send n (compMsg m.hdr.tid m.hdr.pa Status.ok m.hdr.htid) else s
  else s.protoErr n

/-- StashAcc: the line is granted to the target with the answer's TID (R130). -/
def State.stashAcc (s : State) (n : PortId) (m : Msg) : State :=
  match s.offerOf n m with
  | none => s.lateStash n m
  | some (p, e, _) =>
    let s := s.modTxn p e fun t =>
      { t with kind := .req Op.stashAcc, port := n.val, num := (s.port n).io.nextNum, tid := m.hdr.tid, retry := false, phase := .data, offer := false, issued := false
               fetch := .idle, buf := none, arrive := some s.now, agentLost := false, doneSeen := false, parkedOnce := false }
    (s.advance p e).pump p

/-- StashDecl ends the transaction (R130). -/
def State.stashDecl (s : State) (n : PortId) (m : Msg) : State :=
  match s.offerOf n m with
  | none => s.lateStash n m
  | some (p, e, _) => (s.endTxn p e).pump p

/-- A WbD or EvC: outside the home ranges, the boot window or the map it has its data discarded (R106, R234, R285);
otherwise it goes to its home (R123, R138). -/
def State.evictIn (s : State) (n : PortId) (m : Msg) : State :=
  let la := m.hdr.pa
  if !s.isHome la then (s.notHome n la).sendPort n (evAckMsg m.hdr Status.notHome)
  else
    let p := s.home la
    let s := s.wakePav p
    if (s.pav p).place = .window && !s.inWindow la then (s.raise (R.pavPlaceEvt p) 8).send n (evAckMsg m.hdr Config.evAckOutside)
    else if (s.pav p).place ≠ .window && s.unmapped la then (s.raise (R.chanEvt (s.chanFor la)) 17).send n (evAckMsg m.hdr Status.unsupported)
    else (s.evict p n m).pump p

/-! ## The commands -/

/-- RDS (R118). -/
def execRds (n : PortId) (m : Msg) (s : State) : Host.Outcome State Fault Refusal := live s fun s => s.reqIn n (withOp m Op.rdS)
/-- RDO (R118). -/
def execRdo (n : PortId) (m : Msg) (s : State) : Host.Outcome State Fault Refusal := live s fun s => s.reqIn n (withOp m Op.rdO)
/-- UPG (R118). -/
def execUpg (n : PortId) (m : Msg) (s : State) : Host.Outcome State Fault Refusal := live s fun s => s.reqIn n (withOp m Op.upg)
/-- RDONCE (R118). -/
def execRdonce (n : PortId) (m : Msg) (s : State) : Host.Outcome State Fault Refusal := live s fun s => s.reqIn n (withOp m Op.rdOnce)
/-- WRLINE (R121). -/
def execWrline (n : PortId) (m : Msg) (s : State) : Host.Outcome State Fault Refusal := live s fun s => s.reqIn n (withOp m Op.wrLine)
/-- WRPART (R121). -/
def execWrpart (n : PortId) (m : Msg) (s : State) : Host.Outcome State Fault Refusal := live s fun s => s.reqIn n (withOp m Op.wrPart)
/-- WRSTASH (R121, R129). -/
def execWrstash (n : PortId) (m : Msg) (s : State) : Host.Outcome State Fault Refusal := live s fun s => s.reqIn n (withOp m Op.wrStash)
/-- CCLEAN (R122). -/
def execCclean (n : PortId) (m : Msg) (s : State) : Host.Outcome State Fault Refusal := live s fun s => s.reqIn n (withOp m Op.cClean)
/-- CINV (R122). -/
def execCinv (n : PortId) (m : Msg) (s : State) : Host.Outcome State Fault Refusal := live s fun s => s.reqIn n (withOp m Op.cInv)
/-- CCLEANINV (R122). -/
def execCcleaninv (n : PortId) (m : Msg) (s : State) : Host.Outcome State Fault Refusal := live s fun s => s.reqIn n (withOp m Op.cCleanInv)
/-- FENCE (R166). -/
def execFence (n : PortId) (m : Msg) (s : State) : Host.Outcome State Fault Refusal := live s fun s => s.fenceIn n (withOp m Op.fence)

/-- FENCE_COMP (R168, R172): the port's oldest Fence has nothing left to wait for. -/
def execFenceComp (n : PortId) (s : State) : Host.Outcome State Fault Refusal :=
  live s fun s =>
    let io := (s.port n).io
    match io.fences with
    | [] => s
    | f :: _ => if io.fenceReady f then s.fenceComp n f io.loss else s

/-- The end of the cc of a Fence's deadline: the entries before it are discarded without setting LOSS, and its Comp says
FenceLoss (R171). -/
def State.fenceRunOut (s : State) (n : PortId) (f : FenceWait) : State :=
  let late := (s.port n).io.opens.any fun o => decide (o.num < f.num) && o.write && o.doneAt.isNone
  let s := ((s.port n).io.arb.filter fun x => decide (x.num < f.num) && (x.st = .waiting || x.st = .sent)).foldl (fun s x => s.arbDiscard n x.slot false) s
  let s := if late then s.raise (R.portIoEvt n) 12 else s
  s.fenceComp n f true

/-- FENCE_DEADLINE (R171): the deadline of the port's oldest Fence is reached. It takes effect as this cc ends, since an IOAck
accepted in it still counts. -/
def execFenceDeadline (n : PortId) (s : State) : Host.Outcome State Fault Refusal :=
  live s fun s =>
    match (s.port n).io.fences with
    | [] => s
    | f :: rest =>
      if s.now < f.at_ + (s.rf R.glbIoCtl 19 0 + 5) * ccPerUs || (s.port n).io.fenceReady f then s
      else s.modIo n fun io => { io with fences := { f with runOut := true } :: rest }

/-- TT_ENTRY_ALLOCATE (R112): the port's group has the turn. -/
def execTtEntryAllocate (p : PavId) (n : PortId) (s : State) : Host.Outcome State Fault Refusal :=
  live s fun s =>
    if s.turnGroup p = some (n.val / 8) then
      match s.eligible p n with
      | none => s
      | some x => s.ttAllocate p n x
    else s

/-- HELD_CREDIT_RETURN (R396): the port's earliest held credit is due. -/
def execHeldCreditReturn (n : PortId) (s : State) : Host.Outcome State Fault Refusal :=
  live s fun s =>
    match (s.port n).link.held with
    | [] => s
    | t :: rest => if t ≤ s.now then (s.modLink n fun l => { l with held := rest }).reqCredBack n else s

/-- DONE (R116). -/
def execDone (n : PortId) (m : Msg) (s : State) : Host.Outcome State Fault Refusal :=
  live s fun s => let m := withOp m Op.done; s.answerIn n m fun s => s.done n m
/-- INVACK (R125). -/
def execInvack (n : PortId) (m : Msg) (s : State) : Host.Outcome State Fault Refusal :=
  live s fun s => let m := withOp m Op.invAck; s.answerIn n m fun s => s.invAck n m
/-- FWDACK (R125, R127). -/
def execFwdack (n : PortId) (m : Msg) (s : State) : Host.Outcome State Fault Refusal :=
  live s fun s => let m := withOp m Op.fwdAck; s.answerIn n m fun s => s.fwdAck n m
/-- FWDACKD (R128). -/
def execFwdackd (n : PortId) (m : Msg) (s : State) : Host.Outcome State Fault Refusal :=
  live s fun s => let m := withOp m Op.fwdAckD; s.answerIn n m fun s => s.fwdAckD n m
/-- RECALLD (R125). -/
def execRecalld (n : PortId) (m : Msg) (s : State) : Host.Outcome State Fault Refusal :=
  live s fun s => let m := withOp m Op.recallD; s.answerIn n m fun s => s.recallD n m
/-- RSPCROSSED (R137). -/
def execRspcrossed (n : PortId) (m : Msg) (s : State) : Host.Outcome State Fault Refusal :=
  live s fun s => let m := withOp m Op.rspCrossed; s.answerIn n m fun s => s.rspCrossed n m
/-- WBD (R123). -/
def execWbd (n : PortId) (m : Msg) (s : State) : Host.Outcome State Fault Refusal :=
  live s fun s => let m := withOp m Op.wbD; s.answerIn n m fun s => s.evictIn n m
/-- EVC (R123). -/
def execEvc (n : PortId) (m : Msg) (s : State) : Host.Outcome State Fault Refusal :=
  live s fun s => let m := withOp m Op.evC; s.answerIn n m fun s => s.evictIn n m
/-- STASHACC (R130). -/
def execStashacc (n : PortId) (m : Msg) (s : State) : Host.Outcome State Fault Refusal :=
  live s fun s => let m := withOp m Op.stashAcc; s.answerIn n m fun s => s.stashAcc n m
/-- STASHDECL (R130). -/
def execStashdecl (n : PortId) (m : Msg) (s : State) : Host.Outcome State Fault Refusal :=
  live s fun s => let m := withOp m Op.stashDecl; s.answerIn n m fun s => s.stashDecl n m
/-- DATAS (R127). -/
def execDatas (n : PortId) (m : Msg) (s : State) : Host.Outcome State Fault Refusal :=
  live s fun s => let m := withOp m Op.dataS; (s.takeMsg n m).ownerData n m
/-- DATAM (R127). -/
def execDatam (n : PortId) (m : Msg) (s : State) : Host.Outcome State Fault Refusal :=
  live s fun s => let m := withOp m Op.dataM; (s.takeMsg n m).ownerData n m

end Sys2Proof.Machine
end

