-- ==== Sys2Proof/Machine/Dram.lean ====
section
/-!
DEFINITION. The commands of the memory channels and stacks: scheduling, refresh and temperature, training, margin walks,
frequency changes, entry to service, lazy zero, patrols and surveys, the ledger, repairs and raw accesses (chapters 7
and 8).
-/

namespace Sys2Proof.Machine

/-! ## Surveys end -/

/-- One hour in cc (R8). -/
def hourCc : Nat := 3600 * 1000000 * ccPerUs

/-- A survey ends: its reads are withdrawn, RESULT is written and DONE set (R360). -/
def State.surveyEnd (s : State) (m : MemUnit) (result : Nat) : State :=
  let s := s.modCom m fun x => { x with survey := none, surveyOut := 0 }
  match m with
  | .chan c =>
    let s := s.modChan c fun ch => { ch with rq := ch.rq.filter fun r => r.src ≠ .survey }
    (s.rfSet (R.chanSurveyStat c) 11 10 result).raise (R.chanSurveyStat c) 8
  | .stack k =>
    let s := [2 * k.val, 2 * k.val + 1].foldl (fun s p => s.modPav (pavOf p) fun v =>
      { v with stackq := v.stackq.filter fun x => x.op ≠ .survey, stackRet := v.stackRet.filter fun x => x.cmd.op ≠ .survey }) s
    (s.rfSet (R.stackSurveyStat k) 11 10 result).raise (R.stackSurveyStat k) 8

/-- A unit leaves IN_SERVICE: a survey ends ABORTED (R360). -/
def State.surveyAbort (s : State) (m : MemUnit) : State := if (s.com m).survey.isSome then s.surveyEnd m 2 else s

/-! ## Failure (R352, R353) -/

/-- A channel becomes FAILED: its writes are discarded, and patrol, survey, fills and repairs stop (R352). -/
def State.chanFail (s : State) (c : ChanId) : State :=
  if (s.chan c).com.st = .failed then s else
  let raw := (s.chan c).fixq.any (·.raw)
  let s := s.surveyAbort (.chan c)
  let s := s.modChan c fun ch =>
    { ch with com := { ch.com with st := .failed, training := false, recal := false, walk := false, restart := false }
              wq := [], fixq := [], targets := [], fills := [none, none, none, none], pprRun := none, freqChg := none, drain := false }
  -- a raw write that waited is accepted and discarded with the others
  let s := if raw then s.modGlb fun g => { g with rawDone := some (0, 0, 0x7F) } else s
  (((s.raise (R.chanErrEvt c) 14).event .failed c.val 0 (store := .memory)).fatal 13)

/-- A stack becomes FAILED: `tested` says that a test failed, else training did, and no later test puts the stack in service without
it (R291, R314, R353). -/
def State.stackFail (s : State) (k : StackId) (tested : Bool) : State :=
  let s := s.surveyAbort (.stack k)
  let s := s.modStk k fun x => { x with com := { x.com with st := .failed, training := false, recal := false, walk := false }, passed := x.passed && tested }
  let s := (s.raise (R.stackEvt k) (if tested then 13 else 11)).raise (R.stackErrEvt k) 14
  (s.event .failed k.val 0 (store := .stack)).fatal 14

/-- STACK_READY is set when every stack is IN_SERVICE or FAILED (R418). -/
def State.stackReadyCheck (s : State) : State :=
  if s.glb.stackReady || !(allStks.all fun k => (s.stk k).com.st = .inService || (s.stk k).com.st = .failed) then s
  else (s.modGlb fun g => { g with stackReady := true }).raise R.glbStartEvt 9

/-- MEM_READY is set when every channel with a DIMM has finished training (R417). T_READY counts ms, saturating (R435). -/
def State.memReadyCheck (s : State) : State :=
  if s.glb.memReady || allChans.any (fun c => (s.chan c).com.st = .training && !(s.chan c).trained) then s
  else (s.modGlb fun g => { g with memReady := true, tReady := min (s.now / (1000 * ccPerUs)) 0xFFFF }).raise R.glbStartEvt 8

/-! ## Scheduling (R296, R297, R364) -/

/-- Banks that can take a command: those named, less those of a rank that waits for its refresh (R300). -/
def State.usable (s : State) (c : ChanId) (ready : List Nat) : List Nat :=
  ready.filter fun b => !s.refBars (.chan c) (b / 256) ((s.chan c).demandOn (b / 256))

/-! ## Lazy zero: the order of fill writes (R320 to R322) -/

/-- A queued write waits on a fill (R321). -/
def Chan.waitsOn (ch : Chan) (f : FillSlot) : Bool := ch.wq.any fun w => regionOf w.ll = f.region && !f.passed w.ll
/-- The lowest slot whose fill is as asked and whose next line's bank can take a command. -/
def Chan.fillFor (ch : Chan) (banks : List Nat) (ok : FillSlot → Bool) : Option (Nat × FillSlot) :=
  (List.range 4).findSome? fun i => match ch.fills.getD i none with
    | none => none
    | some f => if ok f && banks.contains (ch.bank f.line) && some (ch.bank f.line) ≠ ch.heldBank then some (i, f) else none
/-- A fill whose writes go ahead of other writes, since one waits on it (R321). -/
def Chan.urgentFill (ch : Chan) (banks : List Nat) : Option (Nat × FillSlot) := ch.fillFor banks ch.waitsOn
/-- A fill that a write started and none waits on: its writes rank as ordinary ones (R321). -/
def Chan.plainFill (ch : Chan) (banks : List Nat) : Option (Nat × FillSlot) := ch.fillFor banks fun f => !f.background
/-- A plain fill whose next line's row is open (R296). -/
def Chan.openFill (ch : Chan) (banks : List Nat) : Option (Nat × FillSlot) := ch.fillFor banks fun f => !f.background && ch.openRow f.line

/-- A fill may write its next line in this cc, as the banks that can take a command show it. In read mode any read goes first (R297).
Fills that a write waits on go ahead of every other write; a plain fill ranks as a write that is younger than any queued one (DESIGN
CHOICE: the rules give a fill's line no age); a background fill goes when nothing demanded can (R296, R321, R322). -/
def Chan.fillMay (ch : Chan) (f : FillSlot) (banks : List Nat) : Bool :=
  let reads := ch.readyReads banks; let writes := ch.readyWrites banks
  banks.contains (ch.bank f.line) && some (ch.bank f.line) ≠ ch.heldBank && (ch.drain || reads.isEmpty) &&
    (if ch.waitsOn f then true
     else if f.background then !(reads.any fun r => r.plot.isSome) && writes.isEmpty && (ch.urgentFill banks).isNone && (ch.plainFill banks).isNone
     else (ch.urgentFill banks).isNone && !(writes.any fun w => ch.openRow w.ll)
       && (ch.openRow f.line || (writes.isEmpty && (ch.openFill banks).isNone)))
/-- Some fill may write now. -/
def Chan.anyFill (ch : Chan) (banks : List Nat) : Bool := ch.fills.any fun f => f.elim false fun f => ch.fillMay f banks

/-- A channel that answers reads: in service, or FAILED (R292, R352). -/
def Chan.serves (ch : Chan) : Bool := ch.com.st = .inService || ch.com.st = .failed

def State.dramRead (s : State) (c : ChanId) (ready : List Nat) (u : Upset) : State :=
  let ch := (s.chan c).before s.now
  let banks := s.usable c ready
  if !ch.serves then s
  else if ch.drain && (!(ch.readyWrites banks).isEmpty || ch.anyFill banks) then s
  else
    match s.selectReadFloor c (ch.readyReads banks) with
    | none => s
    | some r => s.issueRead c r u

/-- The next write: a fill that a write waits on, then writes and plain fills whose row is open, then the oldest write (R296, R321). -/
def State.dramWrite (s : State) (c : ChanId) (ready : List Nat) : State :=
  let ch := (s.chan c).before s.now
  let banks := s.usable c ready
  if ch.com.st ≠ .inService then s
  else if !ch.drain && !(ch.readyReads banks).isEmpty then s
  else
    match ch.urgentFill banks, ch.selectWrite banks, ch.openFill banks with
    | some (i, f), _, _ => s.issueFill c i f
    | none, some w, some (i, f) => if ch.openRow w.ll then s.issueWrite c w else s.issueFill c i f
    | none, some w, none => s.issueWrite c w
    | none, none, _ => s

/-! ## Lazy zero (R320 to R322) -/

/-- The next line of a fill slot, if the banks that can take a command let it go (R320 to R322). -/
def State.fillWrite (s : State) (c : ChanId) (x : FillIssue) : State :=
  let ch := (s.chan c).before s.now
  match ch.fills.getD x.slot.val none with
  | none => s
  | some f => if ch.com.st = .inService && ch.fillMay f (s.usable c x.ready) then s.issueFill c x.slot.val f else s

/-- Regions of the used capacity. -/
def Chan.regions (ch : Chan) : Nat := ch.used * 512
/-- BG_DONE: every region of the used capacity is initialized (R322). -/
def Chan.bgDone (ch : Chan) : Bool := decide (0 < ch.regions) && decide (ch.regions ≤ ch.init.length)

/-- The next region of the background pass, from a region on: neither initialized nor filling (R322). -/
def Chan.bgNext (ch : Chan) : Nat → Nat → Option Nat
  | 0, _ => none
  | n + 1, r =>
    if ch.regions ≤ r then none
    else if ch.init.contains r || (ch.fillOf r).isSome then Chan.bgNext ch n (r + 1) else some r

def State.bgStart (s : State) (c : ChanId) : State :=
  let ch := s.chan c
  if ch.com.st ≠ .inService || ch.freeSlots < 2 || s.glb.hold || (ch.fills.any fun f => f.elim false (·.background)) then s else
  match ch.bgNext (ch.init.length + 5) ch.bgPos with
  | none => s
  | some r => s.modChan c fun ch => { ch with fills := startFill { region := r, start := 0, issued := 0, background := true } ch.fills, bgPos := r + 1 }

/-! ## Entry to service (R305, R317, R417) -/

/-- A channel enters IN_SERVICE at MEM_GO or at the end of an EXIT: INIT_POLICY applies and the background pass starts
(R317). -/
def State.enterService (s : State) (c : ChanId) : State :=
  let zero := !s.rbit (R.chanCfg c) 31
  (s.modChan c fun ch =>
    { ch with com := { ch.com with st := .inService, recal := false, training := false }, lost := if zero then none else ch.lost
              dram := if zero && ch.lost.isSome then [] else ch.dram
              init := if zero then [] else ch.init, fills := if zero then [none, none, none, none] else ch.fills, bgPos := 0, rows := [] }).refStart (.chan c)

/-- The channel map is fixed, or FAIL set (R282 to R284). -/
def State.fixMap (s : State) : State :=
  let piv := choosePivots s.fold
  if piv.length < 4 then s.modGlb fun g => { g with mapFail := true }
  else s.modGlb fun g => { g with mapValid := true, mapFail := false, pivots := piv, mapRanges := g.ranges, mapReq := mapReqOf g.ranges }

/-- MEM_SERVICE_START: trained channels enter service in one apply window (R284, R417). -/
def State.memStart (s : State) : State :=
  let s := (s.modGlb fun g => { g with memGoDue := false }).fixMap
  if s.glb.mapFail then s else
  let s := forChans s fun c s =>
    let ch := s.chan c
    if !ch.trained then s
    else if 16 * ch.used < s.glb.mapReq then
      (s.modChan c fun ch => { ch with com := { ch.com with st := .off } }).raise (R.chanEvt c) 14
    else (s.enterService c).modGlb fun g => { g with memGo := true }
  if s.glb.memGo then s.modGlb fun g => { g with stackUp := true } else s

/-! ## Training (R307 to R310) -/

/-- A stored record that serves the channel's code and DIMMs (R308). -/
def Chan.recOk (ch : Chan) : Bool :=
  ch.com.recs.any fun r => r.code = ch.freq && r.good && r.id0 = ch.slot0.elim 0 (·.ident) && r.id1 = ch.slot1.elim 0 (·.ident)
/-- Full training is due (R308). -/
def State.needsFull (s : State) (m : MemUnit) : Bool :=
  match m with
  | .chan c => (s.chan c).com.training || s.rbit (R.chanCfg c) 30 || !(s.chan c).recOk
  | .stack k => (s.stk k).com.training || !(s.stk k).com.recs.any (·.good)

/-- Keeps a new record: it replaces the one of its code, else the oldest of four (R309). -/
def keepRec (rs : List TrainRec) (r : TrainRec) (most : Nat) : List TrainRec :=
  let xs := rs.filter fun x => x.code ≠ r.code
  (if most ≤ xs.length then xs.drop (xs.length + 1 - most) else xs) ++ [r]

/-- Matching repair records are applied again after training; a record of another DIMM is discarded (R365). -/
def State.reapply (s : State) (c : ChanId) : State :=
  s.modChan c fun ch => { ch with repairs := ch.repairs.filter fun r =>
    (ch.slot0.elim false fun d => d.ident = r.ident) || (ch.slot1.elim false fun d => d.ident = r.ident) }

/-- Trims are replaced by a new training result (R495). -/
def MemCom.untrim (x : MemCom) : MemCom := { x with trimT := 0, trimV := 0, tgtT := 0, tgtV := 0 }

/-- A unit has been trained: at start-up a channel waits for MEM_GO and a stack for its sample test; after a failed
calibration it enters service (R305, R365, R417, R418). -/
def State.trained (s : State) (m : MemUnit) (kind : Nat) : State :=
  match m with
  | .chan c =>
    let again := (s.chan c).com.recal
    let s := s.modChan c fun ch => { ch with trained := true, com := { ch.com.untrim with last := kind, training := false } }
    if again then s.enterService c else (s.reapply c).memReadyCheck
  | .stack k =>
    let again := (s.stk k).com.recal
    let s := s.modStk k fun x => { x with com := { x.com.untrim with last := kind, training := false, recal := false } }
    if again then ((s.modStk k fun x => { x with com := { x.com with st := .inService } }).refStart m).stackReadyCheck
    else s.modStk k fun x => { x with tested := true }

/-- FAST_LOAD_VERIFY: the record is loaded and verified; a failed verify leads to full training (R308, R310). -/
def State.fastLoad (s : State) (m : MemUnit) (pass : Bool) : State :=
  if (s.com m).st ≠ .training || (s.com m).calib || s.needsFull m then s
  else if pass then s.trained m 2
  else s.modCom m fun x => { x with training := true }

/-- FULL_TRAINING: the array is used, a record is stored and the lazy-zero bitmap cleared, or the unit is not trained (R307
to R309, R317, R352, R353). -/
def State.fullTrain (s : State) (m : MemUnit) (pass : Bool) : State :=
  if (s.com m).st ≠ .training || (s.com m).calib || !s.needsFull m then s else
  let set := Config.trainedSettings s.freeCtr
  match m with
  | .chan c =>
    if (s.chan c).trained && !(s.chan c).com.recal then s else
    let s := s.hwClear (R.chanCfg c) 30
    let s := if (s.chan c).com.recal then s else s.modGlb fun g => { g with fullTrain := true }
    if pass then
      let s := s.drawn.modChan c fun ch =>
        { ch with init := [], fills := [none, none, none, none], dram := [], lost := none, bgPos := 0
                  com := { ch.com with recs := keepRec ch.com.recs (trainRec ch.freq (ch.slot0.elim 0 (·.ident)) (ch.slot1.elim 0 (·.ident)) set) 4 } }
      (s.raise (R.chanEvt c) 13).trained m 1
    else if (s.chan c).com.recal then (s.raise (R.chanEvt c) 15).chanFail c
    else ((s.modChan c fun ch => { ch with com := { ch.com with st := .off, training := false } }).raise (R.chanEvt c) 15).memReadyCheck
  | .stack k =>
    if (s.stk k).tested && !(s.stk k).com.recal then s
    else if pass then
      let s := [2 * k.val, 2 * k.val + 1].foldl (fun s p => s.modPav (pavOf p) fun v => { v with stack := [] }) s.drawn
      (s.modCom m fun x => { x with recs := keepRec x.recs (trainRec 0 0 0 set) 1 }).trained m 1
    else (s.stackFail k false).stackReadyCheck

/-! ## Refresh, temperature and margin walks (R300 to R303, R311) -/

/-- The rank, or pseudo-channel, that a bank number belongs to. -/
def closeRows (m : MemUnit) (rank : Nat) (rows : FMap Nat) : FMap Nat :=
  match m with
  | .chan _ => List.filter (fun (x : Nat × Nat) => x.1 / 256 ≠ rank) rows
  | .stack _ => List.filter (fun (x : Nat × Nat) => x.1 / 64 ≠ rank) rows

/-- A refresh command of a rank or pseudo-channel whose interval has expired; it repays one (R300). Its window lets an aborted walk
start again (R313), and a change of doubling takes effect (R302). -/
def State.refresh (s : State) (m : MemUnit) (rank : Nat) : State :=
  let x := s.com m
  let due := (FMap.find? x.postponed rank).getD s.now
  if x.st ≠ .inService || s.now < due then s else
  let hot := x.ref2xNext && !x.ref2x
  let s := s.modCom m fun x => { x with ref2x := x.ref2xNext, walk := x.walk || x.restart, walkStart := if x.restart then s.now else x.walkStart, restart := false }
  let iv := s.refreshCc m
  let s := s.modCom m fun x => { x with lastRefresh := some s.now, postponed := FMap.insert x.postponed rank (due + iv) }
  let s := match m with
    | .chan c => ((s.modChan c fun ch => { ch with rows := closeRows m rank ch.rows }).cntChan c 0x0B).occur
        { src := c.val, kind := 0x30, port := 0xFF, plot := plotByte none, addr := Config.refreshAddr c.val rank, detail := 4 }
    | .stack k => (s.modPav (pavOf (2 * k.val + rank / 16)) fun v => { v with stkRows := closeRows m rank v.stkRows }).cntStk k 6
  if hot then s.raise (match m with
    | .chan c => R.chanEvt c
    | .stack k => R.stackEvt k) 9 else s

def warm (t : Option Int) : Bool := t.elim true fun x => decide (x > 85)
def cool (t : Option Int) : Bool := t.elim false fun x => decide (x < 82)

/-- The sources of a unit and the cc between their readings: ranks of a D5 channel, DIMMs of a D4 channel, the one readout of a
stack (R301). -/
def State.tempSources (s : State) (m : MemUnit) : List Nat × Nat :=
  match m with
  | .stack _ => ([0], 1000 * ccPerUs)
  | .chan c =>
    if (s.chan c).memGen = .d4 then ((if (s.chan c).slot0.isSome then [0] else []) ++ (if (s.chan c).slot1.isSome then [1] else []), 16000 * ccPerUs)
    else (s.refRanks m, 1000 * ccPerUs)

/-- A temperature read of a source whose interval has passed (R301 to R303); no temperature is read in self-refresh (R306). -/
def State.tempRead (s : State) (m : MemUnit) (source : Nat) (t : Option Int) : State :=
  let x := s.com m
  let (srcs, iv) := s.tempSources m
  if x.st = .selfRefresh || x.st = .off || !srcs.contains source || (FMap.find? x.tempAt source).elim false (fun t => decide (s.now < t + iv)) then s else
  let before := FMap.find? x.temps source
  let temps := FMap.insert x.temps source t
  let all := temps.map fun (y : Nat × Option Int) => y.2
  let top := all.foldl (fun (a : Option Int) (b : Option Int) => match a, b with
    | some u, some v => some (max u v)
    | some u, none => some u
    | none, v => v) none
  let next := if warm t then true else if all.all cool then false else x.ref2xNext
  let alarm := match t with
    | none => true
    | some v => decide (v > 95) && (match before with
      | some (some w) => decide (w ≤ 95)
      | _ => true)
  let s := s.modCom m fun x => { x with temps := temps, temp := top.getD x.temp, ref2xNext := next, tempAt := FMap.insert x.tempAt source s.now }
  if alarm then s.raise (match m with
    | .chan c => R.chanEvt c
    | .stack k => R.stackEvt k) 8 else s

/-- Hours between margin walks; 0 stops them (R311). -/
def State.walkHours (s : State) (m : MemUnit) : Nat :=
  match m with
  | .chan c => s.rf (R.chanCfg c) 23 16
  | .stack _ => 24

def State.walkStart (s : State) (m : MemUnit) : State :=
  let x := s.com m; let h := s.walkHours m
  if x.st = .inService && !x.walk && !x.restart && h ≠ 0 && decide (x.walkStart + h * hourCc ≤ s.now) && !s.glb.hold then
    s.modCom m fun x => { x with walk := true, walkStart := s.now }
  else s

/-- The refresh window is open: from the last refresh command until the rank returns to service, and at most 120 ns more (R311). -/
def MemCom.inWindow (x : MemCom) (now : Nat) : Bool := x.lastRefresh.elim false fun t => decide (now ≤ t + Config.refreshTime + 360)

/-- A step of a running walk, made inside a refresh window; the last one ends the walk (R311). -/
def State.walkStep (s : State) (m : MemUnit) (last : Bool) (r : WalkResult) : State :=
  let x := s.com m
  if !x.walk || x.st ≠ .inService || !x.inWindow s.now || !last then s else
  let code := match m with
    | .chan c => (s.chan c).freq
    | .stack _ => 0
  (s.modCom m fun x => { x with walk := false, walkRes := some (r, code), walkNew := true }).raise (match m with
    | .chan c => R.chanEvt c
    | .stack k => R.stackEvt k) (match m with
    | .chan _ => 16
    | .stack _ => 10)

/-! ## Frequency change (R312, R313) -/

/-- FREQ_CMD.GO (R312). -/
def State.freqGo (s : State) (c : ChanId) (code : Nat) : State :=
  let ch := s.chan c
  let cap := min (ch.slot0.elim 0 (·.maxCode)) (ch.slot1.elim 15 (·.maxCode))
  if genOfCode code ≠ ch.gen || ch.gen.isNone || cap < code then s.cfgReject (R.chanFreqCmd c) 31 .range
  else if !(ch.com.recs.any fun r => r.code = code && r.good) || ch.com.st ≠ .inService || ch.freqChg.isSome then s.cfgReject (R.chanFreqCmd c) 31 .busy
  else s.modChan c fun ch => { ch with freqChg := some { code := code, at_ := s.now, running := false, aborted := false } }

/-- FREQ_CHANGE_START: no collection runs, and STATE becomes FREQ_CHANGE (R313 step 3). `new` and `old` say what the verifies at the
two codes will give. -/
def State.freqRun (s : State) (c : ChanId) (new old : Bool) : State :=
  match (s.chan c).freqChg with
  | none => s
  | some f =>
    if (s.chan c).com.st ≠ .inService || (s.chan c).com.walk || f.running then s else
    (s.surveyAbort (.chan c)).modChan c fun ch =>
      { ch with rows := [], com := { ch.com with st := .freqChange }, freqChg := some { f with running := true, since := s.now, back := false, newOk := new, oldOk := old } }

/-- The channel is back in service at a code (R313 step 5). -/
def State.freqDone (s : State) (c : ChanId) (f : FreqChg) (code : Nat) : State :=
  (s.modChan c fun ch =>
    { ch with freqChg := none, freq := code, com := { ch.com.untrim with st := .inService, last := 3, restart := f.aborted } }).refStart (.chan c)

/-- A running change goes on with the clock: 30 µs and 200 µs after step 3 began the verify has ended (R313 steps 3 to 5). A failed
one returns to the old code in the same way; a second failure makes the channel FAILED. DESIGN CHOICE: the limits are taken. -/
def State.freqStep (s : State) (c : ChanId) : State :=
  match (s.chan c).freqChg with
  | none => s
  | some f =>
    if !f.running || s.now < f.since + 230 * ccPerUs then s
    else if f.back then
      let s := s.raise (R.chanEvt c) 10
      if f.oldOk then s.freqDone c f (s.chan c).freq else s.chanFail c
    else if f.newOk then (s.freqDone c f f.code).raise (R.chanEvt c) 12
    else s.modChan c fun ch => { ch with freqChg := some { f with back := true, since := s.now } }

/-- FREQ_HOLD_TIMEOUT: after 50 ms the running collection is aborted (R313 step 2). -/
def State.freqHold (s : State) (c : ChanId) : State :=
  match (s.chan c).freqChg with
  | none => s
  | some f =>
    if (s.chan c).com.walk && decide (f.at_ + 50000 * ccPerUs ≤ s.now) then
      (s.modChan c fun ch => { ch with freqChg := some { f with aborted := true }, com := { ch.com with walk := false } }).raise (R.chanEvt c) 11
    else s

/-! ## Stack test (R314, R418) -/

/-- A pavilion is fenced (R30). -/
def State.isFenced (s : State) (p : PavId) : Bool := s.glb.fenced.getLsbD p.val

/-- TEST_CTL.GO (R314). DESIGN CHOICE: a stack that is neither IN_SERVICE nor FAILED is not trained or not at rest, and the test is
rejected. -/
def State.stackTestGo (s : State) (k : StackId) : State :=
  let ok (p : Nat) : Bool := (s.pav (pavOf p)).place = .ghCache || s.isFenced (pavOf p)
  if ok (2 * k.val) && ok (2 * k.val + 1) && ((s.stk k).com.st = .inService || (s.stk k).com.st = .failed) then (s.surveyAbort (.stack k)).modStk k fun x => { x with com := { x.com with st := .test, walk := false } }
  else s.cfgReject (R.stackTestCtl k) 31 .busy

/-- A stack's contents after a test or training are never read as data (R315): both halves are as if never written. -/
def State.stackWipe (s : State) (k : StackId) : State :=
  [2 * k.val, 2 * k.val + 1].foldl (fun s p => s.modPav (pavOf p) fun v => { v with stack := [] }) s

def State.stackTestEnd (s : State) (k : StackId) (failPc : W32) : State :=
  if (s.stk k).com.st ≠ .test then s else
  let s := (s.stackWipe k).rset (R.stackTestRes k) failPc
  let s :=
    if failPc ≠ 0 then s.stackFail k true
    -- in service only with its training and its sample test passed (R291)
    else if (s.stk k).passed then (s.modStk k fun x => { x with com := { x.com with st := .inService } }).refStart (.stack k)
    else s.modStk k fun x => { x with com := { x.com with st := .failed } }
  s.raise (R.stackEvt k) 12

def State.sampleEnd (s : State) (k : StackId) (failPc : W32) : State :=
  if (s.stk k).com.st ≠ .training || !(s.stk k).tested then s else
  let s := (s.stackWipe k).rset (R.stackTestRes k) failPc
  (if failPc = 0 then (s.modStk k fun x => { x with passed := true, com := { x.com with st := .inService } }).refStart (.stack k)
    else s.stackFail k true).stackReadyCheck

/-- Stack bring-up: every stack starts training (R418). -/
def State.stackBring (s : State) : State :=
  if !s.glb.stackUp then s else
  let s := s.modGlb fun g => { g with stackUp := false, stackReady := false }
  forStks s fun k s => s.modStk k fun x => { x with tested := false, passed := false, com := { x.com with st := .training, training := false, recal := false } }

/-! ## Scrubbing (R358 to R360) -/

/-- A channel's own engines push reads: there is room and no power entry has begun (R293, R304). -/
def State.engineRoom (s : State) (c : ChanId) : Bool := s.rqRoom c && !s.glb.hold

/-- The next patrol read of a channel: a line due for a targeted read goes first (R358, R363). It pauses in a power entry (R304). -/
def State.patrol (s : State) (c : ChanId) : State :=
  let ch := s.chan c
  if ch.com.st ≠ .inService || ch.com.survey.isSome || ch.com.patrolCredit = 0 || 48 ≤ ch.rq.length || ch.lines = 0 || !s.engineRoom c then s else
  let s := s.modCom (.chan c) fun x => { x with patrolCredit := x.patrolCredit - 1 }
  match ch.targets with
  | ll :: rest =>
    let s := s.modChan c fun ch => { ch with targets := rest }
    if ch.written ll then s.rqPush c { ll := ll, pa := s.paOfLl c.val ll, plot := none, at_ := s.now, src := .targeted } else s
  | [] =>
    let ll := ch.com.patrolPos
    let wrap := decide (ch.lines ≤ ll + 1)
    let s := s.modCom (.chan c) fun x => { x with patrolPos := if wrap then 0 else ll + 1, passes := if wrap then (x.passes + 1) % 32 else x.passes }
    if ch.written ll then s.rqPush c { ll := ll, pa := s.paOfLl c.val ll, plot := none, at_ := s.now, src := .patrol } else s

/-- TARGETED_REWRITE (R363). -/
def State.targeted (s : State) (c : ChanId) : State := if (s.chan c).targets.isEmpty then s else s.patrol c

/-- Queues a read of a present sub-block at a stack location, if its half is in SECTORED; the patrol passes over a sector that is not
steady (R359), a survey reads every present sub-block (R360). The tags are read as a lookup reads them (R349); a halted pavilion's are
not (R351). -/
def State.stackScrub (s : State) (k : StackId) (sl : Nat) (op : StackOp) : State × Bool :=
  let p := pavOf (2 * k.val + sl / 2 ^ 24 % 2)
  let l := sl / 64 % 2 ^ 18
  let way := l / 16384; let set := l % 16384; let sub := sl % 64
  let s := if (s.pav p).place = .sectored && !(s.pav p).halted then s.checkTags p set else s
  let t := (s.pav p).tag set way
  if (s.pav p).place = .sectored && !(s.pav p).halted && t.st ≠ .invalid && t.parOk && t.present.getLsbD sub
      && (op = .survey || (t.st = .valid && !(s.pav p).pinned set way)) then
    (s.stackCmd p set way sub (lineOf t.tag set sub) op none, true)
  else (s, false)

/-- The next location of a stack's patrol; a half that is not in SECTORED is passed over whole (R359). -/
def State.stackPatrol (s : State) (k : StackId) : State :=
  let x := (s.stk k).com
  let sec (h : Nat) : Bool := let v := s.pav (pavOf (2 * k.val + h)); v.place = .sectored && !v.halted
  if x.st ≠ .inService || x.survey.isSome || x.patrolCredit = 0 || !(sec 0 || sec 1) || s.glb.hold then s else
  let half := x.patrolPos / 2 ^ 24
  let pos := if sec half then x.patrolPos else (1 - half) * 2 ^ 24
  let next := (pos + 1) % 2 ^ 25
  let wrap := decide (pos < x.patrolPos) || next = 0
  let s := s.modStk k fun y => { y with com := { y.com with patrolCredit := y.com.patrolCredit - 1, patrolPos := next
                                                            passes := if wrap then (y.com.passes + 1) % 32 else y.com.passes } }
  (s.stackScrub k pos .patrol).1.slotUse (pavOf (2 * k.val + pos / 2 ^ 24)) 2

/-- SCRUB_CTL.SURVEY_GO (R360). -/
def State.surveyGo (s : State) (m : MemUnit) : State :=
  let (ctl, stat, base, size, lines, first, last, err, limit) := match m with
    | .chan c => (R.chanScrubCtl c, R.chanSurveyStat c, R.chanSurveyBase c, R.chanSurveySize c, R.chanSurveyLinesLo c, R.chanSurveyFirstLo c, R.chanSurveyLastLo c,
        R.chanSurveyErr c, (s.chan c).lines)
    | .stack k => (R.stackScrubCtl k, R.stackSurveyStat k, R.stackSurveyBase k, R.stackSurveySize k, R.stackSurveyLinesLo k, R.stackSurveyFirstLo k, R.stackSurveyLastLo k,
        R.stackSurveyErr k, 2 ^ 25)
  if (s.com m).survey.isSome then (s.cfgReject ctl 31 .busy).raise stat 9 else
  let b := s.rf base 26 0 * 64; let n := s.rf size 27 0 * 64
  let s := [lines, lines + 4, first, first + 4, last, last + 4, err].foldl (fun s o => s.rset o 0) s
  if n = 0 || limit < b + n then s.surveyEnd m 1
  else if (s.com m).st ≠ .inService then s.surveyEnd m 2
  else s.modCom m fun x => { x with survey := some { pos := b, stop := b + n }, surveyOut := 0 }

/-- The survey's next line: read, or counted as good where R323 says so. It goes on with the clock while the unit is IN_SERVICE and
the channel's queue has room; in a power entry it pushes nothing (R304), and the unit's self-refresh ends it (R360). -/
def State.surveyNext (s : State) (m : MemUnit) : State :=
  match (s.com m).survey with
  | none => s
  | some v =>
    if v.stop ≤ v.pos || (s.com m).st ≠ .inService || s.glb.hold then s else
    let next (s : State) (out : Nat) : State :=
      s.modCom m fun x => { x with survey := some { v with pos := v.pos + 1 }, surveyOut := x.surveyOut + out }
    match m with
    | .chan c =>
      if 48 ≤ (s.chan c).rq.length || !s.engineRoom c then s
      else if (s.chan c).written v.pos then
        (next s 1).rqPush c { ll := v.pos, pa := s.paOfLl c.val v.pos, plot := none, at_ := s.now, src := .survey }
      else next (s.surveyLine m .good 0) 0
    | .stack k =>
      let (s, got) := s.stackScrub k v.pos .survey
      next s (if got then 1 else 0)

/-- SURVEY_DONE (R360). -/
def State.surveyDone (s : State) (m : MemUnit) : State :=
  match (s.com m).survey with
  | none => s
  | some v =>
    if (s.com m).st ≠ .inService then s.surveyEnd m 2
    else if v.stop ≤ v.pos && (s.com m).surveyOut = 0 then s.surveyEnd m 0 else s

/-! ## Ledger and repair (R362 to R365) -/

/-- A non-HARD entry is freed 24 h after its last correction, or 24 h after its first rewrite (R362). -/
def State.ledgerExpire (s : State) (c : ChanId) (i : Fin 64) : State :=
  let e := (s.chan c).ledger[i]
  let t := s.band.sec
  if e.valid && !e.hard && (decide (e.tLast + hours24 ≤ t) || (e.rw && decide (e.tRw + hours24 ≤ t) && decide (e.recur < 3))) then
    (s.modLedger c i fun _ => {}).modChan c fun ch => { ch with targets := ch.targets.filter (· ≠ e.ll) }
  else s

/-- PPR_CTL.GO with ENTRY (R364 steps 2 and 3, R379). -/
def State.repairGo (s : State) (c : ChanId) (e : Fin 64) : State :=
  let ch := s.chan c
  let o := R.chanPprCtl c
  if ch.pprRun.isSome then s.cfgReject o 31 .busy
  else if !ch.ledger[e].valid then s.cfgReject o 0 .range
  else if ch.com.st ≠ .inService then (s.rfSet (R.chanPprStat c) 27 25 4).cfgReject o 31 .busy
  else if 8 ≤ ch.repairs.length then (s.rfSet (R.chanPprStat c) 27 25 3).cfgReject o 31 .busy
  else s.modChan c fun ch => { ch with pprRun := some { entry := e.val } }

/-- The line of a row with another column (R286). -/
def Chan.column (ch : Chan) (ll k : Nat) : Nat :=
  let w := 2 ^ ((ch.widths.getD 0 0) + (ch.widths.getD 1 0))
  ll - ll / w % 128 * w + k * w

/-- A repair goes on with the clock: once no fill of the row's region runs, it holds the row's bank, and then its 128 lines are read
through the read queue into the repair buffer (R293, R364 steps 3 and 4). -/
def State.repairStep (s : State) (c : ChanId) : State :=
  let ch := s.chan c
  match ch.pprRun with
  | none => s
  | some r =>
    if ch.com.st ≠ .inService then s else
    let row := (ch.ledger[r.entry % 64]'(Nat.mod_lt _ (by decide))).ll
    let go (f : PprRun → PprRun) (s : State) : State := s.modChan c fun ch => { ch with pprRun := ch.pprRun.map f }
    if !r.held then (if (ch.fillOf (regionOf row)).isSome then s else go (fun r => { r with held := true }) s)
    else if 128 ≤ r.next || !s.engineRoom c then s
    else
      let ll := ch.column row r.next
      let s := go (fun r => { r with next := r.next + 1 }) s
      if ch.written ll then s.rqPush c { ll := ll, pa := s.paOfLl c.val ll, plot := none, at_ := s.now, src := .repair } else s

/-- REPAIR_DONE, once the row is in the repair buffer: its lines are written back and the bank is released (R348, R364 steps 4 and 5).
`spare` says whether the device had a spare row. -/
def State.repairDone (s : State) (c : ChanId) (spare : Bool) : State :=
  match (s.chan c).pprRun with
  | none => s
  | some n =>
    let e : Fin 64 := ⟨n.entry % 64, Nat.mod_lt _ (by decide)⟩
    let ll := (s.chan c).ledger[e].ll
    if (s.chan c).com.st ≠ .inService || !n.held || n.next < 128 || (s.chan c).rq.any (fun r => r.src = .repair) then s else
    let s := n.buf.foldl (fun s x => s.rewrite c x.1 x.2) s
    let ident := if ((s.chan c).fields ll).getD 6 0 = 1 then (s.chan c).slot1.elim 0 (·.ident) else (s.chan c).slot0.elim 0 (·.ident)
    let s := s.modChan c fun ch =>
      { ch with pprRun := none, pprReq := if ch.pprReq = some e.val then none else ch.pprReq
                repairs := if spare then ch.repairs ++ [{ row := ch.column ll 0, ident := ident }] else ch.repairs }
    let s := s.modLedger c e fun x => if spare then { x with repair := 2, recur := 0, tRw := s.band.sec } else { x with repair := 3 }
    let s := s.rfSet (R.chanPprStat c) 27 25 (if spare then 1 else 2)
    ((s.raise (R.chanErrEvt c) (if spare then 12 else 13)).event .repair c.val ((s.paOfLl c.val ll).toNat * 64) (store := .memory)).nextRepair c

/-! ## Raw accesses (R356, R357) -/

/-- The check bits that a store holds. -/
def checkMask (wide : Bool) (x : BitVec 128) : BitVec 128 := if wide then x else x &&& BitVec.ofNat 128 (2 ^ 64 - 1)

/-- A raw access to a channel's line: it enters the channel's queue, or waits for a place there; a power entry lets no new one in
(R47, R304, R357). -/
def State.rawChan (s : State) (c : ChanId) (cmd ll : Nat) (pa : LineAddr) : State :=
  let ch := s.chan c
  if ch.lines ≤ ll then s.rawEnd 1 0 0x7F
  else if !ch.written ll then s.rawEnd 2 0 0x7F
  else if ch.com.st ≠ .inService then s.rawEnd 3 0 0x7F
  else
    let s := s.modGlb fun g => { g with rawBusy := true, rawDone := none }
    if cmd = 1 || cmd = 2 then
      let r : RqEnt := { ll := ll, pa := pa, plot := none, at_ := s.now, src := .raw }
      if s.engineRoom c then s.rqPush c r else s.modChan c fun ch => { ch with rawWait := some r }
    else
      let st : Stored := if cmd = 3 then { data := s.rawData, check := checkMask (ch.memGen = .d5) s.rawCheck } else memEncode ch.memGen s.rawData
      if s.wqTakes c && !s.glb.hold then (s.wqPush c ll st none true).modGlb fun g => { g with rawDone := some (0, 0, 0x7F) }
      else s.modChan c fun ch => { ch with fixq := ch.fixq ++ [{ ll := ll, st := st, at_ := s.now, plot := none, raw := true }] }

/-- A raw access to a stack location. -/
def State.rawStack (s : State) (k : StackId) (cmd sl : Nat) : State :=
  if 2 ^ 25 ≤ sl then s.rawEnd 1 0 0x7F
  else if (s.stk k).com.st ≠ .inService then s.rawEnd 3 0 0x7F
  else
    let p := pavOf (2 * k.val + sl / 2 ^ 24)
    let l := sl / 64 % 2 ^ 18
    let s := s.modGlb fun g => { g with rawBusy := true, rawDone := none }
    let cmdTo (s : State) (op : StackOp) : State := s.stackCmd p (l % 16384) (l / 16384) (sl % 64) 0 op none
    if cmd = 1 || cmd = 2 then cmdTo s .raw
    else
      let st : Stored := if cmd = 3 then { data := s.rawData, check := checkMask false s.rawCheck } else stackEncode s.rawData
      (cmdTo s (.rawWrite st)).modGlb fun g => { g with rawDone := some (0, 0, 0x7F) }

/-- RAW_CTL.GO: CMD, TGT and INST are those now in RAW_CTL (R356, R357). -/
def State.rawGo (s : State) : State :=
  if s.glb.rawBusy then s.cfgReject R.rawRawCtl 31 .busy else
  let cmd := s.rf R.rawRawCtl 30 28; let tgt := s.rf R.rawRawCtl 27 26; let inst := s.rf R.rawRawCtl 19 16
  let addr := (s.rf R.rawRawAddrHi 19 0 * 2 ^ 32 + s.rf R.rawRawAddrLo 31 6 * 64) / 64
  if cmd = 0 || 4 < cmd || tgt = 3 || (tgt = 2 && decide (8 ≤ inst)) then s.rawEnd 1 0 0x7F
  else if tgt = 0 then s.rawChan (chanOf inst) cmd addr (s.paOfLl inst addr)
  else if tgt = 1 then
    let la : LineAddr := BitVec.ofNat 46 addr
    match (if s.glb.mapValid then s.llOf la else none) with
    | none => s.rawEnd 1 0 0x7F
    | some ll => s.rawChan (s.chanFor la) cmd ll la
  else s.rawStack (stkOf inst) cmd addr

/-- RAW_ACCESS_DONE (R357, R370). -/
def State.rawFinish (s : State) : State :=
  match s.glb.rawDone with
  | none => s
  | some (r, cls, loc) => if s.glb.rawBusy then s.rawEnd r cls loc else s

/-! ## The commands -/

/-- DRAM_READ_ISSUE (R296): `ready` names the banks that can take a command, `u` disturbs the bits read. -/
def execDramReadIssue (c : ChanId) (ready : List Nat) (u : Upset) (s : State) : Host.Outcome State Fault Refusal :=
  live s fun s => s.dramRead c ready u
/-- DRAM_WRITE_ISSUE (R295). -/
def execDramWriteIssue (c : ChanId) (ready : List Nat) (s : State) : Host.Outcome State Fault Refusal :=
  live s fun s => s.dramWrite c ready
/-- LAZY_ZERO_FILL_WRITE (R320). -/
def execLazyZeroFillWrite (c : ChanId) (x : FillIssue) (s : State) : Host.Outcome State Fault Refusal :=
  live s fun s => s.fillWrite c x
/-- BACKGROUND_PASS_START (R322). -/
def execBackgroundPassStart (c : ChanId) (s : State) : Host.Outcome State Fault Refusal :=
  live s fun s => s.bgStart c
/-- REFRESH (R300). -/
def execRefresh (m : MemUnit) (rank : Nat) (s : State) : Host.Outcome State Fault Refusal :=
  live s fun s => s.refresh m rank
/-- MEMORY_TEMP_READ (R301 to R303). -/
def execMemoryTempRead (m : MemUnit) (source : Nat) (celsius : Option Int) (s : State) : Host.Outcome State Fault Refusal :=
  live s fun s => s.tempRead m source celsius
/-- FULL_TRAINING (R307, R308). A stack's failing pseudo-channels are those of its tests; training shows none. -/
def execFullTraining (m : MemUnit) (pass : Bool) (_failPc : W32) (s : State) : Host.Outcome State Fault Refusal :=
  live s fun s => s.fullTrain m pass
/-- FAST_LOAD_VERIFY (R310). -/
def execFastLoadVerify (m : MemUnit) (pass : Bool) (s : State) : Host.Outcome State Fault Refusal :=
  live s fun s => s.fastLoad m pass
/-- MARGIN_WALK_START (R45, R311). -/
def execMarginWalkStart (m : LodgeTimed MemUnit) (s : State) : Host.Outcome State Fault Refusal :=
  live s fun s => s.inBudget .train m.units fun s => s.walkStart m.of
/-- MARGIN_WALK_STEP (R45, R311). -/
def execMarginWalkStep (m : MemUnit) (last : Bool) (r : LodgeTimed WalkResult) (s : State) : Host.Outcome State Fault Refusal :=
  live s fun s => s.inBudget .train r.units fun s => s.walkStep m last r.of
/-- FREQ_CHANGE_START (R313). -/
def execFreqChangeStart (c : ChanId) (verifyNew verifyOld : Bool) (s : State) : Host.Outcome State Fault Refusal :=
  live s fun s => s.freqRun c verifyNew verifyOld
/-- FREQ_HOLD_TIMEOUT (R313). -/
def execFreqHoldTimeout (c : ChanId) (s : State) : Host.Outcome State Fault Refusal :=
  live s fun s => s.freqHold c
/-- STACK_TEST_DONE (R314). -/
def execStackTestDone (k : StackId) (failPc : W32) (s : State) : Host.Outcome State Fault Refusal :=
  live s fun s => s.stackTestEnd k failPc
/-- STACK_BRINGUP (R418). -/
def execStackBringup (s : State) : Host.Outcome State Fault Refusal :=
  live s fun s => s.stackBring
/-- SAMPLE_TEST_DONE (R314, R418). -/
def execSampleTestDone (k : StackId) (failPc : W32) (s : State) : Host.Outcome State Fault Refusal :=
  live s fun s => s.sampleEnd k failPc
/-- MEM_SERVICE_START (R417). -/
def execMemServiceStart (s : State) : Host.Outcome State Fault Refusal :=
  live s fun s => if s.glb.memGoDue then s.memStart else s
/-- RAW_ACCESS_DONE (R357). -/
def execRawAccessDone (s : State) : Host.Outcome State Fault Refusal :=
  live s fun s => s.rawFinish
/-- PATROL_READ (R358). -/
def execPatrolRead (c : ChanId) (s : State) : Host.Outcome State Fault Refusal :=
  live s fun s => s.patrol c
/-- STACK_PATROL_READ (R359). -/
def execStackPatrolRead (k : StackId) (s : State) : Host.Outcome State Fault Refusal :=
  live s fun s => s.stackPatrol k
/-- SURVEY_DONE (R360). -/
def execSurveyDone (m : MemUnit) (s : State) : Host.Outcome State Fault Refusal :=
  live s fun s => s.surveyDone m
/-- LEDGER_ENTRY_EXPIRY (R45, R362). -/
def execLedgerEntryExpiry (c : ChanId) (e : LodgeTimed (Fin 64)) (s : State) : Host.Outcome State Fault Refusal :=
  live s fun s => s.inBudget .scrub e.units fun s => s.ledgerExpire c e.of
/-- TARGETED_REWRITE (R363). -/
def execTargetedRewrite (c : LodgeTimed ChanId) (s : State) : Host.Outcome State Fault Refusal :=
  live s fun s => s.inBudget .scrub c.units fun s => s.targeted c.of
/-- REPAIR_DONE (R45, R364). -/
def execRepairDone (c : ChanId) (spare : LodgeTimed Bool) (s : State) : Host.Outcome State Fault Refusal :=
  live s fun s => s.inBudget .scrub spare.units fun s => s.repairDone c spare.of

end Sys2Proof.Machine
end

