-- ==== Sys2Proof/Machine/Control.lean ====
section
/-!
DEFINITION. Hub cache control: phases, pavilion fences, placements, maintenance operations, preload and locking, and the
Glasshouse debug window (chapters 1 and 6, R412).
-/

namespace Sys2Proof.Machine

/-- The pavilions that are not fenced. -/
def State.unfenced (s : State) : List PavId := allPavs.filter fun p => !s.isFenced p

/-! ## Phase (R412) -/

/-- The phase that the placements give; a pavilion in Transition leaves it (R412). -/
def State.phaseNow (s : State) : Nat :=
  let ps := s.unfenced.map fun p => (s.pav p).place
  if ps.any (· = .transition) then s.glb.phase
  else if ps.all (· = .window) then 1
  else if ps.all (· = .sectored) then 3
  else if ps.all (fun x => x = .ghCache || x = .sectored) then 2 else s.glb.phase

/-- START_EVT.PHASE when the phase changes (R530). -/
def State.phaseUpdate (s : State) : State :=
  let n := s.phaseNow
  if n = s.glb.phase then s else (s.modGlb fun g => { g with phase := n }).raise R.glbStartEvt 10

/-! ## Stale contents (R247) -/

/-- A pavilion holds some entry that is not Invalid. -/
def Pav.hasContents (v : Pav) : Bool :=
  (v.place = .ghCache || v.place = .sectored) &&
    (List.any v.tags (fun (x : Nat × TagEntry) => x.2.st ≠ .invalid) || List.any v.gh (fun (x : Nat × GhEntry) => x.2.valid))

/-- STALE_PAV is set while EN is clear and contents are left (R247). -/
def State.staleUpdate (s : State) : State :=
  if s.glb.hcEn then s else
  s.unfenced.foldl (fun s p => if (s.pav p).hasContents && !(s.pav p).stale then s.modPav p fun v => { v with stale := true } else s) s
def State.anyStale (s : State) : Bool := allPavs.any fun p => (s.pav p).stale

/-! ## Walks of the contents -/

/-- Sets of the tag arrays in a placement (R196, R236). -/
def Place.sets (x : Place) : Nat := if x = .ghCache then 2048 else 16384

/-- One sub-block of a Valid way: op 1 CLEAN, 2 INV, 3 CLEAN_INV (R251). A placement transition's write-backs are charged to no
Plot (R385). -/
def State.actSub (s : State) (p : PavId) (b : Walker) (set way sub op : Nat) : State :=
  let t := (s.pav p).tag set way
  if t.st ≠ .valid || !t.present.getLsbD sub then s
  else if op = 2 then s.clearSub p set way sub
  else if t.dirty.getLsbD sub then
    if (s.pav p).stackq.any fun c => (c.op = .mop true b || (op ≠ 3 && c.op = .mop false b)) && c.set = set && c.way = way && c.sub = sub && c.pa = lineOf t.tag set sub then s
    else s.stackCmd p set way sub (lineOf t.tag set sub) (.mop (op = 3) b) (if b = .place then none else some t.plot)
  else if op = 3 then s.clearSub p set way sub else s

/-- A Glasshouse line, under the same table; a data error in it counts among the engine's errors (R251, R255). -/
def State.actLine (s : State) (p : PavId) (set way op : Nat) (f : PushFor) : State :=
  let e := (s.pav p).ghe set way
  if !e.valid then s
  else if op = 2 then s.modPav p fun v => v.setGhe set way {}
  else if e.dirtyA || e.dirtyB then
    let cls := if e.poison then Cls.poison else (sramDecode false ((s.pav p).ghLineAt (ghKey set way))).cls
    let (s, got) := s.ghRead p (ghKey set way) false true e.poison
    let b := got.getD (0, true)
    let s := match f with
      | .mop _ _ _ _ .engine => s.mopCls cls
      | _ => s
    let s := s.modPav p fun v => v.setGhe set way { v.ghe set way with dirtyA := false, dirtyB := false }
    s.pushLine p { pa := ghLine e.tag set, data := b.1, poison := b.2, for_ := f }
  else if op = 3 then s.modPav p fun v => v.setGhe set way {} else s

/-- Acts on one way of a set, for the lines that pass the test; for a way that must be left for later, the tag of what it holds
or is to hold: it is Filling, Evicting, pinned or waits to be poisoned (R253, R350). -/
def State.actWay (s : State) (p : PavId) (b : Walker) (set way op : Nat) (q : LineAddr → Bool) : State × Option Nat :=
  let v := s.pav p
  if v.holds = .ghCache then
    match v.findMiss fun r => r.2.way = way && ghSet r.2.base = set with
    | some r => (s, if q r.2.base then some (ghTag r.2.base).toNat else none)
    | none =>
      let e := v.ghe set way
      if !e.valid || !q (ghLine e.tag set) then (s, none) else (s.actLine p set way op (.mop set way 0 (op = 3) b), none)
  else
    let t := v.tag set way
    if t.st = .invalid || !(List.range 64).any (fun i => q (lineOf t.tag set i)) then (s, none)
    else if v.pinned set way || v.poisonQ.contains (set, way) || !t.parOk then (s, some t.tag.toNat)
    else ((List.range 64).foldl (fun s i => if q (lineOf t.tag set i) then s.actSub p b set way i op else s) s, none)

/-- No direct write-back and no push of a walk is still on its way to a write queue (R254). -/
def Pav.walkQuiet (v : Pav) : Bool :=
  let walk (f : PushFor) : Bool := match f with
    | .mop _ _ _ _ _ => true
    | .walk => true
    | .cmo _ => true
    | _ => false
  !(v.stackq.any fun c => c.op.writesBack) && !(v.stackRet.any fun r => r.cmd.op.writesBack) && !(v.pushq.any fun j => walk j.for_)

/-- One set of a clean-and-invalidate of everything: the set at the walker's place, then whatever sets still hold something. The
set's entries are read and checked as a lookup reads them (R349); a pavilion that halts stops its walk (R351). -/
def State.emptyStep (s : State) (p : PavId) (b : Walker) (pos : Nat) : State × Nat :=
  let v := s.pav p
  let k := v.holds
  let set := if pos < k.sets then pos
    else if k = .ghCache then (v.gh.head?).elim 0 (fun (x : Nat × GhEntry) => x.1 / 16) else (v.tags.head?).elim 0 (fun (x : Nat × TagEntry) => x.1 / 16)
  let s := if k = .ghCache then s.checkGh p set else s.checkTags p set
  if (s.pav p).halted then (s, pos) else
  (ways16.foldl (fun s w => (s.actWay p b set w 3 fun _ => true).1) s, if pos < k.sets then pos + 1 else pos)
/-- The pavilion's contents have all gone to memory. -/
def Pav.emptied (v : Pav) : Bool := v.walkQuiet && v.evicts.isEmpty && !(v.missList.any fun r => decide (r.2.way < 16)) && (if v.holds = .ghCache then v.gh.isEmpty else v.tags.isEmpty)

/-! ## Placement (R238 to R243) -/

/-- The occupancy of every Plot starts from none (R205, R241). -/
def Pav.occClear (v : Pav) : Pav := { v with meters := v.meters.map fun m => { m with occ := 0 } }

/-- PLACE_CMD.GO with the MODE and PAV now in it (R238). -/
def State.placeGo (s : State) : State :=
  let mode := s.rf R.glbPlaceCmd 17 16; let mask := s.rget R.glbPlaceCmd
  let named := allPavs.filter fun p => mask.getLsbD p.val
  let from_ (x : Place) : Bool := named.all fun p => (s.pav p).place = x
  let ok :=
    !s.glb.placeEng.running && !s.glb.mop.busy && !named.isEmpty && !named.any s.isFenced &&
      (if mode = 1 then
        (from_ .window && s.unfenced.all (fun p => named.contains p) && named.all fun p => (s.chan (chanOf p.val)).com.st = .inService) || from_ .sectored
      else if mode = 2 then from_ .ghCache && named.all fun p => (s.stk (stackOfPav p)).com.st = .inService
      else false)
  if !ok then (s.cfgReject R.glbPlaceCmd (if mode = 1 || mode = 2 then 31 else 16) (if mode = 1 || mode = 2 then .busy else .range)).raise R.glbPlaceStat 10
  else s.modGlb fun g => { g with placeEng := { running := true, mode := if mode = 1 then .ghCache else .sectored, mask := BitVec.ofNat 16 mask.toNat
                                                started := false, disabled := !g.hcEn } }

/-- The first tick: the named pavilions enter Transition (R240 to R242 step 2). -/
def State.placeTick (s : State) : State :=
  let e := s.glb.placeEng
  if !e.running || e.started then s else
  let s := s.modGlb fun g => { g with placeEng := { g.placeEng with started := true } }
  s.unfenced.foldl (fun s p => if e.mask.getLsbD p.val then
    s.modPav p fun v => { v with from_ := v.place, place := .transition, walkPos := 0, walkEnd := none, moved := [] } else s) s

/-- The boot window's line that a home keeps at an index: PA[15:12] is what the home's hash value makes it (R232). -/
def State.windowLine (s : State) (p : PavId) (idx : Nat) : Option LineAddr :=
  let base := s.rf R.glbBootWin 27 0 * 2 ^ 18 + idx / 64 * 2 ^ 10 + idx % 64
  ((List.range 16).map fun x => (BitVec.ofNat 46 (base + x * 64) : LineAddr)).find? fun (la : LineAddr) => s.home la = p

/-- PLACEMENT_WALKER_STEP: one window line, or one set (R240 to R242 steps 3 and 4). DESIGN CHOICE: the data bits of a Glasshouse
whose entries are cleared to Invalid become zero; and where a fence has given one home two window lines of one index, which share one
SRAM line, the walker pushes the one with the lower address (log entry 319). A halted pavilion's walk stands still (R351). -/
def State.placeStep (s : State) (p : PavId) : State :=
  let v := s.pav p
  if v.place ≠ .transition || v.walkEnd.isSome || s.isFenced p || v.halted then s else
  match v.from_ with
  | .window =>
    if v.walkPos < 16384 && !s.glb.noWindow then
      let idx := v.walkPos
      let s := s.modPav p fun v => { v with walkPos := idx + 1, moved := v.moved.filter (· ≠ idx) }
      if v.moved.contains idx then s else
      match s.windowLine p idx with
      | none => s
      | some la => s.windowPush p la
    else if v.walkQuiet then
      s.modPav p fun v => { v with gh := [], ghData := [], plru := [], sramFix := v.sramFix.filter fun x => x.1.isSome, walkEnd := some s.glb.tickNum }
    else s
  | _ =>
    if decide (v.holds.sets ≤ v.walkPos) && v.emptied then
      (s.rset (R.pavLockMask p) 0).modPav p fun v =>
        { v.occClear with tags := [], gh := [], ghData := [], plru := [], sramFix := v.sramFix.filter fun x => x.1.isSome, walkEnd := some s.glb.tickNum }
    else
      let (s, pos) := s.emptyStep p .place v.walkPos
      s.modPav p fun v => { v with walkPos := pos }

/-- The last pavilion that a transition names has reached its placement, or been fenced (R240 to R242 step 6). -/
def State.placeCheck (s : State) : State :=
  if !s.glb.placeEng.running || !s.glb.placeEng.started || s.unfenced.any fun q => (s.pav q).place = .transition then s
  else ((s.modGlb fun g => { g with placeEng := {} }).raise R.glbPlaceStat 9).phaseUpdate

/-- PLACEMENT_COMPLETE: the tick after step 4, the pavilion is in its new placement; the last one ends the transition
(R240 to R243). -/
def State.placeEnd (s : State) (p : PavId) : State :=
  let v := s.pav p
  match v.walkEnd with
  | none => s
  | some t =>
    if v.place ≠ .transition || s.glb.tickNum ≤ t || s.isFenced p then s else
    let s := s.modPav p fun v => { v with place := s.glb.placeEng.mode, walkPos := 0, walkEnd := none, moved := []
                                          stale := if s.glb.placeEng.disabled then false else v.stale }
    s.placeCheck

/-! ## Fences (R30 to R34) -/

/-- The tag store of a pavilion, or its Glasshouse entries, pass a read check (R31). -/
def Pav.tagsReadable (v : Pav) : Bool :=
  List.all v.tags (fun (x : Nat × TagEntry) => x.2.parOk) && (v.holds ≠ .ghCache || List.all v.gh fun (x : Nat × GhEntry) => x.2.parOk)

/-- The lines whose newest data a halted pavilion holds: dirty sub-blocks and Glasshouse lines, the Orangery, copies and
write-backs in flight, and written lines in miss registers (R31). -/
def Pav.dirtyLines (v : Pav) : List LineAddr :=
  let tags := v.tags.flatMap fun (x : Nat × TagEntry) =>
    if x.2.st = .invalid then [] else ((List.range 64).filter x.2.dirty.getLsbD).map fun b => lineOf x.2.tag (x.1 / 16) b
  let gh := if v.holds ≠ .ghCache then [] else
    (List.filter (fun (x : Nat × GhEntry) => x.2.valid && (x.2.dirtyA || x.2.dirtyB)) v.gh).map fun x => ghLine x.2.tag (x.1 / 16)
  let fly := v.evicts.flatMap fun e => e.inFlight.map fun b => lineOf e.tag e.set b
  let wb := (v.stackRet.filter fun r => r.cmd.op.writesBack).map fun r => r.cmd.pa
  let regs := v.missList.flatMap fun r => ((List.range r.2.gsize).filter fun i => r.2.written.getLsbD i && !r.2.done.getLsbD i).map fun i => r.2.base + BitVec.ofNat 46 i
  (tags ++ gh ++ v.orang.map (·.pa) ++ fly ++ wb ++ regs).dedup

/-- A failed fence's walk: poison for every line whose newest data is in the pavilion, whose stores are then done with. Evictions
that wait in its buffer are written as they are. Poison is recorded (R31, R355). -/
def State.fencePoison (s : State) (p : PavId) : State :=
  let v := s.pav p
  let s := s.modPav p fun v =>
    { v with tags := [], gh := [], orang := [], orRsv := 0, evicts := [], stackq := [], stackRet := [], miss := [], merging := [], poisonQ := [], evBuf := [] }
  let s := v.dirtyLines.foldl (fun s la => (s.pushLine p { pa := la, data := 0, poison := true }).event .poisonMade p.val (la.toNat * 64) (store := .tags)) s
  v.evBuf.foldl (fun s e => s.pushLine p { pa := e.pa, data := e.data, poison := e.poison, plot := e.plot }) s

/-- The walk cannot complete: the share's lines are unspecified from here on (R31). -/
def State.shareLost (s : State) (p : PavId) : State :=
  let s := (s.raise R.glbIlStat 9).fatal 15
  (List.range 16).foldl (fun s h =>
    if s.glb.ilMap.getD h 0 = p.val then
      let gone (ch : Chan) (w : WqEnt) : WqEnt := { w with st := memEncode ch.memGen (Config.lostLine s.freeCtr w.ll) }
      let s := s.modChan (chanOf h) fun ch => { ch with lost := some s.freeCtr, dram := [], wq := ch.wq.map (gone ch), fixq := ch.fixq.map (gone ch) }
      s.drawn
    else s) s

/-- The walk of a failed fence is over once its pushes, and those that waited before it, are in the write queues: from here the map
waits for the next tick, so that the new home never reads what is still to come (R31). -/
def State.fenceWalked (s : State) : State :=
  let f := s.glb.fence
  if f.running && f.failed && f.stage = 3 && (s.pav (pavOf f.pav)).pushq.isEmpty then
    s.modGlb fun g => { g with fence := { g.fence with stage := 4, tick := g.tickNum } }
  else s

/-- PAV_FENCE.GO with the fields now in it; `walkOk` says whether the walk of a failed fence completes (R30, R31, R33). DESIGN
CHOICE: a failed fence of a pavilion that is not halted is accepted and runs, as no rule rejects it. -/
def State.fenceGo (s : State) (walkOk : Bool) : State :=
  let o := R.glbPavFence
  let p := pavOf (s.rf o 3 0); let t := pavOf (s.rf o 11 8)
  if s.glb.fence.running || s.isFenced p || s.isFenced t || t = p then (s.cfgReject o 31 .busy).raise R.glbIlStat 10
  else if s.rbit o 4 then
    let s := s.modGlb fun g => { g with fence := { running := true, pav := p.val, target := t.val, failed := true, stage := 3, pos := 0, tick := g.tickNum } }
    (if walkOk && (s.pav p).tagsReadable then s.fencePoison p else s.shareLost p).fenceWalked
  else s.modGlb fun g => { g with fence := { running := true, pav := p.val, target := t.val, failed := false, stage := 1, pos := 0 } }

/-- The next step of a fence, which goes on with the clock: the walk of a failed one (R31), or steps 2 to 4 of R30. DESIGN CHOICE: an orderly one of a halted pavilion
is accepted and takes no step, since the pavilion leaves that state only through a failed fence (R351). -/
def State.fenceStep (s : State) : State :=
  let f := s.glb.fence
  if !f.running then s else
  if f.failed then s.fenceWalked else
  let p := pavOf f.pav
  let v := s.pav p
  if v.halted then s else
  let stage (s : State) (n : Nat) : State := s.modGlb fun g => { g with fence := { g.fence with stage := n, pos := 0, tick := g.tickNum } }
  if f.stage = 1 then (if v.tt.isEmpty then stage s 2 else s)
  else if f.stage = 2 then
    if v.dir.isEmpty && v.tt.isEmpty then stage s 3 else
    let s := (v.dir.map fun x => x.1 / 24).dedup.foldl (fun s set => s.checkDir p set) s
    let v := s.pav p
    match List.find? (fun (x : Nat × DirEntry) => x.2.st ≠ .free && v.unblocked (dirLine x.2.tag (x.1 / 24))) v.dir with
    | none => s
    | some x =>
      match s.startRecall p .recallFence (dirLine x.2.tag (x.1 / 24)) with
      | none => s
      | some (s, e) => (s.advance p e).pump p
  else if f.stage = 3 then
    if v.place = .window then (if v.orang.isEmpty && v.pushq.isEmpty && v.evBuf.isEmpty then stage s 4 else s)
    else if decide (v.holds.sets ≤ f.pos) && v.emptied && v.orang.isEmpty && v.pushq.isEmpty && v.evBuf.isEmpty && v.miss.isEmpty then stage s 4
    else
      let (s, pos) := s.emptyStep p .fence f.pos
      s.modGlb fun g => { g with fence := { g.fence with pos := pos } }
  else s

/-- A transaction of a pavilion lost to a failed fence is answered with poisoned data, AgentLost (R32). -/
def State.txnLost (s : State) (p : PavId) (e : Nat) (t : Txn) : State :=
  match t.kind, portOf? t.port with
  | .req op, some n =>
    if t.issued then s else
    let s := if isReadOp op && op ≠ Op.stashAcc then s.modIo n fun io => { io with answered := t.tid :: io.answered } else s
    if op = Op.rdS then s.answerFor n t.num (dataMsg Op.dataS t (htidOf p e) 0 true Status.agentLost)
    else if op = Op.rdOnce then s.answerFor n t.num (dataMsg Op.dataI t (htidOf p e) 0 true Status.agentLost)
    else if op = Op.rdO || op = Op.upg || op = Op.stashAcc then s.answerFor n t.num (dataMsg Op.dataE t (htidOf p e) 0 true Status.agentLost)
    else
      -- a completed write joins the port's ring (R144)
      let s := if isWriteOp op then s.modIo n fun io => { io with ring := ((t.tid, t.pa, Status.agentLost) :: io.ring).take 64 } else s
      (s.answerFor n t.num (compMsg t.tid t.pa Status.agentLost (htidOf p e)) (some t.tid)).orderPoint t.port t.num
  | _, _ => s

/-- FENCE_MAP_UPDATE: at the next tick the share moves to its new home (R30 steps 5 and 6, R31, R32). A recovery of moved
shares goes on at the new home, and suspect sets, REBUILD, STALE and the placement field stay as they are (R150, R151, R247,
R272). -/
def State.fenceMap (s : State) : State :=
  let f := s.glb.fence
  if !f.running || f.stage ≠ 4 || s.glb.tickNum ≤ f.tick then s else
  let p := pavOf f.pav
  let moved := (List.range 16).filter fun h => s.glb.ilMap.getD h 0 = f.pav
  let s := if f.failed then
      let s := (s.pav p).txns.foldl (fun s x => s.txnLost p x.1 x.2) s
      s.modPav (pavOf f.target) fun v => { v with rebuild := (v.rebuild ++ moved).dedup }
    else s.modPav (pavOf f.target) fun v => { v with rebuild := (v.rebuild ++ (s.pav p).rebuild).dedup }
  let s := s.modPav p fun v =>
    { pushq := v.pushq, stack := v.stack, place := v.place, from_ := v.from_, meters := v.meters, ageTrim := v.ageTrim
      stale := v.stale, suspect := v.suspect, rebuild := v.rebuild }
  let s := s.modGlb fun g =>
    { g with ilMap := g.ilMap.map fun x => if x = f.pav then f.target else x
             fenced := setBits g.fenced f.pav f.pav 1, fence := {} }
  (((s.raise R.glbIlStat 8).phaseUpdate).sweepCheck).placeCheck

/-! ## Maintenance operations (R249 to R256) -/

/-- An operation completes (R255). -/
def State.mopFinish (s : State) (r : Nat) : State :=
  (s.modGlb fun g => { g with mop := { nofit := g.mop.nofit, errs := g.mop.errs, wb := g.mop.wb }, mopResult := r, doneNum := g.opnum }).raise R.glbHcMopStat 8

/-- RANGE walks the tags when SIZE is larger than the data capacity of the placements (R252). -/
def State.mopTagWalk (s : State) (m : Mop) : Bool :=
  m.op = 5 || m.scope = 3 || (m.scope = 2 && m.op ≠ 4 &&
    decide ((if s.unfenced.any (fun p => (s.pav p).place = .sectored) then 2 ^ 34 else 2 ^ 25) < m.size))

/-- The argument checks that give BADARG (R255). -/
def State.mopBad (s : State) (m : Mop) : Bool :=
  let p := pavOf (m.setway / 2 ^ 19); let way := m.setway / 2 ^ 14 % 32; let set := m.setway % 2 ^ 14
  let range := m.size = 0 || decide (2 ^ 52 < m.base + m.size)
  if m.op = 5 then m.disabled
  else if m.op = 4 then
    m.scope ≠ 2 || range || m.base % 4096 ≠ 0 || m.size % 4096 ≠ 0 || decide (12 * 2 ^ 30 < m.size) || m.ways = 0
  else if m.op = 0 || 5 < m.op then true
  else if m.scope = 1 then decide (16 < way) || s.isFenced p || decide ((s.pav p).place.sets ≤ set)
  else if m.scope = 2 then range
  else false

/-- HC_MOP_CTL.GO with the arguments now in the registers (R249). -/
def State.mopGo (s : State) : State :=
  if s.glb.mop.busy then (s.raise R.glbHcMopStat 9).cfgReject R.glbHcMopCtl 31 .busy else
  let o := R.glbHcMopCtl
  let m : Mop :=
    { busy := true, op := s.rf o 30 28, scope := s.rf o 27 26, plot := BitVec.ofNat 6 (s.rf o 5 0)
      base := s.rf R.glbHcMopBaseHi 19 0 * 2 ^ 32 + s.rf R.glbHcMopBaseLo 31 6 * 64
      size := s.rf R.glbHcMopSizeHi 20 0 * 2 ^ 32 + s.rf R.glbHcMopSizeLo 31 6 * 64
      setway := s.rf R.glbHcMopSetway 22 0, ways := BitVec.ofNat 16 (s.rf R.glbHcMopWays 15 0), disabled := !s.glb.hcEn }
  let s := s.modGlb fun g => { g with mop := m, opnum := (g.opnum + 1) % 256 }
  if s.glb.placeEng.running then s.mopFinish 3
  else if s.mopBad m then s.mopFinish 2
  else if s.unfenced.any fun p => (s.pav p).place = .window || (s.pav p).place = .transition then s.mopFinish 3
  else if m.op = 4 && s.unfenced.any fun p => (s.pav p).place ≠ .sectored then s.mopFinish 3
  else if m.op = 4 || m.op = 5 then s
  else s.modGlb fun g => { g with mop := { g.mop with stage := 1 } }

/-- The tick of PRELOAD and DISABLE_CLEAN: ways are locked, allocation stops, or the disable takes effect (R256, R258,
R259). -/
def State.mopTick (s : State) : State :=
  let m := s.glb.mop
  if !m.busy then s
  else if m.stage = 0 && m.op = 4 then
    let mask (p : PavId) : BitVec 16 := BitVec.ofNat 16 (s.rf (R.pavLockMask p) 15 0)
    if s.unfenced.any fun p => decide (12 < popcount (mask p ||| m.ways)) then s.mopFinish 4
    else
      let new := allPavs.map fun p => m.ways &&& ~~~(mask p)
      let s := s.unfenced.foldl (fun s p => s.rset (R.pavLockMask p) (BitVec.ofNat 32 (mask p ||| m.ways).toNat)) s
      s.modGlb fun g => { g with mop := { g.mop with stage := 1, newWays := new } }
  else if m.stage = 0 then s.modGlb fun g => { g with mop := { g.mop with stage := 1 }, disableClean := true }
  else if m.stage = 4 then
    let s := (s.rfSet R.glbHcCtl 0 0 0).modGlb fun g => { g with hcEn := false, disableClean := false }
    s.mopFinish (if m.errs ≠ 0 then 1 else 0)
  else s

/-- A line is in the operation's scope (R250). -/
def State.mopScope (s : State) (m : Mop) (p : PavId) (la : LineAddr) : Bool :=
  if m.op = 5 || m.scope = 3 then true
  else if m.scope = 0 then la.toNat * 64 = m.base
  else if m.scope = 1 then p = pavOf (m.setway / 2 ^ 19) && (if (s.pav p).holds = .ghCache then ghSet la else setOf la) = m.setway % 2 ^ 14
  else decide (m.base ≤ la.toNat * 64) && decide (la.toNat * 64 < m.base + m.size)

def Mop.posOf (m : Mop) (p : PavId) : Nat := m.pos.getD p.val 0
/-- Steps of the walk in one pavilion. -/
def State.mopSteps (s : State) (m : Mop) (p : PavId) : Nat :=
  if m.op = 4 && m.stage = 1 then 16384
  else if m.op = 4 then m.size / 4096
  else if s.mopTagWalk m then (s.pav p).holds.sets
  else if m.scope = 1 then (if p = pavOf (m.setway / 2 ^ 19) then 1 else 0)
  else if m.scope = 0 then 1
  else (m.base % 4096 + m.size + 4095) / 4096

/-- The walk has reached its end in a pavilion, with nothing left to return to. -/
def State.mopWalked (s : State) (p : PavId) : Bool :=
  let m := s.glb.mop
  decide (s.mopSteps m p ≤ m.posOf p) && !(m.again.any fun x => x.1 = p.val)

/-- The engine will return to what a way holds (R253). -/
def State.mopLater (s : State) (p : PavId) (set way tag : Nat) : State :=
  s.modGlb fun g => { g with mop := { g.mop with again := g.mop.again ++ [(p.val, set, way, tag)] } }

/-- The set's entries are read, and their parity failures counted as errors (R255). -/
def State.mopCheck (s : State) (p : PavId) (set : Nat) : State :=
  let gh := (s.pav p).holds = .ghCache
  let n := (ways16.filter fun w => if gh then !((s.pav p).ghe set w).parOk else !((s.pav p).tag set w).parOk && !(s.pav p).poisonQ.contains (set, w)).length
  if n = 0 then s else (if gh then s.checkGh p set else s.checkTags p set).mopErrs n

/-- The operation that the walk carries out (R250, R256, R259 step 3). -/
def Mop.act (m : Mop) : Nat := if 3 < m.op then 3 else m.op

/-- Ways of a set in scope. -/
def State.mopWays (s : State) (p : PavId) (set : Nat) (ways : List Nat) (q : LineAddr → Bool) : State :=
  let s := s.mopCheck p set
  if (s.pav p).halted then s else
  ways.foldl (fun s w =>
    match s.actWay p .engine set w s.glb.mop.act q with
    | (s, none) => s
    | (s, some tag) => s.mopLater p set w tag) s

/-- The tag of the sector or line that a way holds, or that a register is to put into it. -/
def Pav.tagIn (v : Pav) (set way : Nat) : Option Nat :=
  if v.holds = .ghCache then
    match v.findMiss fun r => r.2.way = way && ghSet r.2.base = set with
    | some r => some (ghTag r.2.base).toNat
    | none => if (v.ghe set way).valid then some (v.ghe set way).tag.toNat else none
  else if (v.tag set way).st = .invalid then none else some (v.tag set way).tag.toNat

/-- The lines of one sector in scope, wherever its home holds them (R252). -/
def State.mopSector (s : State) (p : PavId) (sec : Nat) : State :=
  let q := s.mopScope s.glb.mop p
  let ln (b : Nat) : LineAddr := BitVec.ofNat 46 (sec * 64 + b)
  if (s.pav p).holds = .ghCache then
    (List.range 64).foldl (fun s b => if q (ln b) then s.mopWays p (ghSet (ln b)) ways16 fun la => la = ln b else s) s
  else s.mopWays p (setOf (ln 0)) ways16 fun la => q la && la.toNat / 64 = sec

/-! ### Preload (R259, R260) -/

/-- Registers that fetch for PRELOAD. -/
def Pav.preRegs (v : Pav) : Nat := (v.missList.filter fun r => r.2.preload).length

/-- A register that fetches one group of a preloaded sector into a way (R210, R260). -/
def State.preGroup (s : State) (p : PavId) (base : LineAddr) (way : Nat) (alloc : Bool) (k : PlotId) : State :=
  let v := s.pav p
  let ln (i : Nat) : LineAddr := base + BitVec.ofNat 46 i
  let bits (f : Nat → Bool) : BitVec 8 := BitVec.ofNat 8 ((List.range 8).foldl (fun a i => a + (if f i then 2 ^ i else 0)) 0)
  let need (i : Nat) : Bool := !(v.tag (setOf base) way).present.getLsbD (subOf (ln i)) && (v.regFor (ln i)).isNone
  match v.freeReg with
  | none => s
  | some r =>
    let x : MissReg :=
      { base := base, gsize := 8, way := way, allocating := alloc, plot := k, preload := true
        want := bits fun i => need i && (v.orFor (ln i)).isNone && !v.subHeld (ln i)
        waitEv := bits fun i => need i && v.subHeld (ln i) && (v.evictHolds (ln i) || (v.orFor (ln i)).isNone) }
    let s := s.modPav p fun v => { v with miss := FMap.insert v.miss r x }
    let s := (List.range 8).foldl (fun s i =>
      if !need i || v.evictHolds (ln i) then s else
      match (s.pav p).orFor (ln i) with
      | none => s
      | some o => s.orRecall p r i o true) s
    s.regCommit p r

/-- Fetches the missing sub-blocks of a sector into its way. -/
def State.preFetch (s : State) (p : PavId) (la : LineAddr) (way : Nat) (alloc : Bool) : State :=
  let k := s.glb.mop.plot
  (List.range 8).foldl (fun s g =>
    let base : LineAddr := la + BitVec.ofNat 46 (8 * g)
    let t := (s.pav p).tag (setOf la) way
    if (List.range 8).all fun i => t.present.getLsbD (8 * g + i) then s else s.preGroup p base way (alloc && g = 0) k) s

/-- One sector of the range (R260). DESIGN CHOICE: a sector outside the fixed channel map has no memory behind it and takes no way
(R285); it counts in NOFIT. DEDUCED: a sector with a line that a live register covers is revisited like a pinned one, so that
all of its missing sub-blocks are fetched (log entry 320). -/
def State.preSector (s : State) (p : PavId) (sec : Nat) : State :=
  let m := s.glb.mop
  let la : LineAddr := BitVec.ofNat 46 (sec * 64)
  let set := setOf la
  let s := s.mopCheck p set
  let v := s.pav p
  if v.halted then s else
  let free := ways16.find? fun w => m.ways.getLsbD w && (v.tag set w).st = .invalid && !v.pinned set w
  let nofit (s : State) : State := s.modGlb fun g => { g with mop := { g.mop with nofit := satAdd g.mop.nofit 1 0xFFFF } }
  let alloc (s : State) (w : Nat) : State :=
    (s.modPav p fun v => (v.setTag set w { tag := tagOf la, st := .filling, plot := m.plot }).occAdd m.plot).preFetch p la w true
  if s.unmapped la then nofit s else
  let covered := (List.range 64).any fun b => (v.regFor (la + BitVec.ofNat 46 b)).isSome
  if covered || (v.evicts.any fun e => e.set = set && e.tag = tagOf la) || (v.pendFor la).isSome then s.mopLater p set (16 + sec) 0 else
  match v.wayOf la with
  | some w =>
    if v.pinned set w || v.poisonQ.contains (set, w) then s.mopLater p set (16 + sec) 0
    else if m.ways.getLsbD w then s.preFetch p la w false
    else match free with
      | none => nofit s
      | some f => if 8 ≤ v.evicts.length || v.unreserved < popcount (v.tag set w).dirty then s.mopLater p set (16 + sec) 0 else alloc (s.startEvict p set w) f
  | none => match free with
    | none => nofit s
    | some f => alloc s f

/-- MOP_STEP: the engine's next slot in a pavilion (R252, R253, R259). -/
def State.mopStep (s : State) (p : PavId) : State :=
  let m := s.glb.mop
  if !m.busy || s.isFenced p || (s.pav p).halted || !(m.stage = 1 || m.stage = 2) then s else
  let n := m.posOf p
  let pre := m.op = 4 && m.stage = 2
  if pre && (decide (56 < (s.pav p).preRegs) || decide (504 < (s.pav p).miss.length)) then s
  else if n < s.mopSteps m p then
    let s := s.modGlb fun g => { g with mop := { g.mop with pos := g.mop.pos.set p.val (n + 1) } }
    if m.op = 4 && m.stage = 1 then s.mopWays p n (ways16.filter (m.newWays.getD p.val 0).getLsbD) fun _ => true
    else if pre || (!s.mopTagWalk m && m.scope ≠ 1) then
      let sec := m.base / 4096 + n
      if s.home (BitVec.ofNat 46 (sec * 64)) ≠ p then s else if pre then s.preSector p sec else s.mopSector p sec
    else if s.mopTagWalk m then s.mopWays p n ways16 (s.mopScope m p)
    else
      let way := m.setway / 2 ^ 14 % 32
      s.mopWays p (m.setway % 2 ^ 14) (if way = 16 then ways16 else [way]) fun _ => true
  else
    match m.again.find? fun x => x.1 = p.val with
    | none => s
    | some x =>
      let s := s.modGlb fun g => { g with mop := { g.mop with again := g.mop.again.erase x } }
      if pre then s.preSector p (x.2.2.1 - 16)
      -- it returns to that sector; one that has left the way since is in the Orangery or gone (R252, R254)
      else if (s.pav p).tagIn x.2.1 x.2.2.1 ≠ some x.2.2.2 then s
      else s.mopWays p x.2.1 [x.2.2.1] (if m.op = 4 || m.scope = 1 then fun _ => true else s.mopScope m p)

/-- Orangery lines of the scope that have not yet been accepted by a write queue (R254). -/
def State.mopOrang (s : State) (p : PavId) : Bool :=
  let q := s.mopScope s.glb.mop p
  (s.pav p).orang.any (fun o => q o.pa) || (s.pav p).pushq.any fun j => q j.pa

/-- MOP_COMPLETE: the next stage, or completion (R254 to R256, R259). -/
def State.mopComplete (s : State) : State :=
  let m := s.glb.mop
  let ps := s.unfenced.filter fun p => !(s.pav p).halted
  if !m.busy || !(ps.all fun p => s.mopWalked p && (s.pav p).walkQuiet) then s
  else if m.op = 4 && m.stage = 1 then s.modGlb fun g => { g with mop := { g.mop with stage := 2, pos := List.replicate 16 0, again := [] } }
  else if m.op = 4 && m.stage = 2 then
    if ps.all fun p => (s.pav p).preRegs = 0 then s.mopFinish (if m.errs ≠ 0 then 1 else if m.nofit ≠ 0 then 5 else 0) else s
  else if m.stage ≠ 1 then s
  else if (m.op = 1 || m.op = 3 || m.op = 5) && ps.any s.mopOrang then s
  else if m.op = 5 then s.modGlb fun g => { g with mop := { g.mop with stage := 4 } }
  else
    let s := if (m.op = 2 || m.op = 3) && m.scope = 3 && m.disabled then ps.foldl (fun s p => s.modPav p fun v => { v with stale := false }) s else s
    s.mopFinish (if m.errs ≠ 0 then 1 else 0)

/-- Locked ways' Invalid entries (R261). -/
def State.lockEmpty (s : State) (p : PavId) : Nat :=
  let mask := s.rget (R.pavLockMask p)
  16384 * popcount (mask &&& 0xFFFF) - (List.filter (fun (x : Nat × TagEntry) => mask.getLsbD (x.1 % 16) && x.2.st ≠ .invalid) (s.pav p).tags).length

/-! ## The Glasshouse debug window (R235) -/

/-- A 32-bit read at a Glasshouse byte offset: corrected data in WINDOW, the stored bits otherwise. While the SRAM holds sector
tags, whose places in it the spec does not give, the word is a free value. -/
def State.ghDebugRead (s : State) (p : PavId) (off : Nat) : State × W32 :=
  let idx := off / 64 % 32768
  let word (d : Line) : W32 := BitVec.ofNat 32 (d.toNat >>> (32 * (off / 4 % 16)))
  if (s.pav p).place = .window then
    let (s, got) := s.ghRead p idx true true false
    (s, word (got.getD (0, true)).1)
  else if (s.pav p).holds = .sectored then (s.drawn, Config.tagBits s.freeCtr)
  else (s, word ((s.pav p).ghLineAt idx).data)

/-- A 32-bit write in WINDOW merges into the line and rewrites its check bits; a poisoned line keeps its poison (R148, R346). -/
def State.ghDebugWrite (s : State) (p : PavId) (off : Nat) (v : W32) : State :=
  let idx := off / 64 % 32768; let k := off / 4 % 16
  let (s, got) := s.ghRead p idx true true false
  let d := (got.getD (0, true)).1
  s.modPav p fun x => x.setGhLine idx (if (got.getD (0, true)).2 then windowPoison else sramEncode (setBits d (32 * k + 31) (32 * k) v.toNat))

/-! ## The commands -/

/-- FENCE_MAP_UPDATE (R30). -/
def execFenceMapUpdate (s : State) : Host.Outcome State Fault Refusal := live s fun s => s.fenceMap
/-- PLACEMENT_WALKER_STEP (R240 to R242). -/
def execPlacementWalkerStep (p : PavId) (s : State) : Host.Outcome State Fault Refusal := live s fun s => (s.placeStep p).slotUse p 2
/-- PLACEMENT_COMPLETE (R240 to R242). -/
def execPlacementComplete (p : PavId) (s : State) : Host.Outcome State Fault Refusal := live s fun s => s.placeEnd p
/-- MOP_STEP (R251 to R253, R260). -/
def execMopStep (p : PavId) (s : State) : Host.Outcome State Fault Refusal := live s fun s => (s.mopStep p).slotUse p 2
/-- MOP_COMPLETE (R255). -/
def execMopComplete (s : State) : Host.Outcome State Fault Refusal := live s fun s => s.mopComplete

end Sys2Proof.Machine
end

