-- ==== Sys2Proof/Machine/Regulation.lean ====
section
/-!
DEFINITION. Plot regulation at the tick: meters, latency averages and priorities, deliverable bandwidth, overcommit and
budgets, the admission of a guarantee, congestion and the service budgets (chapter 9, R46).
-/

namespace Sys2Proof.Machine

def allPlots : List (Fin 64) := List.finRange 64

/-! ## Meters and latency (R387, R392, R393) -/

def sat32 (x : Nat) : Nat := min x 0xFFFFFFFF

/-- The meters of the ending tick are summed and cleared (R387). -/
def State.sumMeters (s : State) : State :=
  let tot (f : PlotMeter → Nat) (k : Fin 64) : Nat := sat32 (allPavs.map fun p => f (s.pav p).meters[k]).sum
  let s := s.modGlb fun g => { g with plotRd := Vector.ofFn (tot (·.rd)), plotWr := Vector.ofFn (tot (·.wr)) }
  forPavs s fun p s => s.modPav p fun v =>
    { v with meters := v.meters.map fun m => { m with rdLast := sat32 m.rd, wrLast := sat32 m.wr, rd := 0, wr := 0 } }

/-- The latency average after a tick, in 1/256 ns (R392). -/
def avgNext (avg sum cnt : Nat) : Nat :=
  if cnt = 0 then avg
  else
    let m : Int := (256 * sum / (3 * cnt) : Nat)
    ((avg : Int) + (m - (avg : Int)).tdiv 8).toNat

/-- The latency priority of an average under a target in ns and a base priority (R393). -/
def latPriority (avg t b : Nat) : Nat :=
  if t = 0 then min b 3
  else
    let a := 100 * avg; let x := 256 * t
    if a < 60 * x then b else if a < 80 * x then b + 1 else if a < 95 * x then b + 2 else if a < 100 * x then b + 3 else 7

/-- Item 3 of the apply window: averages and priorities of every Plot in every pavilion (R392, R393). -/
def State.latTick (s : State) : State :=
  let tgt (k : Fin 64) : Nat := s.rf (R.regPlotLat k) 15 0
  let base (k : Fin 64) : Nat := s.rf (R.regPlotLat k) 18 16
  forPavs s fun p s => s.modPav p fun v =>
    { v with meters := Vector.ofFn fun k =>
        let m := v.meters[k]
        let a := avgNext m.avg m.latSum m.latCnt
        { m with avg := a, latSum := 0, latCnt := 0, pri := latPriority a (tgt k) (base k) } }

/-- AVG of a Plot is cleared in the window in which a new LAT_TGT takes effect (R392). -/
def State.avgClear (s : State) (k : Fin 64) : State :=
  forPavs s fun p s => s.modPav p fun v => { v with meters := v.meters.set k { v.meters[k] with avg := 0 } }

/-! ## Deliverable bandwidth, overcommit and budgets (R398 to R402) -/

/-- D of a channel, in MB/s times 7,207,200,000: the least common multiple of 1 to 16 makes 1/n exact (R398). -/
def State.delivChan (s : State) (c : ChanId) : Nat :=
  let ch := s.chan c
  if ch.com.st ≠ .inService then 0
  else
    let n := (s.glb.ilMap.filter fun x => x = (s.homeOfChan c).val).length
    rateOf ch.freq * 8 * 72 * (if ch.com.ref2x then 93 else 100) * (720720 / max n 1)

/-- Exact D over all channels. -/
def State.delivAll (s : State) : Nat := (allChans.map s.delivChan).sum

/-- The sum of the guarantees in force. -/
def State.gbwSum (s : State) : Nat := (allPlots.map fun k => s.rf (R.regPlotGbw k) 15 0).sum

/-- The comparison of R401: SCALE, OVC.ACTIVE and GBW_EFF; nothing while D is 0. -/
def State.overcommit (s : State) : State :=
  let d := s.glb.deliv; let g := s.gbwSum
  if d = 0 then s else
  let ovr := decide (9 * d < 10 * g)
  let s := if ovr && !s.glb.ovcActive then s.raise R.regEvt 8 else if !ovr && s.glb.ovcActive then s.raise R.regEvt 9 else s
  let sc := if ovr then 1024 * 9 * d / (10 * g) else 1024
  s.modGlb fun x => { x with ovcActive := ovr, scale := sc, gbwEff := Vector.ofFn fun k => s.rf (R.regPlotGbw k) 15 0 * sc / 1024 }

/-- The refill of every budget; T is the length in µs of the tick that begins (R402). -/
def State.refill (s : State) (t : Nat) : State :=
  let d := s.delivAll
  let eff := s.glb.gbwEff
  forChans s fun c s =>
    let dc := s.delivChan c
    s.modChan c fun ch => { ch with budget := Vector.ofFn fun k => if d = 0 then 0 else eff[k] * t * 10 * dc / (64 * d) }

/-- Item 3 of the apply window for the regulation block (R387, R392, R393, R398, R401, R402). -/
def State.regTick (s : State) (t : Nat) : State :=
  let s := s.sumMeters.latTick
  let s := s.modGlb fun g => { g with deliv := s.delivAll / (100000 * 720720) }
  s.overcommit.refill t

/-- The admission of a guarantee: pending values count (R399, R400). -/
def State.gbwAdmit (s : State) (k : Fin 64) (g : Nat) : Bool :=
  let cur (j : Fin 64) : Nat := bitsOf (s.rpend (R.regPlotGbw j)) 15 0
  let sum := ((allPlots.filter fun j => j ≠ k).map cur).sum
  s.glb.deliv = 0 || decide (g ≤ cur k) || decide (10 * (sum + g) ≤ 9 * s.glb.deliv)

/-! ## Congestion (R395) -/

/-- The congestion flag of a channel follows its depths every cc (R395). -/
def State.congestion (s : State) (c : ChanId) : State :=
  let ch := s.chan c
  let m := s.rget R.regMqMark
  let hi := decide (bitsOf m 15 8 ≤ ch.rq.length) || decide (bitsOf m 31 24 ≤ ch.wq.length)
  let lo := decide (ch.rq.length ≤ bitsOf m 7 0) && decide (ch.wq.length ≤ bitsOf m 23 16)
  let now := ch.com.st = .inService && (hi || (ch.congested && !lo))
  if now = ch.congested then s else s.modChan c fun ch => { ch with congested := now }

/-! ## Lodge service budgets (R45, R46) -/

/-- The budgets of the tick that begins, its length in µs given: scaled down to 80 % where they sum to more (R46). -/
def State.scaleBudgets (s : State) (t : Nat) : State :=
  let v := s.rget R.bandSvcBudget
  let b := [bitsOf v 7 0, bitsOf v 15 8, bitsOf v 23 16, bitsOf v 31 24]
  let limit := 16 * t
  let ovr := decide (limit < b.sum)
  let s := if ovr && !s.glb.scaling then s.raise R.bandSvcStat 8 else s
  s.modGlb fun g => { g with scaling := ovr, used := [0, 0, 0, 0], scaled := if ovr then b.map fun x => x * limit / b.sum else b }

end Sys2Proof.Machine
end

