-- ==== Sys2Proof/Machine/Power.lean ====
section
/-!
DEFINITION. Power states, gating, the thermal trip, and port enable and quiesce (chapter 10).
-/

namespace Sys2Proof.Machine

/-- A power event with its record (R423, R428, R438). -/
def State.pwrEvt (s : State) (bit : Nat) : State := (s.raise R.glbPwrEvt bit).event .power bit 0

/-! ## Entry (R421, R423, R426) -/

/-- Something runs that R421 names. -/
def State.pwrBusy (s : State) : Bool :=
  s.glb.placeEng.running || s.glb.mop.busy || s.glb.fence.running || s.glb.rawBusy
    || allPorts.any (fun n => (s.port n).io.qst = .refusing || (s.port n).io.qst = .sweeping)
    || allChans.any (fun c => (s.chan c).freqChg.isSome || (s.chan c).pprRun.isSome)
    || allStks.any fun k => (s.stk k).com.st = .test

/-- STANDBY or HIBERNATE is accepted: ingress holds, surveys and walks end (R423 step 1). -/
def State.pwrEnter (s : State) (st : Pwr) : State :=
  let s := s.modGlb fun g => { g with pwr := st, pwrAt := s.now, hold := true, hibClean := false }
  let off (m : MemUnit) (s : State) : State := (s.surveyAbort m).modCom m fun x => { x with walk := false }
  forStks (forChans s fun c s => off (.chan c) s) fun k s => off (.stack k) s

/-- The pavilion has completed everything it has started (R423 step 2). -/
def Pav.drained (v : Pav) : Bool :=
  v.tt.isEmpty && v.miss.isEmpty && v.evicts.isEmpty && v.evBuf.isEmpty && v.pushq.isEmpty && v.stackq.isEmpty && v.stackRet.isEmpty && v.sweeps.isEmpty
/-- A message that dispatch holds: REQ, PST or NPI (R423). -/
def heldClass (m : Msg) : Bool := let c := classOf m.hdr.opcode; c = 0 || c = 4 || c = 5
def Port.drained (p : Port) : Bool :=
  p.io.arb.isEmpty && p.io.rdt.isEmpty && p.io.fences.isEmpty && p.io.ingress.isEmpty && !(p.link.rxq.any heldClass)
def Chan.drained (ch : Chan) : Bool :=
  ch.rq.isEmpty && ch.wq.isEmpty && ch.fixq.all (·.raw) && ch.rets.isEmpty && ch.fills.all (·.isNone)
def State.drained (s : State) : Bool :=
  allPavs.all (fun p => (s.pav p).drained) && allPorts.all (fun n => (s.port n).drained) && allChans.all fun c => (s.chan c).drained

/-- Channels in service enter self-refresh (R304). -/
def State.chansSleep (s : State) : State :=
  forChans s fun c s => if (s.chan c).com.st = .inService then s.modCom (.chan c) fun x => { x with st := .selfRefresh } else s

/-- STANDBY_DRAIN_DONE: memories enter self-refresh and the links are asked into LOWPOWER, or HIBERNATE goes on to its clean (R423
step 3, R426). -/
def State.drainDone (s : State) : State :=
  if !s.drained then s
  else match s.glb.pwr with
    | .standbyEntry =>
      let s := forStks s.chansSleep fun k s => if (s.stk k).com.st = .inService then s.modCom (.stack k) fun x => { x with st := .selfRefresh } else s
      -- no measurement runs in STANDBY (R491)
      (s.modLodge fun l => { l with roArm := false, eyeArm := false }).modGlb fun g => { g with lowAsk := true }
    | .hibernateEntry =>
      if s.glb.hibClean then s else
      let s := s.modGlb fun g => { g with hibClean := true }
      -- stale contents are invalidated, never written over newer memory (R426 step 2)
      s.unfenced.foldl (fun s p => s.modPav p fun v =>
        if v.stale then { v.occClear with tags := [], gh := [], walkPos := v.holds.sets } else { v with walkPos := 0 }) s
    | _ => s

/-- Step 3 of R423 goes on with the clock: each ACTIVE link is asked into LOWPOWER, whatever LP_EN holds, and STANDBY is reached
once none is left (step 4). -/
def State.lowStep (s : State) : State :=
  if !s.glb.lowAsk then s else
  let s := forPorts s fun n s => if (s.port n).link.st = .active && (s.port n).link.ctlReq.isNone then s.lpAsk n else s
  if allPorts.any fun n => (s.port n).link.st = .active || (s.port n).link.st = .recovery then s
  else (s.modGlb fun g => { g with pwr := .standby, lowAsk := false }).pwrEvt 8

/-- One set of the clean in every pavilion, which goes on with the clock (R426 step 2); a halted pavilion's walk stands still (R351). -/
def State.hibStep (s : State) : State :=
  if !s.glb.hibClean then s else
  s.unfenced.foldl (fun s p =>
    if (s.pav p).halted || (s.pav p).place = .window || (decide ((s.pav p).holds.sets ≤ (s.pav p).walkPos) && (s.pav p).emptied) then s else
    let (s, pos) := s.emptyStep p .engine (s.pav p).walkPos
    s.modPav p fun v => { v with walkPos := pos }) s

/-- A port as the power-off of HIBERNATE leaves it: its saved equalisation is kept (R426, R427). -/
def State.portOff (s : State) (n : PortId) : State :=
  s.modPort n fun p =>
    { link := { st := if s.rbit (R.portLinkCtl n) 30 then .disabled else if p.link.st = .down && p.io.qst ≠ .none then .down else .detect, since := s.now
                saved := p.link.saved, eqNew := p.link.eqNew, eqSetting := p.link.eqSetting, present := p.link.present, btnState := p.link.btnState
                btnRun := p.link.btnRun, preRun := p.link.preRun, delayPs := p.link.delayPs }
      io := { p.io with enabled := false, tids := [], answered := [], opens := [] } }

/-- HIBERNATE_CLEAN_DONE: everything dirty is in memory; the hub powers off (R426 steps 3 and 4). -/
def State.cleanDone (s : State) : State :=
  let quiet (p : PavId) : Bool := (s.pav p).drained && (s.pav p).orang.isEmpty && ((s.pav p).place = .window || (s.pav p).emptied)
  if !s.glb.hibClean || !(s.unfenced.all quiet) || !(allChans.all fun c => (s.chan c).drained) then s else
  let s := s.chansSleep
  let s := forStks s fun k s => s.modStk k fun x => { x with tested := false, com := { x.com with st := .off, walk := false } }
  let s := forPavs s fun p s => s.modPav p fun v =>
    { v.occClear with tags := [], gh := [], ghData := [], plru := [], dir := [], nru := [], stack := [], stkRows := [], sramFix := []
                      stale := false, walkPos := 0 }
  let s := forPorts s fun n s => s.portOff n
  (s.modGlb fun g => { g with pwr := .hibernate, hibClean := false }).pwrEvt 8

/-- Answers that ports owe leave once dispatch is released (R423, R425). -/
def State.release (s : State) : State := forPorts (s.modGlb fun g => { g with hold := false }) fun n s => s.localAnswers n

/-- STANDBY_TIMEOUT (R423). -/
def State.standbyTimeout (s : State) : State :=
  let p := s.glb.pwr
  if !(p = .standbyEntry || p = .hibernateEntry) || s.glb.hibClean || s.glb.lowAsk || s.now < s.glb.pwrAt + s.rf R.glbPwrCfg 9 0 * 1000 * ccPerUs then s
  else (s.modGlb fun g => { g with pwr := .active }).release.pwrEvt 10

/-! ## Ports (R429 to R433) -/

/-- A rejected SVC_CTL command (R429, R433). -/
def State.svcReject (s : State) (n : PortId) (bit : Nat) : State :=
  (s.cfgReject (R.portSvcCtl n) bit .busy).raise (R.portSvcStat n) 9

def State.svcEnable (s : State) (n : PortId) : State :=
  let p := s.port n
  if p.link.up && !p.io.enabled && p.io.qst = .none then (s.modIo n fun io => { io with enabled := true }).grantCredits n
  else s.svcReject n 29

def State.svcQuiesce (s : State) (n : PortId) : State :=
  let p := s.port n
  if p.io.qst ≠ .none || s.glb.pwr = .standbyEntry || s.glb.pwr = .hibernateEntry || s.glb.pwr = .exit then s.svcReject n 31
  else s.modIo n fun io => { io with qst := .refusing, swept := false, quiesced := false }

def State.svcRelease (s : State) (n : PortId) : State :=
  if (s.port n).io.qst ≠ .down then s.svcReject n 30
  else (s.modIo n fun io => { io with qst := .none }).linkSettle n

/-- SVC_CTL: at most one of QUIESCE, RELEASE and ENABLE (R433). -/
def State.svcRun (s : State) (n : PortId) (v : W32) : State :=
  let q := v.getLsbD 31; let r := v.getLsbD 30; let e := v.getLsbD 29
  if (q && r) || (q && e) || (r && e) then s.svcReject n (if e then 29 else 30)
  else if q then s.svcQuiesce n else if r then s.svcRelease n else if e then s.svcEnable n else s

/-- A write of SVC_CTL: in STANDBY it takes effect at the exit (R424). -/
def State.svcCtl (s : State) (n : PortId) (v : W32) : State :=
  if s.glb.pwr = .standby then s.modIo n fun io => { io with svcLate := io.svcLate ++ [v] } else s.svcRun n v

/-- The writes of SVC_CTL that STANDBY has held back. -/
def State.svcLates (s : State) (n : PortId) : State :=
  (s.port n).io.svcLate.foldl (fun s v => s.svcRun n v) (s.modIo n fun io => { io with svcLate := [] })

/-! ## Exit (R305, R425, R427) -/

/-- Channels and stacks leave self-refresh and their calibration begins, which STATE shows as TRAINING (R290, R305). -/
def State.wakeMems (s : State) : State :=
  let go (m : MemUnit) (s : State) : State := if (s.com m).st = .selfRefresh then s.modCom m fun x => { x with st := .training, calib := true } else s
  forStks (forChans s fun c s => go (.chan c) s) fun k s => go (.stack k) s

/-- The calibrations end; a channel or stack that fails is trained again (R305). -/
def State.calibrate (s : State) (r : CalibResult) : State :=
  let s := forChans s fun c s =>
    if !(s.chan c).com.calib then s
    else if r.chanOk.getLsbD c.val then (s.modCom (.chan c) fun x => { x with last := 4, calib := false }).enterService c
    else s.modCom (.chan c) fun x => { x with calib := false, recal := true, training := false }
  forStks s fun k s =>
    if !(s.stk k).com.calib then s
    else if r.stackOk.getLsbD k.val then (s.modCom (.stack k) fun x => { x with st := .inService, last := 4, calib := false }).refStart (.stack k)
    else s.modCom (.stack k) fun x => { x with calib := false, recal := true, training := false }

/-- LINK_CTL.DISABLE as written: the link goes to DISABLED, over DOWN where one was up, or leaves it for DETECT (R60). -/
def State.disableLink (s : State) (n : PortId) : State :=
  let l := (s.port n).link
  if s.rbit (R.portLinkCtl n) 30 then
    if l.st = .disabled || l.st = .down then s.linkSettle n
    else if l.keeps then s.linkDown n
    else s.modLink n fun l => { l with st := .disabled, since := s.now, gen := 0, width := 0, level := 0, locked := 0, echoes := [], fallback := false, target := 0 }
  else if l.st = .disabled then s.linkTo n .detect else s

/-- EXIT is accepted (R425 step 1). -/
def State.pwrExit (s : State) (r : CalibResult) : State :=
  s.modGlb fun g => { g with pwr := .exit, pwrAt := s.now, exiting := some (r, decide (g.pwr = .hibernate), 0) }

/-- The ports are clocked: LINK_CTL.DISABLE takes effect as written while they stood, links leave LOWPOWER with the hub's training
sets, and one that was training goes on with it (R91, R424, R425 step 3). -/
def State.portsWake (s : State) : State :=
  forPorts s fun n s =>
    let s := s.disableLink n
    if (s.port n).link.st = .lowpower then (s.sendEnd n).linkResume n
    else if (s.port n).link.training then s.modLink n fun l => { l with since := s.now } else s

/-- From HIBERNATE, pavilions enter GH_CACHE and stack bring-up is due (R427). DESIGN CHOICE: no rule rejects HIBERNATE while pavilions
are in WINDOW, though R230's table has no such move; they enter GH_CACHE too, and the window's contents are lost with the SRAM (log
entry 321). -/
def State.hibWake (s : State) : State :=
  let s := s.unfenced.foldl (fun s p => s.modPav p fun v => { v with place := .ghCache }) s
  ((s.modGlb fun g => { g with stackUp := true, stackReady := false }).raise R.glbPlaceStat 9).phaseUpdate

/-- Time in µs after an EXIT at which each step of it is done: memories out of self-refresh, links, calibrations, service. DESIGN
CHOICE: R425 and R305 give these as limits, and the model takes the limit. -/
def exitUs : List Nat := [80, 150, 280, 300]

/-- An exit goes on with the clock (R305, R425, R427). -/
def State.exitStep (s : State) : State :=
  match s.glb.exiting with
  | none => s
  | some (r, hib, k) =>
    if s.now < s.glb.pwrAt + exitUs.getD k 0 * ccPerUs then s else
    let s := s.modGlb fun g => { g with exiting := some (r, hib, k + 1) }
    if k = 0 then s.wakeMems
    else if k = 1 then (if hib then s.portsWake.hibWake else s.portsWake)
    else if k = 2 then s.calibrate r
    else
      let s := s.modGlb fun g => { g with pwr := .active, exiting := none }
      (forPorts s.release fun n s => s.svcLates n).pwrEvt 8

/-- Configuration requests of the host are answered with Configuration Request Retry Status until the later of 20 ms after PWROK
and 1 ms after PERST_N is released (R416). -/
def State.cfgRetry (s : State) : Bool := s.glb.perst || decide (s.now < max (20000 * ccPerUs) (s.glb.perstAt + 1000 * ccPerUs))

/-- PWR_CMD.GO with the CMD now in it (R421). -/
def State.pwrGo (s : State) (r : CalibResult) : State :=
  let cmd := s.rf R.glbPwrCmd 1 0
  let reject (s : State) : State := (if cmd = 0 then s.cfgReject R.glbPwrCmd 0 .range else s.cfgReject R.glbPwrCmd 31 .busy).raise R.glbPwrEvt 9
  if cmd = 1 || cmd = 2 then
    if s.glb.pwr ≠ .active || s.pwrBusy || (cmd = 2 && allPorts.any fun n => (s.port n).io.enabled) then reject s
    else s.pwrEnter (if cmd = 1 then .standbyEntry else .hibernateEntry)
  else if cmd = 3 then
    if !(s.glb.pwr = .standby || s.glb.pwr = .hibernate)
        || allChans.any (fun c => (s.chan c).com.st = .selfRefresh && !s.rbit (R.chanCfg c) 31) then reject s
    else s.pwrExit r
  else reject s

/-! ## Gating and temperature (R422, R428) -/

/-- Idle in the sense of R422. -/
def Pav.idle (v : Pav) : Bool :=
  v.tt.isEmpty && v.miss.isEmpty && v.evBuf.isEmpty && v.evicts.isEmpty && v.stackq.isEmpty && v.orang.isEmpty

def State.clockStop (s : State) (p : PavId) : State :=
  if s.rbit R.glbPavGate p.val && (s.pav p).idle then s.modPav p fun v => { v with gated := true } else s

/-- The junction maximum of the ordering code (R2). -/
def tjMax : Int := if Config.codeE then 105 else 100

/-- The trip stops every clock outside the always-on domain; the DIMMs lose their contents (R428). -/
def State.trip (s : State) : State :=
  let s := forChans s fun c s => s.modChan c fun ch => { ch with dram := [], init := [], fills := [none, none, none, none], com := { ch.com with st := .off } }
  s.modGlb fun g => { g with tripped := true, thermtrip := true, tripAt := some s.now, tripRec := false }

def State.tjRead (s : State) (t : Int) : State :=
  let s := s.modGlb fun g => { g with tj := t }
  let s := s.modLodge fun l => { l with tjHi := some (l.tjHi.elim t (max t)), tjSum := l.tjSum + t, tjCnt := l.tjCnt + 1 }
  let s := if t > tjMax then s.pwrEvt 12 else s
  if t ≥ 120 then s.trip else s

/-! ## The sweep of a quiesce (R430) -/

/-- The port has transactions in a table or in its ingress (R430 step 2). -/
def State.portBusy (s : State) (n : PortId) : Bool :=
  allPavs.any (fun p => (s.pav p).txns.any fun x => x.2.port = n.val) || (s.port n).io.ingress.any fun x => x.loc.isNone && x.tgt.isNone

def State.quiesceSweep (s : State) (n : PortId) : State :=
  if (s.port n).io.qst ≠ .refusing || s.portBusy n then s else
  let s := (s.modIo n fun io => { io with qst := .sweeping }).sweepStart n
  (forPavs s fun p s => s.pump p).sweepCheck

def State.quiesceEnd (s : State) (n : PortId) : State :=
  let io := (s.port n).io
  if io.qst ≠ .sweeping || io.sweeping || !io.swept || !io.arb.isEmpty || !io.rdt.isEmpty then s
  else (s.modIo n fun io => { io with qst := .down }).linkDown n

/-! ## The commands -/

/-- STANDBY_DRAIN_DONE (R423, R426). -/
def execStandbyDrainDone (s : State) : Host.Outcome State Fault Refusal := live s fun s => s.drainDone
/-- STANDBY_TIMEOUT (R423). -/
def execStandbyTimeout (s : State) : Host.Outcome State Fault Refusal := live s fun s => s.standbyTimeout
/-- HIBERNATE_CLEAN_DONE (R426). -/
def execHibernateCleanDone (s : State) : Host.Outcome State Fault Refusal := live s fun s => s.cleanDone
/-- PAVILION_CLOCK_STOP (R422). -/
def execPavilionClockStop (p : PavId) (s : State) : Host.Outcome State Fault Refusal := live s fun s => s.clockStop p
/-- JUNCTION_TEMP_READ (R428). -/
def execJunctionTempRead (celsius : Int) (s : State) : Host.Outcome State Fault Refusal := live s fun s => s.tjRead celsius
/-- QUIESCE_SWEEP_START (R430). -/
def execQuiesceSweepStart (n : PortId) (s : State) : Host.Outcome State Fault Refusal := live s fun s => s.quiesceSweep n
/-- QUIESCE_COMPLETE (R430). -/
def execQuiesceComplete (n : PortId) (s : State) : Host.Outcome State Fault Refusal := live s fun s => s.quiesceEnd n
/-- PERST (R416): only the endpoint's own state is reset. The host's configuration of the endpoint, which no command shows,
enables MSI-X once PERST_N is released. -/
def execPerst (asserted : Bool) (s : State) : Host.Outcome State Fault Refusal :=
  live s fun s => s.modGlb fun g =>
    if asserted then { g with perst := true, msixEn := false, msixMask := false, msixPend := 0, msixTable := [] }
    else if !g.perst then g else { g with perst := false, perstAt := s.now, msixEn := true }

end Sys2Proof.Machine
end

