-- ==== Sys2Proof/Machine/Time.lean ====
section
/-!
DEFINITION. The Bandstand timebase, its discipline by TREF, PPS_IN and IEEE 1588, PPS_OUT and the time commands
(chapter 12).
-/

namespace Sys2Proof.Machine

/-! ## The timebase (R477) -/

def nsFrac : Nat := 2 ^ 40

/-- The timebase moved on by units of 2^-40 ns. -/
def Band.advance (b : Band) (u : Nat) : Band :=
  let f := b.frac + u
  let n := b.ns + f / nsFrac
  { b with frac := f % nsFrac, ns := n % 1000000000, sec := (b.sec + n / 1000000000) % 2 ^ 48 }

/-- What a slew adds to one increment: at most 50 µs per second (R484). -/
def Band.slewPart (b : Band) : Int :=
  let r : Int := (min (b.inc * 5 / 100000) (Config.slewRate + 1) : Nat)
  if b.slewing then max (-r) (min r b.slew) else 0

/-- One cc of the timebase (R477, R484). -/
def Band.tick (b : Band) : Band :=
  let d := b.slewPart
  { b.advance ((b.inc : Int) + d).toNat with slew := b.slew - d }

/-- The timebase in units of 100 ps. -/
def Band.t100 (b : Band) : Nat := b.sec * 10000000000 + b.ns * 10 + b.frac * 10 / nsFrac
/-- The timebase set to a time in units of 100 ps. -/
def Band.setT100 (b : Band) (t : Nat) : Band :=
  { b with sec := t / 10000000000 % 2 ^ 48, ns := t / 10 % 1000000000, frac := t % 10 * nsFrac / 10 }

def State.timeEvt (s : State) (bit : Nat) : State := s.raise R.bandTimeEvt bit

/-! ## PPS_OUT (R485, R488) -/

/-- The second boundaries passed, and the distance from the last in 100 ps, on the scale that PPS_OUT follows. -/
def State.ppsScale (s : State) : Nat × Nat :=
  let t := ((s.band.t100 : Int) + (BitVec.ofNat 8 (s.rf R.bandPpsCfg 23 16)).toInt).toNat
  (t / 10000000000, t % 10000000000)

/-- PPS_OUT rises within 1 ns of a boundary that has not had its pulse. -/
def State.ppsPulse (s : State) : State :=
  let (k, d) := s.ppsScale
  if s.rbit R.bandPpsCfg 31 && !s.glb.ppsOut && k ≠ s.band.ppsSec && decide (d ≤ 10) then
    (s.modGlb fun g => { g with ppsOut := true }).modBand fun b => { b with ppsSec := k, ppsOutAt := s.now }
  else s

/-- PPS_OUT falls 100 ms after it rose (R488). -/
def State.ppsEnd (s : State) : State :=
  if s.glb.ppsOut && decide (s.band.ppsOutAt + 100000 * ccPerUs ≤ s.now) then s.modGlb fun g => { g with ppsOut := false } else s

/-- A step of the timebase: it makes no PPS_OUT pulse (R485). -/
def State.stepped (s : State) (f : Band → Band) : State :=
  let s := (s.modBand f).timeEvt 10
  let k := s.ppsScale.1
  s.modBand fun b => { b with ppsSec := k }

/-! ## The servo (R480 to R483) -/

/-- The increment after an error of a second; the last 16 are kept (R480, R481, R483). -/
def Band.steer (b : Band) (e : Int) : Band :=
  let i := Config.servo b.inc e
  { b with inc := i, incs := (i :: b.incs).take 16 }

/-- HOLDOVER: the increment is frozen at the mean of the last 16 one-second values (R480). -/
def State.holdover (s : State) : State :=
  (s.modBand fun b =>
    { b with st := .holdover, holdAt := s.now, good := 0, inc := if b.incs.isEmpty then b.inc else b.incs.sum / b.incs.length }).timeEvt 12

/-- TREF_25 names the oscillator that is fitted (R481). -/
def State.trefMatch (s : State) : Bool := s.rbit R.bandTimeCtl 29 = s.band.trefFit25

/-- TREF is lost (R481). -/
def State.trefLost (s : State) : State :=
  let s := s.modBand fun b => { b with trefOk := false, trefBad := s.now }
  if s.band.src = 1 && (s.band.st = .locking || s.band.st = .locked) then s.holdover else s

/-- The timebase's phase accrued against TREF in a 1 s window, in 100 ps: `edges` were counted, each a period of 10 or 25 MHz, and the
window ended `rest` after the last. DEDUCED: positive when the timebase is ahead, like the phase error of FOLLOW (log entry 323). -/
def State.trefPhase (s : State) (edges : Nat) (rest : Int) : Int :=
  10000000000 - ((edges * (if s.rbit R.bandTimeCtl 29 then 400 else 1000) : Nat) + rest)

/-- The end of a 1 s window against TREF: ERR takes the phase, more than 100 ppm is a loss, and the lock needs 10^-9 (R480, R481,
R498). -/
def State.trefWindow (s : State) (edges : Nat) (rest : Int) : State :=
  let s := s.modBand fun b => { b with trefSeen := true }
  let e := s.trefPhase edges rest
  if s.band.src ≠ 1 then s
  else
    let s := s.modBand fun b => { b with err := e }
    if decide (1000000 < e.natAbs) || !s.trefMatch then s.trefLost
    else if s.band.st = .locking || s.band.st = .locked then
      let g := if e.natAbs ≤ 10 then s.band.good + 1 else 0
      let s := s.modBand fun b => { b.steer e with good := g }
      if s.band.st = .locking && decide (4 ≤ g) then (s.modBand fun b => { b with st := .locked }).timeEvt 11 else s
    else s

/-- TREF has been good for 10 s (R481, R482). -/
def State.trefGood (s : State) : State :=
  if s.band.trefOk || !s.trefMatch || s.now < s.band.trefBad + 10000000 * ccPerUs then s
  else s.modBand fun b =>
    { b with trefOk := true, trefSeen := true, st := if b.src = 1 then .locking else b.st, good := if b.src = 1 then 0 else b.good }

/-- The offset from the grandmaster in ns (R489). -/
def Band.offset (b : Band) : Int := b.syncRaw - b.pathDelay

/-- A PPS_IN edge, `sub` times 100 ps into its cc; a step that it calls for waits for the next apply window (R477, R483, R485). -/
def State.ppsEdge (s : State) (sub : Nat) : State :=
  let s := s.modBand fun b => { b with ppsOk := true, ppsAt := s.now }
  let b := s.band
  if b.src ≠ 2 then s else
  let t : Int := (b.t100 + sub : Nat) - (BitVec.ofNat 16 (s.rf R.bandPpsCfg 15 0)).toInt
  let sec := (t - (if b.ptpAt.isSome then b.offset * 10 else 0) + 5000000000) / 10000000000
  let e := t - sec * 10000000000
  let limit := if b.st = .locked then 1000000 else 10000
  if limit < e.natAbs then
    s.modBand fun b => { b with err := e, st := .locking, good := 0, stepBack := some e }
  else
    let g := if e.natAbs ≤ 50 then b.good + 1 else 0
    let s := s.modBand fun b => { b.steer e with err := e, good := g, st := if b.st = .locked then .locked else .locking }
    if s.band.st = .locking && decide (8 ≤ g) then (s.modBand fun b => { b with st := .locked }).timeEvt 11 else s

/-- No PPS_IN edge for 1.5 s (R483). -/
def State.ppsLost (s : State) : State :=
  let b := s.band
  let follow := b.src = 2 && (b.st = .locking || b.st = .locked)
  if !(b.ppsOk || follow) || s.now < b.ppsAt + 1500000 * ccPerUs then s
  else
    let s := s.modBand fun b => { b with ppsOk := false }
    if !follow then s
    else if b.ptpAt.isSome then (s.modBand fun b => { b with st := .locked1588, good := 0 }).timeEvt 13
    else s.holdover.timeEvt 13

/-- A change of SRC at a tick (R479). -/
def State.srcApply (s : State) : State :=
  let src := s.rf R.bandTimeCtl 31 30
  if src = s.band.src then s
  else s.modBand fun b =>
    { b with src := src, good := 0, ppsAt := s.now
             st := if src = 0 || (src = 1 && !b.trefOk) then .freerun else .locking }

/-! ## Setting the time (R484, R485) -/

/-- TIME_CMD.GO with the OP now in it. -/
def State.timeGo (s : State) : State :=
  let op := s.rf R.bandTimeCmd 1 0
  let ns := s.rf R.bandTimeSetNs 29 0
  let reject (bit : Nat) (r : Reason) : State := (s.cfgReject R.bandTimeCmd bit r).timeEvt 9
  if op = 0 || op = 3 then reject 0 .range
  else if 999999999 < ns then reject 31 .range
  else if s.rf R.bandTimeCtl 31 30 = 2 || s.band.stepPend.isSome then reject 31 .busy
  else if op = 1 then
    s.modBand fun b => { b with stepPend := some ((s.rget R.bandTimeSetSecLo).toNat + s.rf R.bandTimeSetSecHi 15 0 * 2 ^ 32, ns) }
  else s.modBand fun b => { b with slew := (s.rget R.bandTimeAdj).toInt * nsFrac, slewing := true }

/-- A pending STEP and a follower step take effect before item 1 of the window; a STEP abandons a slew in progress (R484, R485). -/
def State.stepApply (s : State) : State :=
  let s := match s.band.stepPend with
    | none => s
    | some (sec, ns) => s.stepped fun b => { b with sec := sec, ns := ns, frac := 0, stepPend := none, slew := 0, slewing := false }
  match s.band.stepBack with
  | none => s
  | some e => s.stepped fun b =>
      { b.setT100 ((b.t100 : Int) - e).toNat with syncRaw := b.syncRaw - e / 10, reqNs := b.reqNs - e / 10, stepBack := none }

/-- The slew has ended (R484). -/
def State.slewEnd (s : State) : State :=
  if s.band.slewing && s.band.slew = 0 then (s.modBand fun b => { b with slewing := false }).timeEvt 8 else s

/-! ## IEEE 1588 (R489, R490) -/

/-- The hub runs IEEE 1588: enabled, and it holds a PLCA ID. -/
def State.ptpRuns (s : State) : Bool := s.rbit R.bandTimeCtl 28 && s.lodge.plca ≠ 0
def State.ptpDomain (s : State) : Nat := s.rf R.bandTimeCtl 23 16
/-- A timestamp at the PHY: seconds and nanoseconds with 10 ns resolution. -/
def Band.stamp (b : Band) : List Nat := [b.sec, b.ns / 10 * 10]

/-- The same as one number of ns. -/
def Band.stampNs (b : Band) : Int := (b.sec * 1000000000 + b.ns / 10 * 10 : Nat)
/-- Destination and EtherType of Annex E (R489). -/
def ptpMac : BitVec 48 := 0x011B19000000
def ptpType : BitVec 16 := 0x88F7
/-- An IEEE 1588 message leaves. -/
def State.ptpOut (s : State) (kind : Nat) (fields : List Nat) : State := s.emit (.ptp ptpMac ptpType kind fields)

/-- A grandmaster's Announce, Sync and Follow_Up, once per second. -/
def State.syncSend (s : State) : State :=
  if !s.ptpRuns || s.band.src = 2 || s.now < s.band.syncDue then s else
  let d := s.ptpDomain
  let s' := s.modBand fun b => { b with syncDue := s.now + 1000000 * ccPerUs }
  ((s'.ptpOut 0 [d, s.rf R.bandTimeCtl 15 0, s.rf R.bandTimeCtl 27 27, 248, if s.band.st = .locked then 0x21 else 0xFE]).ptpOut 1 [d]).ptpOut 2
    (d :: s.band.stamp)

/-- A follower takes a Sync with its Follow_Up, whose arrival it stamps (R483, R489, R490). -/
def State.syncTake (s : State) (m : SyncMsg) : State :=
  let b := s.band
  if !s.ptpRuns || b.src ≠ 2 || m.dstMac ≠ ptpMac || m.etherType ≠ ptpType || m.domain ≠ s.ptpDomain || b.ignored.contains m.clockId then s else
  if b.gm.isSome && b.gm ≠ some m.clockId && decide (s.now ≤ b.gmAt + 3000000 * ccPerUs) then
    (s.modBand fun b => { b with ignored := m.clockId :: b.ignored }).timeEvt 14
  else
    let s := s.modBand fun b => { b with gm := some m.clockId, gmAt := s.now }
    if !m.valid then s else
    let s := s.modBand fun b => { b with ptpAt := some s.now, syncRaw := b.stampNs - m.originNs }
    let s := if s.band.st = .holdover && !s.band.ppsOk then s.modBand fun b => { b with st := .locked1588 } else s
    if s.band.st = .locked1588 then s.modBand fun b => b.steer (b.offset * 10) else s

/-- A follower's Delay_Req, every 8 s. -/
def State.delayReq (s : State) : State :=
  if !s.ptpRuns || s.band.src ≠ 2 || s.now < s.band.delayReqDue then s
  else (s.modBand fun b => { b with delayReqDue := s.now + 8000000 * ccPerUs, reqNs := b.stampNs }).ptpOut 3 [s.ptpDomain]

/-- A grandmaster answers Delay_Req with Delay_Resp. -/
def State.delayAnswer (s : State) (requester : BitVec 64) : State :=
  if !s.ptpRuns || s.band.src = 2 then s else s.ptpOut 4 (s.ptpDomain :: s.band.stamp ++ [requester.toNat])

/-- A follower takes the Delay_Resp of its grandmaster, which says when the Delay_Req arrived there: the mean of the two ways. -/
def State.delayTake (s : State) (id : BitVec 64) (received : Int) : State :=
  if !s.ptpRuns || s.band.src ≠ 2 || s.band.gm ≠ some id then s
  else s.modBand fun b => { b with pathDelay := (b.syncRaw + (received - b.reqNs)) / 2 }

/-- No valid Sync for 3 s clears PTP_OK (R483). -/
def State.ptpLost (s : State) : State :=
  match s.band.ptpAt with
  | none => s
  | some t =>
    if s.now < t + 3000000 * ccPerUs then s
    else
      let s := s.modBand fun b => { b with ptpAt := none }
      if s.band.src = 2 && s.band.st = .locked1588 then s.holdover else s

/-! ## The commands -/

/-- TREF_WINDOW (R480, R481). -/
def execTrefWindow (edges : Nat) (rest100ps : Int) (s : State) : Host.Outcome State Fault Refusal := live s fun s => s.trefWindow edges rest100ps
/-- TREF_LOSS (R481): no edge for 1 µs. -/
def execTrefLoss (s : State) : Host.Outcome State Fault Refusal := live s fun s => s.trefLost
/-- TREF_GOOD (R481, R482). -/
def execTrefGood (s : State) : Host.Outcome State Fault Refusal := live s fun s => s.trefGood
/-- PPS_IN_EDGE (R483). -/
def execPpsInEdge (sub100ps : Nat) (s : State) : Host.Outcome State Fault Refusal := live s fun s => s.ppsEdge sub100ps
/-- PPS_IN_LOSS (R483). -/
def execPpsInLoss (s : State) : Host.Outcome State Fault Refusal := live s fun s => s.ppsLost
/-- SLEW_DONE (R484). -/
def execSlewDone (s : State) : Host.Outcome State Fault Refusal := live s fun s => s.slewEnd
/-- PPS_OUT_PULSE (R488). -/
def execPpsOutPulse (s : State) : Host.Outcome State Fault Refusal := live s fun s => s.ppsPulse
/-- PPS_OUT_PULSE_END (R488). -/
def execPpsOutPulseEnd (s : State) : Host.Outcome State Fault Refusal := live s fun s => s.ppsEnd
/-- SYNC_SEND (R489). -/
def execSyncSend (s : State) : Host.Outcome State Fault Refusal := live s fun s => s.syncSend
/-- SYNC_RECEIVE (R489, R490). -/
def execSyncReceive (m : SyncMsg) (s : State) : Host.Outcome State Fault Refusal := live s fun s => s.syncTake m
/-- DELAY_REQ_SEND (R489). -/
def execDelayReqSend (s : State) : Host.Outcome State Fault Refusal := live s fun s => s.delayReq
/-- DELAY_REQ_RECEIVE (R489). -/
def execDelayReqReceive (requester : BitVec 64) (s : State) : Host.Outcome State Fault Refusal := live s fun s => s.delayAnswer requester
/-- DELAY_RESP_RECEIVE (R489). -/
def execDelayRespReceive (clockId : BitVec 64) (receivedNs : Int) (s : State) : Host.Outcome State Fault Refusal :=
  live s fun s => s.delayTake clockId receivedNs
/-- PTP_OK_LOSS (R483). -/
def execPtpOkLoss (s : State) : Host.Outcome State Fault Refusal := live s fun s => s.ptpLost

end Sys2Proof.Machine
end

