-- ==== Sys2Proof/Machine/Ageing.lean ====
section
/-!
DEFINITION. Ageing: the measurements, the daily record, the margin plan, and the trims and equalisation changes that it
makes (R491 to R495).
-/

namespace Sys2Proof.Machine

/-! ## Measurements (R491) -/

/-- No measurement runs in STANDBY or HIBERNATE. -/
def State.measures (s : State) : Bool := s.clocksRun

/-- The pairs are armed, hourly: each pavilion that is not fenced lends the lookup slot of this cc, at most one in every 256, and
no slot that a message already uses (R40). -/
def State.ringArm (s : State) : State :=
  let may (p : PavId) : Bool :=
    s.isFenced p || ((FMap.find? s.blv.slot p.val).isNone && (s.pav p).lent.elim true fun t => decide (t + 256 ≤ s.now))
  if !allPavs.all may then s else
  forPavs (s.modLodge fun l => { l with roArm := true, roArmAt := s.now }) fun p s =>
    if s.isFenced p then s else (s.modPav p fun v => { v with lent := some s.now }).slotUse p 2

/-- D of a pair from its two counts and the factory ratio, in 0.01 % (R491). DEDUCED: the quotient is rounded down; counts that give no
fraction from 0 to 1 leave it open (log entry 324). -/
def ringD (i : Nat) (x : RingCount) : Nat :=
  let f := Config.ringFuse i
  let one := x.reference * f.1; let r := x.stressed * f.2
  if one = 0 || decide (one < r) then Config.ringOpen i x.stressed x.reference else 10000 * (one - r) / one

/-- All armed pairs that are not in a fenced pavilion are read, once both oscillators have been counted over 2^16 cc (R491). -/
def State.ringMeasure (s : State) (d : List RingCount) : State :=
  if !s.measures || !s.lodge.roArm || s.now < s.lodge.roArmAt + 65536 then s else
  let s := s.modLodge fun l => { l with roArm := false, roAt := s.now + hourCc }
  (List.range 64).foldl (fun s i =>
    if s.isFenced (pavOf (i / 4)) then s else
    let x := ringD i (d.getD i { stressed := 0, reference := 0 })
    s.modLodge fun l =>
      let o := (FMap.find? l.roSum i).getD (0, 0)
      { l with roD := FMap.insert l.roD i x, roSum := FMap.insert l.roSum i (o.1 + x, o.2 + 1) }) s

/-- The margins of a port are taken, with the equalisation setting they were measured at (R491, R493, R501). -/
def State.eyeTake (s : State) (n : PortId) (r : EyeResult) : State :=
  let g := (s.port n).link.gen
  s.modIo n fun io =>
    { io with eyePrev := if io.eyeH.isEmpty then none else some (worst io.eyeH, worst io.eyeV, io.eyeEq)
              eyeH := r.h, eyeV := r.v, eyeGen := g, eyeNew := true, eyeEq := (s.port n).link.eqSetting }

/-- The agent is asked for 255 MARGIN flits (R92). -/
def State.marginAsk (s : State) (n : PortId) : State :=
  s.modLink n fun l => { l with ctlReq := some (2, 255, s.now), ctlOut := l.ctlOut ++ [(2, 0, 255)], marginIn := 255 }
/-- The 255 MARGIN flits asked for at a cc have come, or the time in which the agent must have sent them is over: one lost on the link is
not sent again (R68, R92). -/
def State.marginOver (s : State) (n : PortId) (since : Nat) : Bool :=
  let l := (s.port n).link
  l.marginIn = 0 || decide (since + 100 * ccPerUs + 255 * 2048 * l.flitCc ≤ s.now)
/-- The measurement is over. -/
def State.marginEnd (s : State) (n : PortId) : State := s.modLink n fun l => { l with marginIn := 0 }

/-- The next port in port order is armed: 255 MARGIN flits are asked for; a port that is not ACTIVE is skipped, and a LINK_CTL
exchange in progress is waited for (R40, R92, R491). -/
def State.eyeArm (s : State) : State :=
  match portOf? s.lodge.nextEye with
  | none => s
  | some n =>
    if (s.port n).link.st ≠ .active then s.modLodge fun l => { l with nextEye := (l.nextEye + 1) % 96 }
    else if (s.port n).link.ctlReq.isSome || (s.port n).link.marginIn ≠ 0 then s
    else
      (s.marginAsk n).modLodge fun l => { l with eyeArm := true, eyeArmAt := s.now }

/-- The margins of the armed port are read once its MARGIN flits have come, and the next port's turn comes 15 min later; a port that is
no longer ACTIVE is skipped (R491). -/
def State.eyeMeasure (s : State) (n : PortId) (r : EyeResult) : State :=
  let on := (s.port n).link.st = .active
  if !s.measures || !s.lodge.eyeArm || s.lodge.nextEye ≠ n.val || (on && !s.marginOver n s.lodge.eyeArmAt) then s else
  let s := s.modLodge fun l => { l with eyeArm := false, nextEye := (l.nextEye + 1) % 96, eyeAt := s.now + 900000000 * ccPerUs }
  if on then (s.eyeTake n r).marginEnd n else s

/-- The lowest port whose equalisation change waits to be measured again (R495). -/
def State.eqDue (s : State) : Option PortId :=
  allPorts.find? fun n => let p := s.port n
    p.io.eqChg.isSome && p.io.eqArm.isNone && p.link.st = .active && p.link.ctlReq.isNone && p.link.marginIn = 0

/-- A TRAIN step arms the measurement that is due, a changed port's first (R40, R491, R495). -/
def State.trainArm (s : State) : State :=
  if !s.measures then s else
  match s.eqDue with
  | some n => (s.marginAsk n).modIo n fun io => { io with eqArm := some s.now }
  | none =>
    if s.lodge.roAt ≤ s.now && !s.lodge.roArm then s.ringArm
    else if s.lodge.eyeAt ≤ s.now && !s.lodge.eyeArm then s.eyeArm
    else s

/-! ## The daily record (R492) -/

/-- The worst of measured values with its instance. -/
def worstOf (xs : List (Nat × Nat)) : Option (Nat × Nat) :=
  xs.foldl (fun (a : Option (Nat × Nat)) x => match a with
    | none => some x
    | some y => if x.2 < y.2 then some x else a) none
/-- A value and its instance, 0xFF where there is no measurement. -/
def pairBytes (x : Option (Nat × Nat)) : List Byte :=
  match x with
  | none => [0xFF, 0xFF]
  | some (i, v) => [BitVec.ofNat 8 (min v 255), BitVec.ofNat 8 i]

/-- The worst pair of a pavilion over the day: the mean of the hourly values of each pair. -/
def Lodge.dayWorst (l : Lodge) (p : PavId) : Option Nat :=
  ((List.range 4).filterMap fun j => (FMap.find? l.roSum (4 * p.val + j)).map fun (x : Nat × Nat) => x.1 / x.2).max?

/-- The day's values of ports, channels and stacks: instance, timing or horizontal, voltage or vertical. -/
def State.dayPorts (s : State) : List (Nat × Nat × Nat) :=
  allPorts.filterMap fun n => let io := (s.port n).io
    if io.eyeNew then some (n.val, worst io.eyeH, worst io.eyeV) else none
def MemCom.dayWalk (x : MemCom) : Option (WalkResult × Nat) := if x.walkNew then x.walkRes else none
def State.dayChans (s : State) : List (Nat × WalkResult × Nat) := allChans.filterMap fun c => ((s.chan c).com.dayWalk).map fun r => (c.val, r)
def State.dayStks (s : State) : List (Nat × WalkResult × Nat) := allStks.filterMap fun k => ((s.stk k).com.dayWalk).map fun r => (k.val, r)

/-- The 64 bytes of the day's record. -/
def State.ledgerBytes (s : State) : List Byte :=
  let l := s.lodge
  let hv (f : Nat × Nat × Nat → Nat) : List Byte := pairBytes (worstOf (s.dayPorts.map fun x => (x.1, f x)))
  let wv (xs : List (Nat × WalkResult × Nat)) (f : WalkResult → Nat) : List Byte := pairBytes (worstOf (xs.map fun x => (x.1, f x.2.1)))
  sealed (leBytes l.lseq 4 ++ leBytes s.band.sec 6 ++ leBytes (l.powered + 24) 4
    ++ [l.tjHi.elim 0xFF (BitVec.ofInt 8), if l.tjCnt = 0 then 0xFF else BitVec.ofInt 8 (l.tjSum / l.tjCnt)]
    ++ allPavs.map (fun p => (l.dayWorst p).elim 0xFF fun d => BitVec.ofNat 8 (min (d / 5) 255))
    ++ hv (fun x => x.2.1) ++ hv (fun x => x.2.2)
    ++ wv s.dayChans (·.timing) ++ wv s.dayChans (·.vref) ++ wv s.dayStks (·.timing) ++ wv s.dayStks (·.vref)
    ++ [BitVec.ofNat 8 (min l.dayTrims 255), BitVec.ofNat 8 (min l.dayEq 255), BitVec.ofNat 8 (min l.dayRev 255), 0]
    ++ leBytes (l.adv.toNat / 2 ^ 27) 2)

/-! ## The margin plan (R493, R494) -/

/-- Keys of the daily series: pavilion 0 on, port margins 100 and 200 on, channels 300 and 320 on, stacks 340 and 350 on. -/
def histKey (q cond : Nat) : Nat := q * 64 + cond
def State.histPush (s : State) (q cond v : Nat) : State :=
  s.modLodge fun l => { l with hist := FMap.insert l.hist (histKey q cond) (((l.day, v) :: (FMap.find? l.hist (histKey q cond)).getD []).take 30) }
def State.series (s : State) (q cond : Nat) : List (Nat × Nat) := (FMap.find? s.lodge.hist (histKey q cond)).getD []

/-- The least-squares line of a series at a day, as numerator and positive denominator; below 7 values the current one. -/
def project (xs : List (Nat × Nat)) (day : Nat) : Int × Int :=
  if xs.length < 7 then ((xs.head?.elim 0 (·.2) : Nat), 1) else
  let n : Int := xs.length
  let sx : Int := ((xs.map (·.1)).sum : Nat); let sy : Int := ((xs.map (·.2)).sum : Nat)
  let sxx : Int := ((xs.map fun x => x.1 * x.1).sum : Nat); let sxy : Int := ((xs.map fun x => x.1 * x.2).sum : Nat)
  let d := n * sxx - sx * sx
  (sy * d + (n * sxy - sx * sy) * (n * day - sx), n * d)

/-- The projection of a series at the horizon. -/
def State.projection (s : State) (q cond : Nat) : Int × Int := project (s.series q cond) (s.lodge.day + s.lodge.floors.getD 6 365)
/-- A projected margin lies below a floor. -/
def State.below (s : State) (q cond floor : Nat) : Bool :=
  let p := s.projection q cond
  !(s.series q cond).isEmpty && decide (p.1 < (s.lodge.floors.getD floor 0 : Int) * p.2)

def State.advise (s : State) : State := s.raise R.lodgeAgeEvt 10
def State.advSet (s : State) (bit : Nat) : State := s.modLodge fun l => { l with adv := setBits l.adv bit bit 1 }

/-- The delay trim target of a pavilion, and whether it calls for a core-supply raise. -/
def State.planPav (s : State) (p : PavId) : State × Bool :=
  match s.series p.val 0 with
  | [] => (s, false)
  | (_, d) :: _ =>
    let step := s.lodge.floors.getD 4 50
    let t := min 15 (if step = 0 then Config.roStepZero d else d / step)
    let pr := s.projection p.val 0
    (s.modPav p fun v => { v with ageTarget := t }, t = 15 || decide ((s.lodge.floors.getD 5 600 : Int) * pr.2 ≤ pr.1))

/-- A core-supply raise in 5 mV steps up to 25 mV (R494). -/
def State.planVcore (s : State) : State :=
  let mv := bitsOf s.lodge.adv 15 8
  if mv ≠ s.rf R.lodgeAgeCtl 7 0 || (s.lodge.vcoreDay.elim false fun d => decide (s.lodge.day < d + 30)) then s
  else if 25 ≤ mv then (if s.lodge.adv.getLsbD 30 then s else (s.advSet 30).advise)
  else ((s.modLodge fun l => { l with adv := setBits l.adv 15 8 (mv + 5), vcoreDay := some l.day }).advSet 31).advise

/-- Whether the latest measurement of a port is better than the one before: by both margins, or as the implementation weighs them
(R493). -/
def eyeWins (h v h' v' : Nat) : Bool :=
  if h = h' && v = v' then Config.eyeBetter h v h' v'
  else if h' ≤ h && v' ≤ v then true
  else if h ≤ h' && v ≤ v' then false
  else Config.eyeBetter h v h' v'
/-- The direction of one step toward the better of the last two measurements: 1 up, 0 down. Where that was made at the setting in force,
the spec gives none (R493). -/
def State.eqDir (s : State) (n : PortId) (h' v' eq' : Nat) : Nat :=
  let io := (s.port n).io
  let cur := (s.port n).link.eqSetting
  let h := worst io.eyeH; let v := worst io.eyeV
  let goal := if eyeWins h v h' v' then io.eyeEq else eq'
  if cur < goal then 1 else if goal < cur then 0 else if Config.eqUp h v h' v' then 1 else 0

/-- A port's equalisation change and MAX_GEN proposal. -/
def State.planPort (s : State) (n : PortId) : State :=
  let io := (s.port n).io
  let s := s.modIo n fun io => { io with eqPend := none }
  if !(s.below (100 + n.val) io.eyeGen 0 || s.below (200 + n.val) io.eyeGen 1) then s else
  let today := s.lodge.day
  let s :=
    match io.eyePrev with
    | none => s
    | some (h, v, eq) =>
      let dir := s.eqDir n h v eq
      if !s.rbit R.lodgeAgeCtl 31 || io.eqBlock.any (fun b => b.1 = dir && decide (today < b.2 + 30)) then s
      else s.modIo n fun io => { io with eqPend := some (Config.eqStep (s.port n).link.eqSetting dir, some dir) }
  if decide (3 ≤ (io.eqDays.filter fun d => decide (today < d + 30)).length) && decide (1 < (s.port n).link.gen)
      && FMap.find? s.lodge.propGen n.val ≠ some ((s.port n).link.gen - 1) then
    ((s.modLodge fun l => { l with propGen := FMap.insert l.propGen n.val ((s.port n).link.gen - 1) }).advSet 29).advise
  else s

/-- Trim targets of a channel or stack from its walk: the eye centre, when it lies 2 or more steps off. -/
def MemCom.retarget (x : MemCom) : MemCom :=
  match x.dayWalk with
  | none => x
  | some (r, _) =>
    { x with tgtT := if 2 ≤ r.centreT.natAbs then x.trimT + r.centreT else x.trimT
             tgtV := if 2 ≤ r.centreV.natAbs then x.trimV + r.centreV else x.trimV }

/-- A channel's trims and derate proposal. -/
def State.planChan (s : State) (c : ChanId) : State :=
  let s := s.modCom (.chan c) fun x => x.retarget
  let ch := s.chan c
  if !(s.below (300 + c.val) ch.freq 2 || s.below (320 + c.val) ch.freq 3) then s else
  let code := (ch.com.recs.filter fun r => r.good && decide (r.code < ch.freq)).foldl (fun a r => max a r.code) 0
  if FMap.find? s.lodge.propCode c.val = some code then s
  else ((s.modLodge fun l => { l with propCode := FMap.insert l.propCode c.val code }).advSet 28).advise

/-- A stack's trims and wear. -/
def State.planStk (s : State) (k : StackId) : State :=
  let s := s.modCom (.stack k) fun x => x.retarget
  if !(s.below (340 + k.val) 0 2 || s.below (350 + k.val) 0 3) || s.lodge.propWear.contains k.val then s
  else ((s.modLodge fun l => { l with propWear := l.propWear ++ [k.val] }).advSet 27).advise

/-- The values of the day join their series. -/
def State.histDay (s : State) : State :=
  let s := allPavs.foldl (fun s p => match s.lodge.dayWorst p with
    | none => s
    | some d => (s.modPav p fun v => { v with ageWorst := d }).histPush p.val 0 d) s
  let s := s.dayPorts.foldl (fun s x =>
    match portOf? x.1 with
    | none => s
    | some n => let g := (s.port n).io.eyeGen
      (s.histPush (100 + x.1) g x.2.1).histPush (200 + x.1) g x.2.2) s
  let s := s.dayChans.foldl (fun s x => (s.histPush (300 + x.1) x.2.2 x.2.1.timing).histPush (320 + x.1) x.2.2 x.2.1.vref) s
  s.dayStks.foldl (fun s x => (s.histPush (340 + x.1) 0 x.2.1.timing).histPush (350 + x.1) 0 x.2.1.vref) s

/-- The margin plan after a record (R493). -/
def State.plan (s : State) : State :=
  let (s, up) := allPavs.foldl (fun (a : State × Bool) p => let r := a.1.planPav p; (r.1, a.2 || r.2)) (s, false)
  let s := if up then s.planVcore else s
  let s := forStks (forChans (forPorts s fun n s => s.planPort n) fun c s => s.planChan c) fun k s => s.planStk k
  (s.modLodge fun l => { l with planSeq := (l.planSeq + 1) % 256 }).raise R.lodgeAgeEvt 8

/-- The record of a day of powered time, and the plan that follows it (R492, R493). -/
def State.ageingDay (s : State) : State :=
  if s.now < s.lodge.dayStart + 24 * hourCc then s else
  let s := s.modLodge fun l =>
    { l with ice := iceWrite l.ice (ledgerBase + 64 * l.ledgerPos) s.ledgerBytes, ledgerPos := (l.ledgerPos + 1) % 32768, lseq := (l.lseq + 1) % 2 ^ 32
             ledgerCnt := min (l.ledgerCnt + 1) 0xFFFF, powered := l.powered + 24, dayStart := l.dayStart + 24 * hourCc, day := l.day + 1 }
  let s := s.histDay.plan
  let s := s.modLodge fun l => { l with roSum := [], tjHi := none, tjSum := 0, tjCnt := 0, dayTrims := 0, dayEq := 0, dayRev := 0 }
  let s := forPorts s fun n s => s.modIo n fun io => { io with eyeNew := false }
  forStks (forChans s fun c s => s.modCom (.chan c) fun x => { x with walkNew := false }) fun k s => s.modCom (.stack k) fun x => { x with walkNew := false }

/-! ## Trims in the apply window (R493, R495) -/

def stepTo (x t : Int) : Int := if x < t then x + 1 else if t < x then x - 1 else x

def State.trimPav (s : State) (p : PavId) : State :=
  let v := s.pav p
  if v.ageTrim = v.ageTarget then s
  else (s.modPav p fun v => { v with ageTrim := if v.ageTrim < v.ageTarget then v.ageTrim + 1 else v.ageTrim - 1 }).modLodge fun l =>
    { l with dayTrims := l.dayTrims + 1 }

/-- The trims of a channel or stack are held while it is not in service or a collection runs on it. -/
def State.trimMem (s : State) (m : MemUnit) : State :=
  let x := s.com m
  if x.st ≠ .inService || x.walk || (x.trimT = x.tgtT && x.trimV = x.tgtV) then s
  else (s.modCom m fun x => { x with trimT := stepTo x.trimT x.tgtT, trimV := stepTo x.trimV x.tgtV }).modLodge fun l => { l with dayTrims := l.dayTrims + 1 }

/-- An equalisation change is held while the port is not ACTIVE or its measurement runs. -/
def State.trimPort (s : State) (n : PortId) : State :=
  let p := s.port n
  match p.io.eqPend with
  | none => s
  | some (v, dir) =>
    if p.link.st ≠ .active || p.link.marginIn ≠ 0 then s else
    let s := (s.modLink n fun l => { l with eqSetting := v }).modIo n fun io => { io with eqPend := none }
    match dir with
    | some d =>
      (s.modIo n fun io => { io with eqChg := some (p.link.eqSetting, d, worst io.eyeH, s.now), eqDays := s.lodge.day :: io.eqDays }).modLodge fun l =>
        { l with dayEq := l.dayEq + 1 }
    | none => (s.modLodge fun l => { l with dayRev := l.dayRev + 1 }).raise R.lodgeAgeEvt 9

/-- All trims and changes of one apply window, with AUTO as the window leaves it (R495). -/
def State.trimTick (s : State) : State :=
  if !s.rbit R.lodgeAgeCtl 31 || !s.measures then s
  else forPorts (forStks (forChans (forPavs s fun p s => s.trimPav p) fun c s => s.trimMem (.chan c)) fun k s => s.trimMem (.stack k)) fun n s => s.trimPort n

/-- A port is measured again within 1 s of a change, with the MARGIN flits that a step of the Lodge has asked for; one that lost 2/64
UI or more is reverted at the next tick (R40, R495). DESIGN CHOICE: a change that has not been measured within 1 s stands (log entry
325). -/
def State.eqCheck (s : State) (n : PortId) (r : EyeResult) : State :=
  match (s.port n).io.eqChg, (s.port n).io.eqArm with
  | some (old, d, h, at_), some t =>
    if !s.measures || (s.port n).link.st ≠ .active || !s.marginOver n t then s else
    let s := s.marginEnd n
    if at_ + 1000000 * ccPerUs < s.now then s.modIo n fun io => { io with eqChg := none, eqArm := none } else
    let s := (s.eyeTake n r).modIo n fun io => { io with eqChg := none, eqArm := none }
    if worst r.h + 2 ≤ h then s.modIo n fun io => { io with eqPend := some (old, none), eqBlock := (d, s.lodge.day) :: io.eqBlock } else s
  | _, _ => s

/-! ## The commands -/

/-- RING_OSCILLATOR_MEASURE (R45, R491). -/
def execRingOscillatorMeasure (d : LodgeTimed (List RingCount)) (s : State) : Host.Outcome State Fault Refusal :=
  live s fun s => s.inBudget .train d.units fun s => s.ringMeasure d.of
/-- PORT_MARGIN_MEASURE (R45, R491). -/
def execPortMarginMeasure (n : PortId) (r : LodgeTimed EyeResult) (s : State) : Host.Outcome State Fault Refusal :=
  live s fun s => s.inBudget .train r.units fun s => s.eyeMeasure n r.of
/-- AGEING_RECORD (R45, R492). -/
def execAgeingRecord (s : State) : Host.Outcome State Fault Refusal := live s fun s => s.inBudget .ice recordUnits fun s => s.ageingDay
/-- EQ_CHANGE_CHECK (R45, R495). -/
def execEqChangeCheck (n : PortId) (r : LodgeTimed EyeResult) (s : State) : Host.Outcome State Fault Refusal :=
  live s fun s => s.inBudget .train r.units fun s => s.eqCheck n r.of

end Sys2Proof.Machine
end

