-- ==== Sys2Proof/Machine/Observe.lean ====
section
/-!
DEFINITION. The Belvedere: per-cc counts, snapshots, group reads, slot accounts and the trace buffer (chapter 14).
-/

namespace Sys2Proof.Machine

/-! ## Events and per-cc counts (R537, R540) -/

/-- Whether an event code is defined at a location: 0 counts nothing (R537, R563). -/
def eventDefined (b : Blk) (code : Nat) : Bool :=
  match b with
  | .pav => decide (code ≤ 0x17)
  | .port => decide (code ≤ 0x0E)
  | .chan => decide (code ≤ 0x0E)
  | .stack => decide (code ≤ 0x08)
  | _ => decide (code ≤ 0x09)

/-- The pipeline clock of a pavilion runs (R422, R540). -/
def State.pavRuns (s : State) (p : PavId) : Bool := s.clocksRun && !(s.pav p).gated && !s.isFenced p

/-- The events marked "per cc" (R537). -/
def State.perCc (s : State) : State :=
  if !s.rbit R.blvCntCtl 30 || !s.clocksRun then s else
  let s := s.cntGlob 2
  let s := forPavs s fun p s =>
    if !s.pavRuns p then s else
    let v := s.pav p
    (s.cntBy (R.pavPmcSel p 0) (16 * p + 6) 10 0x0F (byPlot (v.txns.map fun (x : Nat × Txn) => x.2.chargeTo))).cntBy (R.pavPmcSel p 0) (16 * p + 6) 10
      0x10 (byPlot (v.miss.map fun (x : Nat × MissReg) => some x.2.plot))
  let s := forPorts s fun n s => let h := (s.port n).link.held.length
    if h = 0 then s else s.cntPort n 9 none h
  let s := forChans s fun c s => let ch := s.chan c
    if ch.com.st = .selfRefresh then s else
    let s := (s.cntBy (R.chanPmcSel c 0) (352 + 8 * c) 8 7 (byPlot (ch.rq.map (·.plot)))).cntBy (R.chanPmcSel c 0) (352 + 8 * c) 8 8 (byPlot (ch.wq.map (·.plot)))
    let s := if ch.drain then s.cntChan c 9 else s
    if ch.congested then s.cntChan c 0x0A else s
  forStks s fun k s =>
    if (s.stk k).com.st = .selfRefresh then s
    else s.cntBy (R.stackPmcSel k 0) (480 + 8 * k) 8 8 (byPlot (((s.pav (pavOf (2 * k.val))).stackq ++ (s.pav (pavOf (2 * k.val + 1))).stackq).map (·.plot)))

/-! ## Slot accounts (R545 to R548) -/

/-- Work at the pipeline input: requests not yet looked up, or waiting for a resource. -/
def Pav.ready (v : Pav) : List Txn := (v.txns.map fun (x : Nat × Txn) => x.2).filter fun t => t.phase = .lookup || t.fetch = .replay

/-- The class in which a transaction is answered: data for a read, a Comp for the rest (R79, R116). -/
def Txn.answerClass (t : Txn) : Nat := match t.kind with
  | .req op => if isReadOp op && op ≠ Op.upg then 3 else 2
  | _ => 2

/-- The first exhausted resource that holds ready work back: 1 stack command path, 2 channel queue, 3 Orangery, 4 egress
credit (R547). -/
def State.blockedOn (s : State) (p : PavId) : Option Nat :=
  let v := s.pav p
  let rs := v.ready
  if rs.isEmpty then none
  else if Config.stackPathDepth ≤ v.stackq.length then some 1
  else if rs.any fun t => !s.rqRoom (s.chanFor t.pa) || !s.wqTakes (s.chanFor t.pa) then some 2
  else if v.unreserved = 0 then some 3
  else if rs.any fun t => (portOf? t.port).elim false fun n => (s.port n).link.cred.getD t.answerClass 0 = 0 then some 4
  else none

/-- A request for the pavilion waits at a port's ingress queue that withholds credits, or for its Plot's share or a table entry; not for a
power entry, a halt or its own port's order (R547). -/
def State.askedAtIngress (s : State) (p : PavId) : Bool :=
  !s.glb.hold && s.pavTakes p && allPorts.any fun n => (s.port n).io.ingress.any fun m =>
    classOf m.msg.hdr.opcode = 0 && m.loc.isNone && m.tgt.isNone && s.home m.msg.hdr.pa = p && (s.port n).io.reqFree s.now m
      && (!s.shareFree p m.msg.hdr.plot || !(s.port n).link.held.isEmpty)

/-- The account of a pavilion's slot in this cc: account plus 16 times its attribution; 0 when no slot is offered or
counting is off. -/
def State.slotAccount (s : State) (p : PavId) : Nat :=
  if !s.rbit R.blvCntCtl 30 || !s.pavRuns p then 0 else
  match FMap.find? s.blv.slot p.val with
  | some a => a
  | none =>
    match s.blockedOn p with
    | some r => 4 + 16 * r
    | none => 5 + (if s.askedAtIngress p then 16 else 0)

/-- The accounts reach the counters 12 cc of the pavilion after their slot; they and the codes that refine them go by the RUN of the
slot's cc (R540, R547, R548). -/
def State.slotTick (s : State) : State :=
  let s := forPavs s fun p s =>
    if !s.pavRuns p then s else
    let old := (FMap.find? s.blv.slot (256 + p.val)).getD 0
    let now := s.slotAccount p
    let s := s.modBlv fun b => { b with slot := FMap.put (fun _ => 0) b.slot (256 + p.val) (old * 256 % 256 ^ 12 + now) }
    let out := old / 256 ^ 11
    let acct := out % 16; let why := out / 16
    if acct = 0 then s else
    let s := (s.cntAdd (16 * p.val) 1).cntAdd (16 * p.val + acct) 1
    if why = 0 then s else s.cntSel (R.pavPmcSel p 0) (16 * p + 6) 10 (if acct = 5 then 0x13 else 0x13 + why) (ofPlot none 1)
  s.modBlv fun b => { b with slot := List.filter (fun (x : Nat × Nat) => decide (256 ≤ x.1)) b.slot }

/-! ## Snapshots and group reads (R539, R542, R543) -/

/-- Item 1 of the apply window: an armed or periodic snapshot (R424, R543). -/
def State.snapTake (s : State) (tick : Nat) : State :=
  if !(s.rbit R.blvSnapCtl 30 || s.blv.armed) || s.rbit R.blvSnapCtl 29 || s.glb.pwr = .hibernate then s else
  let all := s.clocksRun
  (s.modBlv fun b =>
    { b with snap := Vector.ofFn fun i => if all || decide (544 ≤ i.val) then b.cnt[i] else b.snap[i]
             snapOvf := Vector.ofFn fun i => if all || decide (544 ≤ i.val) then b.ovf[i] else b.snapOvf[i]
             armed := false, partial_ := !all, snapNum := (b.snapNum + 1) % 65536, snapTick := tick }).raise R.blvEvt 9

/-- Item 2: a pending CLEAR (R539). The counters of blocks whose clocks are stopped wait for the first window after the exit (R424,
R540). -/
def State.cntClear (s : State) : State :=
  if !(s.blv.clearPend || (s.blv.clearLate && s.clocksRun)) || s.glb.pwr = .hibernate then s else
  let goes (i : Nat) : Bool := if 544 ≤ i then s.blv.clearPend else s.clocksRun
  s.modBlv fun b =>
    { b with cnt := Vector.ofFn fun i => if goes i.val then 0 else b.cnt[i]
             ovf := Vector.ofFn fun i => if goes i.val then false else b.ovf[i]
             clearPend := false, clearLate := !s.clocksRun }

/-- The instance of a counter: counters of one instance are read in one cc (R535, R542). -/
def cntInstance (i : Nat) : Nat := if i < 256 then i / 16 else 256 + i / 8

/-- The counters that GRP_SEL names, in slot order. -/
def State.grpIndices (s : State) (k : Nat) : List Nat := (List.range k).map fun j => s.rf (R.blvGrpSel (j / 2)) (if j % 2 = 0 then 9 else 25) (if j % 2 = 0 then 0 else 16)

/-- The reading times of the slots, each at most 64 cc after the one before (R542). -/
def grpTimes (now : Nat) (ctr : Nat) (prev : Option Nat) (j : Nat) : List Nat → List (Nat × Nat × Nat)
  | [] => []
  | i :: rest =>
    let t := if prev = some (cntInstance i) then now else now + 1 + Config.grpDelay (ctr + j) % 64
    (t, j, i) :: grpTimes t ctr (some (cntInstance i)) (j + 1) rest

/-- GRP_CTL.GO with the COUNT now in it (R542). -/
def State.grpGo (s : State) : State :=
  let is := s.grpIndices (s.rf R.blvGrpCtl 2 0 + 1)
  if s.blv.grpBusy then s.cfgReject R.blvGrpCtl 31 .busy
  else if is.any fun i => decide (551 < i) then s.cfgReject R.blvGrpCtl 31 .range
  else { s.modBlv fun b => { b with grpBusy := true, grpDue := grpTimes s.now s.freeCtr none 0 is } with freeCtr := s.freeCtr + 8 }

def State.cntVal (s : State) (i : Nat) : BitVec 48 × Bool := if h : i < 552 then (s.blv.cnt[i], s.blv.ovf[i]) else (0, false)

/-- The slots whose cc has come are read. -/
def State.grpStep (s : State) : State :=
  if s.blv.grpDue.isEmpty then s else
  let (due, rest) := s.blv.grpDue.partition fun x => decide (x.1 ≤ s.now)
  due.foldl (fun s x => s.modBlv fun b => { b with grpVal := b.grpVal.set x.2.1 (s.cntVal x.2.2) }) (s.modBlv fun b => { b with grpDue := rest })

/-- The last value is in place (R542). -/
def State.grpDone (s : State) : State :=
  if s.blv.grpBusy && s.blv.grpDue.isEmpty then (s.modBlv fun b => { b with grpBusy := false }).raise R.blvEvt 10 else s

/-! ## The trace buffer (R549 to R557) -/

/-- A trace record (R549). -/
def trcRec (ts kind src port plot addr detail : Nat) : BitVec 128 :=
  BitVec.ofNat 128 (ts % 2 ^ 32 + kind % 256 * 2 ^ 32 + src % 256 * 2 ^ 40 + port % 256 * 2 ^ 48 + plot % 256 * 2 ^ 56 + addr % 2 ^ 48 * 2 ^ 64 + detail % 2 ^ 16 * 2 ^ 112)

def State.trcWrap (s : State) : Bool := s.rbit R.blvTrcCfg 29
/-- The records that stop-on-full keeps: from the mark while it is valid, else from the read position (R552). -/
def Blv.occupied (b : Blv) : Nat := b.wr - b.mark.getD b.rd
def Blv.openFrame (b : Blv) : Option TrcFrame := b.frames.getLast?.filter fun f => !f.closed

/-- Wrap mode: the oldest whole frame goes when a record needs its space (R552, R556). -/
def State.trcRoom (s : State) : State :=
  if !s.trcWrap then s else
  match s.blv.frames with
  | [] => s
  | f :: rest =>
    if s.blv.wr < f.first + 16384 then s else
    let lost := s.blv.mark.elim false fun m => decide (f.first ≤ m) && decide (m < f.first + f.count)
    let s := s.modBlv fun b =>
      { b with frames := rest, rd := if b.rd < f.first + f.count then f.first + f.count else b.rd, mark := if lost then none else b.mark }
    let s := s.rcount R.blvTrcLost 31 16 1
    if lost then s.raise R.blvTrcStat 14 else s

/-- Writes a record into the buffer at the next number (R549). -/
def State.trcPut (s : State) (r : BitVec 128) : State :=
  let s := s.trcRoom
  (s.modBlv fun b =>
    { b with buf := FMap.put (fun _ => 0) b.buf (b.wr % 16384) r, wr := b.wr + 1, idleAt := if b.rd = b.wr then s.now else b.idleAt
             frames := mapAt (fun f => { f with count := f.count + 1 }) (b.frames.length - 1) b.frames }).cntGlob 6

/-- Closes the open frame with a reason (R549, R551). -/
def State.trcClose (s : State) (reason : Nat) : State :=
  match s.blv.openFrame with
  | none => s
  | some f =>
    let s := s.trcPut (trcRec s.band.ns 2 0 0xFF 0xFF reason (f.count + 1))
    s.modBlv fun b => { b with frames := mapAt (fun f => { f with closed := true }) (b.frames.length - 1) b.frames }

/-- Opens a frame of some seconds with its HEADER; frames that the buffer no longer holds leave the list (R551). -/
def State.trcOpen (s : State) (sec : Nat) : State :=
  let s := s.trcRoom
  let s := s.modBlv fun b =>
    { b with frames := (b.frames.filter fun f => decide (b.wr < f.first + 16384)) ++ [{ first := b.wr, count := 0, closed := false, sec := sec }]
             frameNum := (b.frameNum + 1) % 65536 }
  s.trcPut (trcRec s.band.ns 1 0 0 0 sec ((s.blv.frameNum + 65535) % 65536))

/-- A record that is not stored (R550, R552). -/
def State.trcLose (s : State) : State := ((s.rcount R.blvTrcLost 15 0 1).raise R.blvTrcStat 13).cntGlob 7

/-- The buffer takes one record from staging, or writes the HEADER before it (R550 to R552). -/
def State.trcStep (s : State) : State :=
  match s.blv.staging with
  | [] => s
  | (sec, r) :: rest =>
    let fits (limit : Nat) : Bool := s.trcWrap || decide (s.blv.occupied + 1 ≤ limit)
    let take (s : State) : State := s.modBlv fun b => { b with staging := rest, stPop := b.stPop.add s.now }
    let drop (s : State) : State := (take s).trcLose
    let head (s : State) : State := if s.trcWrap || decide (s.blv.occupied + 1 ≤ 16382) then s.trcOpen sec else drop s
    match s.blv.openFrame with
    | none => head s
    | some f =>
      if f.sec ≠ sec then head (s.trcClose 4)
      else if !fits 16383 then drop (s.trcClose 3)
      else
        let s := (take s).trcPut r
        if f.count + 2 = 256 then s.trcClose 0 else s

/-- Staged records are written before capture stops. -/
def State.trcFlush (s : State) : Nat → State
  | 0 => s
  | k + 1 => if s.blv.staging.isEmpty then s else State.trcFlush s.trcStep k

/-- Capture stops: the open frame closes (R551, R557). -/
def State.trcStop (s : State) (reason : Nat) : State := ((s.trcFlush 256).trcClose reason)

/-- A change of TRC_CTL.EN in an apply window (R549, R557). -/
def State.trcEnable (s : State) (was : Bool) : State :=
  let on := s.rbit R.blvTrcCtl 31
  if on = was then s
  else if on then s.modBlv fun b => { b with wr := 0, rd := 0, mark := none, frames := [], frameNum := 0, sampleCtr := 0, staging := [], pop := none, idleAt := s.now }
  else s.trcStop 2

/-- The cc after a fatal cause, with STOP_ON_FATAL (R557). -/
def State.trcFatal (s : State) : State :=
  if s.rbit R.blvTrcCtl 30 && s.rbit R.blvTrcCtl 31 then
    (s.trcStop 5).hwClear R.blvTrcCtl 31
  else s

/-- The kind of record that a source makes (R549, R550). -/
def srcKind (src : Nat) : Nat := if src = 0 then 0x10 else if src = 1 then 0x20 else if src = 2 then 0x30 else 0x40

/-- The filters of R550. -/
def State.trcPass (s : State) (kind src port plot addr : Nat) : Bool :=
  let f := s.rget R.blvTrcFilt
  let sel := s.rf R.blvTrcCfg 31 30
  let match_ := ((s.rget R.blvTrcAddrLo).toNat / 64 + s.rf R.blvTrcAddrHi 19 0 * 2 ^ 26)
  let mask := ((s.rget R.blvTrcAmaskLo).toNat / 64 + s.rf R.blvTrcAmaskHi 19 0 * 2 ^ 26)
  kind = srcKind sel
    && (if sel = 0 || sel = 2 then f.getLsbD (16 + src % 16) && decide (src < 16) else if sel = 1 then port = bitsOf f 8 2 else true)
    && (!f.getLsbD 15 || plot = bitsOf f 14 9)
    && (!f.getLsbD 0 || !(sel = 0 || sel = 1) || (addr ^^^ match_) &&& mask = 0)

/-- A traced occurrence: filters, sampling, staging (R550). -/
def State.trcCapture (s : State) (src kind port plot addr detail : Nat) : State :=
  if !s.rbit R.blvTrcCtl 31 || !s.trcPass kind src port plot addr then s else
  let k := s.blv.sampleCtr
  let s := s.modBlv fun b => { b with sampleCtr := k + 1 }
  if (k + Config.samplePhase) % 2 ^ s.rf R.blvTrcCfg 27 24 ≠ 0 then s
  else if 64 ≤ s.blv.staging.length + s.blv.stPop.at_ s.now then s.trcLose
  else s.modBlv fun b => { b with staging := b.staging ++ [(s.band.sec, trcRec s.band.ns kind src port plot addr detail)] }

def State.trcTake (s : State) (o : TrcOcc) : State := s.trcCapture o.src o.kind o.port o.plot o.addr.toNat o.detail.toNat
/-- Puts an occurrence behind those of the instances up to its own. -/
def insertOcc (o : TrcOcc) : List TrcOcc → List TrcOcc
  | [] => [o]
  | x :: rest => if x.src ≤ o.src then x :: insertOcc o rest else o :: x :: rest
/-- The end of a cc: its occurrences pass the filters in ascending instance order (R550). -/
def State.trcCc (s : State) : State :=
  if s.blv.occ.isEmpty then s
  else (s.blv.occ.foldl (fun l o => insertOcc o l) []).foldl State.trcTake (s.modBlv fun b => { b with occ := [] })

/-! ### Export (R553 to R556) -/

/-- Number of the first record that is not available (R553). -/
def State.trcAvailEnd (s : State) : Nat :=
  match s.blv.openFrame with
  | none => s.blv.wr
  | some f => if s.rf R.blvTrcCfg 23 20 * 256 ≤ f.count * 16 then s.blv.wr else f.first
def State.trcAvail (s : State) : Nat := s.trcAvailEnd - s.blv.rd
def State.trcDma (s : State) : Bool := s.rbit R.blvTrcCfg 28
def State.trcAt (s : State) (i : Nat) : BitVec 128 := FMap.get (fun _ => 0) s.blv.buf (i % 16384)

/-- A read of TRC_POP[0] latches the next available record (R554). -/
def State.trcLatch (s : State) : State :=
  if s.trcDma || s.trcAvail = 0 then s else s.modBlv fun b => { b with pop := some (s.trcAt b.rd, b.rd) }

/-- A read of TRC_POP[3] removes the latched record (R554, R555). -/
def State.trcRemove (s : State) : State :=
  if s.trcDma then s else
  match s.blv.pop with
  | none => s
  | some (_, k) =>
    s.modBlv fun b => if b.rd = k then { b with pop := none, rd := b.rd + 1, idleAt := s.now } else { b with pop := none }

/-- What TRC_POP[k] reads (R554). -/
def State.trcPopWord (s : State) (k : Nat) : W32 :=
  if s.trcDma || (k = 0 && s.trcAvail = 0) then 0
  else (s.blv.pop.elim 0 fun x => BitVec.ofNat 32 (x.1.toNat >>> (32 * k)))

/-- TRACE_IDLE_TIMEOUT (R555). -/
def State.trcIdle (s : State) : State :=
  let limit := s.rf R.blvTrcCfg 15 0
  if limit = 0 || s.blv.wr ≤ s.blv.rd || s.now < s.blv.idleAt + limit * ccPerUs then s else
  let s := if s.blv.openFrame.elim false (fun f => decide (2 ≤ f.count)) then s.trcClose 1 else s
  (s.modBlv fun b => { b with idleAt := s.now }).raise R.blvTrcStat 12

/-- One DMA write: available records up to 256 bytes, not across the ring's end, not onto TAIL (R554). -/
def State.trcDmaWrite (s : State) : State :=
  let ring := 4096 * 2 ^ s.rf R.blvTrcDmaCfg 4 0
  let head := s.blv.head % ring
  let free := ((s.rget R.blvTrcDmaTail).toNat % ring + 2 * ring - head - 16) % ring / 16
  let n := min (min s.trcAvail 16) (min ((ring - head) / 16) free)
  if !s.trcDma || n = 0 then s else
  let base := (s.rget R.blvTrcDmaBaseLo).toNat + (s.rget R.blvTrcDmaBaseHi).toNat * 2 ^ 32
  let recs := (List.range n).map fun i => s.trcAt (s.blv.rd + i)
  (s.modBlv fun b => { b with head := (head + 16 * n) % ring, rd := b.rd + n, idleAt := s.now }).emit (.dma (base + head) recs)

/-- A rejected MARK or REWIND (R556). -/
def State.trcReject (s : State) (bit : Nat) (r : Reason) : State := (s.cfgReject R.blvTrcCmd bit r).raise R.blvTrcStat 11

/-- TRC_CMD: at most one of MARK, REWIND and MARK_CLR (R556). -/
def State.trcCmd (s : State) (v : W32) : State :=
  let m := v.getLsbD 31; let r := v.getLsbD 30; let c := v.getLsbD 29
  if (m && r) || (m && c) || (r && c) then s.trcReject (if c then 29 else 30) .range
  else if m then
    if s.trcDma then s.trcReject 31 .busy
    else s.modBlv fun b =>
      { b with mark := some (((b.frames.find? fun f => decide (f.first ≤ b.rd) && decide (b.rd < f.first + f.count)).map (·.first)).getD b.rd) }
  else if r then
    match s.blv.mark with
    | none => s.trcReject 30 .busy
    | some k => if s.trcDma then s.trcReject 30 .busy else s.modBlv fun b => { b with rd := k, idleAt := if b.rd = b.wr then s.now else b.idleAt }
  else if c then s.modBlv fun b => { b with mark := none }
  else s

/-! ## The commands -/

/-- GROUP_READ_DONE (R542). -/
def execGroupReadDone (s : State) : Host.Outcome State Fault Refusal := live s fun s => s.grpDone
/-- TRACE_RECORD: the record of an occurrence of this cc that waits for the cc's end, or of one that the command alone tells of
(R550). -/
def execTraceRecord (src kind port plot : Nat) (addr : BitVec 48) (detail : BitVec 16) (s : State) : Host.Outcome State Fault Refusal :=
  live s fun s =>
    let o : TrcOcc := { src := src, kind := kind, port := port, plot := plot, addr := addr, detail := detail }
    (s.modBlv fun b => { b with occ := b.occ.erase o }).trcTake o
/-- TRACE_IDLE_TIMEOUT (R555). -/
def execTraceIdleTimeout (s : State) : Host.Outcome State Fault Refusal := live s fun s => s.trcIdle
/-- TRACE_DMA_WRITE (R554). -/
def execTraceDmaWrite (s : State) : Host.Outcome State Fault Refusal := live s fun s => s.trcDmaWrite

end Sys2Proof.Machine
end

