-- ==== Sys2Proof/Machine/Regs.lean ====
section
/-!
DEFINITION. The service node: what a register reads, the judgement of a register write, pairs, widths and the privilege
guard, and the commands that are register accesses (chapter 13 and the register tables of every chapter).
-/

namespace Sys2Proof.Machine

/-! ## Block instances, idle and pending (R516, R517) -/

/-- The block instance that counts a register; the raw window belongs to GLB (R524). -/
def blkInst (off : Nat) : Blk × Nat :=
  match blkOf off with
  | some (.raw, _, _) => (.glb, 0)
  | some (b, i, _) => (b, i)
  | none => (.glb, 0)

/-- The APPLY_STATUS offset of a block instance (R534). -/
def applyOff (b : Blk) (i : Nat) : Nat :=
  match b with
  | .glb | .raw => R.glbApplyStatus
  | .band => R.bandApplyStatus
  | .lodge => R.lodgeApplyStatus
  | .ice => R.iceApplyStatus
  | .blv => R.blvApplyStatus
  | .reg => R.regApplyStatus
  | .pav => R.pavApplyStatus i
  | .port => R.portApplyStatus i
  | .chan => R.chanApplyStatus i
  | .stack => R.stackApplyStatus i

/-- A block is idle for its IDLE fields (R516). -/
def State.blkIdle (s : State) (b : Blk) (i : Nat) : Bool :=
  match b with
  | .glb | .raw => !allPorts.any fun n => (s.port n).io.enabled
  | .port => (portOf? i).elim true fun n => !(s.port n).io.enabled
  | .chan => (s.chan (chanOf i)).com.st ≠ .inService
  | .blv => !s.rbit R.blvTrcCtl 31 && s.blv.openFrame.isNone
  | _ => true

/-- A TICK field of the instance holds a pending value (R517). -/
def State.pendIn (s : State) (b : Blk) (i : Nat) : Bool := List.any s.pend fun (x : Nat × W32) => blkInst x.1 = (b, i)
/-- Some instance of a block has one (R530). -/
def State.pendKind (s : State) (b : Blk) : Bool := List.any s.pend fun (x : Nat × W32) => (blkInst x.1).1 = b

/-! ## Fields -/

/-- The bits of a field, as a mask. -/
def fieldBits (f : Field) : Nat := (2 ^ (f.hi + 1 - f.lo) - 1) <<< f.lo
/-- The bits of the fields that pass a test. -/
def maskOf (fs : List Field) (q : Field → Bool) : W32 := BitVec.ofNat 32 ((fs.filter q).map fieldBits).sum
/-- A word with the bits of a mask taken from another. -/
def merge32 (old new mask : W32) : W32 := (old &&& ~~~mask) ||| (new &&& mask)

def isTick (f : Field) : Bool := f.app = .tick
/-- A field that register writes can store into (R15, R516). -/
def isStored (f : Field) : Bool := (f.acc = .rw || f.acc = .rwh) && f.app ≠ .boot
/-- A field that register writes reach at all. -/
def isWritable (f : Field) : Bool := f.acc ≠ .ro && f.app ≠ .boot

/-! ## What a register reads (R44, R516) -/

def bitN (b : Bool) (k : Nat) : Nat := if b then 2 ^ k else 0
/-- A temperature in two's complement. -/
def tempByte (t : Int) : Nat := (BitVec.ofInt 8 t).toNat

def linkCode : LinkSt → Nat
  | .disabled => 0 | .detect => 1 | .poll => 2 | .config => 3 | .speed => 4 | .eq => 5 | .delay => 6 | .active => 7 | .recovery => 8
  | .lowpower => 9 | .down => 10
def memCode : MemSt → Nat
  | .off => 0 | .training => 1 | .inService => 2 | .selfRefresh => 3 | .freqChange => 4 | .failed => 5 | .test => 6
def placeCode : Place → Nat
  | .window => 0 | .ghCache => 1 | .sectored => 2 | .transition => 3
def timeCode : TimeSt → Nat
  | .freerun => 0 | .locking => 1 | .locked => 2 | .holdover => 3 | .locked1588 => 4
def qCode : QState → Nat
  | .none => 0 | .refusing => 1 | .sweeping => 2 | .down => 3

/-- PWR_STAT.STATE (R420, R437). -/
def State.pwrCode (s : State) : Nat :=
  match s.glb.pwr with
  | .active => if (s.rget R.glbPavGate).toNat % 65536 ≠ 0 || allPorts.any (fun n => s.rbit (R.portLinkCtl n) 24) then 1 else 0
  | .standbyEntry => 2
  | .standby => 3
  | .hibernateEntry => 4
  | .hibernate => 5
  | .exit => 6

/-- TIME_STAT.ERR (R498). -/
def errField (e : Int) : Nat := if -8388608 ≤ e && e < 8388608 then (BitVec.ofInt 24 e).toNat else (Config.errBits e).toNat

/-- An I/O window is enabled and ignored (R173). DESIGN CHOICE: a SIZE above the table's limit of 1,048,576 is used as it stands. -/
def State.winBad (s : State) (i : Nat) : Bool :=
  let c := s.rget (R.glbIowinCtl i); let size := bitsOf c 20 0
  size = 0 || decide (2 ^ 32 < (s.rget (R.glbIowinBase i)).toNat + size) || decide (96 ≤ bitsOf c 30 24)
def State.winIgnored (s : State) : Bool := (List.range 32).any fun i => s.rbit (R.glbIowinCtl i) 31 && s.winBad i

/-- A computed value of some fields of a register: their bits, and what they read. -/
abbrev Comp := List (Nat × Nat × Nat)

def compWord (v : W32) : Comp → W32
  | [] => v
  | (hi, lo, x) :: rest => compWord (setBits v hi lo x) rest

/-- The computed RO fields of GLB registers. -/
def State.compGlb (s : State) (off : Nat) : Comp :=
  let g := s.glb
  if off = R.glbId then [(7, 4, if Config.codeE then 1 else 0)]
  else if off = R.glbApplyPend then
    [(9, 0, bitN (s.pendKind .stack) 9 + bitN (s.pendKind .chan) 8 + bitN (s.pendKind .port) 7 + bitN (s.pendKind .pav) 6 + bitN (s.pendKind .reg) 5
      + bitN (s.pendKind .blv) 4 + bitN (s.pendKind .ice) 3 + bitN (s.pendKind .lodge) 2 + bitN (s.pendKind .band) 1 + bitN (s.pendKind .glb) 0)]
  else if off = R.glbTickNum then [(31, 0, g.tickNum % 2 ^ 32)]
  else if off = R.glbIntLevelLo then [(31, 0, ((List.range 32).map fun k => bitN (groupLevel s k) k).sum)]
  else if off = R.glbIntLevelHi then [(31, 0, ((List.range 32).map fun k => bitN (groupLevel s (32 + k)) k).sum)]
  else if off = R.glbIlMapLo then [(31, 0, ((List.range 8).map fun h => g.ilMap.getD h 0 * 16 ^ h).sum)]
  else if off = R.glbIlMapHi then [(31, 0, ((List.range 8).map fun h => g.ilMap.getD (8 + h) 0 * 16 ^ h).sum)]
  else if off = R.glbIlStat then [(27, 12, g.fenced.toNat), (11, 11, g.foldDefaulted.toNat)]
  else if off = R.glbCohCtl then [(31, 31, g.rangeIgnored.toNat)]
  else if off = R.glbIoCtl then [(31, 31, s.winIgnored.toNat), (30, 24, (allPorts.filter fun n => s.rbit (R.portIoCtl n) 0).length)]
  else if off = R.glbHcStat then
    let m := (allPavs.map fun p => bitN (s.pav p).stale p.val).sum
    [(31, 16, m), (9, 9, if m = 0 then 0 else 1)]
  else if off = R.glbHcMopStat then [(31, 24, g.opnum), (23, 16, g.doneNum), (15, 13, g.mopResult), (12, 12, g.mop.busy.toNat)]
  else if off = R.glbHcMopWb then [(31, 0, g.mop.wb)]
  else if off = R.glbHcMopMisc then [(31, 16, g.mop.nofit), (15, 0, g.mop.errs)]
  else if off = R.glbPlaceMode then [(31, 0, (allPavs.map fun p => placeCode (s.pav p).place * 4 ^ p.val).sum)]
  else if off = R.glbPlaceStat then [(12, 12, g.placeEng.running.toNat), (11, 11, g.noWindow.toNat)]
  else if off = R.glbMemMap then [(31, 31, g.mapValid.toNat), (30, 30, g.mapFail.toNat), (13, 0, g.mapReq)]
  else if off = R.glbMemPivot then [(19, 0, ((List.range 4).map fun k => g.pivots.getD k 0 * 32 ^ k).sum)]
  else if off = R.glbStartStat then
    [(31, 30, g.phase), (29, 29, g.memReady.toNat), (28, 28, g.memGo.toNat), (27, 27, g.stackReady.toNat), (26, 26, g.trefMissing.toNat),
     (25, 25, g.fullTrain.toNat), (15, 0, g.tReady)]
  else if off = R.glbPwrStat then [(31, 28, s.pwrCode), (27, 27, g.tripLast.toNat), (15, 8, tempByte g.tj)]
  else if off = R.rawRawStat then [(13, 13, g.rawBusy.toNat)]
  else []

/-- The computed RO fields of BAND, LODGE and ICE registers. -/
def State.compMgmt (s : State) (off : Nat) : Comp :=
  let b := s.band; let l := s.lodge
  if off = R.bandSvcStat then [(9, 9, s.glb.scaling.toNat)]
  else if off = R.bandTimeStat then
    [(31, 29, timeCode b.st), (28, 28, b.trefOk.toNat), (27, 27, b.ppsOk.toNat), (26, 26, b.ptpAt.isSome.toNat), (25, 25, b.slewing.toNat),
     (23, 0, errField b.err)]
  else if off = R.bandTimeNs then [(29, 0, b.ns)]
  else if off = R.bandTimeSecLo then [(31, 0, b.sec % 2 ^ 32)]
  else if off = R.bandTimeSecHi then [(15, 0, b.sec / 2 ^ 32)]
  else if off = R.lodgeMbxStat then [(31, 31, l.mbxReq.isSome.toNat), (30, 22, l.mbxRlen), (15, 11, l.mbxAbort)]
  else if off = R.lodgeEvqStat then [(16, 8, l.evq.length)]
  else if off = R.lodgeNetStat then
    [(31, 24, l.node), (23, 19, l.plca), (18, 18, l.chainFault.toNat), (17, 17, l.netLink.toNat), (16, 15, l.netLevel)]
  else if off = R.lodgeAgeStat then [(31, 16, l.ledgerCnt), (15, 8, l.planSeq)]
  else if off = R.lodgeAgeAdv then [(31, 0, l.adv.toNat)]
  else if off = R.iceStat then [(31, 31, l.factory.toNat), (30, 29, l.bank), (28, 27, l.commit.elim 0 (·.stage))]
  else if off = R.iceSeq then [(31, 0, l.seq)]
  else if off = R.iceBootStat then [(15, 0, min l.skipped 0xFFFF)]
  else []

/-- Both words of a counter value (R562). -/
def cntLo (x : BitVec 48 × Bool) : Nat := x.1.toNat % 2 ^ 32
def cntHi (x : BitVec 48 × Bool) : Nat := x.1.toNat / 2 ^ 32 + bitN x.2 31
def State.snapVal (s : State) (i : Nat) : BitVec 48 × Bool := if h : i < 552 then (s.blv.snap[i], s.blv.snapOvf[i]) else (0, false)

/-- The computed fields of BLV registers; `rel` is the offset of array element 0, `j` the element. -/
def State.compBlv (s : State) (rel j : Nat) : Comp :=
  let b := s.blv
  let o := 0x40000 + rel
  if o = R.blvSnapStat then [(31, 16, b.snapNum), (15, 15, b.armed.toNat), (14, 14, b.partial_.toNat)]
  else if o = R.blvSnapTick then [(31, 0, b.snapTick % 2 ^ 32)]
  else if o = R.blvGrpCtl then [(30, 30, b.grpBusy.toNat)]
  else if o = R.blvGrpValLo 0 then [(31, 0, cntLo (b.grpVal.getD j (0, false)))]
  else if o = R.blvGrpValHi 0 then [(31, 0, cntHi (b.grpVal.getD j (0, false)))]
  else if o = R.blvTrcStat then [(31, 31, b.mark.isSome.toNat), (30, 30, b.openFrame.isSome.toNat), (29, 15, s.trcAvail)]
  else if o = R.blvTrcPtr then [(29, 16, b.wr % 16384), (13, 0, b.rd % 16384)]
  else if o = R.blvTrcCmd then [(13, 0, b.mark.getD 0 % 16384)]
  else if o = R.blvTrcPop 0 then [(31, 0, (s.trcPopWord j).toNat)]
  else if o = R.blvTrcDmaHead then [(31, 0, b.head)]
  else if o = R.blvImgLo 0 then [(31, 0, cntLo (s.cntVal j))]
  else if o = R.blvImgHi 0 then [(31, 0, cntHi (s.cntVal j))]
  else if o = R.blvSnapLo 0 then [(31, 0, cntLo (s.snapVal j))]
  else if o = R.blvSnapHi 0 then [(31, 0, cntHi (s.snapVal j))]
  else []

/-- Highest priority, pavilion of the highest average and that average, of a Plot (R405). -/
def State.plotLstat (s : State) (k : Nat) : Comp :=
  let m (p : PavId) : PlotMeter := (s.pav p).meters[k % 64]'(Nat.mod_lt _ (by decide))
  let top := allPavs.foldl (fun (a : Nat × Nat) p => if a.2 < (m p).avg then (p.val, (m p).avg) else a) (0, (m 0).avg)
  [(22, 20, allPavs.foldl (fun a p => max a (m p).pri) 0), (19, 16, top.1), (15, 0, min (top.2 / 256) 0xFFFF)]

/-- The computed fields of REG registers. -/
def State.compReg (s : State) (rel j : Nat) : Comp :=
  let g := s.glb
  let o := 0x50000 + rel
  let k := j % 64
  if o = R.regPlotEff 0 then [(15, 0, g.gbwEff[k]'(Nat.mod_lt _ (by decide)))]
  else if o = R.regPlotRd 0 then [(31, 0, g.plotRd[k]'(Nat.mod_lt _ (by decide)))]
  else if o = R.regPlotWr 0 then [(31, 0, g.plotWr[k]'(Nat.mod_lt _ (by decide)))]
  else if o = R.regPlotLstat 0 then s.plotLstat k
  else if o = R.regDeliv then
    [(31, 16, min ((List.range 64).map fun i => bitsOf (s.rpend (R.regPlotGbw i)) 15 0).sum 0xFFFF), (15, 0, min g.deliv 0xFFFF)]
  else if o = R.regOvc then [(31, 31, g.ovcActive.toNat), (10, 0, g.scale)]
  else if o = R.regThrStat then [(15, 0, (allChans.map fun c => bitN (s.chan c).congested c.val).sum)]
  else []

/-- The computed fields of PAV registers. -/
def State.compPav (s : State) (p : PavId) (rel j : Nat) : Comp :=
  let v := s.pav p
  let o := 0x100000 + rel
  let m : PlotMeter := v.meters[j % 64]'(Nat.mod_lt _ (by decide))
  if o = R.pavDirStat 0 then [(31, 19, v.suspect.length), (10, 10, (!v.rebuild.isEmpty).toNat)]
  else if o = R.pavHcStat 0 then [(31, 28, v.evicts.length), (27, 19, v.orang.length + v.orRsv), (18, 10, v.orRsv), (9, 0, v.miss.length)]
  else if o = R.pavLockStat 0 then [(31, 28, popcount (s.rget (R.pavLockMask p) &&& 0xFFFF)), (17, 0, s.lockEmpty p)]
  else if o = R.pavErrStat 0 then [(12, 12, v.halted.toNat)]
  else if o = R.pavPlotOcc 0 0 then [(18, 0, m.occ)]
  else if o = R.pavPlotLat 0 0 then [(26, 24, m.pri), (23, 0, min m.avg 0xFFFFFF)]
  else if o = R.pavAge 0 then [(31, 28, v.ageTrim), (27, 24, v.ageTarget), (15, 0, v.ageWorst)]
  else []

/-- The computed fields of PORT registers. -/
def State.compPort (s : State) (n : PortId) (rel : Nat) : Comp :=
  let l := (s.port n).link; let io := (s.port n).io
  let o := 0x200000 + rel
  if o = R.portLinkStat 0 then
    [(31, 28, linkCode l.st), (27, 26, l.gen), (25, 24, if l.width = 4 then 3 else l.width), (23, 22, l.level), (21, 21, l.reversed.toNat),
     (20, 17, l.polInv.toNat), (16, 13, l.laneFail.toNat), (12, 12, l.eqFast.toNat), (11, 11, l.present.toNat), (10, 10, io.enabled.toNat)]
  else if o = R.portIoStat 0 then
    [(17, 17, io.loss.toNat), (16, 16, (!io.fences.isEmpty).toNat), (12, 8, io.rdt.length), (6, 0, io.arb.length)]
  else if o = R.portThrStat 0 then [(9, 0, l.held.length)]
  else if o = R.portSvcStat 0 then [(31, 29, qCode io.qst)]
  else if o = R.portEye 0 then [(31, 24, worst io.eyeH), (23, 16, worst io.eyeV), (15, 8, l.eqSetting), (1, 0, io.eyeGen)]
  else []

/-- The computed fields of CHAN registers. -/
def State.compChan (s : State) (c : ChanId) (rel : Nat) : Comp :=
  let ch := s.chan c; let x := ch.com
  let o := 0x400000 + rel
  if o = R.chanStat 0 then
    [(31, 28, memCode x.st), (27, 26, match ch.gen with | none => 0 | some .d4 => 1 | some .d5 => 2), (25, 22, ch.freq), (21, 21, x.ref2x.toNat),
     (20, 18, 4 - ch.freeSlots), (17, 17, ch.slot1.isSome.toNat), (16, 16, ch.slot0.isSome.toNat), (15, 8, tempByte x.temp), (7, 0, ch.installed / 8)]
  else if o = R.chanQStat 0 then [(23, 16, ch.rq.length), (8, 8, ch.drain.toNat), (7, 0, ch.wq.length)]
  else if o = R.chanInitStat 0 then [(31, 31, ch.bgDone.toNat), (18, 0, ch.init.length)]
  else if o = R.chanTrainStat 0 then
    [(31, 28, x.last), (27, 27, x.walk.toNat), (15, 0, ((List.range 16).map fun k => bitN (x.recs.any fun r => r.good && r.code = k) k).sum)]
  else if o = R.chanPatrolStat 0 then [(31, 27, x.passes), (26, 0, x.patrolPos / 64)]
  else if o = R.chanSurveyStat 0 then [(12, 12, x.survey.isSome.toNat)]
  else if o = R.chanPprStat 0 then
    [(31, 28, ch.repairs.length), (24, 24, ch.pprRun.isSome.toNat), (23, 23, ch.pprReq.isSome.toNat), (5, 0, ch.pprReq.getD 0)]
  else []

/-- The computed fields of STACK registers. -/
def State.compStk (s : State) (k : StackId) (rel : Nat) : Comp :=
  let x := (s.stk k).com
  let o := 0x500000 + rel
  if o = R.stackStat 0 then [(31, 28, memCode x.st), (27, 27, x.ref2x.toNat), (15, 8, tempByte x.temp)]
  else if o = R.stackPatrolStat 0 then [(31, 27, x.passes), (26, 0, x.patrolPos / 64)]
  else if o = R.stackSurveyStat 0 then [(12, 12, x.survey.isSome.toNat)]
  else []

/-- APPLY_STATUS (R517, R534). -/
def State.compApply (s : State) (b : Blk) (i : Nat) : Comp :=
  [(9, 9, (s.blkIdle b i).toNat), (8, 8, (s.pendIn b i).toNat), (7, 0, (FMap.find? s.lastTick (applyOff b i)).getD 0 % 256)]

/-- The computed fields of a register; `rel` is the offset of its first array element in the block. -/
def State.compOf (s : State) (off : Nat) (b : Blk) (i j rel : Nat) : Comp :=
  if off = applyOff b i then s.compApply b i else
  match b with
  | .glb | .raw => s.compGlb off
  | .band | .lodge | .ice => s.compMgmt off
  | .blv => s.compBlv rel j
  | .reg => s.compReg rel j
  | .pav => s.compPav (pavOf i) rel j
  | .port => (portOf? i).elim [] fun n => s.compPort n rel
  | .chan => s.compChan (chanOf i) rel
  | .stack => s.compStk (stkOf i) rel

/-- The stored word that a read shows: pending values of TICK fields, values in force elsewhere (R44). -/
def State.shown (s : State) (off : Nat) (d : RegDesc) : W32 := merge32 (s.rget off) (s.rpend off) (maskOf d.fields isTick)

/-- What a privileged read of a register returns. -/
def State.view (s : State) (off : Nat) : W32 :=
  match regAt off with
  | none => 0
  | some (b, i, j, d) => compWord (s.shown off d &&& ~~~maskOf d.fields (·.acc = .wo)) (s.compOf off b i j d.off)

/-! ## Range and combination rules (R518) -/

/-- A rule on one field: its lowest bit when it fails. -/
def ruleOne (bad : Bool) (lo : Nat) : List Nat := if bad then [lo] else []
/-- A rule that combines fields: the lowest bit of a field that the write changes, when it fails (R518). -/
def ruleComb (bad : Bool) (old new : W32) (fs : List (Nat × Nat)) : List Nat :=
  if bad then (fs.filter fun f => bitsOf old f.1 f.2 ≠ bitsOf new f.1 f.2).map (·.2) else []

def outside (x lo hi : Nat) : Bool := decide (x < lo) || decide (hi < x)

/-- The sum of MIN with one Plot's replaced, pending values counted (R389). -/
def State.minSum (s : State) (k x : Nat) : Nat :=
  ((List.range 64).map fun j => if j = k then x else bitsOf (s.rpend (R.regPlotCache j)) 26 16).sum

/-- An event selector with a code that its location defines (R537). -/
def ruleSel (b : Blk) (w : W32) : List Nat := ruleOne (!eventDefined b (bitsOf w 7 0)) 0

/-- The lowest bits of the fields that a write makes break a range or combination rule of their chapter. `rel` and `j` name
the register, `old` and `w` its value after the next tick without and with the write. -/
def State.regRule (s : State) (b : Blk) (i j rel : Nat) (old w : W32) : List Nat :=
  match b with
  | .glb =>
    if rel = R.glbIntCtl then ruleOne (decide (1000 < bitsOf w 9 0)) 0
    else if rel = R.glbCohCtl then ruleOne (outside (bitsOf w 16 0) 10 100000) 0
    else if rel = R.glbIoCtl then ruleOne (outside (bitsOf w 19 0) 100 1000000) 0
    else if rel = R.glbPwrCfg then ruleOne (outside (bitsOf w 9 0) 1 1000) 0
    else []
  | .band =>
    let o := 0x10000 + rel
    if o = R.bandTickCfg then ruleOne (outside (bitsOf w 9 0) 2 1000) 0
    else if o = R.bandTimeCtl then ruleOne (decide (127 < bitsOf w 23 16)) 16 ++ ruleOne (bitsOf w 31 30 = 3) 30
    else []
  | .lodge => if 0x20000 + rel = R.lodgeAgeCtl then ruleOne (decide (25 < bitsOf w 7 0)) 0 else []
  | .reg =>
    let o := 0x50000 + rel
    if o = R.regPlotLat 0 then ruleOne (decide (4 < bitsOf w 18 16)) 16
    else if o = R.regPlotCache 0 then
      let mn := bitsOf w 26 16; let mx := bitsOf w 10 0
      ruleOne (decide (1024 < mx)) 0 ++ ruleOne (decide (1024 < mn)) 16 ++ ruleComb (decide (mx < mn)) old w [(10, 0), (26, 16)]
        ++ ruleComb (decide (1024 < s.minSum j mn)) old w [(26, 16)]
    else if o = R.regPlotShare 0 then ruleOne (outside (bitsOf w 6 0) 1 64) 0 ++ ruleOne (outside (bitsOf w 21 16) 1 62) 16
    else if o = R.regMqMark then
      let wh := bitsOf w 31 24; let wl := bitsOf w 23 16; let rh := bitsOf w 15 8; let rl := bitsOf w 7 0
      ruleOne (decide (64 < rh)) 8 ++ ruleOne (decide (128 < wh)) 24 ++ ruleComb (decide (rh ≤ rl)) old w [(7, 0), (15, 8)]
        ++ ruleComb (decide (wh ≤ wl)) old w [(23, 16), (31, 24)]
    else []
  | .blv =>
    let o := 0x40000 + rel
    if o = R.blvGsel 0 then ruleSel .blv w
    else if o = R.blvTrcCfg then ruleOne (bitsOf w 23 20 = 0) 20
    else if o = R.blvTrcFilt then ruleOne (decide (95 < bitsOf w 8 2)) 2
    else if o = R.blvTrcDmaCfg then
      ruleOne (decide (18 < bitsOf w 4 0)) 0 ++ ruleComb ((s.rget R.blvTrcDmaBaseLo).toNat % (4096 * 2 ^ bitsOf w 4 0) ≠ 0) old w [(4, 0)]
    else if o = R.blvTrcDmaBaseLo then ruleOne (w.toNat % (4096 * 2 ^ s.rf R.blvTrcDmaCfg 4 0) ≠ 0) 12
    else []
  | .pav =>
    if rel = 0x148 then ruleOne (decide (12 < popcount (w &&& 0xFFFF))) 0
    else if rel = 0x500 then ruleSel .pav w else []
  | .port =>
    let o := 0x200000 + rel
    if o = R.portLinkCtl 0 then
      ruleOne (outside (bitsOf w 15 8) 10 100) 8 ++ ruleOne (bitsOf w 23 16 = 0) 16 ++ ruleOne (bitsOf w 27 26 = 0) 26 ++ ruleOne (bitsOf w 29 28 = 3) 28
    else if o = R.portCredCfg 0 then ruleOne (outside (bitsOf w 9 0) 16 512) 0
    else if o = R.portIoCtl 0 then
      ruleOne (w.getLsbD 0 && !old.getLsbD 0 && decide (16 ≤ (allPorts.filter fun n => s.rbit (R.portIoCtl n) 0).length)) 0
    else if o = R.portPmcSel 0 0 then ruleSel .port w
    else []
  | .chan =>
    let o := 0x400000 + rel
    if o = R.chanSched 0 then
      let wh := bitsOf w 31 24; let wl := bitsOf w 23 16
      ruleOne (outside (bitsOf w 9 0) 10 1000) 0 ++ ruleOne (outside wh 16 128) 24 ++ ruleComb (decide (wh < wl + 8)) old w [(23, 16), (31, 24)]
    else if o = R.chanPmcSel 0 0 then ruleSel .chan w else []
  | .stack => if rel = 0x100 then ruleSel .stack w else []
  | _ => let _ := i; []

/-- The lowest number of a list. -/
def lowest : List Nat → Option Nat
  | [] => none
  | x :: xs => some (xs.foldl min x)

/-! ## Commands behind GO bits (R519) -/

/-- Outcomes that the environment adds to a command: whether the walk of a failed fence completes (R31), and the
calibrations of an EXIT (R305). -/
structure RegEnv where
  walkOk : Bool := true
  cal : CalibResult := {}
deriving DecidableEq, Repr

/-- MBX_CMD.GO (R452). -/
def State.mbxGo (s : State) : State :=
  if s.lodge.mbxReq.isSome then (s.cfgReject R.lodgeMbxCmd 31 .busy).raise R.lodgeMbxStat 10
  else s.modLodge fun l => { l with mbxReq := some (s.rget R.lodgeMbxCmd, s.rget R.lodgeMbxArg), mbxTick := s.glb.tickNum }

/-- START_CTL.MEM_GO (R417). -/
def State.memGoWrite (s : State) : State :=
  if s.glb.memReady && !s.glb.memGo && !s.glb.memGoPend && !s.glb.memGoDue then s.modGlb fun g => { g with memGoPend := true }
  else s.cfgReject R.glbStartCtl 31 .busy

/-- A command of a channel or stack whose clocks a STANDBY or HIBERNATE has stopped takes effect at the end of the exit (R424). -/
def State.orLate (s : State) (off : Nat) (w : W32) (f : State → State) : State :=
  if s.clocksRun then f s else s.modGlb fun g => { g with cmdLate := g.cmdLate ++ [(off, w)] }

/-- What a stored write sets off: `w` holds the bits that the write carried and its master may write. DESIGN CHOICE: a PAV_FENCE write
without GO is no fence command, and is taken while a fence runs (R33, R52, log entry 326). -/
def State.regAct (s : State) (off : Nat) (b : Blk) (i : Nat) (rel : Nat) (w : W32) (env : RegEnv) : State :=
  let go := w.getLsbD 31
  match b with
  | .glb =>
    if off = R.glbPavFence then (if go then s.fenceGo env.walkOk else s)
    else if off = R.glbHcMopCtl then (if go then s.mopGo else s)
    else if off = R.glbPlaceCmd then (if go then s.placeGo else s)
    else if off = R.glbStartCtl then (if go then s.memGoWrite else s)
    else if off = R.glbPwrCmd then (if go then s.pwrGo env.cal else s)
    else if off = R.glbHcCtl then (if w.getLsbD 0 && s.anyStale then s.raise R.glbHcStat 8 else s)
    else if decide (R.glbHomeBase 0 ≤ off) && decide (off < R.glbIowinBase 0) then s.takeRanges (if s.lodge.nodePend then 0xFF else s.lodge.node)
    else s
  | .raw => if off = R.rawRawCtl && go then s.rawGo else s
  | .band => if off = R.bandTimeCmd && go then s.timeGo else s
  | .lodge => if off = R.lodgeMbxCmd && go then s.mbxGo else s
  | .blv =>
    if off = R.blvCntCtl then (if go then s.modBlv fun b => { b with clearPend := true } else s)
    else if off = R.blvSnapCtl then (if go then s.modBlv fun b => { b with armed := true } else s)
    else if off = R.blvGrpCtl then (if go then s.grpGo else s)
    else if off = R.blvTrcCmd then s.trcCmd w
    else s
  | .port =>
    match portOf? i with
    | none => s
    | some n =>
      if rel = 0 then
        let s := if s.linksOn then s.disableLink n else s
        if go && (s.port n).link.st = .active then s.enterRecovery n else s
      else if rel = 0x100 then s.svcCtl n w else s
  | .chan =>
    let c := chanOf i
    if !go then s
    else if off = R.chanFreqCmd i then s.orLate off w fun s => s.freqGo c (bitsOf w 3 0)
    else if off = R.chanScrubCtl i then s.orLate off w fun s => s.surveyGo (.chan c)
    else if off = R.chanPprCtl i then s.orLate off w fun s => s.repairGo c ⟨bitsOf w 5 0 % 64, Nat.mod_lt _ (by decide)⟩
    else s
  | .stack =>
    let k := stkOf i
    if !go then s
    else if off = R.stackTestCtl i then s.orLate off w fun s => s.stackTestGo k
    else if off = R.stackScrubCtl i then s.orLate off w fun s => s.surveyGo (.stack k)
    else s
  | _ => s

/-! ## One 32-bit write (R513, R515, R516, R518) -/

/-- The writes that HIBERNATE drops: blocks without power (R427). -/
def State.unpowered (s : State) (b : Blk) : Bool :=
  s.glb.pwr = .hibernate && (b = .pav || b = .port || b = .stack || b = .reg || b = .blv)

/-- A status register that the write clears when it writes back its sequence (R474, R515). -/
def clearSeq (off : Nat) (d : RegDesc) (m cur v : W32) : W32 :=
  if maskOf d.fields (·.acc = .rsq) &&& m = 0 then cur
  else if off = R.lodgeEvqStat then clearOverrun cur v else clearWord cur (rsqBits off) v

/-- Stores an accepted write: NOW and IDLE fields at once, TICK fields as pending values, event bits cleared. `m` selects
the bits that the master may write. What it writes is noted for the hardware updates of its cc (R519, R520). -/
def State.regPut (s : State) (off : Nat) (d : RegDesc) (m v : W32) : State :=
  let v := v &&& ~~~((FMap.find? s.hwNow off).getD 0)
  let old := s.shown off d
  let tick := maskOf d.fields (fun f => isStored f && isTick f) &&& m
  let now := maskOf d.fields (fun f => isStored f && !isTick f) &&& m
  let new := merge32 old v tick
  let pend := new ≠ old
  let keep := s.rpend off
  let cur := clearSeq off d m (s.rget off) v
  let s := if m = 0 then s else
    { s with swNow := if (FMap.find? s.swNow off).isSome then s.swNow else FMap.insert s.swNow off (s.rget off)
             swBits := FMap.insert s.swBits off (s.swWrote off ||| now ||| tick) }
  let s := s.rset off (merge32 cur v now)
  if pend then s.modPend fun m => FMap.insert m off (merge32 keep new (maskOf d.fields isTick)) else s

/-- A rejection of a write: the field recorded and the reason (R518, R529). -/
def State.regJudge (s : State) (off : Nat) (b : Blk) (i j : Nat) (d : RegDesc) (m v : W32) : Option (Nat × Reason) :=
  let old := s.shown off d
  let new := merge32 old v (maskOf d.fields isStored &&& m)
  let busy := (d.fields.filter fun f => f.app = .idle && isStored f && bitsOf old f.hi f.lo ≠ bitsOf new f.hi f.lo).map (·.lo)
  let busy := if s.blkIdle b i then [] else busy
  let range := s.regRule b i j d.off old new
  let ovc := b = .reg && 0x50000 + d.off = R.regPlotGbw 0 && !s.gbwAdmit ⟨j % 64, Nat.mod_lt _ (by decide)⟩ (bitsOf new 15 0)
  match lowest (busy ++ range ++ if ovc then [0] else []) with
  | none => none
  | some lo => some (lo, if busy.contains lo then .notIdle else if range.contains lo then .range else .overcommit)

/-- Whether a command has been rejected: CFG_REJECT_EVT has counted (R518). -/
def rejectedSince (s t : State) : Bool := s.rget R.glbCfgRejectEvt ≠ t.rget R.glbCfgRejectEvt

/-- A write of a master without privilege to a register that holds a writable PRIV field is a guard event (R513). -/
def State.guardWrite (s : State) (a : Access) (off : Nat) (d : RegDesc) : State :=
  if !s.privileged a && d.fields.any (fun f => isWritable f && f.priv) then s.accessEvt a.master off true 8 else s

/-- An entry as an earlier map held it. -/
def FMap.back {α : Type} (old m : FMap α) (k : Nat) : FMap α :=
  match FMap.find? old k with
  | none => FMap.erase m k
  | some v => FMap.insert m k v

/-- The state `u` with one register as `s` held it: a rejected write changes no field of it (R516). -/
def State.undoWrite (s u : State) (off : Nat) : State :=
  { u.rset off (s.rget off) with pend := FMap.back s.pend u.pend off, swNow := FMap.back s.swNow u.swNow off, swBits := FMap.back s.swBits u.swBits off }

/-- A 32-bit write that reaches an existing register, `priv` being its privilege on arrival; a rejected one changes nothing of it
(R512, R513, R516). -/
def State.regWrite (s : State) (priv : Bool) (off : Nat) (b : Blk) (i j : Nat) (d : RegDesc) (v : W32) (env : RegEnv) : State :=
  let m := maskOf d.fields fun f => isWritable f && (priv || !f.priv)
  match s.regJudge off b i j d m v with
  | some (lo, r) =>
    let s := s.cfgReject off lo r
    if r = .overcommit then s.raise R.regEvt 10 else s
  | none =>
    let t := s.regPut off d m v
    let u := t.regAct off b i d.off (v &&& m) env
    if rejectedSince t u then s.undoWrite u off else u

/-- The commands that an exit has let through (R424). -/
def State.cmdLates (s : State) : State :=
  s.glb.cmdLate.foldl (fun s x => match regAt x.1 with
    | none => s
    | some (b, i, _, d) => s.regAct x.1 b i d.off x.2 {}) (s.modGlb fun g => { g with cmdLate := [] })

/-- Software's write of a counter is noted: it wins over the increments of its cc (R519, R539). -/
def State.cntHold (s : State) (i : Nat) : State := { s with swNow := FMap.insert s.swNow (R.blvImgLo i) 0 }

/-- A counter written through its live-image pair, each word where it is written: a _LO write alone keeps COUNT_HI and OVF, as they were
before the increments of this cc, which are lost (R519, R539). -/
def State.cntWrite (s : State) (i : Nat) (lo hi : Option W32) : State :=
  if h : i < 552 then
    (s.cntHold i).modBlv fun b =>
      let (c, o) := (FMap.find? b.cntOld i).getD (b.cnt[i], b.ovf[i])
      let x := BitVec.ofNat 48 (hi.elim (c.toNat / 2 ^ 32) (bitsOf · 15 0) * 2 ^ 32 + lo.elim (c.toNat % 2 ^ 32) BitVec.toNat)
      let y := hi.elim o (·.getLsbD 31)
      { b with cnt := b.cnt.set i x, ovf := b.ovf.set i y, cntOld := FMap.insert b.cntOld i (x, y) }
  else s

/-! ## The MSI-X structures and the debug window (R235, R512, R523) -/

/-- The MSI-X table and pending-bit array (R523). -/
def isMsix (off : Nat) : Bool := (decide (0x2000 ≤ off) && decide (off < 0x2400)) || off = 0x3000 || off = 0x3004
/-- Vector control resets masked, as PCI Express has it. -/
def msixReset (k : Nat) : W32 := if k % 4 = 3 then 1 else 0
def State.msixWord (s : State) (off : Nat) : W32 :=
  if off = 0x3000 then s.glb.msixPend.setWidth 32
  else if off = 0x3004 then (s.glb.msixPend >>> 32).setWidth 32
  else FMap.get msixReset s.glb.msixTable ((off - 0x2000) / 4)
def State.msixWrite (s : State) (off : Nat) (v : W32) : State :=
  if off < 0x2400 then s.modGlb fun g => { g with msixTable := FMap.put msixReset g.msixTable ((off - 0x2000) / 4) v } else s

def isDebug (off : Nat) : Bool := decide (0x2000000 ≤ off) && decide (off < 0x4000000)
def debugPav (off : Nat) : PavId := pavOf ((off - 0x2000000) / 0x200000)

/-! ## Pairs (R509) -/

/-- The _LO words of 64-bit pairs, by block and offset (R509, R525). -/
def pairLos (b : Blk) : List Nat :=
  match b with
  | .glb => [0x40, 0x440, 0x710, 0x718]
  | .raw => [8]
  | .band => [0x28]
  | .blv => [0x40, 0x110, 0x118, 0x140, 0x1000, 0x3000]
  | .chan => [0x58, 0x60, 0x68, 0x80]
  | .stack => [0x58, 0x60, 0x68]
  | _ => []

inductive Half where
  | lo
  | hi
deriving DecidableEq, Repr

/-- Which word of a pair an offset is. -/
def pairHalf (off : Nat) : Option Half :=
  match regAt off with
  | none => none
  | some (b, _, _, d) =>
    if (pairLos b).contains d.off then some .lo else if decide (4 ≤ d.off) && (pairLos b).contains (d.off - 4) then some .hi else none

/-- Number of a master's latch and holding register (R509). -/
def masterKey : Master → Nat
  | .host => 0
  | .lodge => 1
  | .port n => 2 + n.val

def State.pairOf (s : State) (m : Master) : PairRegs := (FMap.find? s.pairs (masterKey m)).getD {}
def State.modPair (s : State) (m : Master) (f : PairRegs → PairRegs) : State :=
  s.modPairs fun x => FMap.put (fun _ => ({} : PairRegs)) x (masterKey m) (f (s.pairOf m))

/-! ## 32-bit reads -/

/-- A read under R544 of an image word by a master that is not privileged. -/
def State.userCnt (s : State) (m : Master) (i : Nat) : Bool :=
  match m with
  | .port n => s.rbit (R.portPmcCtl n) 0 && s.rbit (R.blvUserVis (i / 32)) (i % 32)
  | _ => false

/-- What a read of a register that shows `v` returns to a master, and whether it is a guard event (R513, R544). -/
def State.guardOf (s : State) (a : Access) (off : Nat) (v : W32) : W32 × Bool :=
  match regAt off with
  | none => (0, false)
  | some (b, _, j, d) =>
    if s.privileged a then (v, false)
    else if b = .blv && decide (0x1000 ≤ d.off) && decide (d.off < 0x5000) then (if s.userCnt a.master j then v else 0, false)
    else if d.fields.all (·.priv) then (0, true)
    else (v &&& ~~~maskOf d.fields (·.priv), false)
/-- The same of what the register shows now. -/
def State.guarded (s : State) (a : Access) (off : Nat) : W32 × Bool := s.guardOf a off (s.view off)
/-- A read's outcome, with the guard event that it makes. -/
def State.guardRead (s : State) (a : Access) (off : Nat) (x : W32 × Bool) : State × W32 :=
  (if x.2 then s.accessEvt a.master off false 8 else s, x.1)

/-- A 32-bit read without the pair rule, with its side effects (R235, R511 to R513, R554). -/
def State.read32 (s : State) (a : Access) (off : Nat) : State × W32 :=
  if isMsix off then (s, if a.master = .host then s.msixWord off else 0)
  else if isDebug off then
    if s.privileged a then s.ghDebugRead (debugPav off) (off % 0x200000) else (s.accessEvt a.master off false 8, 0)
  else
    let s := if off = R.blvTrcPop 0 && s.privileged a then s.trcLatch else s
    let x := s.guarded a off
    (if off = R.blvTrcPop 3 && s.privileged a then s.trcRemove else s).guardRead a off x

/-- A 32-bit read by a master, under the pair rule and R478. -/
def State.pairRead (s : State) (a : Access) (off : Nat) : State × W32 :=
  let m := a.master
  let pr := s.pairOf m
  if off = R.bandTimeNs then
    let (s, v) := s.read32 a off
    (s.modPair m fun x => { x with latch := none, tsec := [(R.bandTimeSecLo, s.view R.bandTimeSecLo), (R.bandTimeSecHi, s.view R.bandTimeSecHi)] }, v)
  else if off = R.bandTimeSecLo || off = R.bandTimeSecHi then
    match pr.tsec.find? fun (x : Nat × W32) => x.1 = off with
    | some x => (s.modPair m fun y => { y with tsec := y.tsec.filter fun (z : Nat × W32) => z.1 ≠ off }).guardRead a off (s.guardOf a off x.2)
    | none => s.read32 a off
  else
    match pairHalf off with
    | none => s.read32 a off
    | some .lo =>
      let hi := s.view (off + 4)
      let (s, v) := s.read32 a off
      (s.modPair m fun x => { x with latch := some (off + 4, hi), tsec := [] }, v)
    | some .hi =>
      match pr.latch with
      | some (o, v) => if o = off then (s.modPair m fun x => { x with latch := none }).guardRead a off (s.guardOf a off v) else s.read32 a off
      | none => s.read32 a off

/-! ## 32-bit writes by a master -/

/-- The holding register empties (R509). -/
def State.dropHold (s : State) (m : Master) : State := s.modPair m fun x => { x with hold := none }

/-- A write to one 32-bit offset without the pair rule. `hi` is the upper word of a pair with its privilege on arrival: each word goes
by its own (R509, R512). -/
def State.write32 (s : State) (a : Access) (off : Nat) (v : W32) (hi : Option (W32 × Bool)) (env : RegEnv) : State :=
  match regAt off with
  | none => s.accessEvt a.master off true 11
  | some (b, i, j, d) =>
    if s.unpowered b then s.accessEvt a.master off true 9
    else
      let priv := s.privileged a
      let s := s.guardWrite a off d
      if b = Blk.blv && d.off = 0x1000 then
        let up := hi.bind fun x => if x.2 then some x.1 else none
        if priv || up.isSome then s.cntWrite j (if priv then some v else none) up else s
      else
        let s := match hi with
          | none => s
          | some x =>
            match regAt (off + 4) with
            | none => s
            | some (b, i, j, d) => s.regWrite x.2 (off + 4) b i j d x.1 env
        s.regWrite priv off b i j d v env

/-- A write of a _HI word: judged on arrival, and held (R509, R512, R513). -/
def State.holdHi (s : State) (a : Access) (off : Nat) (v : W32) : State :=
  match regAt off with
  | none => s
  | some (b, _, _, d) =>
    if s.unpowered b then s.accessEvt a.master off true 9
    else (s.guardWrite a off d).modPair a.master fun x => { x with hold := some (off, v, s.privileged a) }

/-- A 32-bit write by a master (R235, R508, R509, R511, R512). -/
def State.pairWrite (s : State) (a : Access) (off : Nat) (v : W32) (env : RegEnv) : State :=
  let m := a.master
  let held := (s.pairOf m).hold
  let s := s.dropHold m
  if isMsix off then (if m = .host then s.msixWrite off v else s.accessEvt m off true 8)
  else if isDebug off then
    if !s.privileged a then s.accessEvt m off true 8
    else if s.glb.pwr = .hibernate || (s.pav (debugPav off)).place ≠ .window then s.accessEvt m off true 9
    else s.ghDebugWrite (debugPav off) (off % 0x200000) v
  else if pairHalf off = some .hi then s.holdHi a off v
  else
    let hi := if pairHalf off = some .lo then (match held with
        | some (o, x, p) => if o = off + 4 then some (x, p) else none
        | none => none) else none
    s.write32 a off v hi env

/-! ## Accesses of any width (R508, R510) -/

/-- A write of 1 to 8 bytes. -/
def State.accWrite (s : State) (a : Access) (off n : Nat) (data : BitVec 64) (env : RegEnv := {}) : State :=
  let s := s.cntGlob 3
  let lo : W32 := data.setWidth 32
  let hi : W32 := (data >>> 32).setWidth 32
  if n = 4 && off % 4 = 0 then s.pairWrite a off lo env
  else if n = 8 && off % 8 = 0 then
    if pairHalf off = some .lo then
      let s := s.dropHold a.master
      let s := match regAt (off + 4) with
        | none => s
        | some (b, _, _, d) => if s.unpowered b then s else s.guardWrite a (off + 4) d
      s.write32 a off lo (some (hi, s.privileged a)) env
    else (s.pairWrite a off lo env).pairWrite a (off + 4) hi env
  else if n < 4 && off % 4 + n ≤ 4 then (s.dropHold a.master).accessEvt a.master off true 9
  else (s.dropHold a.master).accessEvt a.master off true 10

/-- A read of any width; none is a Completer Abort. -/
def State.accRead (s : State) (a : Access) (off n : Nat) : State × Option (BitVec 64) :=
  let s := s.cntGlob 3
  if n = 8 && off % 8 = 0 then
    if pairHalf off = some .lo then
      let up := s.guarded a (off + 4)
      let (s, lo) := s.read32 a off
      let (s, hi) := s.guardRead a (off + 4) up
      (s, some (hi ++ lo))
    else
      let (s, lo) := s.pairRead a off
      let (s, hi) := s.pairRead a (off + 4)
      (s, some (hi ++ lo))
  else if 1 ≤ n && off % 4 + n ≤ 4 then
    let (s, v) := s.pairRead a (off / 4 * 4)
    (s, some (BitVec.ofNat 64 (v.toNat / 2 ^ (8 * (off % 4)) % 2 ^ (8 * n))))
  else (s.accessEvt a.master off false 10, none)

/-- A read whose answer leaves the hub (R504). -/
def State.readOut (s : State) (a : Access) (off n : Nat) : State :=
  match s.accRead a off n with
  | (s, some v) => s.emit (.read a.master off v)
  | (s, none) => s.emit (.abort a.master off)

/-- A 32-bit write of a command's register. -/
def State.cmdWrite (s : State) (a : Access) (off : Nat) (v : W32) (env : RegEnv := {}) : State := (s.cntGlob 3).pairWrite a off v env

/-! ## MSI-X messages (R523) -/

/-- A pending vector sends its message: the address and data of its table entry. -/
def State.msixSend (s : State) (v : Fin 64) : State :=
  let free := s.rbit (R.glbIntRoute 0) 31 && s.rf (R.glbIntRoute 0) 5 0 = v.val
  let word (k : Nat) : W32 := s.msixWord (0x2000 + 16 * v.val + 4 * k)
  let addr : BitVec 64 := word 1 ++ word 0
  let dat := word 2
  let due := match FMap.find? s.glb.msixLast v.val with
    | none => true
    | some t => free || decide (t + s.rf R.glbIntCtl 9 0 * ccPerUs ≤ s.now)
  if s.glb.msixPend.getLsbD v.val && s.glb.msixEn && !s.glb.msixMask && !(word 3).getLsbD 0 && due then
    ((s.modGlb fun g => { g with msixPend := setBits g.msixPend v.val v.val 0, msixLast := FMap.insert g.msixLast v.val s.now }).emit (.msix v.val addr dat)).cntGlob 4
  else s

/-! ## The commands -/

/-- REGISTER_WRITE (R516). -/
def execRegisterWrite (a : Access) (off nbytes : Nat) (data : BitVec 64) (s : State) : Host.Outcome State Fault Refusal :=
  live s fun s => s.accWrite a off nbytes data
/-- STATUS_CLEAR (R515): the register takes the value written back. -/
def execStatusClear (a : Access) (off : Nat) (v : W32) (s : State) : Host.Outcome State Fault Refusal := live s fun s => s.cmdWrite a off v
/-- PAIR_LO_READ (R508 to R510): a read of any width. -/
def execPairLoRead (a : Access) (x : Span) (s : State) : Host.Outcome State Fault Refusal := live s fun s => s.readOut a x.off x.len
/-- PAIR_HI_READ (R508, R509). -/
def execPairHiRead (a : Access) (x : Span) (s : State) : Host.Outcome State Fault Refusal := live s fun s => s.readOut a x.off x.len
/-- PAIR_HI_WRITE (R509). -/
def execPairHiWrite (a : Access) (off : Nat) (v : W32) (s : State) : Host.Outcome State Fault Refusal := live s fun s => s.cmdWrite a off v
/-- TIME_NS_READ (R478). -/
def execTimeNsRead (a : Access) (s : State) : Host.Outcome State Fault Refusal := live s fun s => s.readOut a R.bandTimeNs 4
/-- MSIX_MESSAGE (R523). -/
def execMsixMessage (v : Fin 64) (s : State) : Host.Outcome State Fault Refusal := live s fun s => s.msixSend v
/-- RETRAIN (R97). -/
def execRetrain (a : Access) (n : PortId) (s : State) : Host.Outcome State Fault Refusal :=
  live s fun s => s.cmdWrite a (R.portLinkCtl n) (setBits (s.view (R.portLinkCtl n)) 31 31 1)
/-- LINK_DISABLE (R60, R97). -/
def execLinkDisable (a : Access) (n : PortId) (disable : Bool) (s : State) : Host.Outcome State Fault Refusal :=
  live s fun s => s.cmdWrite a (R.portLinkCtl n) (setBits (s.view (R.portLinkCtl n)) 30 30 disable.toNat)
/-- FREQ_CHANGE (R312). -/
def execFreqChange (a : Access) (c : ChanId) (v : W32) (s : State) : Host.Outcome State Fault Refusal :=
  live s fun s => s.cmdWrite a (R.chanFreqCmd c) (setBits v 31 31 1)
/-- STACK_TEST (R314). -/
def execStackTest (a : Access) (k : StackId) (s : State) : Host.Outcome State Fault Refusal :=
  live s fun s => s.cmdWrite a (R.stackTestCtl k) 0x80000000
/-- PAVILION_FENCE_ORDERLY (R30, R33). -/
def execPavilionFenceOrderly (a : Access) (v : W32) (s : State) : Host.Outcome State Fault Refusal :=
  live s fun s => s.cmdWrite a R.glbPavFence (setBits (setBits v 31 31 1) 4 4 0)
/-- PAVILION_FENCE_FAILED (R31, R33). -/
def execPavilionFenceFailed (a : Access) (v : W32) (walkOk : Bool) (s : State) : Host.Outcome State Fault Refusal :=
  live s fun s => s.cmdWrite a R.glbPavFence (setBits (setBits v 31 31 1) 4 4 1) { walkOk := walkOk }
/-- PLACE_CMD with GO and a MODE. -/
def placeWord (v : W32) (mode : Nat) : W32 := setBits (setBits v 31 31 1) 17 16 mode
/-- WINDOW_TO_GH_CACHE (R238, R240). -/
def execWindowToGhCache (a : Access) (v : W32) (s : State) : Host.Outcome State Fault Refusal :=
  live s fun s => s.cmdWrite a R.glbPlaceCmd (placeWord v 1)
/-- GH_CACHE_TO_SECTORED (R238, R241). -/
def execGhCacheToSectored (a : Access) (v : W32) (s : State) : Host.Outcome State Fault Refusal :=
  live s fun s => s.cmdWrite a R.glbPlaceCmd (placeWord v 2)
/-- SECTORED_TO_GH_CACHE (R238, R242). -/
def execSectoredToGhCache (a : Access) (v : W32) (s : State) : Host.Outcome State Fault Refusal :=
  live s fun s => s.cmdWrite a R.glbPlaceCmd (placeWord v 1)
/-- HC_MOP_CTL with GO and an OP (R249, R250). -/
def mopWord (v : W32) (op : Nat) : W32 := setBits (setBits v 31 31 1) 30 28 op
/-- MOP_CLEAN (R250). -/
def execMopClean (a : Access) (v : W32) (s : State) : Host.Outcome State Fault Refusal := live s fun s => s.cmdWrite a R.glbHcMopCtl (mopWord v 1)
/-- MOP_INV (R250). -/
def execMopInv (a : Access) (v : W32) (s : State) : Host.Outcome State Fault Refusal := live s fun s => s.cmdWrite a R.glbHcMopCtl (mopWord v 2)
/-- MOP_CLEAN_INV (R250). -/
def execMopCleanInv (a : Access) (v : W32) (s : State) : Host.Outcome State Fault Refusal := live s fun s => s.cmdWrite a R.glbHcMopCtl (mopWord v 3)
/-- MOP_PRELOAD (R250, R259). -/
def execMopPreload (a : Access) (v : W32) (s : State) : Host.Outcome State Fault Refusal := live s fun s => s.cmdWrite a R.glbHcMopCtl (mopWord v 4)
/-- MOP_DISABLE_CLEAN (R250, R256). -/
def execMopDisableClean (a : Access) (v : W32) (s : State) : Host.Outcome State Fault Refusal :=
  live s fun s => s.cmdWrite a R.glbHcMopCtl (mopWord v 5)
/-- LOCK_MASK_WRITE (R258). -/
def execLockMaskWrite (a : Access) (p : PavId) (v : W32) (s : State) : Host.Outcome State Fault Refusal :=
  live s fun s => s.cmdWrite a (R.pavLockMask p) v
/-- GLASSHOUSE_DEBUG_READ (R235). -/
def execGlasshouseDebugRead (a : Access) (x : Span) (s : State) : Host.Outcome State Fault Refusal := live s fun s => s.readOut a x.off x.len
/-- GLASSHOUSE_DEBUG_WRITE (R235). -/
def execGlasshouseDebugWrite (a : Access) (off : Nat) (v : W32) (s : State) : Host.Outcome State Fault Refusal := live s fun s => s.cmdWrite a off v
/-- RAW_CTL with GO and a CMD (R356). -/
def rawWord (v : W32) (cmd : Nat) : W32 := setBits (setBits v 31 31 1) 30 28 cmd
/-- READ_RAW (R356). -/
def execReadRaw (a : Access) (v : W32) (s : State) : Host.Outcome State Fault Refusal := live s fun s => s.cmdWrite a R.rawRawCtl (rawWord v 1)
/-- READ_DEC (R356). -/
def execReadDec (a : Access) (v : W32) (s : State) : Host.Outcome State Fault Refusal := live s fun s => s.cmdWrite a R.rawRawCtl (rawWord v 2)
/-- WRITE_RAW (R356). -/
def execWriteRaw (a : Access) (v : W32) (s : State) : Host.Outcome State Fault Refusal := live s fun s => s.cmdWrite a R.rawRawCtl (rawWord v 3)
/-- WRITE_ENC (R356). -/
def execWriteEnc (a : Access) (v : W32) (s : State) : Host.Outcome State Fault Refusal := live s fun s => s.cmdWrite a R.rawRawCtl (rawWord v 4)
/-- SURVEY_GO (R360). -/
def execSurveyGo (a : Access) (m : MemUnit) (v : W32) (s : State) : Host.Outcome State Fault Refusal :=
  live s fun s => s.cmdWrite a (match m with
    | .chan c => R.chanScrubCtl c
    | .stack k => R.stackScrubCtl k) (setBits v 31 31 1)
/-- REPAIR_APPROVE (R364, R379). -/
def execRepairApprove (a : Access) (c : ChanId) (v : W32) (s : State) : Host.Outcome State Fault Refusal :=
  live s fun s => s.cmdWrite a (R.chanPprCtl c) (setBits v 31 31 1)
/-- GBW_WRITE (R399). -/
def execGbwWrite (a : Access) (k : PlotId) (v : W32) (s : State) : Host.Outcome State Fault Refusal :=
  live s fun s => s.cmdWrite a (R.regPlotGbw k.toNat) v
/-- PLOT_CACHE_WRITE (R389). -/
def execPlotCacheWrite (a : Access) (k : PlotId) (v : W32) (s : State) : Host.Outcome State Fault Refusal :=
  live s fun s => s.cmdWrite a (R.regPlotCache k.toNat) v
/-- PLOT_LAT_WRITE (R392, R393). -/
def execPlotLatWrite (a : Access) (k : PlotId) (v : W32) (s : State) : Host.Outcome State Fault Refusal :=
  live s fun s => s.cmdWrite a (R.regPlotLat k.toNat) v
/-- MQ_MARK_WRITE (R395). -/
def execMqMarkWrite (a : Access) (v : W32) (s : State) : Host.Outcome State Fault Refusal := live s fun s => s.cmdWrite a R.regMqMark v
/-- MEM_GO (R417). -/
def execMemGo (a : Access) (s : State) : Host.Outcome State Fault Refusal := live s fun s => s.cmdWrite a R.glbStartCtl 0x80000000
/-- STANDBY (R421, R423). -/
def execStandby (a : Access) (s : State) : Host.Outcome State Fault Refusal := live s fun s => s.cmdWrite a R.glbPwrCmd 0x80000001
/-- HIBERNATE (R421, R426). -/
def execHibernate (a : Access) (s : State) : Host.Outcome State Fault Refusal := live s fun s => s.cmdWrite a R.glbPwrCmd 0x80000002
/-- EXIT (R305, R421, R425, R427). -/
def execExit (a : Access) (r : CalibResult) (s : State) : Host.Outcome State Fault Refusal :=
  live s fun s => s.cmdWrite a R.glbPwrCmd 0x80000003 { cal := r }
/-- ENABLE (R429). -/
def execEnable (a : Access) (n : PortId) (s : State) : Host.Outcome State Fault Refusal :=
  live s fun s => s.cmdWrite a (R.portSvcCtl n) 0x20000000
/-- QUIESCE (R430, R433). -/
def execQuiesce (a : Access) (n : PortId) (s : State) : Host.Outcome State Fault Refusal :=
  live s fun s => s.cmdWrite a (R.portSvcCtl n) 0x80000000
/-- RELEASE (R432, R433). -/
def execRelease (a : Access) (n : PortId) (s : State) : Host.Outcome State Fault Refusal :=
  live s fun s => s.cmdWrite a (R.portSvcCtl n) 0x40000000
/-- MAILBOX_REQUEST (R452). -/
def execMailboxRequest (a : Access) (v : W32) (s : State) : Host.Outcome State Fault Refusal :=
  live s fun s => s.cmdWrite a R.lodgeMbxCmd (setBits v 31 31 1)
/-- STEP (R484, R485). -/
def execStep (a : Access) (s : State) : Host.Outcome State Fault Refusal := live s fun s => s.cmdWrite a R.bandTimeCmd 0x80000001
/-- SLEW (R484). -/
def execSlew (a : Access) (s : State) : Host.Outcome State Fault Refusal := live s fun s => s.cmdWrite a R.bandTimeCmd 0x80000002
/-- CLEAR (R539). -/
def execClear (a : Access) (s : State) : Host.Outcome State Fault Refusal :=
  live s fun s => s.cmdWrite a R.blvCntCtl (setBits (s.view R.blvCntCtl) 31 31 1)
/-- COUNTER_WRITE (R539): one word of a counter's live-image pair. -/
def execCounterWrite (a : Access) (i : Fin 552) (hi : Bool) (v : W32) (s : State) : Host.Outcome State Fault Refusal :=
  live s fun s => s.cmdWrite a (if hi then R.blvImgHi i else R.blvImgLo i) v
/-- ARM (R543). -/
def execArm (a : Access) (s : State) : Host.Outcome State Fault Refusal :=
  live s fun s => s.cmdWrite a R.blvSnapCtl (setBits (s.view R.blvSnapCtl) 31 31 1)
/-- GROUP_READ (R542). -/
def execGroupRead (a : Access) (v : W32) (s : State) : Host.Outcome State Fault Refusal :=
  live s fun s => s.cmdWrite a R.blvGrpCtl (setBits v 31 31 1)
/-- TRACE_POP_LATCH (R554). -/
def execTracePopLatch (a : Access) (s : State) : Host.Outcome State Fault Refusal := live s fun s => s.readOut a (R.blvTrcPop 0) 4
/-- TRACE_POP_REMOVE (R554). -/
def execTracePopRemove (a : Access) (s : State) : Host.Outcome State Fault Refusal := live s fun s => s.readOut a (R.blvTrcPop 3) 4
/-- MARK (R556). -/
def execMark (a : Access) (s : State) : Host.Outcome State Fault Refusal := live s fun s => s.cmdWrite a R.blvTrcCmd 0x80000000
/-- REWIND (R556). -/
def execRewind (a : Access) (s : State) : Host.Outcome State Fault Refusal := live s fun s => s.cmdWrite a R.blvTrcCmd 0x40000000
/-- MARK_CLR (R556). -/
def execMarkClr (a : Access) (s : State) : Host.Outcome State Fault Refusal := live s fun s => s.cmdWrite a R.blvTrcCmd 0x20000000

end Sys2Proof.Machine
end

