-- ==== Sys2Proof/Machine/Io.lean ====
section
/-!
DEFINITION. Non-coherent traffic: I/O windows and the CSR window, the Arbour of posted writes and the tracker of reads
(chapter 4, R505, R506).
-/

namespace Sys2Proof.Machine

/-! ## Decoding (R173, R505) -/

/-- The register offset of a line inside the hub CSR window. -/
def State.csrOffset (s : State) (la : LineAddr) : Option Nat :=
  let w := s.rget R.glbCsrWin
  if w.getLsbD 31 && la.toNat / 2 ^ 20 = bitsOf w 25 0 then some (la.toNat % 2 ^ 20 * 64) else none

/-- The target of an IOWr or IORd from a port: the service node, or the port that the lowest window names; none when
nothing takes it. -/
def State.ioTarget (s : State) (n : PortId) (la : LineAddr) : Option IoTgt :=
  if (s.csrOffset la).isSome then some .svc
  else
    let mib := la.toNat / 2 ^ 14
    let hit := (List.range 32).find? fun i =>
      let base := (s.rget (R.glbIowinBase i)).toNat
      s.rbit (R.glbIowinCtl i) 31 && !s.winBad i && decide (base ≤ mib) && decide (mib < base + s.rf (R.glbIowinCtl i) 20 0)
    match hit with
    | none => none
    | some i =>
      match portOf? (s.rf (R.glbIowinCtl i) 30 24) with
      | none => none
      | some t => if t = n then none else some (.port t)

/-! ## Eligibility (R177, R180, R184) -/

/-- An Arbour entry that is still to be resolved. -/
def ArbEntry.live (x : ArbEntry) : Bool := x.st = .waiting || x.st = .sent

/-- A WAITING entry may be dispatched as far as order goes. -/
def PortIo.arbFree (io : PortIo) (x : ArbEntry) : Bool :=
  x.st = .waiting && io.fenceFree x.num && io.arb.all fun f =>
    !(decide (f.num < x.num) && f.msg.hdr.oid = x.msg.hdr.oid && f.live)
      || (f.wasSent && f.target = x.target) || (x.relaxed && f.target ≠ x.target)

/-- An IORd may be sent as far as order goes. -/
def PortIo.rdFree (io : PortIo) (x : RdEntry) : Bool :=
  !x.sent && io.fenceFree x.num
    && (io.arb.all fun f => !(decide (f.num < x.num) && f.msg.hdr.oid = x.msg.hdr.oid && f.live) || (f.wasSent && f.target = x.target))
    && io.rdt.all fun y => !(decide (y.num < x.num) && y.msg.hdr.oid = x.msg.hdr.oid && y.target ≠ x.target)

/-- The timers of entries that have become eligible start (R178, R180). -/
def State.ioElig (s : State) (n : PortId) : State :=
  let io := (s.port n).io
  if io.arb.isEmpty && io.rdt.isEmpty then s
  else s.modIo n fun io =>
    { io with arb := io.arb.map fun x => if x.elig.isNone && io.arbFree x then { x with elig := some s.now } else x
              rdt := io.rdt.map fun x => if x.elig.isNone && io.rdFree x then { x with elig := some s.now } else x }

/-! ## Ingress (R169, R176, R180, R430) -/

/-- The lowest slot that no entry holds. -/
def freeSlot (used : List Nat) (k : Nat) : Option Nat := (List.range k).find? fun i => !used.contains i

/-- A posted write takes an Arbour entry (R176), where 64 were not in use at the start of the cc: the place of one that has left in this
cc is not usable yet (R47, R48). -/
def State.arbPush (s : State) (n : PortId) (x : InMsg) (t : IoTgt) : State :=
  if 64 ≤ (s.port n).io.arb.length + (s.port n).io.arbPop.at_ s.now then s else
  match freeSlot ((s.port n).io.arb.map (·.slot)) 64 with
  | none => s
  | some k =>
    s.modIo n fun io =>
      let u := io.arbUse.getD k 0 + 1
      { io with ingress := io.ingress.filter (fun y => y.num ≠ x.num), arbUse := io.arbUse.set k u
                arb := io.arb ++ [{ slot := k, num := x.num, msg := x.msg, target := t, use := u, at_ := s.now
                                    relaxed := x.msg.hdr.relaxed && s.rbit (R.portIoCtl n) 0 }] }

/-- A read takes a tracker entry (R180). -/
def State.rdPush (s : State) (n : PortId) (x : InMsg) (t : IoTgt) : State :=
  match freeSlot ((s.port n).io.rdt.map (·.slot)) 16 with
  | none => s
  | some k =>
    s.modIo n fun io =>
      let u := io.rdUse.getD k 0 + 1
      { io with ingress := io.ingress.filter (fun y => y.num ≠ x.num), rdUse := io.rdUse.set k u
                rdt := io.rdt ++ [{ slot := k, num := x.num, msg := x.msg, target := t, use := u }] }

/-- IOWr and IORd leave ingress: no power entry holds them, and no earlier Fence holds a read (R169, R423). -/
def State.ioAdmit (s : State) (n : PortId) : State :=
  if s.glb.hold then s.ioElig n else
  ((s.port n).io.ingress.foldl (fun s x =>
    match x.tgt with
    | none => s
    | some t =>
      if x.msg.hdr.opcode = Op.ioWr then s.arbPush n x t
      else if (s.port n).io.fenceFree x.num then s.rdPush n x t else s) s).ioElig n

/-- A message joins the ingress queue with the target that it was decoded to (R174). -/
def State.ioQueue (s : State) (n : PortId) (m : Msg) (t : IoTgt) : State :=
  (s.modIo n fun io => { io with nextNum := io.nextNum + 1, ingress := io.ingress ++ [{ num := io.nextNum, msg := m, at_ := s.now, tgt := some t }] }).ioAdmit n

/-- An IOWr arrives (R173, R176, R430). -/
def State.ioWrIn (s : State) (n : PortId) (m : Msg) : State :=
  let s := s.takeMsg n m
  let m := s.ingressPlot n m
  if (s.port n).io.qst ≠ .none then (s.credBack n 4).rcount (R.portSvcStat n) 26 16 1
  else match s.ioTarget n m.hdr.pa with
    | none => ((s.credBack n 4).modIo n fun io => { io with lossNow := true }).raise (R.portIoEvt n) 10
    | some t => s.ioQueue n m t

/-- An IORd arrives (R173, R180, R430). One that the port answers itself waits behind a Fence too (R169). -/
def State.ioRdIn (s : State) (n : PortId) (m : Msg) : State :=
  let s := s.takeMsg n m
  let m := s.ingressPlot n m
  if m.hdr.size = 7 || m.hdr.offset.toNat % 2 ^ m.hdr.size.toNat ≠ 0 then s.badMsg n m
  else
    let own (s : State) (st : BitVec 4) : State :=
      (s.modIo n fun io => { io with nextNum := io.nextNum + 1, ingress := io.ingress ++ [{ num := io.nextNum, msg := m, at_ := s.now, loc := some st }] }).localAnswers n
    if (s.port n).io.qst ≠ .none then own s Status.unsupported
    else match s.ioTarget n m.hdr.pa with
      | none => own s Status.notHome
      | some t => s.ioQueue n m t

/-! ## The service node (R506) -/

/-- The register writes of an IOWr in the CSR window: words 0 to 15 in ascending order, a full aligned pair as one 64-bit
write, a partial word as a narrower write. -/
def State.csrWrite (s : State) (a : Access) (base : Nat) (m : Msg) : State :=
  let nib (w : Nat) : Nat := bitsOf m.mask (4 * w + 3) (4 * w)
  let dat (w k : Nat) : BitVec 64 := BitVec.ofNat 64 (bitsOf m.data (32 * w + k - 1) (32 * w))
  (List.range 16).foldl (fun s w =>
    if w % 2 = 0 && nib w = 15 && nib (w + 1) = 15 then s.accWrite a (base + 4 * w) 8 (dat w 64)
    else if w % 2 = 1 && nib (w - 1) = 15 && nib w = 15 then s
    else if nib w = 15 then s.accWrite a (base + 4 * w) 4 (dat w 32)
    else if nib w = 0 then s
    else s.accWrite a (base + 4 * w) 1 0) s

/-- The register reads of an IORd in the CSR window: its bytes at their positions in the line. -/
def State.csrRead (s : State) (a : Access) (base : Nat) (m : Msg) : State × Line :=
  let off := m.hdr.offset.toNat; let n := 2 ^ m.hdr.size.toNat
  if n ≤ 8 then
    let (s, v) := s.accRead a (base + off) n
    (s, BitVec.ofNat 512 ((v.getD 0).toNat * 2 ^ (8 * off)))
  else
    (List.range (n / 4)).foldl (fun (x : State × Line) i =>
      let (s, v) := x.1.accRead a (base + off + 4 * i) 4
      (s, x.2 ||| BitVec.ofNat 512 ((v.getD 0).toNat * 2 ^ (8 * (off + 4 * i))))) (s, 0)

def State.csrBase (s : State) (m : Msg) : Nat := (s.csrOffset m.hdr.pa).getD (m.hdr.pa.toNat % 2 ^ 20 * 64)
def csrAccess (n : PortId) (m : Msg) : Access := { master := .port n, priv := m.hdr.priv }

/-! ## Dispatch (R175, R177, R180) -/

/-- The message that goes to the target (R175). -/
def ioForward (m : Msg) (n : PortId) (use : BitVec 4) (read : Bool) (slot : Nat) : Msg :=
  { m with hdr := { opcode := m.hdr.opcode, tid := use.setWidth 10, oid := m.hdr.oid, plot := m.hdr.plot, pa := m.hdr.pa, priv := m.hdr.priv
                    user := m.hdr.user, size := m.hdr.size, offset := m.hdr.offset
                    htid := BitVec.ofNat 14 ((if read then 8192 else 0) + n.val * 64 + slot) } }

/-- A target that takes a message of a class now: a port in service with its link up and a credit, or the service node. -/
def State.ioTakes (s : State) (t : IoTgt) (cls : Nat) : Bool :=
  match t with
  | .svc => true
  | .port p => (s.port p).serves && (s.port p).link.up && (s.port p).link.cred.getD cls 0 ≠ 0
/-- Dispatch takes the credit. -/
def State.credTake (s : State) (p : PortId) (cls : Nat) : State :=
  s.modLink p fun l => { l with cred := l.cred.set cls (l.cred.getD cls 0 - 1) }

def State.arbSet (s : State) (n : PortId) (slot : Nat) (f : ArbEntry → ArbEntry) : State :=
  s.modIo n fun io => { io with arb := io.arb.map fun x => if x.slot = slot then f x else x }

/-- The oldest entry that can be dispatched; one that came in this cc is not there yet (R47). -/
def State.arbNext (s : State) (n : PortId) : Option ArbEntry :=
  (s.port n).io.arb.find? fun x => decide (x.at_ < s.now) && (s.port n).io.arbFree x && s.ioTakes x.target 4

/-- An Arbour entry is dispatched; the service node performs its writes at once (R177, R506). -/
def State.arbDispatch (s : State) (n : PortId) : State :=
  match s.arbNext n with
  | none => s
  | some x =>
    match x.target with
    | .port p =>
      let s := s.arbSet n x.slot fun y => { y with st := .sent, wasSent := true, elig := some (y.elig.getD s.now) }
      ((s.credTake p 4).sendPort p (ioForward x.msg n x.use false x.slot)).ioElig n
    | .svc =>
      let s := s.csrWrite (csrAccess n x.msg) (s.csrBase x.msg) x.msg
      (((s.arbSet n x.slot fun y => { y with st := .acked, wasSent := true }).arbPop n 64).localAnswers n).ioElig n

/-- A tracker entry frees, and its NPI credit returns (R181). -/
def State.rdFreeSlot (s : State) (n : PortId) (x : RdEntry) : State :=
  ((s.modIo n fun io => { io with rdt := io.rdt.filter fun y => y.slot ≠ x.slot }).credFor n x.num 5).ioElig n

def State.rdNext (s : State) (n : PortId) : Option RdEntry :=
  (s.port n).io.rdt.find? fun x => (s.port n).io.rdFree x && s.ioTakes x.target 5

/-- A read is dispatched; the service node answers at once (R180, R506). -/
def State.rdDispatch (s : State) (n : PortId) : State :=
  match s.rdNext n with
  | none => s
  | some x =>
    match x.target with
    | .port p =>
      let s := s.modIo n fun io => { io with rdt := io.rdt.map fun y => if y.slot = x.slot then { y with sent := true, elig := some (y.elig.getD s.now) } else y }
      (s.credTake p 5).sendPort p (ioForward x.msg n x.use true x.slot)
    | .svc =>
      let (s, d) := s.csrRead (csrAccess n x.msg) (s.csrBase x.msg) x.msg
      (s.answerFor n x.num (rdAnswer x.msg d false Status.ok)).rdFreeSlot n x

/-! ## Answers and timeouts (R175, R178, R181) -/

/-- The timeout that a timer is held against: the value in force when its time is looked at (DESIGN CHOICE: R178 does not say
which value applies to a timer that runs while IO_TMO_US changes). -/
def State.ioTmo (s : State) : Nat := s.rf R.glbIoCtl 19 0 * ccPerUs

/-- Source port, entry and kind that an answer's HTID names (R175). -/
def ioSource (m : Msg) : Nat := m.hdr.htid.toNat / 64 % 128
def ioSlot (m : Msg) : Nat := m.hdr.htid.toNat % 64
def ioIsRead (m : Msg) : Bool := m.hdr.htid.getLsbD 13

/-- An answer that matches no live entry (R175). -/
def State.ioLate (s : State) (m : Msg) : State :=
  match portOf? (ioSource m) with
  | none => s
  | some q => s.rcount (R.portIoErr q) 15 0 1

/-- An IOAck from a target. DESIGN CHOICE: R175 does not define a live entry; the model takes one that has been sent, and an answer that
names a WAITING entry matches none and counts in LATE (log entry 318). -/
def State.ioAckIn (s : State) (m : Msg) : State :=
  match portOf? (ioSource m) with
  | none => s
  | some q =>
    if !ioIsRead m && (s.port q).io.arb.any fun x => x.st = .sent && x.slot = ioSlot m && m.hdr.tid = x.use.setWidth 10 then
      ((s.arbSet q (ioSlot m) fun x => { x with st := .acked }).arbPop q 64).ioElig q
    else s.ioLate m

/-- The bytes that an IORd asked for, every other byte zero (R181). -/
def rdBytes (r : Msg) (data : Line) : Line :=
  let off := r.hdr.offset.toNat
  data &&& BitVec.ofNat 512 ((2 ^ (8 * 2 ^ r.hdr.size.toNat) - 1) * 2 ^ (8 * off))

/-- An IODat from a target. -/
def State.ioDatIn (s : State) (m : Msg) : State :=
  match portOf? (ioSource m) with
  | none => s
  | some q =>
    match (if ioIsRead m then (s.port q).io.rdt.find? fun x => x.sent && x.slot = ioSlot m && m.hdr.tid = x.use.setWidth 10 else none) with
    | none => s.ioLate m
    | some x => (s.answerPort q x.num (rdAnswer x.msg (rdBytes x.msg (msgData m)) m.hdr.poison Status.ok)).rdFreeSlot q x

/-- The timer of an Arbour entry runs out in this cc. -/
def State.arbTimeout (s : State) (n : PortId) (slot : Nat) : State :=
  s.arbSet n slot fun x => if x.live && x.elig.elim false fun t => decide (t + s.ioTmo ≤ s.now) then { x with runOut := true } else x

/-- The timer of an IORd runs out in this cc. -/
def State.rdTimeout (s : State) (n : PortId) (slot : Nat) : State :=
  s.modIo n fun io => { io with rdt := io.rdt.map fun x =>
    if x.slot = slot && x.elig.elim false fun t => decide (t + s.ioTmo ≤ s.now) then { x with runOut := true } else x }

/-- A read that has not been answered in time (R181). -/
def State.rdRunOut (s : State) (n : PortId) (x : RdEntry) : State :=
  ((s.answerPort n x.num (rdAnswer x.msg 0 true Status.ioTimeout)).raise (R.portIoEvt n) 11).rdFreeSlot n x

/-- A port's cc ends: what has run out in it and has had no answer is given up (R171, R178, R181), and the losses of the cc
join LOSS (R170). -/
def State.ioRunOut (s : State) (n : PortId) : State :=
  let io := (s.port n).io
  if io.arb.isEmpty && io.rdt.isEmpty && io.fences.isEmpty && !io.lossNow then s else
  let s := s.arbPop n 64
  let s := (io.arb.filter fun x => x.runOut && x.live).foldl (fun s x => (s.arbDiscard n x.slot true).ioElig n) s
  let s := (io.rdt.filter (·.runOut)).foldl (fun s x => s.rdRunOut n x) s
  let s := match (s.port n).io.fences with
    | [] => s
    | f :: rest =>
      if !f.runOut then s
      else if (s.port n).io.fenceReady f then s.modIo n fun io => { io with fences := { f with runOut := false } :: rest }
      else (s.fenceRunOut n f).ioElig n
  s.modIo n fun io => { io with loss := io.loss || io.lossNow, lossNow := false }

/-! ## The commands -/

/-- IOWR (R176). -/
def execIowr (n : PortId) (m : Msg) (s : State) : Host.Outcome State Fault Refusal := live s fun s => s.ioWrIn n (withOp m Op.ioWr)
/-- IORD (R180). -/
def execIord (n : PortId) (m : Msg) (s : State) : Host.Outcome State Fault Refusal := live s fun s => s.ioRdIn n (withOp m Op.ioRd)
/-- ARBOUR_DISPATCH (R177): the oldest entry that can go. -/
def execArbourDispatch (n : PortId) (s : State) : Host.Outcome State Fault Refusal := live s fun s => s.arbDispatch n
/-- ARBOUR_TIMEOUT (R178): the entry is discarded as this cc ends, unless its IOAck is accepted in it. -/
def execArbourTimeout (n : PortId) (e : Fin 64) (s : State) : Host.Outcome State Fault Refusal := live s fun s => s.arbTimeout n e
/-- IOACK (R178). -/
def execIoack (n : PortId) (m : Msg) (s : State) : Host.Outcome State Fault Refusal :=
  live s fun s => let m := withOp m Op.ioAck; s.answerIn n m fun s => s.ioAckIn m
/-- IORD_DISPATCH (R180). -/
def execIordDispatch (n : PortId) (s : State) : Host.Outcome State Fault Refusal := live s fun s => s.rdDispatch n
/-- IORD_TIMEOUT (R181): the read is answered as this cc ends, unless its IODat is accepted in it. -/
def execIordTimeout (n : PortId) (e : Fin 16) (s : State) : Host.Outcome State Fault Refusal := live s fun s => s.rdTimeout n e
/-- IODAT (R181). -/
def execIodat (n : PortId) (m : Msg) (s : State) : Host.Outcome State Fault Refusal :=
  live s fun s => let m := withOp m Op.ioDat; s.answerIn n m fun s => s.ioDatIn m

end Sys2Proof.Machine
end

