-- ==== Sys2Proof/Machine/Clock.lean ====
section
/-!
DEFINITION. One core clock with no command: the timebase, the flits that ports send, the per-cc counts, the flags that
follow their inputs every cc, and the engines that go on with the clock (R8, R58, R66 to R76, R395, R477, R486, R540).
-/

namespace Sys2Proof.Machine

/-! ## Building a flit (R66 to R70) -/

/-- The 48-bit link header (R67). -/
def flitHeader (seq ack ty cra crb : Nat) : Nat := seq % 4096 + ack % 4096 * 2 ^ 12 + ty * 2 ^ 24 + cra * 2 ^ 28 + crb * 2 ^ 38

/-- The 128 bytes of a flit before scrambling: header, payload, FEC bytes at QCL-3 and zeros below it, CRC (R66, R69, R70). -/
def buildFlit (gen hdr : Nat) (payload : List Byte) : List Byte :=
  let b := leBytes hdr 6 ++ (payload ++ zeros 112).take 112
  let whole := b ++ zeros 6 ++ leBytes (crc32c b).toNat 4
  if gen = 3 then fecEncode whole else whole

/-- A credit return field: class and count (R67). -/
def creditField (x : Nat × Nat) : Nat := x.1 + x.2 * 8

/-- The next credit returns of a link, at most 127 of a class, and what is left of them (R67, R82). -/
def takeReturns (ret : List Nat) : Nat × Nat × List Nat :=
  let cs := (List.range 6).filter fun c => ret.getD c 0 ≠ 0
  let field (c : Option Nat) : Nat × Nat := c.elim (0, 0) fun c => (c, min (ret.getD c 0) 127)
  let a := field cs[0]?; let b := field cs[1]?
  let less (r : List Nat) (x : Nat × Nat) : List Nat := r.set x.1 (r.getD x.1 0 - x.2)
  (creditField a, creditField b, less (less ret a) b)

/-- A flit leaves the port: scrambled and striped over the lanes, it takes the link for its flit time (R58, R59, R66). -/
def State.sendBytes (s : State) (n : PortId) (bytes : List Byte) : State :=
  let l := (s.port n).link
  let (out, regs) := scramble l.width bytes 0 l.scrTx
  (s.modLink n fun l => { l with scrTx := regs, pam := if l.gen = 3 then flitPam l.width out else [], nextFlit := s.now + l.flitCc, marginGap := l.marginGap - 1 }).emit (.flit n (flitOf out))

/-- ACK of the header (R67). -/
def Link.ack (l : Link) : Nat := l.rxAck.getD 0xFFF

/-- A flit of a type that is not sequenced; it carries credit returns (R67, R68, R82). -/
def State.sendOther (s : State) (n : PortId) (ty : Nat) (payload : List Byte) : State :=
  let l := (s.port n).link
  let (a, b, rest) := takeReturns l.credRet
  (s.modLink n fun l => { l with credRet := rest }).sendBytes n (buildFlit l.gen (flitHeader l.txLast l.ack ty a b) payload)

/-- A PROT flit, which carries no credit returns, so that a flit sent again returns none twice (R71, R82). -/
def State.sendProt (s : State) (n : PortId) (seq : Nat) (payload : BitVec 896) : State :=
  let l := (s.port n).link
  s.sendBytes n (buildFlit l.gen (flitHeader seq l.ack 1 0 0) (leBytes payload.toNat 112))

/-! ## Packing (R81, R82) -/

/-- A message may leave: PST and NPI took their credit at dispatch, the other classes need one (R82, R177, R181). -/
def Link.hasCredit (l : Link) (m : Msg) : Bool := let c := classOf m.hdr.opcode; 4 ≤ c || l.cred.getD c 0 ≠ 0
/-- It may leave in this cc: one that entered egress in this cc is not there yet (R47). -/
def Link.mayLeave (l : Link) (now : Nat) (x : EgMsg) : Bool := decide (x.at_ < now) && l.hasCredit x.msg

/-- What the departure of a message does: it takes its credit, starts the timer of a forward or an offer, and releases the
TID of a completed request (R82, R130, R142, R146, R537). -/
def State.depart (s : State) (n : PortId) (x : EgMsg) : State :=
  let c := classOf x.msg.hdr.opcode
  let s := s.modLink n fun l => { l with cred := if 4 ≤ c then l.cred else l.cred.set c (l.cred.getD c 0 - 1), idleSince := s.now }
  let s := match x.relTid with
    | none => s
    | some t => s.modIo n fun io => { io with tids := io.tids.filter (· ≠ t) }
  let s := if c = 3 then s.cntPort n 3 (some x.msg.hdr.plot) else if c = 1 then s.cntPort n 4 (some x.msg.hdr.plot) else s
  match x.fwd with
  | none => s
  | some (p, e) =>
    s.modTxn (pavOf p) e fun t =>
      if x.msg.hdr.opcode = Op.stashOffer then { t with offerSent := some s.now }
      else { t with outs := t.outs.map fun o => if o.port = n.val && o.sent.isNone then { o with sent := some s.now } else o }

/-- Fills the slots of a flit: what the last flit left of a message, then the first message of egress that holds a credit;
`k` bounds the messages taken. -/
def State.pack (s : State) (n : PortId) (slots : List (BitVec 128)) : Nat → State × List (BitVec 128)
  | 0 => (s, slots)
  | k + 1 =>
    let l := (s.port n).link
    if 7 ≤ slots.length then (s, slots) else
    match findPos (l.mayLeave s.now) l.egress with
    | none => (s, slots)
    | some (i, x) => State.pack ((s.modLink n fun l => { l with egress := l.egress.eraseIdx i }).depart n x) n (slots ++ encodeMsg x.msg) k

/-- The payload of seven slots (R66). -/
def payloadOf (slots : List (BitVec 128)) : BitVec 896 :=
  BitVec.ofNat 896 ((List.range 7).foldl (fun a k => a + (slots.getD k 0).toNat * 2 ^ (128 * k)) 0)

/-- Sends a new PROT flit if there is anything to send and room in the retry buffer (R71). -/
def State.newProt (s : State) (n : PortId) : Option State :=
  let l := (s.port n).link
  if 128 ≤ l.retry.length then none
  else if l.txSlots.isEmpty && !(l.egress.any (l.mayLeave s.now)) then none
  else
    let (s, slots) := s.pack n l.txSlots 7
    let pay := payloadOf slots
    let s := s.modLink n fun l =>
      { l with txSlots := slots.drop 7, retry := l.retry ++ [(l.txSeq, pay)], txLast := l.txSeq, txSeq := (l.txSeq + 1) % 4096 }
    some (s.sendProt n l.txSeq pay)

/-! ## What a port sends (R68, R74, R76, R92, R486) -/

/-- The value of a TIME flit that departs now: seconds and nanoseconds (R486). -/
def State.timeValue (s : State) (n : PortId) : Nat × Nat :=
  let b := s.band
  let trim := (BitVec.ofNat 8 (s.rf (R.portTimeCtl n) 7 0)).toInt
  let t : Int := ((b.sec * 1000000000 + b.ns) * nsFrac + b.frac : Nat)
  let u := t * 1000 + (((s.port n).link.delayPs : Int) + 100 * trim) * nsFrac
  let ns := ((u + 500 * nsFrac) / (1000 * nsFrac)).toNat
  (ns / 1000000000 % 2 ^ 48, ns % 1000000000)

/-- The next flit of an active link: TIME, RETRY_REQ and LINK_CTL, a MARGIN flit that is owed, at most one in 1,024, then
flits sent again, credit returns, new PROT flits, and NULL when there is nothing else (R68, R74, R92, R486). -/
def State.nextFlit (s : State) (n : PortId) : State :=
  let l := (s.port n).link
  if l.timeFlit then
    let (sec, ns) := s.timeValue n
    ((s.modLink n fun l => { l with timeFlit := false }).sendOther n 4 (leBytes sec 6 ++ leBytes ns 4)).cntPort n 0x0E
  else if l.sendRetryReq then
    ((s.modLink n fun l => { l with sendRetryReq := false }).sendOther n 2 (leBytes l.rxExp 2)).cntPort n 8
  else match l.ctlOut with
    | (req, resp, arg) :: rest => (s.modLink n fun l => { l with ctlOut := rest }).sendOther n 3 ([req, resp] ++ leBytes arg.toNat 8)
    | [] =>
      if decide (l.marginOut ≠ 0) && decide (l.marginGap = 0) then
        (s.modLink n fun l => { l with marginOut := l.marginOut - 1, marginGap := 1024 }).sendOther n 5 []
      else match l.replay with
      | q :: rest =>
        let s := s.modLink n fun l => { l with replay := rest }
        (match l.retry.find? fun e => e.1 = q with
        | some e => (s.modLink n fun l => { l with txLast := q }).sendProt n q e.2
        | none => (s.sendOther n 0 []).cntPort n 0x0D)
      | [] =>
        if l.credRet.any (· ≠ 0) then (s.sendOther n 0 []).cntPort n 0x0D else
        match s.newProt n with
        | some s => s
        | none => (s.sendOther n 0 []).cntPort n 0x0D

/-- A link in ACTIVE always sends flits, and one in training sends sets (R60, R68); a TIME flit waits for no link (R486). -/
def State.portTick (s : State) (n : PortId) : State :=
  let l := (s.port n).link
  let s := if l.timeFlit && l.st ≠ .active then s.modLink n fun l => { l with timeFlit := false } else s
  if decide (s.now < l.nextFlit) then s else if l.st = .active then s.nextFlit n else if l.training then s.sendSets n else s

/-- Requests that have reached their ordering point for good leave the port's list (R165). -/
def State.opensPrune (s : State) (n : PortId) : State :=
  if (s.port n).io.opens.isEmpty then s
  else s.modIo n fun io => { io with opens := io.opens.filter fun o => o.doneAt.elim true fun t => decide (s.now < t + 6) }

/-! ## Pins and flags that follow every cc -/

/-- FATAL_N and the capture stop of the cc after a fatal cause (R354, R557). -/
def State.fatalTick (s : State) : State :=
  let s := if s.glb.fatalNew then (s.modGlb fun g => { g with fatalNew := false }).trcFatal else s
  s.modGlb fun g => { g with fatalPin := statLevel s R.glbFatalStat }

/-- The pins that carry a service-chain frame: SVC_LOAD is high in its first bit time, SVC_DOUT holds the bit (R94, R574). -/
def State.svcTick (s : State) : State :=
  let g := s.glb
  if g.svcDue ≤ s.now || g.svcBit = 0 then s else
  let k := (s.now - g.svcFrom) / g.svcBit
  s.modGlb fun g =>
    { g with svcLoad := k = 0, svcDout := g.svcBits.getLsbD k
             svcClk := decide (2 * ((s.now - g.svcFrom) % g.svcBit) < g.svcBit) == Config.svcClkFirst }

/-- The input pins follow what drives them (R458, R474, R574). -/
def State.pinTick (s : State) : State :=
  (s.glb.pins.filter fun e => decide (e.at_ ≤ s.now)).foldl (fun s e => match e.pin with
    | .chainIn => s.modGlb fun g => { g with chainIn := e.level }
    | .beacon => s.modLodge fun l => { l with netLink := e.level })
    (s.modGlb fun g => { g with pins := g.pins.filter fun e => decide (s.now < e.at_) })

/-- EVENT_N (R522). -/
def State.eventTick (s : State) : State :=
  let on := (List.range 64).any fun g => s.rbit (R.glbIntRoute g) 31 && s.rbit (R.glbIntRoute g) 30 && groupLevel s g
  s.modGlb fun g => { g with eventPin := on }

/-- The maintenance or placement engine, a fence, a scrub, a recovery or a sweep needs a slot of the pavilion (R422). -/
def State.needsSlot (s : State) (p : PavId) : Bool :=
  let v := s.pav p
  !v.sweeps.isEmpty || !v.recoverQ.isEmpty || !v.poisonQ.isEmpty || !v.sramFix.isEmpty || v.recountLeft ≠ 0 || v.place = .transition
    || (s.glb.mop.busy && (s.glb.mop.stage = 1 || s.glb.mop.stage = 2)) || (s.glb.fence.running && s.glb.fence.pav = p.val)
    || s.glb.hibClean || (FMap.find? s.blv.slot p.val).isSome

/-- An arriving request, or work that needs a slot, starts a gated pavilion's clocks (R422). -/
def State.ungate (s : State) (p : PavId) : State :=
  if (s.pav p).gated && (!(s.pav p).idle || s.needsSlot p) then s.modPav p fun v => { v with gated := false } else s

/-- The trip record, once the always-on supply has held for 1 ms, behind the records that the event queue still holds (R428, R471,
R586). -/
def State.tripTick (s : State) : State :=
  match s.glb.tripAt with
  | none => s
  | some t =>
    if s.now < t + 1000 * ccPerUs then s
    else
      let (s, ok) := s.historyFlush { sec := s.band.sec, ns := s.band.ns, kind := EvKind.trip.num, inst := 0, addr := 0 }
      s.modGlb fun g => { g with tripAt := none, tripRec := ok }

/-- The walk that recounts occ goes on in a slot that nothing else has taken (R349). -/
def State.recountStep (s : State) (p : PavId) : State :=
  let k := (s.pav p).recountLeft
  if k = 0 || (FMap.find? s.blv.slot p.val).isSome then s
  else s.modPav p fun v => { (if k = 1 then v.recount else v) with recountLeft := k - 1 }

/-- The slot of a pavilion in this cc: clean sub-blocks of its evictions drop, a recount goes on, and a sweep that has nothing in
flight continues (R152, R217, R349). -/
def State.pavTick (s : State) (p : PavId) : State :=
  let v := s.pav p
  let s := if v.evicts.any fun e => e.dropAt.elim false fun t => decide (t ≤ s.now) then (s.evictDrop p).pump p else s
  let s := if v.sweeps.isEmpty || v.halted then s else s.pump p
  s.recountStep p

/-- The Belvedere goes on with the clock where it is powered (R427). -/
def State.blvStep (s : State) : State := if s.glb.pwr = .hibernate then s else s.trcStep.grpStep

/-- The commands that the stop of the clocks has held back act once an exit is over (R424). -/
def State.lateStep (s : State) : State := if s.clocksRun && !s.glb.cmdLate.isEmpty then s.cmdLates else s

/-- Everything that goes on with the clock while the hub runs. -/
def State.runTick (s : State) : State :=
  let s := s.fatalTick
  let s := forPavs s fun p s => if (s.ungate p).pavRuns p then (s.ungate p).pavTick p else s.ungate p
  let s := s.perCc.slotTick
  let s := forChans s fun c s => (((s.updDrain c).congestion c).freqStep c).repairStep c
  let s := forPorts s fun n s => let s := (s.opensPrune n).localAnswers n; if s.linksOn then s.portTick n else s
  let s := forChans s fun c s => s.surveyNext (.chan c)
  let s := forStks s fun k s => s.surveyNext (.stack k)
  (if s.clocksRun then s.staleUpdate.fenceStep else s.staleUpdate).hibStep.lowStep.exitStep.lateStep.blvStep.svcTick.eventTick

/-- The next cc begins: software's writes and the increments of the last one are done with (R519, R539). -/
def State.newCc (s : State) : State := ({ s.later with swNow := [], swBits := [], hwNow := [] }).modBlv fun b => { b with cntOld := [] }

/-- One core clock: the cc ends, and what follows the clock goes on in the next. A hub held in reset has none (R419), except that the record
of a trip is still to come; a tripped hub keeps its always-on domain (R428). -/
def State.clockTick (s : State) : State :=
  if !s.glb.on then (if s.glb.tripAt.isSome then (s.later.modBand Band.tick).tripTick else s) else
  let s := if s.glb.tripped then s else (forPorts s fun n s => (s.ioAdmit n).ioRunOut n).trcCc
  let s := (s.newCc.modBand Band.tick).pinTick
  if s.glb.tripped then s.tripTick else s.runTick

end Sys2Proof.Machine
end

