-- ==== Sys2Proof/Machine/Dict.lean ====
section
/-!
DEFINITION. The Mosar dictionary: its objects and their aliases of register fields, how an object reads, how a value is
judged and applied, and the segments of DOMAIN transfers (R442 to R451, R456, R411, R496, R558).
-/

namespace Sys2Proof.Machine

/-! ## Objects (R442 to R444) -/

/-- Object types (R443). -/
inductive OTy where
  | bool
  | u8
  | u16
  | u32
  | u64
  | i32
  | str
  | dom
deriving DecidableEq, Repr

/-- Bytes of a fixed-size type; none for STRING and DOMAIN. -/
def tySize : OTy → Option Nat
  | .bool | .u8 => some 1
  | .u16 => some 2
  | .u32 | .i32 => some 4
  | .u64 => some 8
  | .str | .dom => none

/-- Access kinds (R17). -/
inductive OKind where
  | ro
  | const
  | wo
  | rw
  | rwp
deriving DecidableEq, Repr

/-- What lies behind an object: a register field, a value of the Lodge, or the highest subindex of an index. -/
inductive Behind where
  | alias_ (off : Nat) (f : Field)
  | lodge
  | high (n : Nat)
deriving DecidableEq, Repr

/-- An object: type, kind, level (0 Operator, 2 Engineer, 3 Factory) and what it stands for. -/
structure Obj where
  ty : OTy
  kind : OKind
  level : Nat
  behind : Behind := .lodge
deriving DecidableEq, Repr

/-! ## Aliases (R450) -/

/-- The first element of a register array at or after an offset. -/
def elemFrom (d : RegDesc) (o : Nat) : Option Nat :=
  if o ≤ d.off then some d.off
  else if d.count = 1 || d.stride = 0 then none
  else
    let i := (o - d.off + d.stride - 1) / d.stride
    if i < d.count then some (d.off + i * d.stride) else none

/-- The register of a block that comes next in offset order. -/
def regFrom (o : Nat) : List RegDesc → Option (Nat × RegDesc)
  | [] => none
  | d :: rest =>
    match elemFrom d o, regFrom o rest with
    | none, r => r
    | some a, none => some (a, d)
    | some a, some r => if a ≤ r.1 then some (a, d) else some r

/-- A register that has no aliases of its own: the Plot range of REG, the mailbox, the selectors of ports whose number is not
a multiple of 8 (R411, R450, R563). -/
def notAliased (b : Blk) (i rel : Nat) : Bool :=
  (b = .reg && decide (rel < 0x800)) || (b = .lodge && (decide (rel < 0xC) || (decide (0x100 ≤ rel) && decide (rel < 0x200))))
    || (b = .port && i % 8 ≠ 0 && decide (0x180 ≤ rel) && decide (rel < 0x1A0))

/-- The interleave-map registers, which are status (R450). -/
def isIlMap (b : Blk) (rel : Nat) : Bool := b = .glb && (rel = 0x440 || rel = 0x444)
/-- A configuration field (R450). -/
def isConfig (b : Blk) (rel : Nat) (f : Field) : Bool := (f.acc = .rw || f.acc = .rwh || f.app = .boot) && !isIlMap b rel
/-- A field listed at base + 0 (`st` false) or base + 1. -/
def isListed (b : Blk) (st : Bool) (rel : Nat) (f : Field) : Bool :=
  if st then !isConfig b rel f && (f.acc = .ro || f.acc = .rsq) else isConfig b rel f

/-- The fields of a block instance in the order of R450, at most `most` of them; `k` bounds the registers passed. -/
def fieldsFrom (b : Blk) (i base : Nat) (st : Bool) (regs : List RegDesc) : Nat → Nat → Nat → List (Nat × Field)
  | 0, _, _ => []
  | k + 1, most, o =>
    if most = 0 then [] else
    match regFrom o regs with
    | none => []
    | some (a, d) =>
      let fs := if notAliased b i a then [] else (d.fields.filter (isListed b st a)).map fun f => (base + a, f)
      fs.take most ++ fieldsFrom b i base st regs k (most - fs.length) (a + 4)

/-- Registers of a block with the raw window behind GLB (R524). -/
def dictRegs (b : Blk) : List RegDesc :=
  match b with
  | .glb => regsGlb ++ regsRaw.map fun d => { d with off := d.off + 0x1000000 }
  | _ => b.regs

/-- BAR0 base of a block instance (R524). -/
def blkBase (b : Blk) (i : Nat) : Nat :=
  match b with
  | .glb => 0
  | .band => 0x10000
  | .lodge => 0x20000
  | .ice => 0x30000
  | .blv => 0x40000
  | .reg => 0x50000
  | .pav => 0x100000 + 0x10000 * i
  | .port => 0x200000 + 0x4000 * i
  | .chan => 0x400000 + 0x10000 * i
  | .stack => 0x500000 + 0x10000 * i
  | .raw => 0x1000000

/-- The block instance whose aliases an index holds, and whether they are the status fields (R449, R450). -/
def aliasIndex (x : Nat) : Option (Blk × Nat × Bool) :=
  if 1 < x % 16 then none else
  let st := x % 16 = 1
  let base := x / 16
  if base = 0x200 then some (.glb, 0, st)
  else if base = 0x201 then some (.band, 0, st)
  else if base = 0x202 then some (.reg, 0, st)
  else if base = 0x203 then some (.lodge, 0, st)
  else if base = 0x204 then some (.ice, 0, st)
  else if base = 0x701 then some (.blv, 0, st)
  else if 0x300 ≤ base && base < 0x310 then some (.pav, base - 0x300, st)
  else if 0x400 ≤ base && base < 0x460 then some (.port, base - 0x400, st)
  else if 0x500 ≤ base && base < 0x510 then some (.chan, base - 0x500, st)
  else if 0x580 ≤ base && base < 0x588 then some (.stack, base - 0x580, st)
  else none

/-- The aliased fields of an index, at most `most` of them; only subindexes up to 255 exist (R442). -/
def aliasFields (x most : Nat) : List (Nat × Field) :=
  match aliasIndex x with
  | none => []
  | some (b, i, st) => fieldsFrom b i (blkBase b i) st (dictRegs b) 4096 most 0

/-- The type of a field of a width (R450). -/
def widthTy (w : Nat) : OTy := if w = 1 then .bool else if w ≤ 8 then .u8 else if w ≤ 16 then .u16 else .u32

/-- The object of an aliased field (R450). -/
def aliasObj (st : Bool) (x : Nat × Field) : Obj :=
  let f := x.2
  { ty := widthTy (f.hi + 1 - f.lo), kind := if st then .ro else if f.ice || f.app = .boot then .rwp else .rw, level := if f.priv then 2 else 0, behind := .alias_ x.1 f }

/-! ## Objects with a name of their own (R411, R451, R496, R558) -/

def opRo (t : OTy) : Obj := { ty := t, kind := .ro, level := 0 }
def opConst (t : OTy) : Obj := { ty := t, kind := .const, level := 0 }
def engRwp (t : OTy) : Obj := { ty := t, kind := .rwp, level := 2 }

/-- A Plot object that stands for the field of a register whose lowest bit is given (R411). -/
def plotObj (off lo : Nat) (t : OTy) (kind : OKind) (level : Nat) : Obj :=
  match regAt off with
  | none => { ty := t, kind := kind, level := level }
  | some (_, _, _, d) =>
    match d.fields.find? fun f => f.lo = lo with
    | none => { ty := t, kind := kind, level := level }
    | some f => { ty := t, kind := kind, level := level, behind := .alias_ off f }

/-- The named objects of an index, from subindex 1 on. -/
def namedObjs (x : Nat) : List Obj :=
  if x = 0x1000 then [opConst .str, opConst .str, opConst .str, opConst .str, opConst .u64, opConst .dom]
  else if x = 0x1010 then [opRo .u8, opRo .u8, opRo .u8, opRo .bool]
  else if x = 0x1F00 then [{ ty := .u32, kind := .wo, level := 2 }, opRo .u8, opRo .u8, opRo .u8, opRo .u32, opRo .bool]
  else if x = 0x1F10 then [opRo .u8, { ty := .dom, kind := .ro, level := 2 }, { ty := .dom, kind := .wo, level := 2 }]
  else if x = 0x1F20 then [{ ty := .dom, kind := .wo, level := 3 }]
  else if x = 0x1F21 then [{ ty := .dom, kind := .wo, level := 3 }, { ty := .dom, kind := .wo, level := 3 }]
  else if 0x6000 ≤ x && x < 0x6040 then
    let k := x - 0x6000
    [plotObj (R.regPlotLat k) 0 .u16 .rwp 2, plotObj (R.regPlotLat k) 16 .u8 .rwp 2, plotObj (R.regPlotGbw k) 0 .u16 .rwp 2,
     plotObj (R.regPlotCache k) 16 .u16 .rwp 2, plotObj (R.regPlotCache k) 0 .u16 .rwp 2, plotObj (R.regPlotShare k) 16 .u8 .rwp 2,
     plotObj (R.regPlotShare k) 0 .u8 .rwp 2, plotObj (R.regPlotEff k) 0 .u16 .ro 0, opRo .dom, opRo .dom, opRo .dom, opRo .dom]
  else if x = 0x7000 then [opRo .dom, opRo .u16, opRo .u32, opRo .dom]
  else if x = 0x7800 then [opRo .dom, opRo .u8, opRo .i32, opRo .dom, opRo .u32]
  else if x = 0x8000 then [opRo .dom, opRo .u32]
  else if 0x8010 ≤ x && x < 0x8020 then [opRo .dom]
  else if x = 0x9000 then
    [opRo .dom, opRo .dom, opRo .dom, opRo .dom, opRo .dom, opRo .dom, engRwp .u8, engRwp .u8, engRwp .u8, engRwp .u8, engRwp .u16, engRwp .u16, engRwp .u16]
  else []

/-- The highest subindex of an index; 0 where there is none (R442). -/
def highSub (x : Nat) : Nat := let n := (namedObjs x).length; if n = 0 then (aliasFields x 255).length else n

/-- The object at an index and subindex. -/
def objAt (x sub : Nat) : Option Obj :=
  if sub = 0 then (let n := highSub x; if n = 0 then none else some { ty := .u8, kind := .ro, level := 0, behind := .high n })
  else
    match (namedObjs x)[sub - 1]? with
    | some o => some o
    | none =>
      match aliasIndex x with
      | none => none
      | some (_, _, st) => ((aliasFields x (min sub 255))[sub - 1]?).map (aliasObj st)

/-! ## Abort codes (R447) -/

namespace Abort
def ok : Nat := 0
def noObject : Nat := 1
def noSubindex : Nat := 2
def readOnly : Nat := 3
def writeOnly : Nat := 4
def level : Nat := 5
def typeLength : Nat := 6
def range : Nat := 7
def cfgReject : Nat := 8
def overcommit : Nat := 9
def busy : Nat := 10
def sessionRequired : Nat := 11
def segment : Nat := 12
def timeout : Nat := 13
def auth : Nat := 14
def noKey : Nat := 15
def locked : Nat := 16
end Abort

/-! ## Values -/

/-- Key of an object in the values to be committed. -/
def objKey (x sub : Nat) : Nat := x * 256 + sub
/-- The default of an object (R443, R446, R496). -/
def objDefault (x sub : Nat) : Nat :=
  match objAt x sub with
  | some { behind := .alias_ off f, .. } => bitsOf (regReset off) f.hi f.lo
  | _ => if x = 0x9000 then [16, 6, 10, 8, 50, 600, 365].getD (sub - 7) 0 else 0
/-- The value to be committed of an object (R446). -/
def State.toCommit (s : State) (x sub : Nat) : Nat := (FMap.find? s.lodge.commitVal (objKey x sub)).getD (objDefault x sub)
def State.setCommit (s : State) (x sub v : Nat) : State :=
  s.modLodge fun l => { l with commitVal := if v = objDefault x sub then FMap.erase l.commitVal (objKey x sub) else FMap.insert l.commitVal (objKey x sub) v }

/-- The hub's Ethernet address, its first octet in bits 47:40: a station address, locally administered (R451). -/
def hubMac : BitVec 48 := (Config.mac ||| 0x020000000000) &&& ~~~0x010000000000
/-- An Ethernet address as its octets follow one another. -/
def macBytes (m : BitVec 48) : List Byte := (leBytes m.toNat 6).reverse

/-- The bytes of "Skelgus", "BQ9616", "BQ9616-A" or "BQ9616-E", "B0" (R443, R451). -/
def idString (sub : Nat) : List Byte :=
  let name : List Byte := [0x42, 0x51, 0x39, 0x36, 0x31, 0x36]
  if sub = 1 then [0x53, 0x6B, 0x65, 0x6C, 0x67, 0x75, 0x73]
  else if sub = 2 then name
  else if sub = 3 then name ++ [0x2D, if Config.codeE then 0x45 else 0x41]
  else [0x42, 0x30]

/-- A ledger entry in 16 bytes, the fields in table order from bit 0 (R361, R451). -/
def ledgerEntryBytes (e : Ledger) : List Byte :=
  leBytes (e.valid.toNat + e.ll % 2 ^ 33 * 2 + e.count % 16 * 2 ^ 34 + e.rw.toNat * 2 ^ 38 + e.recur % 4 * 2 ^ 39 + e.tRw % 2 ^ 32 * 2 ^ 41
    + e.tLast % 2 ^ 32 * 2 ^ 73 + e.loc % 32 * 2 ^ 105 + e.hard.toNat * 2 ^ 110 + e.repair % 4 * 2 ^ 111) 16

/-- The proposals of object 0x9000 subindex 6 (R494, R496). -/
def Lodge.proposalBytes (l : Lodge) : List Byte :=
  ((List.range 96).map fun n => (FMap.find? l.propGen n).elim Config.noProposal (BitVec.ofNat 8))
    ++ ((List.range 16).map fun c => (FMap.find? l.propCode c).elim Config.noProposal (BitVec.ofNat 8))
    ++ (List.range 8).map fun k => if l.propWear.contains k then Config.wearByte else Config.noProposal

/-- The bytes of a measured list of margins, one lane each. -/
def laneBytes (xs : List Nat) (j : Nat) : Byte := (xs[j]?).elim Config.noMeasure (BitVec.ofNat 8)
def walkOf (x : MemCom) : List Byte := leBytes (Config.walkBytes (x.walkRes.map fun r => (r.1.timing, r.1.vref))).toNat 4

/-- The session level that a party holds (R451). -/
def State.sessLevel (s : State) (p : Party) : Nat :=
  match p with
  | .mailbox => s.lodge.mbxLevel
  | .network => s.lodge.netLevel

/-- Four bytes of a Plot's meter in each pavilion (R411). -/
def State.plotBytes (s : State) (k : Nat) (f : PlotMeter → Nat) : List Byte :=
  allPavs.flatMap fun p => leBytes (f ((s.pav p).meters[k % 64]'(Nat.mod_lt _ (by decide)))) 4

/-- The whole value of an object that aliases no field (R411, R451, R496, R558). -/
def State.lodgeValue (s : State) (p : Party) (x sub : Nat) : List Byte :=
  let l := s.lodge; let b := s.band
  if x = 0x1000 then
    (if sub = 5 then leBytes Config.serial.toNat 8 else if sub = 6 then macBytes hubMac else idString sub)
  else if x = 0x1010 then leBytes ([l.node, l.imgNode, l.plca, l.chainFault.toNat].getD (sub - 1) 0) 1
  else if x = 0x1F00 then
    (if sub = 5 then leBytes l.seq 4 else leBytes ([0, l.commit.elim 0 (·.stage), l.commitRes, l.bank, 0, l.factory.toNat].getD (sub - 1) 0) 1)
  else if x = 0x1F10 then (if sub = 1 then leBytes (s.sessLevel p) 1 else leBytes (l.mbxChal.elim 0 (·.toNat)) 16)
  else if x = 0x7000 then
    (if sub = 1 then (List.range 552).flatMap fun i => leBytes (cntLo (s.snapVal i)) 4 ++ leBytes (cntHi (s.snapVal i)) 4
    else if sub = 2 then leBytes s.blv.snapNum 2
    else if sub = 3 then leBytes s.blv.snapTick 4
    else (List.range 96).flatMap fun i => leBytes (s.cntVal (16 * (i / 6) + i % 6)).1.toNat 8)
  else if x = 0x7800 then
    (if sub = 1 then leBytes b.sec 6 ++ leBytes b.ns 4
    else if sub = 2 then leBytes (timeCode b.st) 1
    else if sub = 3 then leBytes (BitVec.ofInt 32 b.err).toNat 4
    else if sub = 4 then leBytes (b.gm.getD Config.noGm).toNat 8
    else leBytes (if b.st = .holdover then (s.now - b.holdAt) / (1000000 * ccPerUs) else 0) 4)
  else if x = 0x8000 then
    (if sub = 1 then ringRead l.ice historyBase else leBytes (ringValid l.ice historyBase).length 4)
  else if x = 0x9000 then
    (if sub = 1 then (List.range 64).flatMap fun i => (FMap.find? l.roD i).elim [Config.noMeasure, Config.noMeasure] fun d => leBytes d 2
    else if sub = 2 then allPorts.flatMap fun n => (List.range 4).flatMap fun j => [laneBytes (s.port n).io.eyeH j, laneBytes (s.port n).io.eyeV j]
    else if sub = 3 then allChans.flatMap fun c => walkOf (s.chan c).com
    else if sub = 4 then allStks.flatMap fun k => walkOf (s.stk k).com
    else if sub = 5 then ringRead l.ice ledgerBase
    else if sub = 6 then l.proposalBytes
    else leBytes (l.floors.getD (sub - 7) 0) (if sub < 11 then 1 else 2))
  else if 0x6000 ≤ x && x < 0x6040 then
    s.plotBytes (x - 0x6000) (if sub = 9 then (·.rdLast) else if sub = 10 then (·.wrLast) else if sub = 11 then (fun m => min m.avg 0xFFFFFF) else (·.occ))
  else if 0x8010 ≤ x && x < 0x8020 then (s.chan (chanOf (x - 0x8010))).ledger.toList.flatMap ledgerEntryBytes
  else []

/-- The whole value of an object: the live value, the pending one of a TICK field, the one to be committed of a BOOT field (R445,
R446). A field's register is read by the Lodge, with its latch and the read's side effects (R509, R514). -/
def State.objValue (s : State) (p : Party) (x sub : Nat) (o : Obj) : State × List Byte :=
  match o.behind with
  | .high n => (s, leBytes n 1)
  | .alias_ off f =>
    if f.app = .boot && o.kind = .rwp then (s, leBytes (s.toCommit x sub) ((tySize o.ty).getD 0))
    else
      let (s, v) := s.pairRead { master := .lodge, priv := true } off
      (s, leBytes (bitsOf v f.hi f.lo) ((tySize o.ty).getD 0))
  | .lodge => (s, s.lodgeValue p x sub)

/-- A mailbox read of the challenge from its start draws a new one (R463). -/
def State.drawChal (s : State) (p : Party) (x sub off : Nat) : State :=
  if p = .mailbox && x = 0x1F10 && sub = 2 && off = 0 then
    let (c, s) := s.draw
    s.modLodge fun l => { l with mbxChal := some c }
  else s

/-- Object 0x7000 subindex 4 in segments: a pavilion's 48 bytes are read in one cc, so a segment that begins inside a pavilion takes it up
where the party's last segment read it (R558). -/
def State.fixedRead (s : State) (p : Party) (off len : Nat) (now : List Byte) : State × List Byte :=
  let at_ := off / 48
  let v := match s.lodge.fixImg.find? fun (x : Party × Nat × List Byte) => x.1 = p && x.2.1 = at_ && off % 48 ≠ 0 with
    | some x => now.take (48 * at_) ++ x.2.2 ++ now.drop (48 * at_ + 48)
    | none => now
  let end_ := min (off + len) v.length
  let kept := if end_ % 48 = 0 then [] else [(p, end_ / 48, (v.drop (48 * (end_ / 48))).take 48)]
  (s.modLodge fun l => { l with fixImg := kept ++ l.fixImg.filter fun x => x.1 ≠ p }, v)

/-- A dictionary read: state, abort code and data (R444, R447, R456). -/
def State.dictRead (s : State) (p : Party) (x sub off len : Nat) : State × Nat × List Byte :=
  match objAt x sub with
  | none => (s, if highSub x = 0 then Abort.noObject else Abort.noSubindex, [])
  | some o =>
    if o.kind = .wo then (s, Abort.writeOnly, []) else
    let s := s.drawChal p x sub off
    let (s, v) := s.objValue p x sub o
    let (s, v) := if x = 0x7000 && sub = 4 then s.fixedRead p off len v else (s, v)
    if o.ty = .dom then (if v.length < off then (s, Abort.segment, []) else (s, Abort.ok, (v.drop off).take len))
    else (s, Abort.ok, v.take len)

/-! ## Writing a field (R445) -/

/-- A _HI word of a pair that the Lodge writes by one field waits in its holding register, its other fields as they were held or stand
(R509). -/
def State.fieldHold (s : State) (held : Option (Nat × W32 × Bool)) (off : Nat) (d : RegDesc) (m w : W32) : State :=
  let old := match held with
    | some (o, x, _) => if o = off then x else s.view off &&& maskOf d.fields isStored
    | none => s.view off &&& maskOf d.fields isStored
  s.modPair .lodge fun x => { x with hold := some (off, merge32 old w m, true) }

/-- A write of one field, as the Lodge's, a privileged master with a holding register (R509, R512): the state and the abort code. Nothing
else of the register is written, so that no command starts and no status clears. -/
def State.fieldWrite (s : State) (off : Nat) (f : Field) (v : Nat) : State × Nat :=
  match regAt off with
  | none => (s, Abort.cfgReject)
  | some (b, i, j, d) =>
    if f.app = .boot then (s, Abort.ok)
    else if s.unpowered b then (s.accessEvt .lodge off true 9, Abort.cfgReject)
    else
      let m : W32 := BitVec.ofNat 32 (fieldBits f)
      let w : W32 := BitVec.ofNat 32 (v * 2 ^ f.lo)
      let held := (s.pairOf .lodge).hold
      let s := s.dropHold .lodge
      if pairHalf off = some .hi then (s.fieldHold held off d m w, Abort.ok) else
      let up := if pairHalf off = some .lo then held.bind fun x => if x.1 = off + 4 then some x.2.1 else none else none
      if b = .blv && d.off = 0x1000 then (s.cntWrite j (some w) up, Abort.ok) else
      let s := match up, regAt (off + 4) with
        | some x, some (b, i, j, d) => s.regWrite true (off + 4) b i j d x {}
        | _, _ => s
      match s.regJudge off b i j d m w with
      | some (lo, r) =>
        let s := s.cfgReject off lo r
        if r = .overcommit then (s.raise R.regEvt 10, Abort.overcommit) else (s, Abort.cfgReject)
      | none =>
        let t := s.regPut off d m w
        let u := t.regAct off b i d.off (w &&& m) {}
        if rejectedSince t u then (s.undoWrite u off, Abort.cfgReject) else (u, Abort.ok)

/-! ## DOMAIN segments (R456) -/

def State.domOf (s : State) (p : Party) : Option DomWrite := (s.lodge.dom.find? fun x => x.1 = p).map (·.2)
def State.domDrop (s : State) (p : Party) : State := s.modLodge fun l => { l with dom := l.dom.filter fun x => x.1 ≠ p }
def State.domPut (s : State) (p : Party) (d : DomWrite) : State := s.modLodge fun l => { l with dom := (p, d) :: l.dom.filter fun x => x.1 ≠ p }

/-- One segment of a DOMAIN write of at most `most` bytes: state, abort code, and all bytes once LAST has come. -/
def State.domSeg (s : State) (p : Party) (x sub off : Nat) (last : Bool) (bs : List Byte) (most : Nat) : State × Nat × Option (List Byte) :=
  let take (s : State) (all : List Byte) : State × Nat × Option (List Byte) :=
    if most < all.length then (s.domDrop p, Abort.segment, none)
    else if last then (s.domDrop p, Abort.ok, some all)
    else (s.domPut p { index := x, sub := sub, bytes := all, last := s.now }, Abort.ok, none)
  if off = 0 then take s bs
  else
    match s.domOf p with
    | none => (s, Abort.segment, none)
    | some d =>
      if d.index ≠ x || d.sub ≠ sub then (s.domDrop p, Abort.segment, none)
      else if d.stale then (s.domDrop p, Abort.timeout, none)
      else if off ≠ d.bytes.length then (s.domDrop p, Abort.segment, none)
      else take s (d.bytes ++ bs)

/-- DOMAIN_TRANSFER_TIMEOUT: a transfer idle for more than 1 s is discarded; its next segment is aborted (R456). -/
def State.domTimeout (s : State) (p : Party) : State :=
  match s.domOf p with
  | none => s
  | some d => if s.now ≤ d.last + 1000000 * ccPerUs || d.stale then s else s.domPut p { d with bytes := [], stale := true }

/-- The bytes that a DOMAIN object takes (R451, R464, R465). -/
def domSize (x : Nat) : Nat := if x = 0x1F20 then 0x200000 else if x = 0x1F10 then 17 else 16

/-! ## The commands -/

/-- DOMAIN_TRANSFER_TIMEOUT (R456). -/
def execDomainTransferTimeout (network : Bool) (s : State) : Host.Outcome State Fault Refusal :=
  live s fun s => s.domTimeout (if network then .network else .mailbox)

end Sys2Proof.Machine
end

