-- ==== Sys2Proof/Machine/Lodge.lean ====
section
/-!
DEFINITION. The Lodge's services: commit and image load, dictionary writes, the host mailbox, the management network, its
sessions and the chain addressing (R45, R444 to R470).
-/

namespace Sys2Proof.Machine

/-! ## What a commit stores (R446, R466, R468) -/

/-- The aliased or named persistent objects of an index: subindex, size and default. -/
def rwpOf (x : Nat) : List (Nat × Nat × Nat) :=
  let one (y : Obj × Nat) : Option (Nat × Nat × Nat) :=
    if y.1.kind ≠ .rwp then none else
    some (y.2 + 1, (tySize y.1.ty).getD 0, match y.1.behind with
      | .alias_ off f => bitsOf (regReset off) f.hi f.lo
      | _ => if x = 0x9000 then [16, 6, 10, 8, 50, 600, 365].getD (y.2 - 6) 0 else 0)
  let named := namedObjs x
  if named.isEmpty then ((aliasFields x 255).map (aliasObj (x % 16 = 1))).zipIdx.filterMap one else named.zipIdx.filterMap one

/-- The indexes that hold persistent objects (R449). -/
def rwpIndexes : List Nat :=
  [0x2000, 0x2010, 0x2020, 0x2030, 0x2040, 0x7010, 0x9000] ++ ((List.range 16).map fun p => 0x3000 + 16 * p) ++ ((List.range 96).map fun n => 0x4000 + 16 * n)
    ++ ((List.range 16).map fun c => 0x5000 + 16 * c) ++ ((List.range 8).map fun k => 0x5800 + 16 * k) ++ (List.range 64).map fun k => 0x6000 + k

/-- The settings entries: every value to be committed. -/
def State.settingsBytes (s : State) : List Byte :=
  rwpIndexes.flatMap fun x => (rwpOf x).flatMap fun y =>
    leBytes x 2 ++ leBytes y.1 1 ++ leBytes y.2.1 1 ++ leBytes ((FMap.find? s.lodge.commitVal (objKey x y.1)).getD y.2.2) y.2.1

/-- The equalisation sets of a port at a commit: new results replace those of their generation (R64). -/
def Link.commitEq (l : Link) : List SavedEq := (l.saved.filter fun e => !(l.eqNew.any fun n => n.gen = e.gen)) ++ l.eqNew

/-- The record bytes of a commit (R466). -/
def State.commitBody (s : State) : List Byte :=
  let l := s.lodge
  recordBytes 1 s.settingsBytes
    ++ recordBytes 2 (allChans.flatMap fun c => (s.chan c).com.recs.flatMap (trainBytes c.val))
    ++ recordBytes 3 (allPorts.flatMap fun n => (s.port n).link.commitEq.flatMap (eqBytes n.val))
    ++ recordBytes 4 (allStks.flatMap fun k => (s.stk k).com.recs.flatMap (trainBytes (16 + k.val)))
    ++ recordBytes 5 (allChans.flatMap fun c => (s.chan c).repairs.flatMap (repairBytes c.val))
    ++ recordBytes 6 (mapBytes s.glb.ilMap s.glb.fenced)
    ++ recordBytes 7 (keyBytes 2 l.keyEngC ++ keyBytes 3 l.keyFacC)
    ++ recordBytes 8 (leBytes l.node 1)

/-! ## Commit and image load (R468 to R470) -/

/-- The bank that a commit writes: the one not in force, or A under ROM defaults. -/
def Lodge.target (l : Lodge) : Nat := if l.bank = 0 then 1 else 0

/-- ICE units of 50 ns that 64 bytes take to write at 320 MB/s (R45, R464). -/
def markUnits : Nat := 4
/-- Overwrites a bank's valid mark with zeros, a step of the ICE service (R464, R468 step 1). -/
def State.markErase (s : State) (bank : Nat) : State :=
  s.inBudget .ice markUnits fun s => s.modLodge fun l => { l with ice := iceWrite l.ice (markBase bank) (zeros 64) }

/-- Step 1: the target's valid mark is overwritten with zeros, as soon as the ICE budget has room for it (R464, R468). -/
def State.commitStart (s : State) (c : Commit) : State :=
  (s.modLodge fun l => { l with commit := some { c with since := s.glb.tickNum } }).markErase c.bank

/-- A write of the commit word (R468). -/
def State.commitGo (s : State) (v : Nat) : State × Nat :=
  let l := s.lodge
  if v ≠ 0x434D4954 then (s, Abort.range)
  else if l.commit.isSome then (s, Abort.busy)
  else (s.commitStart { bank := l.target, body := s.commitBody, flags := 0, seq := (l.seq + 1) % 2 ^ 32, eng := l.keyEngC, fac := l.keyFacC, node := l.node }, Abort.ok)

/-- The last segment of an image (R470). -/
def State.imageGo (s : State) (img : List Byte) : State × Nat :=
  let l := s.lodge
  let hdr := img.take 64
  let body := (img.drop 64).take (headerLen hdr)
  if l.commit.isSome then (s, Abort.busy)
  else if img.length < 64 || !headerOk hdr || body.length ≠ headerLen hdr || !bodyOk hdr body then (s, Abort.range)
  else (s.commitStart { bank := l.target, body := body, flags := field hdr 6 2, seq := (l.seq + 1) % 2 ^ 32, load := true }, Abort.ok)

def Commit.header (c : Commit) : List Byte := headerBytes c.flags c.seq c.body
/-- Bytes of header and records. -/
def Commit.total (c : Commit) : Nat := 64 + c.body.length

/-- Units of 50 ns of Icehouse time for a commit: 16 bytes are written or 64 read in each (R45, R464, R468 steps 2 to 4). A mark that step
1 had no budget to erase goes first. -/
def State.iceStep (s : State) (units : Nat) : State :=
  match s.lodge.commit with
  | none => s
  | some c =>
    if c.since = s.glb.tickNum then s else
    let n := 16 * units
    let put (c : Commit) (base : Nat) (bs : List Byte) : State :=
      s.modLodge fun l => { l with ice := iceWrite l.ice (base + c.pos) ((bs.drop c.pos).take n), commit := some { c with pos := min bs.length (c.pos + n) } }
    if c.stage = 1 && c.pos = 0 && iceRead s.lodge.ice (markBase c.bank) 64 ≠ zeros 64 then
      (if units < markUnits then s else s.modLodge fun l => { l with ice := iceWrite l.ice (markBase c.bank) (zeros 64) })
    else if c.stage = 1 then
      if c.total ≤ c.pos then s.modLodge fun l => { l with commit := some { c with stage := 2, pos := min c.total (64 * units) } }
      else put c (bankBase c.bank) (c.header ++ c.body)
    else if c.stage = 2 then
      if c.total ≤ c.pos then put { c with stage := 3, pos := 0 } (markBase c.bank) (markBytes c.header)
      else s.modLodge fun l => { l with commit := some { c with pos := min c.total (c.pos + 64 * units) } }
    else put c (markBase c.bank) (markBytes c.header)

/-- The read-back of step 3, or of the mark in step 4, has been made. -/
def Commit.checked (c : Commit) : Bool := (c.stage = 2 && decide (c.total ≤ c.pos)) || (c.stage = 3 && decide (64 ≤ c.pos))

/-- The network session closes (R462). -/
def State.netClose (s : State) : State := s.modLodge fun l => { l with netLevel := 0, netSess := 0, netKey := 0 }

/-- The key of a session level in the image in force (R461). -/
def Lodge.keyOf (l : Lodge) (level : Nat) : Option (BitVec 128) := if level = 2 then l.keyEng else l.keyFac

/-- The records of a body. -/
def bodyRecords (body : List Byte) : List (Nat × List Byte) := recordsOf body.length body
def bodyEq (body : List Byte) : List (Nat × SavedEq) :=
  ((bodyRecords body).filter fun r => r.1 = 3).flatMap fun r => (chunks 12 r.2.length r.2).map eqOf
def bodyNode (body : List Byte) : Nat := (((bodyRecords body).find? fun r => r.1 = 8).map fun r => field r.2 0 1).getD 0xFF

/-- Step 5: the target becomes the bank in force. A loaded image takes effect at the next start-up (R470). -/
def State.commitEnd (s : State) (c : Commit) : State :=
  let s := s.modLodge fun l => { l with commit := none, commitRes := 1, bank := c.bank, seq := c.seq, imgNode := if c.load then bodyNode c.body else c.node }
  let s := s.raise R.iceEvt 8
  if c.load then s else
  let lvl := s.lodge.netLevel
  let s := if lvl ≠ 0 && s.lodge.keyOf lvl ≠ (if lvl = 2 then c.eng else c.fac) then s.netClose else s
  let s := s.modLodge fun l => { l with keyEng := c.eng, keyFac := c.fac }
  let eq := bodyEq c.body
  forPorts s fun n s => s.modLink n fun l =>
    let mine := (eq.filter fun x => x.1 = n.val).map (·.2)
    { l with saved := mine, eqNew := l.eqNew.filter fun e => !mine.contains e }

/-- COMMIT_DONE: the read-back of step 3 or 4 is judged (R468). -/
def State.commitJudge (s : State) (ok : Bool) : State :=
  match s.lodge.commit with
  | none => s
  | some c =>
    if !c.checked then s
    else if ok then (if c.stage = 3 then s.commitEnd c else s)
    else if c.again then
      s.inBudget .ice markUnits fun s =>
        (s.modLodge fun l => { l with commit := none, commitRes := 2, ice := iceWrite l.ice (markBase c.bank) (zeros 64) }).raise R.iceEvt 9
    else s.commitStart { c with stage := 1, pos := 0, again := true }

/-! ## Sessions of the mailbox (R463) -/

/-- The proof of a session (R461): CMAC of challenge, serial number, level and session number. -/
def proofOf (key c : BitVec 128) (level n : Nat) : BitVec 128 :=
  Config.cmac key (leBytes c.toNat 16 ++ leBytes Config.serial.toNat 8 ++ leBytes level 1 ++ leBytes n 2)

/-- A failed proof: ICE.EVT.AUTH_FAIL and its record (R462, R471, R476). -/
def State.authFail (s : State) : State := (s.raise R.iceEvt 10).event .sessionFail 0 0

/-- The write of level and proof to object 0x1F10 subindex 3. -/
def State.mbxOpen (s : State) (bs : List Byte) : State × Nat :=
  if bs.headD 0 ≠ 3 then (s, Abort.range) else
  match s.lodge.keyFac, s.lodge.mbxChal with
  | none, _ => (s, Abort.noKey)
  | some _, none => (s, Abort.auth)
  | some k, some c =>
    let s := s.modLodge fun l => { l with mbxChal := none }
    if leBytes (proofOf k c 3 0).toNat 16 = bs.drop 1 then (s.modLodge fun l => { l with mbxLevel := 3, mbxLast := s.now }, Abort.ok)
    else (s.authFail, Abort.auth)

/-! ## Dictionary writes (R443 to R447, R456) -/

/-- What the last segment of a DOMAIN does. Under ROM defaults an image load is the only way to install keys (R470). DESIGN CHOICE: a key
written there is aborted with NoKey (log entry 329). -/
def State.domApply (s : State) (x sub : Nat) (bs : List Byte) : State × Nat :=
  if x = 0x1F20 then s.imageGo bs
  else if bs.length ≠ domSize x then (s, Abort.typeLength)
  else if x = 0x1F10 then s.mbxOpen bs
  else if s.lodge.factory then (s, Abort.noKey)
  else
    let k : BitVec 128 := BitVec.ofNat 128 (leNat bs)
    (s.modLodge fun l => if sub = 1 then { l with keyEngC := some k } else { l with keyFacC := some k }, Abort.ok)

/-- A write of a value that fits its type. -/
def State.valueApply (s : State) (x sub : Nat) (o : Obj) (v : Nat) : State × Nat :=
  match o.behind with
  | .high _ => (s, Abort.readOnly)
  | .alias_ off f =>
    if 2 ^ (f.hi + 1 - f.lo) ≤ v then (s, Abort.range)
    else
      match s.fieldWrite off f v with
      | (s, c) => (if c = Abort.ok && o.kind = .rwp then s.setCommit x sub v else s, c)
  | .lodge =>
    if x = 0x1F00 then s.commitGo v
    else ((s.modLodge fun l => { l with floors := l.floors.set (sub - 7) v }).setCommit x sub v, Abort.ok)

/-- A dictionary write by a party that holds a level; `sess` says that it comes in a session. -/
def State.dictWrite (s : State) (p : Party) (level : Nat) (sess : Bool) (x sub off : Nat) (last : Bool) (bs : List Byte) : State × Nat :=
  match objAt x sub with
  | none => (s, if highSub x = 0 then Abort.noObject else Abort.noSubindex)
  | some o =>
    if o.kind = .ro || o.kind = .const then (s, Abort.readOnly)
    else if level < o.level then (s, if p = .network && !sess then Abort.sessionRequired else Abort.level)
    else if o.ty = .dom then
      match s.domSeg p x sub off last bs (domSize x) with
      | (s, c, none) => (s, c)
      | (s, _, some all) => s.domApply x sub all
    else if tySize o.ty ≠ some bs.length then (s, Abort.typeLength)
    else if o.ty = .bool && decide (1 < leNat bs) then (s, Abort.range)
    else s.valueApply x sub o (leNat bs)

/-! ## The host mailbox (R444, R452) -/

def State.mbxLvl (s : State) : Nat := if s.lodge.factory then 3 else max 2 s.lodge.mbxLevel

/-- The bytes of MBX_DATA (R473). -/
def State.mbxBytes (s : State) (n : Nat) : List Byte :=
  (List.range n).map fun k => BitVec.ofNat 8 ((s.rget (R.lodgeMbxData (k / 4))).toNat >>> (8 * (k % 4)))
def State.mbxFill (s : State) (k : Nat) : List Byte → State
  | [] => s
  | b :: rest => State.mbxFill (s.rfSet (R.lodgeMbxData (k / 4)) (8 * (k % 4) + 7) (8 * (k % 4)) b.toNat) (k + 1) rest

/-- A request completes: ABORT, RLEN and the data are in place and DONE is set. -/
def State.mbxDone (s : State) (code : Nat) (bs : List Byte) : State :=
  ((s.modLodge fun l => { l with mbxReq := none, mbxAbort := code, mbxRlen := bs.length }).mbxFill 0 bs).raise R.lodgeMbxStat 8

/-- The Lodge serves the waiting request. -/
def State.mbxServe (s : State) : State :=
  match s.lodge.mbxReq with
  | none => s
  | some (cmd, arg) =>
    let s := s.modLodge fun l => { l with mbxLast := s.now }
    let x := bitsOf cmd 23 8; let sub := bitsOf cmd 7 0; let len := bitsOf arg 8 0; let off := 2 * bitsOf arg 31 9
    if 256 < len then s.mbxDone Abort.typeLength []
    else if cmd.getLsbD 30 then
      match s.dictWrite .mailbox s.mbxLvl false x sub off (cmd.getLsbD 29) (s.mbxBytes len) with
      | (s, c) => s.mbxDone c []
    else
      match s.dictRead .mailbox x sub off len with
      | (s, c, bs) => s.mbxDone c bs

/-- A write by the mailbox that a command names as such; it needs a privileged master, and the mailbox free, and is served by a step of
the dictionary service (R45, R444, R452). -/
def State.byMailbox (s : State) (units x sub : Nat) (bs : List Byte) : State :=
  if s.lodge.mbxReq.isSome then (s.cfgReject R.lodgeMbxCmd 31 .busy).raise R.lodgeMbxStat 10 else
  s.inBudget .dict units fun s =>
    let s := s.modLodge fun l => { l with mbxLast := s.now }
    match s.dictWrite .mailbox s.mbxLvl false x sub 0 true bs with
    | (s, c) => s.mbxDone c []

/-- The same by any master; the Lodge itself holds Factory level and needs no answer. -/
def State.byMaster (s : State) (m : Master) (units x sub : Nat) (bs : List Byte) : State :=
  match m with
  | .lodge => s.inBudget .dict units fun s => (s.dictWrite .mailbox 3 false x sub 0 true bs).1
  | _ => if s.privileged { master := m, priv := true } then s.byMailbox units x sub bs else s.accessEvt m R.lodgeMbxCmd true 8

/-! ## The management network (R453 to R457, R461) -/

/-- A Mosar PDU without its TAG (R454). -/
def pduBytes (ty src dst xid sess : Nat) (payload : List Byte) : List Byte :=
  [1, BitVec.ofNat 8 ty, BitVec.ofNat 8 src, BitVec.ofNat 8 dst] ++ leBytes xid 2 ++ leBytes sess 2 ++ leBytes payload.length 2 ++ payload
/-- The first 8 bytes of the CMAC under the session key (R461). -/
def tagOfPdu (key : BitVec 128) (pdu : List Byte) : List Byte := (leBytes (Config.cmac key pdu).toNat 16).take 8

/-- A frame of the hub to the controller, in the open session or outside it. -/
def State.netFrame (s : State) (ty xid : Nat) (payload : List Byte) (tagged : Bool) : List Byte :=
  let pdu := pduBytes ty s.lodge.node 0xFE xid (if tagged then s.lodge.netSess else 0) payload
  pdu ++ if tagged then tagOfPdu s.lodge.netKey pdu else []

/-- What the FCS of an Ethernet frame covers: header, and PDU padded to the least length that a frame may have (R454). -/
def ethBody (dst src : BitVec 48) (ty : BitVec 16) (pdu : List Byte) : List Byte :=
  macBytes dst ++ macBytes src ++ (leBytes ty.toNat 2).reverse ++ pdu ++ zeros (46 - pdu.length)
/-- An Ethernet frame with its FCS. -/
def ethFrame (dst src : BitVec 48) (ty : BitVec 16) (pdu : List Byte) : List Byte :=
  let b := ethBody dst src ty pdu
  b ++ leBytes (ethFcs b).toNat 4

/-- The hub transmits nothing until it holds a PLCA ID (R453). A frame goes to the controller's address (R454). -/
def State.netSend (s : State) (pdu : List Byte) : State :=
  if s.lodge.plca = 0 then s else s.emit (.frame (ethFrame s.lodge.ctlMac hubMac 0x88B5 pdu))
def State.respond (s : State) (f : Frame) (code : Nat) : State := s.netSend (s.netFrame 3 f.xid.toNat [BitVec.ofNat 8 code] false)

/-- The PDU that a received frame of a type carried, with its TAG in a session (R454). -/
def framePdu (f : Frame) (ty : Nat) : List Byte :=
  pduBytes ty f.src.toNat f.dst.toNat f.xid.toNat f.sess.toNat f.payload ++ if f.sess = 0 then [] else leBytes f.tag.toNat 8
/-- The FCS that a received frame should have carried. -/
def goodFcs (f : Frame) (ty : Nat) : W32 := ethFcs (ethBody f.dstMac f.srcMac f.etherType (framePdu f ty))

/-- A frame of a type that is for this hub: its FCS, EtherType and Ethernet address are right, and so are VER and DST (R454). -/
def State.netTakes (s : State) (ty : Nat) (f : Frame) : Bool :=
  f.fcs = goodFcs f ty && f.etherType = 0x88B5 && (f.dstMac = 0xFFFFFFFFFFFF || f.dstMac = hubMac)
    && f.ver = 1 && (f.dst.toNat = s.lodge.node || f.dst = 0xFF) && decide (f.payload.length ≤ 1040)
/-- The controller's address is the one that its last frame came from. -/
def State.netHeard (s : State) (f : Frame) : State := s.modLodge fun l => { l with ctlMac := f.srcMac }

/-- Whether a frame of a type may act: outside a session, or in the open one with a good TAG; none for a bad TAG. -/
def State.netAuth (s : State) (ty : Nat) (f : Frame) : Option (State × Bool) :=
  if f.sess = 0 then some (s, false)
  else if s.lodge.netLevel ≠ 0 && f.sess.toNat = s.lodge.netSess
      && leBytes f.tag.toNat 8 = tagOfPdu s.lodge.netKey (pduBytes ty f.src.toNat f.dst.toNat f.xid.toNat f.sess.toNat f.payload) then
    some (s.modLodge fun l => { l with netLast := s.now }, true)
  else none

/-- A frame that the hub takes, with its authentication (R454, R461). -/
def State.netRecv (s : State) (ty : Nat) (f : Frame) (act : State → Bool → State) : State :=
  if !s.netTakes ty f then s else
  let s := s.netHeard f
  match s.netAuth ty f with
  | none => s.respond f Abort.auth
  | some (s, tagged) => act s tagged

/-- `a` lies ahead of the last XID. -/
def ahead (last a : BitVec 16) : Bool := let d := (a - last).toNat; decide (1 ≤ d) && decide (d < 2 ^ 15)

/-- A READ or WRITE reaches the Lodge and waits for the dictionary service (R448). -/
def State.netQueue (s : State) (ty : Nat) (f : Frame) : State :=
  if !s.netTakes ty f then s else (s.netHeard f).modLodge fun l => { l with netq := l.netq ++ [(s.glb.tickNum, ty, f)] }

/-- A READ or WRITE is served: answered once per XID; in a session the XID advances (R457, R461). -/
def State.netRequest (s : State) (ty : Nat) (f : Frame) (run : State → Bool → State × List Byte) : State :=
  s.netRecv ty f fun s tagged =>
    if s.lodge.lastXid = some f.xid then s.netSend s.lodge.lastResp
    else if tagged && !(s.lodge.lastXid.elim true fun l => ahead l f.xid) then s
    else
      match run s tagged with
      | (s, pay) =>
        let fr := s.netFrame 3 f.xid.toNat pay tagged
        (s.modLodge fun l => { l with lastXid := some f.xid, lastResp := fr }).netSend fr

/-- READ (R455): INDEX, SUB, FLAGS, OFFSET, COUNT. -/
def State.netRead (s : State) (f : Frame) : State :=
  s.netRequest 1 f fun s _ =>
    let b := f.payload
    if b.length ≠ 10 || decide (1024 < field b 8 2) then (s, [BitVec.ofNat 8 Abort.typeLength]) else
    match s.dictRead .network (field b 0 2) (field b 2 1) (field b 4 4) (field b 8 2) with
    | (s, c, bs) => (s, BitVec.ofNat 8 c :: bs)

/-- WRITE (R455). -/
def State.netWrite (s : State) (f : Frame) : State :=
  s.netRequest 2 f fun s tagged =>
    let b := f.payload
    if b.length < 10 || b.length ≠ 10 + field b 8 2 || decide (1024 < field b 8 2) then (s, [BitVec.ofNat 8 Abort.typeLength]) else
    match s.dictWrite .network (if tagged then s.lodge.netLevel else 0) tagged (field b 0 2) (field b 2 1) (field b 4 4) (field b 3 1 % 2 = 1) (b.drop 10) with
    | (s, c) => (s, [BitVec.ofNat 8 c])

/-- SESS_OPEN (R461, R462): any session closes; the answer is SESS_CHAL. -/
def State.sessOpen (s : State) (f : Frame) : State :=
  s.netRecv 0x20 f fun s _ =>
    let s := s.netClose
    let level := (f.payload.headD 0).toNat
    let code :=
      if f.payload.length ≠ 1 then Abort.typeLength
      else if s.lodge.lockedAt.isSome then Abort.locked
      else if level ≠ 2 && level ≠ 3 then Abort.range
      else if (s.lodge.keyOf level).isNone then Abort.noKey else Abort.ok
    let (c, s) := s.draw
    let (r, s) := s.draw
    let n := 1 + r.toNat % 65535
    let s := s.modLodge fun l => { l with netChal := if code = Abort.ok then some (level, n, c) else none }
    s.netSend (s.netFrame 0x21 f.xid.toNat ([BitVec.ofNat 8 code] ++ leBytes n 2 ++ leBytes c.toNat 16) false)

/-- SESS_PROVE (R461, R462). -/
def State.sessProve (s : State) (f : Frame) : State :=
  s.netRecv 0x22 f fun s _ =>
    if f.payload.length ≠ 16 then s.respond f Abort.typeLength else
    match s.lodge.netChal with
    | none => s.respond f Abort.auth
    | some (level, n, c) =>
      let s := s.modLodge fun l => { l with netChal := none }
      match s.lodge.keyOf level with
      | none => s.respond f Abort.noKey
      | some k =>
        if leBytes (proofOf k c level n).toNat 16 = f.payload then
          (s.modLodge fun l => { l with netLevel := level, netSess := n, netKey := Config.cmac k (leBytes c.toNat 16 ++ [0x53] ++ leBytes n 2)
                                        netLast := s.now, fails := 0 }).respond f Abort.ok
        else
          let s := (s.modLodge fun l => { l with fails := l.fails + 1 }).authFail
          let s := if s.lodge.fails = 3 then (s.modLodge fun l => { l with lockedAt := some s.now }).event .sessionFail 0 0 (detail := 1) else s
          s.respond f Abort.auth

/-- SESS_CLOSE (R462). -/
def State.sessClose (s : State) (f : Frame) : State := s.netRecv 0x23 f fun s tagged => if tagged then s.netClose else s

/-- 60 s without a tagged frame, or without a mailbox request (R462, R463). -/
def sessCc : Nat := 60 * 1000000 * ccPerUs
def State.sessTimeout (s : State) (network : Bool) : State :=
  let l := s.lodge
  if network then (if l.netLevel ≠ 0 && decide (l.netLast + sessCc ≤ s.now) then s.netClose else s)
  else if l.mbxLevel ≠ 0 && decide (l.mbxLast + sessCc ≤ s.now) then s.modLodge fun l => { l with mbxLevel := 0 } else s

/-- Locked sessions may be opened again after 60 s (R462). -/
def State.lockExpiry (s : State) : State :=
  match s.lodge.lockedAt with
  | none => s
  | some t => if s.now < t + sessCc then s else s.modLodge fun l => { l with lockedAt := none, fails := 0 }

/-! ## Chain addressing (R458, R459) -/

/-- ASSIGN, accepted by an unassigned hub whose CHAIN_IN reads high. -/
def State.assignTake (s : State) (f : Frame) : State :=
  if !s.netTakes 0x10 f then s else
  let s := s.netHeard f
  let l := s.lodge
  let node := field f.payload 0 1; let plca := field f.payload 1 1
  if f.payload.length = 2 && l.node = 0xFF && l.assign.isNone && s.glb.chainIn && decide (node ≤ 0xFD) && decide (1 ≤ plca) && decide (plca ≤ 16) then
    s.modLodge fun l => { l with assign := some (node, plca, f.xid) }
  else s

/-- ASSIGN_ACK: sent at the first transmit opportunity; a collision returns the hub to the unassigned state. -/
def State.assignSent (s : State) (collision : Bool) : State :=
  match s.lodge.assign with
  | none => s
  | some (node, plca, xid) =>
    if collision then
      (s.modLodge fun l => { l with assign := none, node := 0xFF, plca := 0, chainFault := true }).modGlb fun g => { g with chainOut := false }
    else
      let s := s.modLodge fun l => { l with assign := none, plca := plca, node := node, nodePend := true }
      (s.netSend (s.netFrame 0x11 xid.toNat (leBytes node 1 ++ leBytes Config.serial.toNat 8) false)).modGlb fun g => { g with chainOut := true }

/-! ## Event frames (R457) -/

/-- One EVENT frame per tick for a record written to the ring; one that cannot be sent is not queued. -/
def State.eventFrame (s : State) : State :=
  match s.lodge.evNew with
  | none => s
  | some bs =>
    let s := s.modLodge fun l => { l with evNew := none }
    if s.lodge.evTick = some s.glb.tickNum || s.lodge.plca = 0 then s else
    let (r, s) := s.draw
    (s.modLodge fun l => { l with evTick := some s.glb.tickNum }).netSend (s.netFrame 0x30 (r.toNat % 2 ^ 16) bs false)

/-! ## Service steps (R45) -/

/-- One dictionary request is served: the oldest network frame of an earlier tick, or the mailbox request if it came no later than the
frame's tick; in its own tick a frame waits, for a mailbox request may still reach the Lodge before its end (R448). -/
def State.dictStep (s : State) : State :=
  match s.lodge.netq with
  | [] => s.mbxServe
  | (t, ty, f) :: rest =>
    if s.lodge.mbxReq.isSome && decide (s.lodge.mbxTick ≤ t) then s.mbxServe
    else if t = s.glb.tickNum then s
    else
      let s := s.modLodge fun l => { l with netq := rest }
      if ty = 1 then s.netRead f else s.netWrite f

/-- A service starts a step only if it fits in what is left of its budget for the tick. -/
def State.serviceStep (s : State) (svc : Service) (units : Nat) : State :=
  s.inBudget svc units fun s => match svc with
    | .train => s.trainArm
    | .scrub => s
    | .dict => s.dictStep
    | .ice => s.iceStep units

/-! ## The commands -/

/-- LODGE_SERVICE_STEP (R45, R452, R468). -/
def execLodgeServiceStep (svc : Service) (units : Nat) (s : State) : Host.Outcome State Fault Refusal := live s fun s => s.serviceStep svc units
/-- EVENT_FRAME_SEND (R457). -/
def execEventFrameSend (s : State) : Host.Outcome State Fault Refusal := live s fun s => s.eventFrame
/-- COMMIT (R468). -/
def execCommit (m : Master) (value : LodgeTimed Nat) (s : State) : Host.Outcome State Fault Refusal :=
  live s fun s => s.byMaster m value.units 0x1F00 1 (leBytes value.of 4)
/-- COMMIT_DONE (R468). -/
def execCommitDone (readBackOk : Bool) (s : State) : Host.Outcome State Fault Refusal := live s fun s => s.commitJudge readBackOk
/-- IMAGE_LOAD (R470). -/
def execImageLoad (m : Master) (image : LodgeTimed (List Byte)) (s : State) : Host.Outcome State Fault Refusal :=
  live s fun s => s.byMaster m image.units 0x1F20 1 image.of
/-- MAILBOX_SESSION_OPEN (R463): level and proof, written by a privileged master. -/
def execMailboxSessionOpen (proof : LodgeTimed (List Byte)) (s : State) : Host.Outcome State Fault Refusal :=
  live s fun s => s.byMailbox proof.units 0x1F10 3 proof.of
/-- SESSION_TIMEOUT (R462, R463). -/
def execSessionTimeout (network : Bool) (s : State) : Host.Outcome State Fault Refusal := live s fun s => s.sessTimeout network
/-- READ (R448, R455): served by a step of the dictionary service. -/
def execRead (f : Frame) (s : State) : Host.Outcome State Fault Refusal := live s fun s => s.netQueue 1 f
/-- WRITE (R448, R455). -/
def execWrite (f : Frame) (s : State) : Host.Outcome State Fault Refusal := live s fun s => s.netQueue 2 f
/-- ASSIGN (R458). -/
def execAssign (f : Frame) (s : State) : Host.Outcome State Fault Refusal := live s fun s => s.assignTake f
/-- ASSIGN_ACK (R458, R459). -/
def execAssignAck (collision : Bool) (s : State) : Host.Outcome State Fault Refusal := live s fun s => s.assignSent collision
/-- SESS_OPEN (R461). -/
def execSessOpen (f : Frame) (s : State) : Host.Outcome State Fault Refusal := live s fun s => s.sessOpen f
/-- SESS_PROVE (R461). -/
def execSessProve (f : Frame) (s : State) : Host.Outcome State Fault Refusal := live s fun s => s.sessProve f
/-- SESS_CLOSE (R462). -/
def execSessClose (f : Frame) (s : State) : Host.Outcome State Fault Refusal := live s fun s => s.sessClose f
/-- SESSION_LOCK_EXPIRY (R462). -/
def execSessionLockExpiry (s : State) : Host.Outcome State Fault Refusal := live s fun s => s.lockExpiry

end Sys2Proof.Machine
end

