-- ==== Sys2Proof/Machine/Tick.lean ====
section
/-!
DEFINITION. The apply window of a tick: snapshot, pending fields of every block, regulation, and the TIME flits (R41 to
R46, R517).
-/

namespace Sys2Proof.Machine

/-! ## Item 2: the pending fields (R42, R43, R424, R517) -/

/-- The clocks of a block run, so that it applies its pending fields (R424, R427). -/
def State.blkRuns (s : State) (b : Blk) : Bool :=
  s.clocksRun || (match b with
    | .glb | .raw | .band | .lodge | .ice => true
    | .blv => s.glb.pwr ≠ .hibernate
    | _ => false)

/-- The word that a register holds once its pending TICK fields have applied. -/
def State.tickWord (s : State) (off : Nat) (v : W32) : W32 :=
  match regAt off with
  | none => s.rget off
  | some (_, _, _, d) => merge32 (s.rget off) v (maskOf d.fields isTick)

/-- What the apply of a register sets off, `old` being its value before: a new latency target clears the averages, a larger
REQ is granted, EN of the cache, SRC and the capture follow (R84, R246, R392, R479, R557). -/
def State.tickAct (s : State) (off : Nat) (old : W32) : State :=
  match regAt off with
  | none => s
  | some (b, i, j, d) =>
    let new := s.rget off
    match b with
    | .glb => if off = R.glbHcCtl then s.modGlb fun g => { g with hcEn := new.getLsbD 0 } else s
    | .band => if off = R.bandTimeCtl then s.srcApply else s
    | .blv => if off = R.blvTrcCtl then s.trcEnable (old.getLsbD 31) else s
    | .reg =>
      if decide (d.off = 0) && decide (j < 64) && bitsOf old 15 0 ≠ bitsOf new 15 0 then s.avgClear ⟨j % 64, Nat.mod_lt _ (by decide)⟩ else s
    | .port =>
      match portOf? i with
      | none => s
      | some n =>
        let more := bitsOf new 9 0 - bitsOf old 9 0
        if off = R.portCredCfg i && (s.port n).io.enabled && decide (0 < more) then
          s.modLink n fun l => { l with credRet := l.credRet.set 0 (l.credRet.getD 0 0 + more), reqOut := l.reqOut + more }
        else s
    | _ => s

/-- One register's pending value comes into force; the block notes the tick (R517, R534). -/
def State.applyOne (s : State) (x : Nat × W32) : State :=
  let old := s.rget x.1
  let (b, i) := blkInst x.1
  ((s.modLast fun m => FMap.insert m (applyOff b i) (s.glb.tickNum % 256)).rset x.1 (s.tickWord x.1 x.2)).tickAct x.1 old

/-- Every block whose clocks run applies all its pending fields. -/
def State.applyPending (s : State) : State :=
  let due := List.filter (fun (x : Nat × W32) => s.blkRuns (blkInst x.1).1) s.pend
  let rest := List.filter (fun (x : Nat × W32) => !s.blkRuns (blkInst x.1).1) s.pend
  due.foldl (fun s x => s.applyOne x) (s.modPend fun _ => rest)

/-- The tick at which a MEM_GO takes effect (R417). -/
def State.memGoTick (s : State) : State :=
  if s.glb.memGoPend then s.modGlb fun g => { g with memGoPend := false, memGoDue := true } else s

/-- A new node ID brings its applicable home ranges (R105). -/
def State.nodeTick (s : State) : State :=
  if s.lodge.nodePend then (s.modLodge fun l => { l with nodePend := false }).takeRanges s.lodge.node else s

/-- Item 2 of R42, for the blocks whose clocks run (R424). -/
def State.itemTwo (s : State) : State :=
  let s := s.applyPending.cntClear.nodeTick
  (if s.clocksRun then s.trimTick.placeTick.mopTick else s).memGoTick

/-! ## Items 3 and 4 -/

/-- The patrols' credit of the tick that begins (R358, R359). -/
def State.patrolRefill (s : State) : State :=
  let s := forChans s fun c s => s.modCom (.chan c) fun x => { x with patrolCredit := s.rf (R.chanScrubCtl c) 7 0 }
  forStks s fun k s => s.modCom (.stack k) fun x => { x with patrolCredit := s.rf (R.stackScrubCtl k) 7 0 }

/-- Item 3: service budgets, and where their clocks run regulation and patrols; `t` is the length of the tick that begins. -/
def State.itemThree (s : State) (t : Nat) : State :=
  let s := s.scaleBudgets t
  if s.clocksRun then (s.regTick t).patrolRefill else s

/-- Item 4: one TIME flit on each active link that wants it; none until a STANDBY is over (R424, R425, R486). -/
def State.itemFour (s : State) : State :=
  if !s.clocksRun then s else
  forPorts s fun n s =>
    if (s.port n).link.st = .active && s.rbit (R.portTimeCtl n) 31 then s.modLink n fun l => { l with timeFlit := true } else s

/-- A window restarts the clocks of gated pavilions (R422). -/
def State.windowUngate (s : State) : State :=
  if s.clocksRun then forPavs s fun p s => if (s.pav p).gated then s.modPav p fun v => { v with gated := false } else s else s

/-- The apply window of one tick (R42). The period in force before the window is the length of the tick that begins (R41). -/
def State.applyWindow (s : State) : State :=
  let t := s.rf R.bandTickCfg 9 0
  let s := s.modGlb fun g => { g with tickNum := g.tickNum + 1 }
  let s := (s.windowUngate.stepApply.snapTake s.glb.tickNum).cntGlob 1
  (s.itemTwo.itemThree t).itemFour

/-! ## The commands -/

/-- APPLY_WINDOW (R42). -/
def execApplyWindow (s : State) : Host.Outcome State Fault Refusal := live s fun s => s.applyWindow

end Sys2Proof.Machine
end

