-- ==== Sys2Proof/Machine/Start.lean ====
section
/-!
DEFINITION. Start-up and loss of supply: the settings image is chosen and loaded, the SRAM is cleared, ports and channels
begin, and a fall of PWROK or an undervoltage returns the hub to reset (R413 to R419, R466, R467, R580 to R582).
-/

namespace Sys2Proof.Machine

/-! ## Reset (R419) -/

/-- The hub held in reset: only the Icehouse keeps its contents. The queue, the draws and the record of outputs are the
model's own; CHAIN_IN is driven from outside. -/
def State.dark (s : State) : State :=
  { ({} : State) with
    pending := s.pending, freeCtr := s.freeCtr, outs := s.outs
    glb := { tripRec := s.glb.tripRec, tripLast := s.glb.tripLast, chainIn := s.glb.chainIn, pwrok := s.glb.pwrok, railLow := s.glb.railLow }
    lodge := { ice := s.lodge.ice } }

/-- The hub enters reset (R419). A trip ends with PWROK only, and with it THERMTRIP_N (R428, R586); `holds` says that the always-on
supplies do, and then the record of a trip is still written when its 1 ms is over (R428). -/
def State.powerOff (s : State) (holds : Bool) : State :=
  let d := s.dark.modGlb fun g => { g with tripped := s.glb.tripped && s.glb.pwrok, thermtrip := s.glb.thermtrip && s.glb.pwrok }
  if holds && s.glb.tripAt.isSome then
    { d with now := s.now, band := { sec := s.band.sec, ns := s.band.ns }
             glb := { d.glb with tripAt := s.glb.tripAt, scaled := s.glb.scaled }
             lodge := { d.lodge with evq := s.lodge.evq, rseq := s.lodge.rseq, histPos := s.lodge.histPos } }
  else d

def Rail.num : Rail → Nat
  | .vcore => 0
  | .vserdes => 1
  | .vstk => 2
  | .vaon => 3
  | .vio18 => 4


/-! ## The settings image (R466) -/

/-- A settings entry that can be taken: its object is persistent, and the value fits its type and its field. -/
def entryObj (e : Nat × Nat × List Byte) : Option Obj :=
  match objAt e.1 e.2.1 with
  | none => none
  | some o =>
    if o.kind ≠ .rwp || tySize o.ty ≠ some e.2.2.length || (o.ty = .bool && decide (1 < leNat e.2.2)) then none else
    match o.behind with
    | .alias_ _ f => if leNat e.2.2 < 2 ^ (f.hi + 1 - f.lo) then some o else none
    | .lodge => some o
    | .high _ => none

/-- An entry with its object; `off` names the register that it aliases. -/
structure Entry where
  x : Nat
  sub : Nat
  v : Nat
  at_ : Option (Nat × Field)
deriving DecidableEq, Repr

def entryOf (e : Nat × Nat × List Byte) : Option Entry :=
  (entryObj e).map fun o =>
    { x := e.1, sub := e.2.1, v := leNat e.2.2, at_ := match o.behind with
      | .alias_ off f => some (off, f)
      | _ => none }

def State.skip (s : State) (n : Nat) : State := s.modLodge fun l => { l with skipped := l.skipped + n }

/-- All entries of one register, judged as one write against the defaults of its other fields and what is already loaded. -/
def State.loadReg (s : State) (off : Nat) (es : List Entry) : State :=
  match regAt off with
  | none => s.skip es.length
  | some (b, i, j, d) =>
    let old := s.rget off
    let new := es.foldl (fun (w : W32) e => e.at_.elim w fun a => setBits w a.2.hi a.2.lo e.v) old
    if (s.regRule b i j d.off old new).isEmpty then es.foldl (fun s e => s.setCommit e.x e.sub e.v) (s.rset off new) else s.skip es.length

/-- The entries, register by register in the order of first appearance; `done` lists the registers already loaded. -/
def State.loadEntries (s : State) (all : List Entry) (done : List Nat) : List Entry → State
  | [] => s
  | e :: rest =>
    match e.at_ with
    | none => State.loadEntries ((s.modLodge fun l => { l with floors := l.floors.set (e.sub - 7) e.v }).setCommit e.x e.sub e.v) all done rest
    | some (off, _) =>
      if done.contains off then State.loadEntries s all done rest
      else State.loadEntries (s.loadReg off (all.filter fun y => y.at_.elim false fun a => a.1 = off)) all (off :: done) rest

/-- One record of types 2 to 8; a record of unknown type is skipped. -/
def State.loadRecord (s : State) (r : Nat × List Byte) : State :=
  let bs := r.2
  if r.1 = 1 then s
  else if r.1 = 2 then
    (chunks trainSize bs.length bs).foldl (fun s b => let t := trainOf b; s.modCom (.chan (chanOf t.1)) fun x => { x with recs := x.recs ++ [t.2] }) s
  else if r.1 = 3 then
    (chunks 12 bs.length bs).foldl (fun s b => let t := eqOf b
      match portOf? t.1 with
      | none => s
      | some n => s.modLink n fun l => { l with saved := l.saved ++ [t.2] }) s
  else if r.1 = 4 then
    (chunks trainSize bs.length bs).foldl (fun s b => let t := trainOf b; s.modCom (.stack (stkOf t.1)) fun x => { x with recs := [t.2] }) s
  else if r.1 = 5 then
    (chunks repairSize bs.length bs).foldl (fun s b => let t := repairOf b; s.modChan (chanOf t.1) fun ch => { ch with repairs := ch.repairs ++ [t.2] }) s
  else if r.1 = 6 then s.modGlb fun g => { g with ilMap := (bs.take 16).map (·.toNat % 16), fenced := BitVec.ofNat 16 (field bs 16 2) }
  else if r.1 = 7 then
    (chunks 17 bs.length bs).foldl (fun s b =>
      let k : BitVec 128 := BitVec.ofNat 128 (field b 1 16)
      s.modLodge fun l => if field b 0 1 = 2 then { l with keyEng := some k, keyEngC := some k } else { l with keyFac := some k, keyFacC := some k }) s
  else if r.1 = 8 then s.modLodge fun l => { l with imgNode := field bs 0 1 }
  else s.skip 1

/-- The chosen image is loaded. -/
def State.loadImage (s : State) (body : List Byte) : State :=
  let rs := bodyRecords body
  let raw := (rs.filter fun r => r.1 = 1).flatMap fun r => entriesOf r.2.length r.2
  let es := raw.filterMap entryOf
  let s := (s.skip (raw.length - es.length)).loadEntries es [] es
  let s := s.modLodge fun l => { l with freqCap := (Config.imageCap body).toNat }
  rs.foldl (fun s r => s.loadRecord r) s

/-- Step 2 of R413: the bank is chosen (R467) and its image loaded. -/
def State.loadBank (s : State) : State :=
  match bankSelect s.lodge.ice with
  | none => s.modLodge fun l => { l with bank := 2, seq := 0, factory := true }
  | some (b, q, body) => (s.modLodge fun l => { l with bank := b, seq := q, factory := false }).loadImage body

/-! ## Checks at start-up (R28, R104, R231) -/

/-- Whether the columns span all four bits. -/
def spans (cols : List Nat) : Bool :=
  (cols.foldl (fun (acc : List Nat) x => if acc.contains x then acc else acc ++ acc.map fun y => y ^^^ x) [0]).length = 16
/-- The column of PA[12 + 4g + k] (R282). -/
def foldCol (masks : Nat → Nat) (g k : Nat) : Nat :=
  (List.range 4).foldl (fun a b => a + (if (masks (4 * b + k)).testBit g then 2 ^ b else 0)) 0

/-- The fold masks give every hash value, or the default masks are used (R28). -/
def State.foldCheck (s : State) : State :=
  if spans ((List.range 40).map fun i => foldCol s.fold (i / 4) (i % 4)) then s
  else
    (List.range 16).foldl (fun s j => s.rset (R.glbIlFold j) (regReset (R.glbIlFold j))) (s.modGlb fun g => { g with foldDefaulted := true })

/-- The boot window exists: it lies in a home range, and PA[15:12] follows from the hash (R231). -/
def State.windowOk (s : State) : Bool :=
  let base := s.rf R.glbBootWin 27 0
  (rangeOf s.glb.ranges (BitVec.ofNat 46 (base * 2 ^ 18))).isSome && decide (base < 2 ^ 28) && spans ((List.range 4).map fun k => foldCol s.fold 0 k)

/-! ## The rings of the Icehouse (R471, R492) -/

def State.ringScan (s : State) : State :=
  s.modLodge fun l =>
    let h := ringNewest l.ice historyBase
    let g := ringNewest l.ice ledgerBase
    { l with rseq := h.elim 0 fun x => (x.2 + 1) % 2 ^ 32, histPos := h.elim 0 fun x => (x.1 + 1) % 32768
             lseq := g.elim 0 fun x => (x.2 + 1) % 2 ^ 32, ledgerPos := g.elim 0 fun x => (x.1 + 1) % 32768
             ledgerCnt := g.elim 0 fun x => min (x.2 + 1) 0xFFFF, powered := g.elim 0 fun x => field (ringRec l.ice ledgerBase x.1) 10 4 }

/-- A drop of a monitored rail while PWROK is high: a record names it if the always-on supplies hold, and reset follows; with PWROK low
the rail holds reset (R581). -/
def State.undervolt (s : State) (rail : Rail) (holds : Bool) : State :=
  let s := if s.glb.on then s else s.ringScan
  let s := if holds && s.glb.pwrok then
      (s.historyFlush { sec := s.band.sec, ns := s.band.ns, kind := EvKind.power.num, inst := 16 + Rail.num rail, addr := 0 }).1
    else s
  (s.powerOff holds).modGlb fun g => { g with railLow := true }

/-! ## Channels (R278 to R281, R582) -/

/-- The highest frequency code of a generation at or below a cap. -/
def codeUpTo (g : MemGen) : Nat → Nat
  | 0 => 0
  | c + 1 => if genOfCode (c + 1) = some g then c + 1 else codeUpTo g c

/-- The population rules: what two modules of a channel share (R281). -/
def spdMatch (a b : Spd) : Bool := a.gen = b.gen && a.densityGbit = b.densityGbit && a.cidBits = b.cidBits && a.ranks = b.ranks

/-- The code at which a channel trains, capped as the settings image says: 0 where its population or its supply forbids training
(R280). -/
def startCode (cap : Nat) (e : ChanEnv) : Nat :=
  match e.slot0, e.slot1 with
  | none, _ => 0
  | some a, none => if spdOk a && e.vddqOk then codeUpTo a.gen (min a.maxCode cap) else 0
  | some a, some b => if spdOk a && spdOk b && spdMatch a b && e.vddqOk then codeUpTo a.gen (min (min a.maxCode b.maxCode) cap) else 0

/-- A channel reads its SPD and begins to train, or stays OFF with TRAIN_FAIL. -/
def State.chanStart (s : State) (c : ChanId) (e : ChanEnv) : State :=
  if e.slot0.isNone && e.slot1.isNone then s else
  let code := startCode s.lodge.freqCap e
  let s := s.modChan c fun ch =>
    { ch with slot0 := e.slot0, slot1 := e.slot1, vddqOk := e.vddqOk, gen := e.slot0.map (·.gen), freq := code, resetN := decide (code ≠ 0), dram := []
              lost := none
              com := { ch.com with st := if code = 0 then .off else .training } }
  if code = 0 then s.raise (R.chanEvt c) 15 else s

/-! ## Start-up (R413) -/

/-- The state in which step 1 of R413 begins. -/
def State.awake (s : State) (env : PowerEnv) : State :=
  { s.dark with glb := { s.dark.glb with on := true, tripLast := s.glb.tripRec, tripRec := false, pins := env.pins }, band := { trefFit25 := env.tref25 } }

/-- Fields of the state that follow the loaded registers. -/
def State.follow (s : State) : State :=
  let s := (s.modGlb fun g => { g with hcEn := s.rbit R.glbHcCtl 0 }).srcApply
  let t := s.scaleBudgets (s.rf R.bandTickCfg 9 0)
  s.modGlb fun g => { g with scaled := t.glb.scaled }

/-- R413 from the rising edge of PWROK to the point at which nothing more happens without an event from outside. -/
def State.powerOn (s : State) (env : PowerEnv) : State :=
  if s.glb.on || !s.glb.pwrok || s.glb.railLow || s.glb.tripped then s else
  let s := ((s.awake env).loadBank.foldCheck.takeRanges 255).ringScan.follow
  let s := s.modGlb fun g => { g with noWindow := !s.windowOk }
  let s := forPorts s fun n s => s.modLink n fun l => { l with st := if s.rbit (R.portLinkCtl n) 30 then .disabled else .detect }
  let s := forChans s.phaseUpdate fun c s => s.chanStart c (env.chans.getD c.val { slot0 := none, slot1 := none, vddqOk := true })
  s.memReadyCheck

/-- No TREF edge within 10 ms of PWROK (R415); a TREF that is lost later leaves TREF_MISSING clear. -/
def State.trefMiss (s : State) : State :=
  if s.band.trefSeen || s.now < 10000 * ccPerUs then s else s.modGlb fun g => { g with trefMissing := true }

/-! ## The commands -/

/-- POWER_ON: PWROK rises (R413); a rail that is low holds the hub in reset (R581). -/
def execPowerOn (env : PowerEnv) (s : State) : Host.Outcome State Fault Refusal :=
  .next ((s.modGlb fun g => { g with pwrok := true }).powerOn env)
/-- RAIL_RECOVERY (R581): the last monitored rail recovers, and start-up begins if PWROK is high. -/
def execRailRecovery (env : PowerEnv) (s : State) : Host.Outcome State Fault Refusal :=
  .next ((s.modGlb fun g => { g with railLow := false }).powerOn env)
/-- POWER_FAIL: PWROK falls (R419). -/
def execPowerFail (s : State) : Host.Outcome State Fault Refusal :=
  .next ((s.modGlb fun g => { g with pwrok := false }).powerOff true)
/-- UNDERVOLTAGE (R419, R581). -/
def execUndervoltage (rail : Rail) (alwaysOnHolds : Bool) (s : State) : Host.Outcome State Fault Refusal :=
  .next (s.undervolt rail alwaysOnHolds)
/-- TREF_MISSING_TIMEOUT (R415). -/
def execTrefMissingTimeout (s : State) : Host.Outcome State Fault Refusal := live s fun s => s.trefMiss

end Sys2Proof.Machine
end

