-- ==== Sys2Proof/Machine/Dispatch.lean ====
section
/-!
DEFINITION. One arm per command: each calls the meaning of its row, or rejects the row by name.
-/

namespace Sys2Proof.Machine

open Sys2Proof

/-- The effect of a command on everything but the queue. -/
def exec (i : Instr) (s : State) : Host.Outcome State Fault Refusal :=
  match i with
  | .powerOn env => Sys2Proof.Machine.execPowerOn env s
  | .powerFail => Sys2Proof.Machine.execPowerFail s
  | .undervoltage rail alwaysOnHolds => Sys2Proof.Machine.execUndervoltage rail alwaysOnHolds s
  | .trefMissingTimeout => Sys2Proof.Machine.execTrefMissingTimeout s
  | .perst asserted => Sys2Proof.Machine.execPerst asserted s
  | .applyWindow => Sys2Proof.Machine.execApplyWindow s
  | .lodgeServiceStep svc units => Sys2Proof.Machine.execLodgeServiceStep svc units s
  | .registerWrite a off nbytes data => Sys2Proof.Machine.execRegisterWrite a off nbytes data s
  | .statusClear a off v => Sys2Proof.Machine.execStatusClear a off v s
  | .pairLoRead a off => Sys2Proof.Machine.execPairLoRead a off s
  | .pairHiRead a off => Sys2Proof.Machine.execPairHiRead a off s
  | .pairHiWrite a off v => Sys2Proof.Machine.execPairHiWrite a off v s
  | .timeNsRead a => Sys2Proof.Machine.execTimeNsRead a s
  | .msixMessage v => Sys2Proof.Machine.execMsixMessage v s
  | .eventRecordWrite => Sys2Proof.Machine.execEventRecordWrite s
  | .eventFrameSend => Sys2Proof.Machine.execEventFrameSend s
  | .receiverDetect n lanes => Sys2Proof.Machine.execReceiverDetect n lanes s
  | .trainingSetReceive n lane set obs => Sys2Proof.Machine.execTrainingSetReceive n lane set obs s
  | .trainingStateTimeout n => Sys2Proof.Machine.execTrainingStateTimeout n s
  | .creditMinimumTimeout n => Sys2Proof.Machine.execCreditMinimumTimeout n s
  | .flitReceive n bytes => Sys2Proof.Machine.execFlitReceive n bytes s
  | .retryReqRepeat n => Sys2Proof.Machine.execRetryReqRepeat n s
  | .retryReq n seq => Sys2Proof.Machine.execRetryReq n seq s
  | .recoveryTimeout n => Sys2Proof.Machine.execRecoveryTimeout n s
  | .retrain a n => Sys2Proof.Machine.execRetrain a n s
  | .linkDisable a n disable => Sys2Proof.Machine.execLinkDisable a n disable s
  | .linkCtlRepeat n => Sys2Proof.Machine.execLinkCtlRepeat n s
  | .lpEnter n => Sys2Proof.Machine.execLpEnter n s
  | .lowpowerWake n => Sys2Proof.Machine.execLowpowerWake n s
  | .linkDown n => Sys2Proof.Machine.execLinkDown n s
  | .svcFrame din => Sys2Proof.Machine.execSvcFrame din s
  | .rds n m => Sys2Proof.Machine.execRds n m s
  | .rdo n m => Sys2Proof.Machine.execRdo n m s
  | .upg n m => Sys2Proof.Machine.execUpg n m s
  | .rdonce n m => Sys2Proof.Machine.execRdonce n m s
  | .wrline n m => Sys2Proof.Machine.execWrline n m s
  | .wrpart n m => Sys2Proof.Machine.execWrpart n m s
  | .wrstash n m => Sys2Proof.Machine.execWrstash n m s
  | .cclean n m => Sys2Proof.Machine.execCclean n m s
  | .cinv n m => Sys2Proof.Machine.execCinv n m s
  | .ccleaninv n m => Sys2Proof.Machine.execCcleaninv n m s
  | .fence n m => Sys2Proof.Machine.execFence n m s
  | .fenceComp n => Sys2Proof.Machine.execFenceComp n s
  | .fenceDeadline n => Sys2Proof.Machine.execFenceDeadline n s
  | .ttEntryAllocate p n => Sys2Proof.Machine.execTtEntryAllocate p n s
  | .heldCreditReturn n => Sys2Proof.Machine.execHeldCreditReturn n s
  | .homeLookup p e u => Sys2Proof.Machine.execHomeLookup p e u s
  | .lookupReplay p e => Sys2Proof.Machine.execLookupReplay p e s
  | .parkedRetry p set => Sys2Proof.Machine.execParkedRetry p set s
  | .done n m => Sys2Proof.Machine.execDone n m s
  | .invack n m => Sys2Proof.Machine.execInvack n m s
  | .fwdack n m => Sys2Proof.Machine.execFwdack n m s
  | .fwdackd n m => Sys2Proof.Machine.execFwdackd n m s
  | .recalld n m => Sys2Proof.Machine.execRecalld n m s
  | .rspcrossed n m => Sys2Proof.Machine.execRspcrossed n m s
  | .wbd n m => Sys2Proof.Machine.execWbd n m s
  | .evc n m => Sys2Proof.Machine.execEvc n m s
  | .stashacc n m => Sys2Proof.Machine.execStashacc n m s
  | .stashdecl n m => Sys2Proof.Machine.execStashdecl n m s
  | .stashOfferTimeout p e => Sys2Proof.Machine.execStashOfferTimeout p e s
  | .datas n m => Sys2Proof.Machine.execDatas n m s
  | .datam n m => Sys2Proof.Machine.execDatam n m s
  | .fwdTimeout p e n => Sys2Proof.Machine.execFwdTimeout p e n s
  | .iowr n m => Sys2Proof.Machine.execIowr n m s
  | .arbourDispatch n => Sys2Proof.Machine.execArbourDispatch n s
  | .arbourTimeout n e => Sys2Proof.Machine.execArbourTimeout n e s
  | .ioack n m => Sys2Proof.Machine.execIoack n m s
  | .iord n m => Sys2Proof.Machine.execIord n m s
  | .iordDispatch n => Sys2Proof.Machine.execIordDispatch n s
  | .iordTimeout n e => Sys2Proof.Machine.execIordTimeout n e s
  | .iodat n m => Sys2Proof.Machine.execIodat n m s
  | .missReadIssue p r => Sys2Proof.Machine.execMissReadIssue p r s
  | .fillReturn p r sub => Sys2Proof.Machine.execFillReturn p r sub s
  | .stackCommandIssue p pc u => Sys2Proof.Machine.execStackCommandIssue p pc u s
  | .stackReadReturn p => Sys2Proof.Machine.execStackReadReturn p s
  | .evictionCopyReturn p => Sys2Proof.Machine.execEvictionCopyReturn p s
  | .orangeryDrain p => Sys2Proof.Machine.execOrangeryDrain p s
  | .queuePushRetry p => Sys2Proof.Machine.execQueuePushRetry p s
  | .dramReadIssue c ready u => Sys2Proof.Machine.execDramReadIssue c ready u s
  | .dramWriteIssue c ready => Sys2Proof.Machine.execDramWriteIssue c ready s
  | .lazyZeroFillWrite c slot => Sys2Proof.Machine.execLazyZeroFillWrite c slot s
  | .backgroundPassStart c => Sys2Proof.Machine.execBackgroundPassStart c s
  | .refresh m rank => Sys2Proof.Machine.execRefresh m rank s
  | .memoryTempRead m source celsius => Sys2Proof.Machine.execMemoryTempRead m source celsius s
  | .fullTraining m pass failPc => Sys2Proof.Machine.execFullTraining m pass failPc s
  | .fastLoadVerify m pass => Sys2Proof.Machine.execFastLoadVerify m pass s
  | .marginWalkStart m => Sys2Proof.Machine.execMarginWalkStart m s
  | .marginWalkStep m last r => Sys2Proof.Machine.execMarginWalkStep m last r s
  | .freqChange a c v => Sys2Proof.Machine.execFreqChange a c v s
  | .freqChangeStart c verifyNew verifyOld => Sys2Proof.Machine.execFreqChangeStart c verifyNew verifyOld s
  | .freqHoldTimeout c => Sys2Proof.Machine.execFreqHoldTimeout c s
  | .stackTest a k => Sys2Proof.Machine.execStackTest a k s
  | .stackTestDone k failPc => Sys2Proof.Machine.execStackTestDone k failPc s
  | .stackBringup => Sys2Proof.Machine.execStackBringup s
  | .pavilionFenceOrderly a v => Sys2Proof.Machine.execPavilionFenceOrderly a v s
  | .pavilionFenceFailed a v walkOk => Sys2Proof.Machine.execPavilionFenceFailed a v walkOk s
  | .fenceMapUpdate => Sys2Proof.Machine.execFenceMapUpdate s
  | .windowToGhCache a v => Sys2Proof.Machine.execWindowToGhCache a v s
  | .ghCacheToSectored a v => Sys2Proof.Machine.execGhCacheToSectored a v s
  | .sectoredToGhCache a v => Sys2Proof.Machine.execSectoredToGhCache a v s
  | .placementWalkerStep p => Sys2Proof.Machine.execPlacementWalkerStep p s
  | .placementComplete p => Sys2Proof.Machine.execPlacementComplete p s
  | .mopClean a v => Sys2Proof.Machine.execMopClean a v s
  | .mopInv a v => Sys2Proof.Machine.execMopInv a v s
  | .mopCleanInv a v => Sys2Proof.Machine.execMopCleanInv a v s
  | .mopPreload a v => Sys2Proof.Machine.execMopPreload a v s
  | .mopDisableClean a v => Sys2Proof.Machine.execMopDisableClean a v s
  | .mopStep p => Sys2Proof.Machine.execMopStep p s
  | .mopComplete => Sys2Proof.Machine.execMopComplete s
  | .lockMaskWrite a p v => Sys2Proof.Machine.execLockMaskWrite a p v s
  | .glasshouseDebugRead a off => Sys2Proof.Machine.execGlasshouseDebugRead a off s
  | .glasshouseDebugWrite a off v => Sys2Proof.Machine.execGlasshouseDebugWrite a off v s
  | .sramRewrite p => Sys2Proof.Machine.execSramRewrite p s
  | .readRaw a v => Sys2Proof.Machine.execReadRaw a v s
  | .readDec a v => Sys2Proof.Machine.execReadDec a v s
  | .writeRaw a v => Sys2Proof.Machine.execWriteRaw a v s
  | .writeEnc a v => Sys2Proof.Machine.execWriteEnc a v s
  | .rawAccessDone => Sys2Proof.Machine.execRawAccessDone s
  | .patrolRead c => Sys2Proof.Machine.execPatrolRead c s
  | .stackPatrolRead k => Sys2Proof.Machine.execStackPatrolRead k s
  | .surveyGo a m v => Sys2Proof.Machine.execSurveyGo a m v s
  | .surveyDone m => Sys2Proof.Machine.execSurveyDone m s
  | .ledgerEntryExpiry c e => Sys2Proof.Machine.execLedgerEntryExpiry c e s
  | .targetedRewrite c => Sys2Proof.Machine.execTargetedRewrite c s
  | .repairApprove a c v => Sys2Proof.Machine.execRepairApprove a c v s
  | .repairDone c spare => Sys2Proof.Machine.execRepairDone c spare s
  | .gbwWrite a k v => Sys2Proof.Machine.execGbwWrite a k v s
  | .plotCacheWrite a k v => Sys2Proof.Machine.execPlotCacheWrite a k v s
  | .plotLatWrite a k v => Sys2Proof.Machine.execPlotLatWrite a k v s
  | .mqMarkWrite a v => Sys2Proof.Machine.execMqMarkWrite a v s
  | .memGo a => Sys2Proof.Machine.execMemGo a s
  | .memServiceStart => Sys2Proof.Machine.execMemServiceStart s
  | .standby a => Sys2Proof.Machine.execStandby a s
  | .standbyDrainDone => Sys2Proof.Machine.execStandbyDrainDone s
  | .standbyTimeout => Sys2Proof.Machine.execStandbyTimeout s
  | .hibernate a => Sys2Proof.Machine.execHibernate a s
  | .hibernateCleanDone => Sys2Proof.Machine.execHibernateCleanDone s
  | .exit a r => Sys2Proof.Machine.execExit a r s
  | .wakeReq n => Sys2Proof.Machine.execWakeReq n s
  | .pavilionClockStop p => Sys2Proof.Machine.execPavilionClockStop p s
  | .junctionTempRead celsius => Sys2Proof.Machine.execJunctionTempRead celsius s
  | .enable a n => Sys2Proof.Machine.execEnable a n s
  | .quiesce a n => Sys2Proof.Machine.execQuiesce a n s
  | .quiesceSweepStart n => Sys2Proof.Machine.execQuiesceSweepStart n s
  | .quiesceComplete n => Sys2Proof.Machine.execQuiesceComplete n s
  | .release a n => Sys2Proof.Machine.execRelease a n s
  | .mailboxRequest a v => Sys2Proof.Machine.execMailboxRequest a v s
  | .commit m value => Sys2Proof.Machine.execCommit m value s
  | .commitDone readBackOk => Sys2Proof.Machine.execCommitDone readBackOk s
  | .imageLoad m image => Sys2Proof.Machine.execImageLoad m image s
  | .domainTransferTimeout network => Sys2Proof.Machine.execDomainTransferTimeout network s
  | .mailboxSessionOpen proof => Sys2Proof.Machine.execMailboxSessionOpen proof s
  | .sessionTimeout network => Sys2Proof.Machine.execSessionTimeout network s
  | .read f => Sys2Proof.Machine.execRead f s
  | .write f => Sys2Proof.Machine.execWrite f s
  | .assign f => Sys2Proof.Machine.execAssign f s
  | .assignAck collision => Sys2Proof.Machine.execAssignAck collision s
  | .sessOpen f => Sys2Proof.Machine.execSessOpen f s
  | .sessProve f => Sys2Proof.Machine.execSessProve f s
  | .sessClose f => Sys2Proof.Machine.execSessClose f s
  | .sessionLockExpiry => Sys2Proof.Machine.execSessionLockExpiry s
  | .trefWindow errPpb phase100ps => Sys2Proof.Machine.execTrefWindow errPpb phase100ps s
  | .trefLoss => Sys2Proof.Machine.execTrefLoss s
  | .trefGood => Sys2Proof.Machine.execTrefGood s
  | .ppsInEdge sub100ps => Sys2Proof.Machine.execPpsInEdge sub100ps s
  | .ppsInLoss => Sys2Proof.Machine.execPpsInLoss s
  | .step a => Sys2Proof.Machine.execStep a s
  | .slew a => Sys2Proof.Machine.execSlew a s
  | .slewDone => Sys2Proof.Machine.execSlewDone s
  | .ppsOutPulse => Sys2Proof.Machine.execPpsOutPulse s
  | .syncSend => Sys2Proof.Machine.execSyncSend s
  | .syncReceive m => Sys2Proof.Machine.execSyncReceive m s
  | .delayReqSend => Sys2Proof.Machine.execDelayReqSend s
  | .delayReqReceive requester => Sys2Proof.Machine.execDelayReqReceive requester s
  | .delayRespReceive clockId backNs => Sys2Proof.Machine.execDelayRespReceive clockId backNs s
  | .ringOscillatorMeasure d => Sys2Proof.Machine.execRingOscillatorMeasure d s
  | .portMarginMeasure n r => Sys2Proof.Machine.execPortMarginMeasure n r s
  | .ageingRecord => Sys2Proof.Machine.execAgeingRecord s
  | .eqChangeCheck n r => Sys2Proof.Machine.execEqChangeCheck n r s
  | .clear a => Sys2Proof.Machine.execClear a s
  | .counterWrite a k hi v => Sys2Proof.Machine.execCounterWrite a k hi v s
  | .arm a => Sys2Proof.Machine.execArm a s
  | .groupRead a v => Sys2Proof.Machine.execGroupRead a v s
  | .groupReadDone => Sys2Proof.Machine.execGroupReadDone s
  | .traceRecord src kind port plot addr detail => Sys2Proof.Machine.execTraceRecord src kind port plot addr detail s
  | .traceIdleTimeout => Sys2Proof.Machine.execTraceIdleTimeout s
  | .tracePopLatch a => Sys2Proof.Machine.execTracePopLatch a s
  | .tracePopRemove a => Sys2Proof.Machine.execTracePopRemove a s
  | .traceDmaWrite => Sys2Proof.Machine.execTraceDmaWrite s
  | .mark a => Sys2Proof.Machine.execMark a s
  | .rewind a => Sys2Proof.Machine.execRewind a s
  | .markClr a => Sys2Proof.Machine.execMarkClr a s
  | .railRecovery env => Sys2Proof.Machine.execRailRecovery env s
  | .ptpOkLoss => Sys2Proof.Machine.execPtpOkLoss s
  | .ppsOutPulseEnd => Sys2Proof.Machine.execPpsOutPulseEnd s
  | .sampleTestDone k failPc => Sys2Proof.Machine.execSampleTestDone k failPc s

end Sys2Proof.Machine
end

