-- ==== Sys2Proof/Safety.lean ====
section
/-!
DEFINITION. What counts as a safe state and a safe step: the canonical form of every sparse store, the legal timebase, the
parts of State that a command leaves alone, and the model's own bookkeeping.
-/

namespace Sys2Proof.Machine

/-! ## Canonical stores -/

/-- The listed keys rise strictly. -/
def rising {α : Type} (m : FMap α) : Prop := m.Pairwise fun a b => a.1 < b.1

/-- The stores of a pavilion are canonical: tags, replacement bits, Glasshouse, directory and the half of its stack; its
transaction table and its miss registers list each entry once. -/
def Pav.canon (v : Pav) : Prop :=
  FMap.wf (fun _ => ({} : TagEntry)) v.tags = true ∧ FMap.wf (fun _ => 0) v.plru = true
    ∧ FMap.wf (fun _ => ({} : GhEntry)) v.gh = true ∧ FMap.wf (fun _ => ({} : SramLine)) v.ghData = true
    ∧ FMap.wf (fun _ => ({} : DirEntry)) v.dir = true ∧ FMap.wf (fun _ => false) v.nru = true
    ∧ FMap.wf (fun _ => ({} : Stored)) v.stack = true ∧ rising v.tt ∧ rising v.miss

/-- The contents of a channel's DRAM are canonical. -/
def Chan.canon (ch : Chan) : Prop := FMap.wf ch.dramDefault ch.dram = true

/-- The timebase is legal: less than a second of nanoseconds, less than a nanosecond of fraction, and so is the time that a
pending STEP will set (R477, R484). -/
def Band.legal (b : Band) : Prop :=
  b.ns < 1000000000 ∧ b.frac < nsFrac ∧ ∀ x, b.stepPend = some x → x.2 < 1000000000

/-- Every store of the hub is in its canonical form, so that equal contents are equal data: registers in force and pending,
the masters' latches, DRAM, stacks and SRAM, the Icehouse and the trace buffer. -/
def State.canon (s : State) : Prop :=
  FMap.wf regReset s.csr = true ∧ rising s.pend ∧ FMap.wf (fun _ => ({} : PairRegs)) s.pairs = true
    ∧ (∀ p, (s.pav p).canon) ∧ (∀ c, (s.chan c).canon)
    ∧ FMap.wf iceBlank s.lodge.ice = true ∧ FMap.wf (fun _ => (0 : BitVec 128)) s.blv.buf = true

/-! ## Frames -/

/-- The parts of State. -/
inductive Part where
  | pending
  | now
  | glb
  | csr
  | pend
  | lastTick
  | pairs
  | ports
  | pavs
  | chans
  | stks
  | lodge
  | band
  | blv
  | freeCtr
  | outs
deriving DecidableEq, Repr

/-- A part is the same in two states; the registers go with what has been written in them in this cc. -/
def Part.same (p : Part) (s t : State) : Prop :=
  match p with
  | .pending => t.pending = s.pending
  | .now => t.now = s.now
  | .glb => t.glb = s.glb
  | .csr => t.csr = s.csr ∧ t.swNow = s.swNow ∧ t.swBits = s.swBits ∧ t.hwNow = s.hwNow
  | .pend => t.pend = s.pend
  | .lastTick => t.lastTick = s.lastTick
  | .pairs => t.pairs = s.pairs
  | .ports => t.ports = s.ports
  | .pavs => t.pavs = s.pavs
  | .chans => t.chans = s.chans
  | .stks => t.stks = s.stks
  | .lodge => t.lodge = s.lodge
  | .band => t.band = s.band
  | .blv => t.blv = s.blv
  | .freeCtr => t.freeCtr = s.freeCtr
  | .outs => t.outs = s.outs

/-- Nothing but the listed parts changes. -/
def OnlyParts (ps : List Part) (s t : State) : Prop := ∀ p : Part, p ∉ ps → p.same s t
/-- No port but this one changes. -/
def OnlyPort (n : PortId) (s t : State) : Prop := ∀ k, k ≠ n → t.port k = s.port k
/-- No pavilion but this one changes. -/
def OnlyPav (p : PavId) (s t : State) : Prop := ∀ k, k ≠ p → t.pav k = s.pav k
/-- No channel but this one changes. -/
def OnlyChan (c : ChanId) (s t : State) : Prop := ∀ k, k ≠ c → t.chan k = s.chan k
/-- No stack but this one changes. -/
def OnlyStk (k : StackId) (s t : State) : Prop := ∀ j, j ≠ k → t.stk j = s.stk j
/-- No register in force but the listed ones changes. -/
def OnlyRegs (offs : List Nat) (s t : State) : Prop := ∀ o, o ∉ offs → t.rget o = s.rget o

/-! ## What a command does -/

/-- A command completes: exec answers a next state, of which the claim holds. -/
def Completes (c : Instr) (s : State) (claim : State → Prop) : Prop := ∃ t, exec c s = .next t ∧ claim t

/-- The registers in force are in their canonical form, as every step keeps them (State.canon). -/
def State.regsOk (s : State) : Prop := FMap.wf regReset s.csr = true

/-- A status register after one more event of a bit: the bit is set and the sequence has advanced (R515), what software has
cleared in this cc notwithstanding (R519). -/
def Raised (off bit : Nat) (s t : State) : Prop := t.rget off = eventWord (s.uncleared off) bit

/-- Software has written no bit of the register in this cc, in which an increment would be lost (R519, R520). -/
abbrev State.softFree (s : State) (off : Nat) : Prop := FMap.find? s.swBits off = none

/-- A port whose link has been lost: out of service, its agent no longer enabled, nothing kept to send again (R93). -/
abbrev State.linkGone (s : State) (n : PortId) : Prop :=
  ((s.port n).link.st = .down ∨ (s.port n).link.st = .detect ∨ (s.port n).link.st = .disabled)
    ∧ (s.port n).io.enabled = false ∧ (s.port n).link.retry = []

/-- The credit of a port's answer of a class has gone back, and nothing but that port's link has changed among the ports (R82, R87). -/
def State.creditGiven (s : State) (n : PortId) (cls : Nat) (t : State) : Prop :=
  (t.port n).link.credRet = (s.port n).link.credRet.set cls ((s.port n).link.credRet.getD cls 0 + 1)
    ∧ (t.port n).io = (s.port n).io ∧ (t.port n).link.egress = (s.port n).link.egress ∧ OnlyPort n s t

/-- A step of a Lodge service that takes `units` of Lodge time still fits the service's budget of the tick (R45, R55). -/
abbrev State.fits (s : State) (svc : Service) (units : Nat) : Prop :=
  s.glb.used.getD (Machine.Service.num svc) 0 + units ≤ s.glb.scaled.getD (Machine.Service.num svc) 0

/-- The ten requests that go to a home, each with its opcode (R85). -/
abbrev homeRequests (n : PortId) (m : Msg) : List (Instr × BitVec 8) :=
  [(Instr.rds n m, Op.rdS), (Instr.rdo n m, Op.rdO), (Instr.upg n m, Op.upg), (Instr.rdonce n m, Op.rdOnce), (Instr.wrline n m, Op.wrLine),
    (Instr.wrpart n m, Op.wrPart), (Instr.wrstash n m, Op.wrStash), (Instr.cclean n m, Op.cClean), (Instr.cinv n m, Op.cInv),
    (Instr.ccleaninv n m, Op.cCleanInv)]

/-! ## What a home lookup reads -/

/-- The tag and Glasshouse entries of a line's sets pass their parity (R199). -/
abbrev State.tagsSound (s : State) (p : PavId) (la : LineAddr) : Prop :=
  (∀ w, w < 16 → ((s.pav p).tag (setOf la) w).parOk = true) ∧ ∀ w, w < 16 → ((s.pav p).ghe (ghSet la) w).parOk = true
/-- The directory entries of a set pass their parity (R111). -/
abbrev Pav.dirSound (v : Pav) (set : Nat) : Prop := ∀ w, w < 24 → (v.dirAt set w).parOk = true
/-- A set holds the line's tag in at most one way (R109). -/
abbrev Pav.dirUnique (v : Pav) (la : LineAddr) : Prop :=
  ∀ w, w < 24 → ∀ w', w' < 24 → (v.dirAt (dirSet la) w).st ≠ .free ∧ (v.dirAt (dirSet la) w).tag = dirTag la
    ∧ (v.dirAt (dirSet la) w').st ≠ .free ∧ (v.dirAt (dirSet la) w').tag = dirTag la → w = w'
/-- Nothing of the pavilion waits but what its transaction table holds. -/
abbrev Pav.still (v : Pav) : Prop :=
  v.halted = false ∧ v.evBuf = [] ∧ v.sweeps = [] ∧ v.recoverQ = [] ∧ v.poisonQ = [] ∧ v.miss = [] ∧ v.pushq = [] ∧ v.stackRet = []
    ∧ v.retryDue = []
/-- A table entry as its request took it: nothing has been sent, asked for or answered. -/
abbrev Txn.fresh (t : Txn) : Prop :=
  t.outs = [] ∧ t.cross = [] ∧ t.acked = [] ∧ t.evAcks = [] ∧ t.fetch = .idle ∧ t.waitEvict = false ∧ t.offer = false ∧ t.agentLost = false
    ∧ t.heldEvict = none ∧ t.waitSeq = 0 ∧ t.retry = false
/-- A request has been answered with a status by its home, if its port still takes the answer (R93). -/
def Txn.turnedAway (x : Txn) (st : BitVec 4) (p : PavId) (e : Nat) (s t : State) : Prop :=
  ∀ n, portOf? x.port = some n → (s.port n).link.keeps = true → s.current n x.num = true → x.evAcks = [] →
    (t.port n).link.egress = (s.port n).link.egress ++ [{ msg := compMsg x.tid x.pa st (htidOf p e), relTid := some x.tid, at_ := s.now }]
/-- With nothing of the pavilion on its way to memory, an agent's data is in the home copy: in the boot window at the line's place
(R233); in GH_CACHE dirty in the way that holds the line, or in one that was Invalid where none does (R237); in SECTORED present and
dirty in the sub-block of its sector, the last command to the stack writing it (R201, R202). -/
def State.copyHolds (s : State) (p : PavId) (la : LineAddr) (data : Line) (poison : Bool) (t : State) : Prop :=
  (s.pav p).evBuf = [] → (s.pav p).pushq = [] → (s.pav p).stackRet = [] → s.tagsSound p la →
    (s.mode p = .window → (t.pav p).ghLineAt (windowIdx la) = if poison then windowPoison else sramEncode data)
    ∧ (s.mode p = .gh true →
      let lies (w : Nat) : Prop :=
        (t.pav p).ghe (ghSet la) w = GhEntry.seal { tag := ghTag la, valid := true, poison := poison, dirtyA := true, dirtyB := true }
          ∧ (t.pav p).ghLineAt (ghKey (ghSet la) w) = sramEncode (if poison then 0 else data)
      (∀ w, s.look p la = .hit w → lies w)
        ∧ (s.look p la = .miss → (s.pav p).miss = [] → (∃ w, w < 16 ∧ ((s.pav p).ghe (ghSet la) w).valid = false) → ∃ w, w < 16 ∧ lies w))
    ∧ (∀ w, s.mode p = .sec true → s.look p la = .hit w ∨ s.look p la = .sector w →
      ((t.pav p).tag (setOf la) w).present.getLsbD (subOf la) = true ∧ ((t.pav p).tag (setOf la) w).dirty.getLsbD (subOf la) = true
        ∧ ((t.pav p).stackq.getLast?.map fun c => (c.set, c.way, c.sub, c.pa, c.op))
          = some (setOf la, w, subOf la, la, .write (if poison then stackPoison else stackEncode data)))

/-- A table entry holds no transaction. -/
abbrev State.entryFree (s : State) (p : PavId) (e : Nat) : Prop := FMap.find? (s.pav p).tt e = none

/-- The event register of a channel or a stack. -/
def evtOf (m : MemUnit) : Nat :=
  match m with
  | .chan c => R.chanEvt c
  | .stack k => R.stackEvt k

/-! ## What each command may reach -/

/-- The master of a command that is a register access, or that has the service node do one for a port's IOWr or IORd (R506). -/
def accessOf (s : State) (i : Instr) : Option Access :=
  match i with
  | .arbourDispatch n => (s.arbNext n).map fun x => csrAccess n x.msg
  | .iordDispatch n => (s.rdNext n).map fun x => csrAccess n x.msg
  | .registerWrite a _ _ _ | .statusClear a _ _ | .pairLoRead a _ | .pairHiRead a _ | .pairHiWrite a _ _
    | .timeNsRead a | .retrain a _ | .linkDisable a _ _ | .freqChange a _ _ | .stackTest a _
    | .pavilionFenceOrderly a _ | .pavilionFenceFailed a _ _ | .windowToGhCache a _ | .ghCacheToSectored a _
    | .sectoredToGhCache a _ | .mopClean a _ | .mopInv a _ | .mopCleanInv a _ | .mopPreload a _ | .mopDisableClean a _
    | .lockMaskWrite a _ _ | .glasshouseDebugRead a _ | .glasshouseDebugWrite a _ _ | .readRaw a _ | .readDec a _
    | .writeRaw a _ | .writeEnc a _ | .surveyGo a _ _ | .repairApprove a _ _ | .gbwWrite a _ _ | .plotCacheWrite a _ _
    | .plotLatWrite a _ _ | .mqMarkWrite a _ | .memGo a | .standby a | .hibernate a | .exit a _ | .enable a _
    | .quiesce a _ | .release a _ | .mailboxRequest a _ | .step a | .slew a | .clear a | .counterWrite a _ _ _
    | .arm a | .groupRead a _ | .tracePopLatch a | .tracePopRemove a | .mark a | .rewind a | .markClr a => some a
  | _ => none

/-- The parts of State that a command may change: supply and start-up return all of it to reset; an apply window and the
service node's accesses may reach every block; the time commands reach the timebase, the commands that send reach the
outputs, a training and a request's lookup take a free value; every other command reaches ports, pavilions, channels, stacks, registers, the Lodge and the counters only. -/
def touches (i : Instr) : List Part :=
  match i with
  | .powerOn _ | .powerFail | .undervoltage _ _ | .railRecovery _ =>
    [.now, .glb, .csr, .pend, .lastTick, .pairs, .ports, .pavs, .chans, .stks, .lodge, .band, .blv]
  | .applyWindow => [.glb, .csr, .pend, .lastTick, .ports, .pavs, .chans, .stks, .lodge, .band, .blv]
  | .lodgeServiceStep _ _ | .registerWrite _ _ _ _ | .statusClear _ _ _ | .pairLoRead _ _ | .pairHiRead _ _
    | .pairHiWrite _ _ _ | .timeNsRead _ | .retrain _ _ | .linkDisable _ _ _ | .arbourDispatch _ | .iordDispatch _
    | .freqChange _ _ _ | .stackTest _ _ | .pavilionFenceOrderly _ _ | .pavilionFenceFailed _ _ _
    | .windowToGhCache _ _ | .ghCacheToSectored _ _ | .sectoredToGhCache _ _ | .mopClean _ _ | .mopInv _ _
    | .mopCleanInv _ _ | .mopPreload _ _ | .mopDisableClean _ _ | .lockMaskWrite _ _ _ | .glasshouseDebugRead _ _
    | .glasshouseDebugWrite _ _ _ | .readRaw _ _ | .readDec _ _ | .writeRaw _ _ | .writeEnc _ _ | .surveyGo _ _ _
    | .repairApprove _ _ _ | .gbwWrite _ _ _ | .plotCacheWrite _ _ _ | .plotLatWrite _ _ _ | .mqMarkWrite _ _
    | .memGo _ | .standby _ | .hibernate _ | .exit _ _ | .enable _ _ | .quiesce _ _ | .release _ _
    | .mailboxRequest _ _ | .commit _ _ | .imageLoad _ _ | .mailboxSessionOpen _ | .read _ | .write _ | .step _
    | .slew _ | .clear _ | .counterWrite _ _ _ _ | .arm _ | .groupRead _ _ | .tracePopLatch _ | .tracePopRemove _
    | .mark _ | .rewind _ | .markClr _ =>
    [.glb, .csr, .pend, .pairs, .ports, .pavs, .chans, .stks, .lodge, .band, .blv, .freeCtr, .outs]
  | .trefWindow _ _ | .trefLoss | .trefGood | .ppsInEdge _ | .ppsInLoss | .slewDone | .ppsOutPulse | .syncSend
    | .syncReceive _ | .delayReqSend | .delayReqReceive _ | .delayRespReceive _ _ | .ptpOkLoss | .ppsOutPulseEnd => [.band, .csr, .glb, .outs]
  | .msixMessage _ | .eventFrameSend | .svcFrame _ | .assignAck _ | .sessOpen _ | .sessProve _ | .sessClose _
    | .traceDmaWrite => [.ports, .glb, .csr, .lodge, .blv, .outs, .freeCtr]
  | .lowpowerWake _ | .trainingSetReceive _ _ _ _ => [.ports, .pavs, .chans, .stks, .glb, .csr, .lodge, .blv, .outs]
  | .fullTraining _ _ _ | .homeLookup _ _ _ | .lookupReplay _ _ | .parkedRetry _ _ => [.ports, .pavs, .chans, .stks, .glb, .csr, .lodge, .blv, .freeCtr]
  | _ => [.ports, .pavs, .chans, .stks, .glb, .csr, .lodge, .blv]

/-! ## Safe steps -/

/-- A safe outcome: a next state whose stores are canonical and whose timebase is legal. -/
def SafeNext (r : Host.Outcome State Fault Refusal) : Prop := ∃ t, r = .next t ∧ t.canon ∧ t.band.legal

end Sys2Proof.Machine
end

