-- ==== Sys2Proof/Certificates/Slice0/Obligations.lean ====
section
/-!
DEFINITION. The statements about the model, family by family, that the provers settle.
-/

open Sys2Proof Sys2Proof.Machine

/-! ## The links (chapter 2) -/

/-- R60: in DETECT, an agent that shows a receiver on some lane takes the port to POLL at QCL-1; no other port and nothing else
changes. In any other state, or with no lane, nothing changes.
R60, R61, R65: a set with a bad marker or check byte changes nothing; in POLL a good set locks its lane, and CONFIG is reached
when every working lane has locked; in DELAY the agent's END after 16 echoes writes the median to LINK_DELAY, has the hub
send its own END and brings the link up with fresh sequences, which LINK_EVT.UP reports. Which kind of set ends which state is the model's choice (log entry
264). In STANDBY a set only raises WAKE_REQ (R424).
R61: every set that the hub itself sends carries the marker and a check byte that matches. -/
def Obligations.LinksDetectAndTrain : Prop :=
  (∀ (n : PortId) (lanes : BitVec 4) (s : State), s.alive = true → s.linksOn = true →
    ((s.port n).link.st = .detect → lanes ≠ 0 →
      Completes (.receiverDetect n lanes) s fun t =>
        (t.port n).link.st = .poll ∧ (t.port n).link.since = s.now ∧ (t.port n).link.gen = 1 ∧ (t.port n).link.width = 0
          ∧ (t.port n).link.locked = 0 ∧ (t.port n).io.quiesced = false ∧ OnlyPort n s t ∧ OnlyParts [.ports] s t)
    ∧ ((s.port n).link.st ≠ .detect ∨ lanes = 0 → exec (.receiverDetect n lanes) s = .next s))
  ∧ (∀ (n : PortId) (lane : Fin 4) (raw : BitVec 128) (obs : TrainObs) (s : State), s.alive = true → s.regsOk →
    let l := (s.port n).link
    let known := l.polInv.getLsbD lane
    let set := setNormal raw (xor known (setMarkerInv (setNormal raw known)))
    (s.glb.pwr = .standby → Completes (.trainingSetReceive n lane raw obs) s fun t => Raised R.glbPwrEvt 11 s t ∧ OnlyParts [.csr, .glb, .lodge, .blv] s t)
    ∧ (s.glb.pwr ≠ .standby → (setMarker set && setOk set) = false → exec (.trainingSetReceive n lane raw obs) s = .next s)
    ∧ (s.linksOn = true → (setMarker set && setOk set) = true → l.st = .poll →
        (setByte set 2 = 1 ∨ setByte set 2 = 2 ∨ setByte set 2 = 3 ∨ setByte set 2 = 4 ∨ setByte set 2 = 0x0F) →
        Completes (.trainingSetReceive n lane raw obs) s fun t =>
          (t.port n).link.locked = setBits l.locked lane.val lane.val 1
            ∧ (t.port n).link.st = (if obs.laneOk &&& ~~~(setBits l.locked lane.val lane.val 1) = 0 then LinkSt.config else LinkSt.poll)
            ∧ OnlyPort n s t ∧ OnlyParts [.ports] s t)
    ∧ (s.linksOn = true → (setMarker set && setOk set) = true → l.st = .delay → setByte set 2 = 0x0F → l.echoes.length = 16 →
        Completes (.trainingSetReceive n lane raw obs) s fun t =>
          (t.port n).link.st = .active ∧ (t.port n).link.delayPs = medianDelay l.echoes
            ∧ (t.port n).link.txSeq = 0 ∧ (t.port n).link.rxExp = 0 ∧ (t.port n).link.retry = []
            ∧ t.rget (R.portLinkDelay n) = BitVec.ofNat 32 (medianDelay l.echoes) ∧ Raised (R.portLinkEvt n) 8 s t
            ∧ (∀ k, l.setLanes = [k] → l.saved = [] → l.reversed = false → t.outs = .trainSet n (Fin.ofNat 4 k) (hubSet 0x0F k 0 0) :: s.outs)
            ∧ s.now ≤ (t.port n).link.nextFlit ∧ OnlyPort n s t ∧ OnlyRegs [R.portLinkDelay n, R.portLinkEvt n] s t
            ∧ OnlyParts [.ports, .csr, .glb, .outs] s t))
  ∧ (∀ (kind lane : Nat) (tag : BitVec 16) (arg : BitVec 32),
      setMarker (hubSet kind lane tag arg) = true ∧ setOk (hubSet kind lane tag arg) = true ∧ setByte (hubSet kind lane tag arg) 2 = kind % 256)

/-- R60, R62, R75, R83: a training state that has outlasted the hub's limit falls back to the previous generation from EQ, and
to the one in force from SPEED; elsewhere the link is lost. RECOVERY is tried again twice and then lost. The credit minimum,
looked at 10 µs into ACTIVE, is met or takes the link down with PROTOCOL. Before its time a timeout changes nothing.
R93: a link that is lost is out of service, its agent is no longer enabled and its retry buffer is empty; a port in DETECT, DOWN
or DISABLED has no link to lose. -/
def Obligations.LinkTimeoutsAndLoss : Prop :=
  (∀ (n : PortId) (s : State), s.alive = true → s.canon → s.linksOn = true →
    let l := (s.port n).link
    (∀ k, l.limit = some k → l.since + k < s.now → (l.st = .eq ∨ (l.st = .speed ∧ l.fallback = false)) →
      Completes (.trainingStateTimeout n) s fun t =>
        (t.port n).link.st = .speed ∧ (t.port n).link.fallback = true ∧ (t.port n).link.gen = (if l.st = .eq then l.gen - 1 else l.gen)
          ∧ Raised (R.portLinkEvt n) 11 s t ∧ OnlyPort n s t ∧ OnlyParts [.ports, .csr, .glb] s t)
    ∧ (∀ k, l.limit = some k → l.since + k < s.now → (l.st = .poll ∨ l.st = .config ∨ l.st = .delay ∨ (l.st = .speed ∧ l.fallback = true)) →
      Completes (.trainingStateTimeout n) s fun t => t.linkGone n)
    ∧ (∀ k, l.limit = some k → s.now ≤ l.since + k → exec (.trainingStateTimeout n) s = .next s)
    ∧ (l.st = .recovery → l.since + 40 * ccPerUs < s.now → l.recAttempts < 2 →
      Completes (.recoveryTimeout n) s fun t =>
        (t.port n).link.st = .recovery ∧ (t.port n).link.recAttempts = l.recAttempts + 1 ∧ (t.port n).link.since = s.now
          ∧ OnlyPort n s t ∧ OnlyParts [.ports] s t)
    ∧ (l.st = .recovery → l.since + 40 * ccPerUs < s.now → 2 ≤ l.recAttempts → Completes (.recoveryTimeout n) s fun t => t.linkGone n)
    ∧ (l.st = .recovery → s.now ≤ l.since + 40 * ccPerUs → exec (.recoveryTimeout n) s = .next s)
    ∧ (s.now < l.since + 10 * ccPerUs → exec (.creditMinimumTimeout n) s = .next s)
    ∧ (l.st = .active → l.credMinDone = false → l.since + 10 * ccPerUs ≤ s.now →
      (8 ≤ l.credSeen.getD 1 0 ∧ 8 ≤ l.credSeen.getD 2 0 ∧ 8 ≤ l.credSeen.getD 3 0 →
        Completes (.creditMinimumTimeout n) s fun t =>
          (t.port n).link = { l with credMinDone := true } ∧ OnlyPort n s t ∧ OnlyParts [.ports] s t)
      ∧ (¬(8 ≤ l.credSeen.getD 1 0 ∧ 8 ≤ l.credSeen.getD 2 0 ∧ 8 ≤ l.credSeen.getD 3 0) →
        Completes (.creditMinimumTimeout n) s fun t => t.linkGone n ∧ (t.rget (R.portLinkEvt n)).getLsbD 13 = true)))
  ∧ (∀ (n : PortId) (s : State), s.alive = true →
    ((s.port n).link.st ≠ .detect → (s.port n).link.st ≠ .down → (s.port n).link.st ≠ .disabled →
      Completes (.linkDown n) s fun t => t.linkGone n)
    ∧ ((s.port n).link.st = .detect ∨ (s.port n).link.st = .down ∨ (s.port n).link.st = .disabled → exec (.linkDown n) s = .next s))

/-- R67, R69, R71 to R74: on an active link below QCL-3, a flit whose CRC fails is discarded, counted (unless software writes
the count in this cc, R102), and RETRY_REQ is sent; an intact PROT flit with the expected sequence is accepted, the sequence
expected advances and the flit is acknowledged. `b` stands for the descrambled bytes and `h` for the header they begin with. -/
def Obligations.FlitsAcceptedOrRetried : Prop :=
  ∀ (n : PortId) (x : BitVec 1024) (s : State), s.alive = true → s.regsOk → (s.port n).link.st = .active → (s.port n).link.gen ≠ 3 →
    let l := (s.port n).link
    let b := (scramble l.width (flitBytes x) 0 l.scrRx).1
    let h := leNat (b.take 6)
    let good := crc32c (b.take 118) = BitVec.ofNat 32 (leNat (b.drop 124))
    (¬good → l.discarding = false →
      Completes (.flitReceive n x) s fun t =>
        (t.port n).link.discarding = true ∧ (t.port n).link.sendRetryReq = true ∧ (t.port n).link.rxExp = l.rxExp
          ∧ (t.port n).link.rxq = l.rxq ∧ (t.port n).link.retryDue = some (s.now + ccPerUs)
          ∧ (s.softFree (R.portLinkErr n) → t.rf (R.portLinkErr n) 31 16 = satAdd (s.rf (R.portLinkErr n) 31 16) 1 (2 ^ 16 - 1))
          ∧ OnlyPort n s t ∧ OnlyParts [.ports, .csr, .glb, .blv] s t)
    ∧ (good → natBits h 27 24 = 1 → natBits h 11 0 = l.rxExp →
      Completes (.flitReceive n x) s fun t =>
        (t.port n).link.rxExp = (l.rxExp + 1) % 4096 ∧ (t.port n).link.rxAck = some l.rxExp ∧ (t.port n).link.discarding = false
          ∧ (t.port n).link.st = .active)

/-- R74, R75: a received RETRY_REQ has every held flit from the sequence it names sent again, in order; the hub's own request is
repeated after 1 µs, and takes the port to RECOVERY once LINK_CTL.RETRY_MAX requests are out.
R76, R91: an idle link with LP_EN set asks to enter LOWPOWER, a request without an answer is repeated after 1 µs, and a waiting
message wakes a link in LOWPOWER: the hub sends a training set on each of its lanes, and the link is active again (the sets it
sends are the model's choice, log entry 265) with its retry buffer, sequences and credits kept. -/
def Obligations.RetryAndLowPower : Prop :=
  (∀ (n : PortId) (s : State), s.alive = true → s.regsOk → (s.port n).link.st = .active →
    let l := (s.port n).link
    (∀ q : BitVec 12, Completes (.retryReq n q) s fun t =>
      (t.port n).link = { l with replay := (l.retry.map (·.1)).filter fun y => decide ((y + 4096 - q.toNat) % 4096 < 2048) }
        ∧ OnlyPort n s t ∧ OnlyParts [.ports] s t)
    ∧ (∀ d, l.retryDue = some d → d ≤ s.now → l.discarding = true →
      (l.retryReqs < s.rf (R.portLinkCtl n) 23 16 →
        Completes (.retryReqRepeat n) s fun t =>
          (t.port n).link = { l with sendRetryReq := true, retryReqs := l.retryReqs + 1, retryDue := some (s.now + ccPerUs) }
            ∧ OnlyPort n s t ∧ OnlyParts [.ports] s t)
      ∧ (s.rf (R.portLinkCtl n) 23 16 ≤ l.retryReqs →
        Completes (.retryReqRepeat n) s fun t =>
          (t.port n).link.st = .recovery ∧ (t.port n).link.since = s.now ∧ (t.port n).link.retry = l.retry
            ∧ Raised (R.portLinkEvt n) 10 s t ∧ OnlyPort n s t ∧ OnlyParts [.ports, .csr, .glb] s t)))
  ∧ (∀ (n : PortId) (s : State), s.alive = true →
    let l := (s.port n).link
    (l.st = .active → s.rbit (R.portLinkCtl n) 24 = true → l.ctlReq = none → l.egress = [] → l.rxq = [] → l.txSlots = [] →
      l.idleSince + ccPerUs ≤ s.now →
      Completes (.lpEnter n) s fun t =>
        (t.port n).link = { l with ctlReq := some (1, 0, s.now), ctlOut := l.ctlOut ++ [(1, 0, 0)] } ∧ OnlyPort n s t ∧ OnlyParts [.ports] s t)
    ∧ (∀ c v d, l.st = .active → l.ctlReq = some (c, v, d) → d + ccPerUs ≤ s.now →
      Completes (.linkCtlRepeat n) s fun t =>
        (t.port n).link = { l with ctlReq := some (c, v, s.now), ctlOut := l.ctlOut ++ [(c, 0, v)] } ∧ OnlyPort n s t ∧ OnlyParts [.ports] s t)
    ∧ (l.st = .lowpower → s.linksOn = true → s.glb.lowAsk = false →
      Completes (.lowpowerWake n) s fun t =>
        (t.port n).link.st = .active ∧ (t.port n).link.retry = l.retry ∧ (t.port n).link.txSeq = l.txSeq ∧ (t.port n).link.rxExp = l.rxExp
          ∧ (t.port n).link.cred = l.cred ∧ (t.port n).link.egress = l.egress
          ∧ (∃ sets : List Out, t.outs = sets ++ s.outs ∧ sets.length = l.setLanes.length ∧ ∀ o ∈ sets, ∃ i x, o = .trainSet n i x)
          ∧ OnlyPort n s t ∧ OnlyParts [.ports, .outs] s t))

/-- R94 to R96: a service-chain frame that starts once the last has ended takes 288 bit times, drives ACT and SAFE of every
port, counts each port's button to a press at the third 1 after a 0, and filters presence over three frames; a quiesce that has
reached DOWN has its SAFE frame (R430 step 6). A frame before that time does not start, and a frame's inputs come with its start
(the model's choice, log entries 37 and 276).
R424: an agent that trains in STANDBY raises WAKE_REQ. -/
def Obligations.ServiceChainFrames : Prop :=
  (∀ (din : BitVec 288) (s : State), s.alive = true → s.glb.svcDue ≤ s.now →
    Completes (.svcFrame din) s fun t =>
      (∀ n : PortId,
        let l := (s.port n).link
        let io := (s.port n).io
        (din.getLsbD (3 * n.val) = false → (t.port n).link.btnState = true ∧ (t.port n).link.btnRun = 0)
        ∧ (din.getLsbD (3 * n.val) = true → l.btnState = false → (t.port n).link.btnState = false ∧ (t.port n).link.btnRun = 0)
        ∧ (din.getLsbD (3 * n.val) = true → l.btnState = true → l.btnRun ≠ 2 →
          (t.port n).link.btnState = true ∧ (t.port n).link.btnRun = l.btnRun + 1)
        ∧ (din.getLsbD (3 * n.val) = true → l.btnState = true → l.btnRun = 2 →
          (t.port n).link.btnState = false ∧ (t.rget (R.portLinkEvt n)).getLsbD 12 = true)
        ∧ ((t.port n).link.present, (t.port n).link.preRun) = filter3 l.present (din.getLsbD (3 * n.val + 1)) l.preRun
        ∧ (t.port n).io = { io with quiesced := io.quiesced || decide (io.qst = .down) }
        ∧ (t.port n).link.st = l.st)
      ∧ (∃ d : BitVec 288, t.outs = .svcDout d :: s.outs ∧ ∀ n : PortId,
        d.getLsbD (3 * n.val) = s.actOut n
          ∧ (d.getLsbD (3 * n.val + 1) = true ↔ (((s.port n).io.quiesced = true ∨ (s.port n).io.qst = .down)
              ∧ ((s.port n).link.st = .down ∨ (s.port n).link.st = .disabled ∨ (s.port n).link.st = .detect)))
          ∧ d.getLsbD (3 * n.val + 2) = false)
      ∧ t.glb.svcDue = s.now + 288 * s.rf (R.portLinkCtl 0) 15 8 * ccPerUs ∧ OnlyParts [.ports, .csr, .glb, .outs] s t)
  ∧ (∀ (din : BitVec 288) (s : State), s.now < s.glb.svcDue → exec (.svcFrame din) s = .next s)
  ∧ (∀ (n : PortId) (s : State), s.alive = true → s.regsOk → s.glb.pwr = .standby →
    Completes (.wakeReq n) s fun t => (t.rget R.glbPwrEvt).getLsbD 11 = true ∧ OnlyParts [.csr, .glb, .lodge, .blv] s t)

/-! ## Requests, order and table entries (chapters 3 and 4) -/

/-- R85, R112, R142, R163: each of the ten requests that go to a home, if its TID is free and the port does not answer it
itself, takes its TID, its place in arrival order and its place in the ingress queue, with the Plot that the port gives it, and
waits there for a table entry. Nothing outside the port but counters and their overflow report changes. -/
def Obligations.RequestsWaitInIngress : Prop :=
  ∀ (n : PortId) (m : Msg) (s : State), s.alive = true → s.regsOk →
    ∀ x ∈ homeRequests n m,
    let m' := s.ingressPlot n (withOp m x.2)
    let io := (s.port n).io
    m.hdr.tid ∉ io.tids → s.localStatus n m' = none → (∀ y ∈ io.ingress, y.loc = none) →
    Completes x.1 s fun t =>
      (t.port n).io = { io with
          nextNum := io.nextNum + 1
          tids := io.tids ++ [m.hdr.tid]
          ingress := io.ingress ++ [{ num := io.nextNum, msg := m', at_ := s.now }]
          opens := io.opens ++ [{ num := io.nextNum, oid := m.hdr.oid, tid := m.hdr.tid, write := isWriteOp x.2 || isCmoOp x.2 }] }
        ∧ (t.port n).link.egress = (s.port n).link.egress ∧ OnlyPort n s t ∧ OnlyParts [.ports, .csr, .glb, .blv] s t

/-- R142, R106, R132, R144, R430: each of the ten home requests whose TID is in use is dropped with its credit returned if RETRY is
set, and otherwise reported as a protocol error and answered Unsupported with PERR set. One that the port answers itself (a write in
the port's ring, a port being quiesced, a caching request of a non-caching agent, an address outside every home range), if no earlier
request with its OID and no Fence is before it, gets that STATUS with HTID 0 and its credit back (if it came over the link as now
trained, R93), and leaves no trace in the ingress queue; a write joins the port's ring of answered writes, and an address outside
every home range sets COH_EVT.NOT_HOME. -/
def Obligations.RequestsAnsweredAtThePort : Prop :=
  ∀ (n : PortId) (m : Msg) (s : State), s.alive = true → s.regsOk → (s.port n).link.keeps = true →
    (s.port n).link.reqOut ≤ s.rf (R.portCredCfg n) 9 0 →
    ∀ x ∈ homeRequests n m,
    let l := (s.port n).link
    let io := (s.port n).io
    let h := m.hdr
    let back := l.credRet.set 0 (l.credRet.getD 0 0 + 1)
    (h.tid ∈ io.tids → h.retry = true →
      Completes x.1 s fun t =>
        (t.port n).io = io ∧ (t.port n).link.egress = l.egress ∧ (t.port n).link.credRet = back ∧ OnlyPort n s t
          ∧ OnlyParts [.ports, .csr, .glb, .blv] s t)
    ∧ (h.tid ∈ io.tids → h.retry = false →
      Completes x.1 s fun t =>
        (t.port n).io = io ∧ (t.port n).link.egress = l.egress ++ [{ msg := compMsg h.tid h.pa Status.unsupported 0 true, at_ := s.now }]
          ∧ (t.port n).link.credRet = back ∧ Raised (R.portLinkEvt n) 13 s t ∧ OnlyPort n s t ∧ OnlyParts [.ports, .csr, .glb, .blv] s t)
    ∧ (∀ st, s.localStatus n (s.ingressPlot n (withOp m x.2)) = some st → h.tid ∉ io.tids → (∀ y ∈ io.ingress, y.loc = none ∧ y.num ≠ io.nextNum) →
      (∀ o ∈ io.opens, o.oid ≠ h.oid ∧ o.num ≠ io.nextNum) → io.fences = [] → s.glb.hold = false →
      Completes x.1 s fun t =>
        (t.port n).io = { io with
            nextNum := io.nextNum + 1
            tids := io.tids ++ [h.tid]
            ring := if isWriteOp x.2 && !(h.retry && io.ring.any fun r => r.1 = h.tid && r.2.1 = h.pa) then ((h.tid, h.pa, st) :: io.ring).take 64
              else io.ring }
          ∧ (s.current n io.nextNum = true →
              (t.port n).link.egress = l.egress ++ [{ msg := compMsg h.tid h.pa st, relTid := some h.tid, at_ := s.now }]
                ∧ (t.port n).link.credRet = back)
          ∧ (st = Status.notHome → s.isHome h.pa = false → io.qst = .none → (t.rget (R.portCohEvt n)).getLsbD 10 = true)
          ∧ OnlyPort n s t ∧ OnlyParts [.ports, .csr, .glb, .lodge, .blv] s t)

/-- R85, R166, R168 to R172: a Fence with a free TID returns its credit and waits at its port, or waits in ingress while a power
entry holds new requests (R423); its Comp is queued once every earlier write and posted write is resolved, with STATUS OK if
nothing was lost. A deadline that is reached is marked (the mark is the model's own, log entry 289), and as the cc ends without
the last acknowledgement the Comp says FenceLoss, IO_EVT.LOSS and LATE are set, and the loss mark is clear again. A Fence from
before the last link loss gets no Comp (R93). -/
def Obligations.FencesWaitAndComplete : Prop :=
  ∀ (n : PortId) (s : State), s.alive = true → s.regsOk →
    let io := (s.port n).io
    (∀ m : Msg, m.hdr.tid ∉ io.tids → (∀ y ∈ io.ingress, y.num ≠ io.nextNum) →
      (s.glb.hold = false →
        Completes (.fence n m) s fun t =>
          (t.port n).io = { io with nextNum := io.nextNum + 1, tids := io.tids ++ [m.hdr.tid]
                                    fences := io.fences ++ [{ num := io.nextNum, tid := m.hdr.tid, pa := m.hdr.pa, at_ := s.now }] }
            ∧ OnlyPort n s t ∧ OnlyParts [.ports, .csr, .glb, .blv] s t)
      ∧ (s.glb.hold = true →
        Completes (.fence n m) s fun t =>
          (t.port n).io = { io with nextNum := io.nextNum + 1, tids := io.tids ++ [m.hdr.tid]
                                    ingress := io.ingress ++ [{ num := io.nextNum, msg := withOp m Op.fence, at_ := s.now, loc := some Status.ok }] }
            ∧ OnlyPort n s t ∧ OnlyParts [.ports, .csr, .glb, .blv] s t))
    ∧ (∀ f rest, io.fences = f :: rest → (∀ g ∈ rest, g.num ≠ f.num) → (∀ y ∈ io.ingress, y.loc = none) → (s.port n).link.keeps = true →
      (io.fenceReady f = true → io.loss = false →
        Completes (.fenceComp n) s fun t =>
          (t.port n).io = { io with fences := rest }
            ∧ (t.port n).link.egress = (s.port n).link.egress
                ++ (if s.current n f.num then [{ msg := compMsg f.tid f.pa Status.ok, relTid := some f.tid, at_ := s.now }] else [])
            ∧ OnlyPort n s t ∧ OnlyParts [.ports, .csr, .glb, .blv] s t)
      ∧ (io.fenceReady f = false → f.at_ + (s.rf R.glbIoCtl 19 0 + 5) * ccPerUs ≤ s.now →
        Completes (.fenceDeadline n) s fun t =>
          (t.port n).io = { io with fences := { f with runOut := true } :: rest } ∧ (t.port n).link = (s.port n).link
            ∧ OnlyPort n s t ∧ OnlyParts [.ports] s t)
      ∧ (io.fenceReady f = false → f.runOut = true → io.arb = [] → io.rdt = [] → io.lossNow = false →
        let t := s.ioRunOut n
        (t.port n).io.fences = rest ∧ (t.port n).io.loss = false
          ∧ (t.port n).link.egress = (s.port n).link.egress
              ++ (if s.current n f.num then [{ msg := compMsg f.tid f.pa Status.fenceLoss, relTid := some f.tid, at_ := s.now }] else [])
          ∧ (t.rget (R.portIoEvt n)).getLsbD 8 = true ∧ (t.rget (R.portIoEvt n)).getLsbD 12 = true
          ∧ OnlyPort n s t ∧ OnlyParts [.ports, .csr, .glb, .lodge, .blv] s t)
      ∧ (io.fenceReady f = true → f.runOut = true → io.arb = [] → io.rdt = [] → io.lossNow = false →
        ((s.ioRunOut n).port n).io = { io with fences := { f with runOut := false } :: rest }))

/-- R85, R112, R396: when its port group has the turn, the port's first request that may go takes the lowest free entry of its
home pavilion with its opcode, Plot and address, leaves ingress, and the turn passes on; a held credit goes back once it
is due. -/
def Obligations.TableEntriesAndCredits : Prop :=
  (∀ (p : PavId) (n : PortId) (x : InMsg) (s : State), s.alive = true → s.turnGroup p = some (n.val / 8) → s.eligible p n = some x →
    rising (s.pav p).tt → s.glb.turn.length = 16 →
    ∀ e, ((List.range 992).find? fun k => (FMap.find? (s.pav p).tt k).isNone) = some e →
    Completes (.ttEntryAllocate p n) s fun t =>
      (∃ y, FMap.find? (t.pav p).tt e = some y ∧ y.kind = .req x.msg.hdr.opcode ∧ y.port = n.val ∧ y.tid = x.msg.hdr.tid
        ∧ y.plot = x.msg.hdr.plot ∧ y.pa = x.msg.hdr.pa ∧ y.phase = .lookup ∧ y.active = false)
      ∧ (∀ k, k ≠ e → FMap.find? (t.pav p).tt k = FMap.find? (s.pav p).tt k)
      ∧ (∀ y ∈ (t.port n).io.ingress, y.num ≠ x.num) ∧ t.glb.turn.getD p.val 0 = (n.val / 8 + 1) % 12
      ∧ (t.port n).io.tids = (s.port n).io.tids ∧ OnlyPort n s t ∧ OnlyPav p s t ∧ OnlyParts [.ports, .pavs, .glb] s t)
  ∧ (∀ (n : PortId) (s : State) (d : Nat) (rest : List Nat), s.alive = true → (s.port n).link.held = d :: rest → d ≤ s.now →
    Completes (.heldCreditReturn n) s fun t =>
      (t.port n).link.held = rest
        ∧ (if (s.port n).link.reqOut > s.rf (R.portCredCfg n) 9 0 then
            (t.port n).link.reqOut = (s.port n).link.reqOut - 1 ∧ (t.port n).link.credRet = (s.port n).link.credRet
          else (t.port n).link.credRet = (s.port n).link.credRet.set 0 ((s.port n).link.credRet.getD 0 0 + 1))
        ∧ (t.port n).io = (s.port n).io ∧ OnlyPort n s t ∧ OnlyParts [.ports] s t)

/-! ## The home of a line (chapter 3) -/

/-- R200, R234, R285: where the tags that it reads are sound, a lookup outside the boot window, or of an address with no memory behind
it, is answered Unsupported, its event is set and its table entry is free again; a halted pavilion looks nothing up.
R114, R164, R200: where the directory entries are sound too, nothing blocks the line and no parked request or recovery goes first,
HOME_LOOKUP completes: the entry's transaction is active and blocks its line, a read has reached its ordering point, and then the
pavilion's engine runs, and the lookup's slot and trace record are accounted.
R117, R122: a CInv of a line that no agent holds, alone in its pavilion, gets its Comp at once, and its entry is free. -/
def Obligations.LookupsStartOrEnd : Prop :=
  (∀ (p : PavId) (e : Fin 1024) (t0 : Txn) (op : BitVec 8) (s : State), s.alive = true → s.canon → e.val < 992 →
    FMap.find? (s.pav p).tt e.val = some t0 → t0.kind = .req op → t0.phase = .lookup → t0.active = false →
    ((s.pav p).halted = true → exec (.homeLookup p e .none) s = .next s)
    ∧ ((s.pav p).halted = false → s.tagsSound p t0.pa → (s.pav p).mustWait e.val t0 = false → (s.pav p).place = .window → s.inWindow t0.pa = false →
      Completes (.homeLookup p e .none) s fun t => t.entryFree p e.val
        ∧ ∃ u : State, t = State.lookEnd s (u.pump p) p e.val t0 ∧ u.entryFree p e.val ∧ (u.rget (R.pavPlaceEvt p)).getLsbD 8 = true
          ∧ t0.turnedAway Status.unsupported p e.val s u)
    ∧ ((s.pav p).halted = false → s.tagsSound p t0.pa → (s.pav p).mustWait e.val t0 = false → (s.pav p).place ≠ .window → s.unmapped t0.pa = true →
      Completes (.homeLookup p e .none) s fun t => t.entryFree p e.val
        ∧ ∃ u : State, t = State.lookEnd s (u.pump p) p e.val t0 ∧ u.entryFree p e.val ∧ (u.rget (R.chanEvt (s.chanFor t0.pa))).getLsbD 17 = true
          ∧ t0.turnedAway Status.unsupported p e.val s u)
    ∧ ((s.pav p).halted = false → (s.pav p).mustWait e.val t0 = false →
      ((s.pav p).place = .window → s.inWindow t0.pa = true) → ((s.pav p).place ≠ .window → s.unmapped t0.pa = false) →
      s.tagsSound p t0.pa → (s.pav p).dirSound (dirSet t0.pa) → dirSet t0.pa ∉ (s.pav p).retryDue → t0.pa ∉ (s.pav p).recoverQ →
      (s.pav p).unblocked t0.pa = true → s.mustRecover p t0.pa = false →
      Completes (.homeLookup p e .none) s fun t =>
        ∃ u : State, t = State.lookEnd s (u.pump p) p e.val t0
          ∧ (∃ y, FMap.find? (u.pav p).tt e.val = some y ∧ y.active = true ∧ y.kind = .req op ∧ y.pa = t0.pa ∧ y.port = t0.port ∧ y.tid = t0.tid
            ∧ y.phase = (if !t0.retry && op ≠ Op.upg && ((s.pav p).entry t0.pa).own = some t0.port then Phase.crossed else Phase.data))
          ∧ (((u.pav p).entry t0.pa).st = .free ∨ ((u.pav p).entry t0.pa).blk = true)
          ∧ (isReadOp op = true → ∀ n, portOf? t0.port = some n → ∀ o ∈ (u.port n).io.opens, o.num = t0.num → o.doneAt.isSome = true)
          ∧ (∀ n : PortId, (u.port n).link = (s.port n).link) ∧ OnlyPav p s u ∧ OnlyParts [.ports, .pavs, .csr, .glb, .blv] s u))
  ∧ (∀ (p : PavId) (e : Fin 1024) (n : PortId) (t0 : Txn) (s : State), s.alive = true → s.canon → e.val < 992 → (s.pav p).tt = [(e.val, t0)] →
    (s.pav p).still → t0.fresh → t0.kind = .req Op.cInv → t0.phase = .lookup → t0.active = false → portOf? t0.port = some n →
    (s.port n).link.keeps = true → s.current n t0.num = true →
    ((s.pav p).place = .window → s.inWindow t0.pa = true) → ((s.pav p).place ≠ .window → s.unmapped t0.pa = false) →
    s.tagsSound p t0.pa → (s.pav p).dirSound (dirSet t0.pa) → ((s.pav p).entry t0.pa).st = .free → s.mustRecover p t0.pa = false →
    Completes (.homeLookup p e .none) s fun t =>
      t.entryFree p e.val
        ∧ (t.port n).link.egress = (s.port n).link.egress ++ [{ msg := compMsg t0.tid t0.pa Status.ok (htidOf p e.val), relTid := some t0.tid, at_ := s.now }]
        ∧ OnlyPort n s t ∧ OnlyPav p s t ∧ OnlyParts [.ports, .pavs, .csr, .glb, .blv, .freeCtr] s t)

/-- R36, R140, R546: a replay of an access that a pavilion turned back tries it again and LOOKUP_REPLAY completes: the
transaction goes on from its data phase, the pavilion's engine runs and the lookup's slot and trace record are accounted; a replayed
CClean of a boot-window line that no agent owns, alone in its pavilion, gets its Comp and frees its entry. A halted pavilion replays
nothing.
R134, R136: the retry of the set's oldest parked request takes the lowest free way that no one has been promised, and the
request goes on with its way; with none left that is parked the set's retries end; PARKED_RETRY completes so. With no retry due
nothing changes. -/
def Obligations.ReplaysAndParkedRetries : Prop :=
  (∀ (p : PavId) (e : Fin 1024) (t0 : Txn) (s : State), s.alive = true → s.canon → (s.pav p).halted = false →
    FMap.find? (s.pav p).tt e.val = some t0 → t0.active = true → (t0.phase = .waitSector ∨ t0.fetch = .replay) → s.tagsSound p t0.pa →
    (s.pav p).dirSound (dirSet t0.pa) →
    Completes (.lookupReplay p e) s fun t =>
      ∃ u : State, t = State.lookEnd s ((u.advance p e.val).pump p) p e.val t0
        ∧ FMap.find? (u.pav p).tt e.val = some { t0 with phase := if t0.phase = .waitSector then .data else t0.phase }
        ∧ OnlyPav p s u ∧ OnlyParts [.pavs] s u)
  ∧ (∀ (p : PavId) (e : Fin 1024) (n : PortId) (t0 : Txn) (s : State), s.alive = true → s.canon → e.val < 992 → (s.pav p).tt = [(e.val, t0)] →
    (s.pav p).still → t0.kind = .req Op.cClean → t0.active = true → t0.phase = .data → t0.fetch = .replay → t0.outs = [] → t0.cross = [] →
    t0.waitEvict = false → t0.acked = [] → t0.evAcks = [] → t0.offer = false → portOf? t0.port = some n → (s.port n).link.keeps = true →
    s.current n t0.num = true → (s.pav p).place = .window → ((s.pav p).entry t0.pa).own = none → (s.pav p).dirSound (dirSet t0.pa) →
    Completes (.lookupReplay p e) s fun t =>
      t.entryFree p e.val
        ∧ (t.port n).link.egress = (s.port n).link.egress
            ++ [{ msg := compMsg t0.tid t0.pa (if t0.agentLost then Status.agentLost else Status.ok) (htidOf p e.val), relTid := some t0.tid, at_ := s.now }]
        ∧ OnlyPort n s t ∧ OnlyPav p s t ∧ OnlyParts [.ports, .pavs, .csr, .glb, .blv, .freeCtr] s t)
  ∧ (∀ (p : PavId) (e : Fin 1024) (s : State), (s.pav p).halted = true → exec (.lookupReplay p e) s = .next s)
  ∧ (∀ (p : PavId) (set e w : Nat) (t0 : Txn) (op : BitVec 8) (s : State), s.alive = true → s.canon → (s.pav p).halted = false →
    set ∈ (s.pav p).retryDue → (s.pav p).oldestParked set = some e → FMap.find? (s.pav p).tt e = some t0 → t0.kind = .req op → t0.active = true →
    t0.outs = [] → t0.cross = [] → t0.waitEvict = false → (s.pav p).dirSound set →
    (ways24.find? fun k => ((s.pav p).dirAt set k).st = .free && !(s.pav p).promises.any fun x => x.1 = set && x.2.1 = k) = some w →
    Completes (.parkedRetry p set) s fun t =>
      ∃ u v : State, FMap.find? (u.pav p).tt e = some { t0 with phase := .waitSet } ∧ (u.pav p).promised e = some (set, w)
        ∧ (u.pav p).dir = (s.pav p).dir ∧ OnlyPav p s u ∧ OnlyParts [.pavs, .csr, .glb, .blv] s u ∧ v = u.advance p e
        ∧ t = State.lookEnd s ((if ((v.pav p).oldestParked set).isNone then v.retryStop p set else v).pump p) p e t0)
  ∧ (∀ (p : PavId) (set : Nat) (s : State), set ∉ (s.pav p).retryDue → exec (.parkedRetry p set) s = .next s)

/-- R114, R116, R142: the Done of a granted read that waits for nothing else ends the transaction and frees its table entry. -/
def Obligations.DoneEndsReads : Prop :=
  ∀ (n : PortId) (m : Msg) (t0 : Txn) (op : BitVec 8) (s : State), s.alive = true → s.canon →
    s.txnOf m = some (htidPav m.hdr.htid, htidEnt m.hdr.htid, t0) → htidEnt m.hdr.htid < 992 → t0.kind = .req op → isReadOp op = true →
    t0.port = n.val → t0.tid = m.hdr.tid → t0.doneSeen = false → t0.phase = .doneWait → t0.active = true → t0.outs = [] → t0.cross = [] →
    t0.waitEvict = false → (s.pav (htidPav m.hdr.htid)).halted = false →
    Completes (.done n m) s fun t => t.entryFree (htidPav m.hdr.htid) (htidEnt m.hdr.htid)

/-- R116, R123, R125 to R128, R135, R137: INVACK, FWDACK, FWDACKD, RECALLD and RSPCROSSED complete where they answer an
outstanding forward of a transaction: the answer's credit goes back, the forward is no longer outstanding, and the transaction
moves on. InvAck to a recall or an invalidation also takes the port out of the line's holders, at once for a recall and with the
final state for a request; FwdAck and FwdAckD mark the owner's data as sent, and FwdAckD and an owner's RecallD put that data
into the hub copy, dirty, where the boot window, GH_CACHE or a sector holds it (a FwdAckD leaves a poisoned line poisoned, R148);
RspCrossed waits for the port's eviction. An answer that names no transaction only reports PROTOCOL and starts the clock of the
pavilion that it came for (R422); a RecallD that answers no Recall also clears a sharer's bit. -/
def Obligations.AnswersToForwards : Prop :=
  ∀ (n : PortId) (m : Msg) (s : State), s.alive = true → s.canon → s.rbit (R.portCohCtl n) 2 = true →
    let q := htidPav m.hdr.htid
    (∀ x ∈ ([(Instr.invack n m, 2), (Instr.fwdack n m, 2), (Instr.rspcrossed n m, 2), (Instr.fwdackd n m, 3)] : List (Instr × Nat)),
      s.txnOf m = none →
      Completes x.1 s fun t =>
        (t.rget (R.portLinkEvt n)).getLsbD 13 = true ∧ s.creditGiven n x.2 t ∧ t.pav q = { s.pav q with gated := false } ∧ OnlyPav q s t
          ∧ OnlyParts [.ports, .pavs, .csr, .glb, .blv] s t)
    ∧ (s.txnOf m = none → s.isHome m.hdr.pa = true →
      ∀ p, p = s.home m.hdr.pa → (s.pav p).halted = false → (s.pav p).dirSound (dirSet m.hdr.pa) → (s.pav p).dirUnique m.hdr.pa →
      Completes (.recalld n m) s fun t =>
        (t.rget (R.portLinkEvt n)).getLsbD 13 = true ∧ s.creditGiven n 3 t
          ∧ (((s.pav p).entry m.hdr.pa).own = some n.val → t.pav p = { s.pav p with gated := false })
          ∧ (((s.pav p).entry m.hdr.pa).own ≠ some n.val → ((t.pav p).entry m.hdr.pa).lists n = false)
          ∧ (q ≠ p → t.pav q = { s.pav q with gated := false }) ∧ (∀ k, k ≠ p → k ≠ q → t.pav k = s.pav k)
          ∧ OnlyParts [.ports, .pavs, .csr, .glb, .blv] s t)
    ∧ (∀ (p : PavId) (e : Nat) (t0 : Txn) (o : FwdOut), s.txnOf m = some (p, e, t0) → t0.outTo n = some o → (s.pav p).halted = false →
        (s.pav p).dirSound (dirSet t0.pa) → (s.pav p).dirUnique t0.pa →
      let outs := t0.outs.filter fun x => x.port ≠ n.val
      ((o.op = Op.inv ∨ o.op = Op.rcl) →
        Completes (.invack n m) s fun t =>
          ∃ u : State, t = ((u.advance p e).pump p).slotUse p 2 ∧ s.creditGiven n 2 u
            ∧ (∀ op, t0.kind = .req op →
                FMap.find? (u.pav p).tt e = some { t0 with outs := outs, acked := n.val :: t0.acked } ∧ (u.pav p).dir = (s.pav p).dir)
            ∧ ((∀ op, t0.kind ≠ .req op) →
                FMap.find? (u.pav p).tt e = some { t0 with outs := outs } ∧ ((u.pav p).entry t0.pa).lists n = false)
            ∧ OnlyPav p s u ∧ OnlyParts [.ports, .pavs, .csr, .glb, .blv] s u)
      ∧ ((o.op = Op.fwdS ∨ o.op = Op.fwdO) →
        Completes (.fwdack n m) s fun t =>
          ∃ u : State, t = (u.advance p e).pump p ∧ s.creditGiven n 2 u
            ∧ FMap.find? (u.pav p).tt e = some { t0 with outs := outs, ownerData := true } ∧ (u.pav p).dir = (s.pav p).dir
            ∧ OnlyPav p s u ∧ OnlyParts [.ports, .pavs, .csr, .glb, .blv] s u)
      ∧ (o.op = Op.fwdS →
        Completes (.fwdackd n m) s fun t =>
          ∃ u : State, t = (u.advance p e).pump p ∧ s.creditGiven n 3 u
            ∧ (∃ y, FMap.find? (u.pav p).tt e = some y ∧ y.outs = outs ∧ y.ownerData = true ∧ y.kind = t0.kind ∧ y.pa = t0.pa)
            ∧ s.copyHolds p t0.pa (msgData m) (m.hdr.poison || s.homePoisoned p t0.pa) u ∧ (u.pav p).dir = (s.pav p).dir ∧ OnlyPav p s u
            ∧ OnlyParts [.ports, .pavs, .chans, .csr, .glb, .lodge, .blv] s u)
      ∧ (o.op = Op.rcl → ((s.pav p).entry t0.pa).own = some n.val →
        Completes (.recalld n m) s fun t =>
          ∃ u : State, t = ((u.advance p e).pump p).slotUse p 2 ∧ s.creditGiven n 3 u
            ∧ (∃ y, FMap.find? (u.pav p).tt e = some y ∧ y.outs = outs ∧ y.kind = t0.kind ∧ y.pa = t0.pa
              ∧ ∀ op, t0.kind = .req op → y.acked = n.val :: t0.acked)
            ∧ ((∀ op, t0.kind ≠ .req op) → ((u.pav p).entry t0.pa).lists n = false)
            ∧ s.copyHolds p t0.pa (msgData m) m.hdr.poison u ∧ OnlyPav p s u ∧ OnlyParts [.ports, .pavs, .chans, .csr, .glb, .lodge, .blv] s u)
      ∧ (o.op ≠ Op.stashOffer →
        Completes (.rspcrossed n m) s fun t =>
          ∃ u : State, t = (u.advance p e).pump p ∧ s.creditGiven n 2 u
            ∧ (∃ y, FMap.find? (u.pav p).tt e = some y ∧ y.outs = outs ∧ y.fwdOwner ≠ some n.val
              ∧ (n.val ∈ t0.gone → y.gone = t0.gone.erase n.val ∧ y.cross = t0.cross ∧ y.phase = t0.phase)
              ∧ (n.val ∉ t0.gone → y.gone = t0.gone ∧ y.cross = t0.cross ++ [(n.val, s.now)] ∧ y.phase = .crossed))
            ∧ (u.pav p).dir = (s.pav p).dir ∧ OnlyPav p s u ∧ OnlyParts [.ports, .pavs, .csr, .glb, .blv] s u))

/-- R106, R123: a WBD or EVC outside every home range has its data discarded, is answered NotHome and reported. One for a home line
that no transaction blocks completes: the port is no longer a holder, an owner's data is in the hub copy, dirty, where the boot
window, GH_CACHE or a sector holds it, EvAck OK is on its way, and then the pavilion's engine runs; data of a port that is not the
owner is discarded with a protocol error. -/
def Obligations.EvictionsAppliedAndAnswered : Prop :=
  ∀ (n : PortId) (m : Msg) (s : State), s.alive = true → s.canon → s.rbit (R.portCohCtl n) 2 = true → (s.port n).link.keeps = true →
    ∀ x ∈ ([(Instr.wbd n m, Op.wbD), (Instr.evc n m, Op.evC)] : List (Instr × BitVec 8)), ∀ p, p = s.home m.hdr.pa →
      (s.isHome m.hdr.pa = false →
        Completes x.1 s fun t =>
          (t.port n).link.egress = (s.port n).link.egress ++ [{ msg := evAckMsg m.hdr Status.notHome, at_ := s.now }]
            ∧ (t.rget (R.portCohEvt n)).getLsbD 10 = true ∧ OnlyPort n s t ∧ OnlyParts [.ports, .csr, .glb, .lodge, .blv] s t)
      ∧ (s.isHome m.hdr.pa = true → (s.pav p).halted = false → ((s.pav p).place = .window → s.inWindow m.hdr.pa = true) →
        ((s.pav p).place ≠ .window → s.unmapped m.hdr.pa = false) → (s.pav p).dirSound (dirSet m.hdr.pa) → (s.pav p).dirUnique m.hdr.pa →
        (s.pav p).blocker m.hdr.pa = none →
        Completes x.1 s fun t =>
          ∃ u : State, t = u.pump p ∧ ((u.pav p).entry m.hdr.pa).lists n = false
            ∧ (u.port n).link.egress = (s.port n).link.egress ++ [{ msg := evAckMsg m.hdr Status.ok, at_ := s.now }]
            ∧ (x.2 = Op.wbD → ((s.pav p).entry m.hdr.pa).own = some n.val → s.copyHolds p m.hdr.pa (msgData (withOp m Op.wbD)) m.hdr.poison u)
            ∧ (x.2 = Op.wbD → ((s.pav p).entry m.hdr.pa).own ≠ some n.val → (u.rget (R.portLinkEvt n)).getLsbD 13 = true)
            ∧ OnlyPort n s u ∧ OnlyPav p s u ∧ OnlyParts [.ports, .pavs, .chans, .csr, .glb, .lodge, .blv] s u)

/-- R108, R123, R133: taking a port out of a line's directory entry takes it out of the owner and sharer lists and leaves every
other port's listing as it was, where the set holds the line's tag in at most one way. -/
def Obligations.DirectoryForgetsOnlyThePort : Prop :=
  ∀ (p : PavId) (n : PortId) (la : LineAddr) (s : State), (s.pav p).canon → (s.pav p).dirUnique la →
    (((s.dropAgent p la n).pav p).entry la).lists n = false
      ∧ (∀ k : PortId, k ≠ n → (((s.dropAgent p la n).pav p).entry la).lists k = ((s.pav p).entry la).lists k)
      ∧ OnlyPav p s (s.dropAgent p la n) ∧ OnlyParts [.pavs] s (s.dropAgent p la n)

/-- R130, R131: a STASHDECL that matches its offer completes by ending the transaction; a STASHACC by making it a grant to the
target with the answer's TID; an offer not answered within 1 µs ends the transaction, its address joins the target's list of 16
and COH_EVT reports it. -/
def Obligations.StashOffersEnd : Prop :=
  ∀ (n : PortId) (m : Msg) (p : PavId) (e : Nat) (t0 : Txn) (s : State), s.alive = true → s.canon → e < 992 →
    s.rbit (R.portCohCtl n) 2 = true → 2 ≤ (s.port n).link.level → (s.pav p).halted = false → t0.phase = .stash → t0.offer = true →
    (t0.tport.toNat = n.val → s.txnOf m = some (p, e, t0) →
      (Completes (.stashdecl n m) s fun t => t.entryFree p e)
      ∧ Completes (.stashacc n m) s fun t =>
        ∃ v : State, t = (v.advance p e).pump p ∧ s.creditGiven n 2 v ∧ OnlyPav p s v ∧ OnlyParts [.ports, .pavs, .csr, .glb, .blv] s v
          ∧ ∃ y, FMap.find? (v.pav p).tt e = some y ∧ y.kind = .req Op.stashAcc ∧ y.port = n.val ∧ y.tid = m.hdr.tid ∧ y.pa = t0.pa
            ∧ y.plot = t0.plot ∧ y.phase = .data ∧ y.offer = false)
    ∧ (∀ (k : Fin 1024) d, k.val = e → FMap.find? (s.pav p).tt e = some t0 → portOf? t0.tport.toNat = some n → t0.offerSent = some d →
      d + ccPerUs ≤ s.now →
      Completes (.stashOfferTimeout p k) s fun t =>
        t.entryFree p e ∧ ∃ u : State, t = u.pump p ∧ u.entryFree p e ∧ (u.rget (R.portCohEvt n)).getLsbD 9 = true
          ∧ (u.port n).io.expired = (t0.pa :: (s.port n).io.expired).take 16)

/-- R116, R127, R147: data that an owner sends for a live transaction that awaits it goes on to the requester's port with the
credit returned, unless the request came before that port's last link loss (R93), and is awaited no longer; DATAS and DATAM
complete so. Data that no transaction awaits from the port is discarded with a protocol error. -/
def Obligations.OwnerDataPassedOn : Prop :=
  ∀ (n r : PortId) (m : Msg) (t0 : Txn) (s : State), s.alive = true → s.canon →
    ∀ x ∈ ([(Instr.datas n m, Op.dataS), (Instr.datam n m, Op.dataM)] : List (Instr × BitVec 8)),
      (∀ p e, s.txnOf m = some (p, e, t0) → t0.port = r.val → r ≠ n → (s.port r).link.keeps = true → t0.fwdOwner = some n.val →
        Completes x.1 s fun t =>
          (t.port r).link.egress = (s.port r).link.egress ++ (if s.current r t0.num then [{ msg := { withOp m x.2 with data := msgData m }, at_ := s.now }] else [])
            ∧ (t.port r).io.answered = t0.tid :: (s.port r).io.answered
            ∧ (t.port n).link.credRet = (s.port n).link.credRet.set 3 ((s.port n).link.credRet.getD 3 0 + 1)
            ∧ FMap.find? (t.pav p).tt e = some { t0 with fwdOwner := none }
            ∧ (∀ k, k ≠ n → k ≠ r → t.port k = s.port k) ∧ OnlyPav p s t ∧ OnlyParts [.ports, .pavs, .csr, .glb, .blv] s t)
      ∧ ((∀ p e, s.txnOf m = some (p, e, t0) → t0.fwdOwner ≠ some n.val) → (s.txnOf m = none ∨ ∃ p e, s.txnOf m = some (p, e, t0)) →
        Completes x.1 s fun t =>
          (t.rget (R.portLinkEvt n)).getLsbD 13 = true ∧ s.creditGiven n 3 t ∧ OnlyParts [.ports, .csr, .glb, .blv] s t)

/-- R146, R147: a forward unanswered for the timeout has the port taken out of the transaction and out of the line's entry, a
lost owner's line is marked so, COH_EVT reports it and the transaction moves on; a granted read whose Done does not come in that
time loses its table entry. Before the timeout nothing changes. -/
def Obligations.ForwardTimeouts : Prop :=
  ∀ (p : PavId) (e : Fin 1024) (n : PortId) (t0 : Txn) (s : State), s.alive = true → s.canon → e.val < 992 →
    FMap.find? (s.pav p).tt e.val = some t0 → (s.pav p).halted = false → (s.pav p).dirSound (dirSet t0.pa) →
    let tmo := s.rf R.glbCohCtl 16 0 * ccPerUs
    (∀ o d, o ∈ t0.outs → o.port = n.val → o.sent = some d → d + tmo ≤ s.now → (s.pav p).dirUnique t0.pa →
      Completes (.fwdTimeout p e n) s fun t =>
        ∃ u : State, t = ((u.advance p e.val).deadFence n).pump p
          ∧ (∃ y, FMap.find? (u.pav p).tt e.val = some y ∧ y.outs = t0.outs.filter (fun z => z.port ≠ n.val)
            ∧ y.cross = t0.cross.filter (fun z => z.1 ≠ n.val) ∧ y.kind = t0.kind ∧ y.pa = t0.pa
            ∧ (((s.pav p).entry t0.pa).own = some n.val → (∀ z ∈ t0.outs, z.port = n.val → z.op ≠ Op.inv) → y.agentLost = true))
          ∧ ((u.pav p).entry t0.pa).lists n = false ∧ (u.rget (R.portCohEvt n)).getLsbD 11 = true ∧ OnlyPav p s u)
    ∧ (∀ d, t0.outs = [] → t0.cross = [] → t0.waitEvict = false → t0.phase = .doneWait → t0.port = n.val → t0.doneSeen = false →
      t0.tstart = some d → d + tmo ≤ s.now →
      Completes (.fwdTimeout p e n) s fun t =>
        t.entryFree p e.val ∧ ∃ u : State, t = (u.deadFence n).pump p ∧ u.entryFree p e.val ∧ (u.rget (R.portCohEvt n)).getLsbD 11 = true)
    ∧ (∀ d, t0.outs = [] → t0.cross = [] → t0.tstart = some d → s.now < d + tmo → exec (.fwdTimeout p e n) s = .next s)

/-! ## Non-coherent traffic (chapter 4) -/

/-- R48, R173, R176, R430: an IOWr that decodes to a target, where fewer than 64 entries were in use as the cc began, takes the lowest
free Arbour entry as WAITING, in arrival order; one that
decodes to nothing returns its credit, is a loss of this cc and sets IO_EVT.UNCLAIMED; at a port being quiesced it is dropped
with its credit returned and counted, unless software writes the count in this cc (R441). -/
def Obligations.PostedWritesEnterArbour : Prop :=
  ∀ (n : PortId) (m : Msg) (s : State), s.alive = true → s.regsOk →
    let m' := s.ingressPlot n (withOp m Op.ioWr)
    let io := (s.port n).io
    (∀ tg k, io.qst = .none → s.ioTarget n m.hdr.pa = some tg → s.glb.hold = false → io.ingress = [] →
      io.arb.length + io.arbPop.at_ s.now < 64 → freeSlot (io.arb.map (·.slot)) 64 = some k →
      Completes (.iowr n m) s fun t =>
        (∃ y ∈ (t.port n).io.arb, y.slot = k ∧ y.num = io.nextNum ∧ y.msg = m' ∧ y.target = tg ∧ y.st = .waiting ∧ y.wasSent = false)
          ∧ (t.port n).io.nextNum = io.nextNum + 1 ∧ (t.port n).io.ingress = [] ∧ (t.port n).io.arb.length = io.arb.length + 1
          ∧ OnlyPort n s t ∧ OnlyParts [.ports, .csr, .glb, .blv] s t)
    ∧ (io.qst = .none → s.ioTarget n m.hdr.pa = none →
      Completes (.iowr n m) s fun t =>
        (t.port n).io = { io with lossNow := true } ∧ (t.port n).link.credRet = (s.port n).link.credRet.set 4 ((s.port n).link.credRet.getD 4 0 + 1)
          ∧ (t.rget (R.portIoEvt n)).getLsbD 10 = true ∧ OnlyPort n s t ∧ OnlyParts [.ports, .csr, .glb, .blv] s t)
    ∧ (io.qst ≠ .none →
      Completes (.iowr n m) s fun t =>
        (t.port n).io = io ∧ (t.port n).link.credRet = (s.port n).link.credRet.set 4 ((s.port n).link.credRet.getD 4 0 + 1)
          ∧ (s.softFree (R.portSvcStat n) → t.rf (R.portSvcStat n) 26 16 = satAdd (s.rf (R.portSvcStat n) 26 16) 1 (2 ^ 11 - 1))
          ∧ OnlyPort n s t ∧ OnlyParts [.ports, .csr, .glb, .blv] s t)

/-- R175, R177, R178, R506: the oldest posted write that may go is sent to its target's port with a PST credit taken, or
performed at once by the service node; an IOAck for a sent entry acknowledges it, any other is counted as late (that an entry must have been sent is the model's reading, log
entry 318); a timer that has
run out is marked (log entry 289), and as the cc ends without the acknowledgement the entry is discarded, reported and counted,
and the port has a loss. A loss joins the port's LOSS as the cc ends (R170). -/
def Obligations.ArbourEntriesResolve : Prop :=
  ∀ (n q : PortId) (s : State), s.alive = true → s.regsOk →
    (∀ x, s.arbNext n = some x → x.target = .port q → q ≠ n →
      Completes (.arbourDispatch n) s fun t =>
        (∀ y ∈ (t.port n).io.arb, y.slot = x.slot → y.st = .sent ∧ y.wasSent = true)
          ∧ (t.port n).io.arb.length = (s.port n).io.arb.length
          ∧ (t.port q).link.egress = (s.port q).link.egress ++ [{ msg := ioForward x.msg n x.use false x.slot, at_ := s.now }]
          ∧ (t.port q).link.cred = (s.port q).link.cred.set 4 ((s.port q).link.cred.getD 4 0 - 1)
          ∧ (∀ k, k ≠ n → k ≠ q → t.port k = s.port k) ∧ OnlyParts [.ports] s t)
    ∧ (∀ x, s.arbNext n = some x → x.target = .svc →
      Completes (.arbourDispatch n) s fun t =>
        t = (((((s.csrWrite (csrAccess n x.msg) (s.csrBase x.msg) x.msg).arbSet n x.slot fun y => { y with st := .acked, wasSent := true }).arbPop n
          64).localAnswers n).ioElig n))
    ∧ (∀ (m : Msg) (x : ArbEntry), portOf? (ioSource m) = some q → ioIsRead m = false → x ∈ (s.port q).io.arb → x.st = .sent → x.slot = ioSlot m →
      m.hdr.tid = x.use.setWidth 10 →
      Completes (.ioack n m) s fun t =>
        (∀ y ∈ (t.port q).io.arb, y.slot = ioSlot m → y.st = .acked) ∧ (∀ k, k ≠ n → k ≠ q → t.port k = s.port k)
          ∧ OnlyParts [.ports, .csr, .glb, .blv] s t)
    ∧ (∀ m : Msg, portOf? (ioSource m) = some q →
      (ioIsRead m = true ∨ ∀ x ∈ (s.port q).io.arb, x.st = .sent → x.slot = ioSlot m → m.hdr.tid ≠ x.use.setWidth 10) →
      Completes (.ioack n m) s fun t =>
        (t.port q).io = (s.port q).io
          ∧ (s.softFree (R.portIoErr q) → t.rf (R.portIoErr q) 15 0 = satAdd (s.rf (R.portIoErr q) 15 0) 1 (2 ^ 16 - 1))
          ∧ OnlyPort n s t ∧ OnlyParts [.ports, .csr, .glb, .blv] s t)
    ∧ (∀ (e : Fin 64) (x : ArbEntry) d, x ∈ (s.port n).io.arb → x.slot = e.val → x.st = .waiting ∨ x.st = .sent →
      x.elig = some d → d + s.ioTmo ≤ s.now →
      Completes (.arbourTimeout n e) s fun t =>
        { x with runOut := true } ∈ (t.port n).io.arb ∧ (∀ y ∈ (t.port n).io.arb, y.slot ≠ e.val → y ∈ (s.port n).io.arb)
          ∧ (t.port n).io.arb.length = (s.port n).io.arb.length ∧ (t.port n).link = (s.port n).link ∧ OnlyPort n s t ∧ OnlyParts [.ports] s t)
    ∧ (∀ x : ArbEntry, (s.port n).io.arb = [x] → x.at_ < s.now → x.runOut = true → x.st = .waiting ∨ x.st = .sent → (s.port n).io.rdt = [] →
      (s.port n).io.fences = [] →
      let t := s.ioRunOut n
      (t.port n).io.loss = true ∧ (t.port n).io.arb = [] ∧ (t.rget (R.portIoEvt n)).getLsbD 9 = true
        ∧ (s.softFree (R.portIoErr n) → t.rf (R.portIoErr n) 31 16 = satAdd (s.rf (R.portIoErr n) 31 16) 1 (2 ^ 16 - 1))
        ∧ OnlyPort n s t ∧ OnlyParts [.ports, .csr, .glb, .lodge, .blv] s t)
    ∧ ((s.port n).io.lossNow = true → ((s.ioRunOut n).port n).io.loss = true ∧ ((s.ioRunOut n).port n).io.lossNow = false)

/-- R173, R180, R181, R430: an aligned IORd that decodes to a target takes the lowest free tracker entry; one that decodes to
nothing is answered NotHome; at a port being quiesced it is answered with poison and Unsupported. Behind a waiting Fence an IORd
that the port answers itself waits in ingress (R169). -/
def Obligations.ReadsTakeTrackerEntries : Prop :=
  ∀ (n : PortId) (m : Msg) (s : State), s.alive = true → s.regsOk → m.hdr.size ≠ 7 → m.hdr.offset.toNat % 2 ^ m.hdr.size.toNat = 0 →
    s.glb.hold = false → (s.port n).io.ingress = [] →
    let m' := s.ingressPlot n (withOp m Op.ioRd)
    let io := (s.port n).io
    (∀ tg k, io.qst = .none → s.ioTarget n m.hdr.pa = some tg → io.fences = [] → freeSlot (io.rdt.map (·.slot)) 16 = some k →
      Completes (.iord n m) s fun t =>
        (∃ y ∈ (t.port n).io.rdt, y.slot = k ∧ y.num = io.nextNum ∧ y.msg = m' ∧ y.target = tg ∧ y.sent = false)
          ∧ (t.port n).io.nextNum = io.nextNum + 1 ∧ (t.port n).io.ingress = [] ∧ (t.port n).io.rdt.length = io.rdt.length + 1
          ∧ OnlyPort n s t ∧ OnlyParts [.ports, .csr, .glb, .blv] s t)
    ∧ (io.qst = .none → s.ioTarget n m.hdr.pa = none → io.fences = [] → (s.port n).link.keeps = true →
      Completes (.iord n m) s fun t =>
        (t.port n).io = { io with nextNum := io.nextNum + 1 }
          ∧ (t.port n).link.egress = (s.port n).link.egress
              ++ (if s.current n io.nextNum then [{ msg := compMsg m.hdr.tid m.hdr.pa Status.notHome, at_ := s.now }] else [])
          ∧ OnlyPort n s t ∧ OnlyParts [.ports, .csr, .glb, .blv] s t)
    ∧ (io.qst ≠ .none → io.fences = [] → (s.port n).link.keeps = true →
      Completes (.iord n m) s fun t =>
        (t.port n).io = { io with nextNum := io.nextNum + 1 }
          ∧ (t.port n).link.egress = (s.port n).link.egress ++ (if s.current n io.nextNum then [{ msg := rdAnswer m' 0 true Status.unsupported, at_ := s.now }] else [])
          ∧ OnlyPort n s t ∧ OnlyParts [.ports, .csr, .glb, .blv] s t)
    ∧ ((io.qst ≠ .none ∨ s.ioTarget n m.hdr.pa = none) → (∃ f ∈ io.fences, f.num < io.nextNum) →
      Completes (.iord n m) s fun t =>
        (t.port n).io = { io with nextNum := io.nextNum + 1
                                  ingress := [{ num := io.nextNum, msg := m', at_ := s.now
                                                loc := some (if io.qst = .none then Status.notHome else Status.unsupported) }] }
          ∧ (t.port n).link.egress = (s.port n).link.egress ∧ (t.port n).link.credRet = (s.port n).link.credRet
          ∧ OnlyPort n s t ∧ OnlyParts [.ports, .csr, .glb, .blv] s t)

/-- R175, R180, R181, R506: the oldest read that may go is sent to its target with an NPI credit taken, or answered at once by
the service node; an IODat that matches a sent read answers the requester with the bytes it asked for and frees the tracker
entry; a timer that has run out is marked (log entry 289), and as the cc ends without the answer the read is answered with
poison and IoTimeout, and IO_EVT reports it. A read from before its requester's last link loss gets no answer (R93). -/
def Obligations.ReadsDispatchedAndAnswered : Prop :=
  ∀ (n q : PortId) (s : State), s.alive = true → s.regsOk →
    (∀ x, s.rdNext n = some x → x.target = .port q → q ≠ n →
      Completes (.iordDispatch n) s fun t =>
        (∀ y ∈ (t.port n).io.rdt, y.slot = x.slot → y.sent = true) ∧ (t.port n).io.rdt.length = (s.port n).io.rdt.length
          ∧ (t.port q).link.egress = (s.port q).link.egress ++ [{ msg := ioForward x.msg n x.use true x.slot, at_ := s.now }]
          ∧ (t.port q).link.cred = (s.port q).link.cred.set 5 ((s.port q).link.cred.getD 5 0 - 1)
          ∧ (∀ k, k ≠ n → k ≠ q → t.port k = s.port k) ∧ OnlyParts [.ports] s t)
    ∧ (∀ x, s.rdNext n = some x → x.target = .svc →
      Completes (.iordDispatch n) s fun t =>
        t = (((s.csrRead (csrAccess n x.msg) (s.csrBase x.msg) x.msg).1.answerFor n x.num
          (rdAnswer x.msg (s.csrRead (csrAccess n x.msg) (s.csrBase x.msg) x.msg).2 false Status.ok)).rdFreeSlot n x)
          ∧ ∀ y ∈ (t.port n).io.rdt, y.slot ≠ x.slot)
    ∧ (∀ (m : Msg) (x : RdEntry), portOf? (ioSource m) = some q → ioIsRead m = true → q ≠ n → (s.port q).link.keeps = true →
      ((s.port q).io.rdt.find? fun y => y.sent && y.slot = ioSlot m && m.hdr.tid = y.use.setWidth 10) = some x →
      Completes (.iodat n m) s fun t =>
        (t.port q).link.egress = (s.port q).link.egress
            ++ (if s.current q x.num then [{ msg := rdAnswer x.msg (rdBytes x.msg (msgData m)) m.hdr.poison Status.ok, at_ := s.now }] else [])
          ∧ (∀ y ∈ (t.port q).io.rdt, y.slot ≠ x.slot) ∧ (∀ k, k ≠ n → k ≠ q → t.port k = s.port k)
          ∧ OnlyParts [.ports, .csr, .glb, .blv] s t)
    ∧ (∀ (e : Fin 16) (x : RdEntry) d, x ∈ (s.port n).io.rdt → x.slot = e.val → x.elig = some d → d + s.ioTmo ≤ s.now →
      Completes (.iordTimeout n e) s fun t =>
        { x with runOut := true } ∈ (t.port n).io.rdt ∧ (∀ y ∈ (t.port n).io.rdt, y.slot ≠ e.val → y ∈ (s.port n).io.rdt)
          ∧ (t.port n).io.rdt.length = (s.port n).io.rdt.length ∧ (t.port n).link = (s.port n).link ∧ OnlyPort n s t ∧ OnlyParts [.ports] s t)
    ∧ (∀ x : RdEntry, (s.port n).io.rdt = [x] → x.runOut = true → (s.port n).io.arb = [] → (s.port n).io.fences = [] → (s.port n).link.keeps = true →
      let t := s.ioRunOut n
      (t.port n).link.egress = (s.port n).link.egress ++ (if s.current n x.num then [{ msg := rdAnswer x.msg 0 true Status.ioTimeout, at_ := s.now }] else [])
        ∧ (t.port n).io.rdt = [] ∧ Raised (R.portIoEvt n) 11 s t ∧ OnlyPort n s t ∧ OnlyParts [.ports, .csr, .glb] s t)

/-! ## Store paths of a pavilion (chapters 5 and 8) -/

/-- R210, R293, R391: the next read of a miss register, critical sub-block first, joins its channel's read queue if the queue
takes it and no earlier read of its Plot waits, and is marked as issued; then the pavilion's engine runs. MISS_READ_ISSUE
completes so; a read that the queue does not take joins the channel's waiting reads.
R211, R212: data that returns for a sub-block of a miss register leaves its channel, is held in the register and marked arrived,
its waiters are served and what can commit commits; data that a written line has replaced is dropped, and so is data whose
sub-block is present already, whose waiters read the cached line. -/
def Obligations.MissReadsAndFills : Prop :=
  (∀ (p : PavId) (r : Fin 512) (x : MissReg) (i : Nat) (s : State), s.alive = true → rising (s.pav p).miss →
    FMap.find? (s.pav p).miss r.val = some x → x.waitEv = 0 → x.nextRead = some i →
    ∀ la, la = x.base + BitVec.ofNat 46 i → ∀ c, c = s.chanFor la →
    (s.rqTakes c x.plot false = true → (∀ y, s.nextWaiter c x.plot = some y → y = (x.plot, p, r.val)) →
      Completes (.missReadIssue p r) s fun t =>
        ∃ v : State, t = v.pump p
          ∧ (v.chan c).rq = (s.chan c).rq ++ [{ ll := (s.llOf la).getD 0, pa := la, plot := some x.plot, at_ := s.now, src := .miss p r.val (subOf la) }]
          ∧ FMap.find? (v.pav p).miss r.val = some { x with issued := setBits x.issued i i 1 } ∧ (x.plot, p, r.val) ∉ (v.chan c).waitRd
          ∧ OnlyPav p s v ∧ OnlyChan c s v ∧ OnlyParts [.pavs, .chans] s v)
    ∧ (s.rqTakes c x.plot false = false →
      Completes (.missReadIssue p r) s fun t =>
        ∃ v : State, t = v.pump p ∧ (x.plot, p, r.val) ∈ (v.chan c).waitRd ∧ (v.chan c).rq = (s.chan c).rq ∧ v.pavs = s.pavs
          ∧ OnlyChan c s v ∧ OnlyParts [.chans] s v))
  ∧ (∀ (p : PavId) (r : Fin 512) (sub : Fin 64) (x : MissReg) (m : MemRet) (s : State), s.alive = true → rising (s.pav p).miss →
    FMap.find? (s.pav p).miss r.val = some x → x.preload = false →
    ∀ i, i = sub.val - subOf x.base → ∀ la, la = x.base + BitVec.ofNat 46 i → ∀ c, c = s.chanFor la →
    ((s.chan c).rets.find? fun y => y.src = .miss p r.val sub.val && y.pa = la) = some m →
    (x.written.getLsbD i = false → s.overtaken p x la = false →
      Completes (.fillReturn p r sub) s fun t =>
        ∃ v : State, t = ((((v.regDeliver p r.val i m.data m.poison).regCommit p r.val).slotUse p 2).pump p)
          ∧ (v.chan c).rets = (s.chan c).rets.erase m
          ∧ FMap.find? (v.pav p).miss r.val = some { x with arrived := setBits x.arrived i i 1, buf := x.buf ++ [(i, m.data, m.poison)] }
          ∧ OnlyPav p s v ∧ OnlyChan c s v ∧ OnlyParts [.pavs, .chans] s v)
    ∧ (x.written.getLsbD i = false → s.overtaken p x la = true →
      Completes (.fillReturn p r sub) s fun t =>
        ∃ v : State, t = ((((v.toStack p r.val i x.way la).regCommit p r.val).slotUse p 2).pump p)
          ∧ (v.chan c).rets = (s.chan c).rets.erase m
          ∧ FMap.find? (v.pav p).miss r.val = some { x with arrived := setBits x.arrived i i 1, done := setBits x.done i i 1 }
          ∧ OnlyPav p s v ∧ OnlyChan c s v ∧ OnlyParts [.pavs, .chans] s v)
    ∧ (x.written.getLsbD i = true →
      Completes (.fillReturn p r sub) s fun t =>
        ∃ v : State, t = ((v.regCommit p r.val).slotUse p 2).pump p ∧ (v.chan c).rets = (s.chan c).rets.erase m
          ∧ FMap.find? (v.pav p).miss r.val = some { x with want := setBits x.want i i 0 }
          ∧ OnlyPav p s v ∧ OnlyChan c s v ∧ OnlyParts [.pavs, .chans] s v))

/-- R202, R289, R299: the command that a pseudo-channel's order picks leaves the queue; a write stores its encoded line at the
sub-block's cell and nowhere else; a demand read changes no stored line and comes back with the bits stored there. Two
sub-blocks of a half share no cell.
R202, R217, R347: a demand read that comes back good puts its data into its transaction, ready to be issued; an eviction copy
that comes back good joins the Orangery as its youngest line and gives up one reserved place. The pavilion's engine then
runs. -/
def Obligations.StackCommandsAndReads : Prop :=
  (∀ (p : PavId) (pc : Fin 32) (c : StackCmd) (s : State), s.alive = true → s.canon → (s.stk (stackOfPav p)).com.st = .inService →
    (∀ d, s.refBars (.stack (stackOfPav p)) pc.val d = false) → (s.pav p).nextStack p pc.val = some c →
    let key := stkCell p c.set c.way c.sub
    (∀ st u, c.op = .write st →
      Completes (.stackCommandIssue p pc u) s fun t =>
        FMap.get (fun _ => ({} : Stored)) (t.pav p).stack key = st
          ∧ (∀ k, k ≠ key → FMap.get (fun _ => ({} : Stored)) (t.pav p).stack k = FMap.get (fun _ => ({} : Stored)) (s.pav p).stack k)
          ∧ (t.pav p).stackq = (s.pav p).stackq.erase c ∧ (t.pav p).tags = (s.pav p).tags ∧ OnlyPav p s t ∧ OnlyParts [.pavs, .csr, .glb, .blv] s t)
    ∧ (∀ e, c.op = .demand e →
      Completes (.stackCommandIssue p pc {}) s fun t =>
        (∀ k, FMap.get (fun _ => ({} : Stored)) (t.pav p).stack k = FMap.get (fun _ => ({} : Stored)) (s.pav p).stack k)
          ∧ (t.pav p).stackRet = (s.pav p).stackRet ++ [{ cmd := c, st := FMap.get (fun _ => ({} : Stored)) (s.pav p).stack key }]
          ∧ (t.pav p).stackq = (s.pav p).stackq.erase c ∧ OnlyPav p s t ∧ OnlyParts [.pavs, .csr, .glb, .blv] s t))
  ∧ (∀ (p : PavId) (s1 w1 b1 s2 w2 b2 : Nat), s1 < 16384 → s2 < 16384 → w1 < 16 → w2 < 16 → b1 < 64 → b2 < 64 →
      stkCell p s1 w1 b1 = stkCell p s2 w2 b2 → s1 = s2 ∧ w1 = w2 ∧ b1 = b2)
  ∧ (∀ (p : PavId) (r : StackRet) (s : State), s.alive = true → s.canon → r.failed = false → (stackDecode r.st).cls = .good →
    (∀ e t0, ((s.pav p).stackRet.find? fun y => y.cmd.op ≠ .evict) = some r → r.cmd.op = .demand e → FMap.find? (s.pav p).tt e = some t0 →
      t0.fetch = .busy → t0.pa = r.cmd.pa →
      Completes (.stackReadReturn p) s fun t =>
        ∃ v : State, t = v.pump p ∧ FMap.find? (v.pav p).tt e = some { t0 with buf := some ((stackDecode r.st).data, false), fetch := .ready }
          ∧ (v.pav p).stackRet = (s.pav p).stackRet.erase r ∧ OnlyPav p s v ∧ OnlyParts [.pavs] s v)
    ∧ (((s.pav p).stackRet.find? fun y => y.cmd.op = .evict) = some r →
      Completes (.evictionCopyReturn p) s fun t =>
        ∃ v : State, t = (((((v.cntPav p 8 r.cmd.plot).evictEnd p r.cmd.set r.cmd.way).poisonEnd p r.cmd.set r.cmd.way).slotUse p 2).pump p)
          ∧ (v.pav p).orang = (s.pav p).orang ++ [{ pa := r.cmd.pa, line := sramEncode (stackDecode r.st).data, poison := false, plot := r.cmd.plot }]
          ∧ (v.pav p).orRsv = (s.pav p).orRsv - 1 ∧ (v.pav p).stackRet = (s.pav p).stackRet.erase r ∧ OnlyPav p s v ∧ OnlyParts [.pavs] s v))

/-- R47, R219, R347: the oldest Orangery line, decoded good, leaves the Orangery for its channel's write queue when the queue
takes it; a push that waits for the queue is offered again, enters the write queue and leaves the pavilion's list; a corrected
Glasshouse line is rewritten in place. -/
def Obligations.OrangeryDrainsToMemory : Prop :=
  ∀ (p : PavId) (s : State), s.alive = true → s.canon →
    (∀ (o : OrLine) (rest : List OrLine) (ll : Nat), (s.pav p).orang = o :: rest → (∀ y ∈ rest, y.pa ≠ o.pa) → o.poison = false →
      (sramDecode false o.line).cls = .good → s.llOf o.pa = some ll →
      ∀ c, c = s.chanFor o.pa → (s.chan c).com.st = .inService → s.wqTakes c = true → (s.chan c).wq.length < 96 →
      (∀ j ∈ (s.pav p).pushq, j.pa ≠ o.pa ∧ j.poisons = false) →
      Completes (.orangeryDrain p) s fun t =>
        ∃ v : State, t = v.pump p ∧ (v.pav p).orang = rest
          ∧ (v.chan c).wq = (s.chan c).wq ++ [{ ll := ll, st := memEncode (s.chan c).memGen (sramDecode false o.line).data, at_ := s.now, plot := o.plot }]
          ∧ OnlyPav p s v ∧ OnlyChan c s v ∧ OnlyParts [.pavs, .chans, .csr, .glb, .blv] s v)
    ∧ (∀ (j : Push) (ll : Nat), (s.pav p).pushq = [j] → j.for_ = .nothing → s.llOf j.pa = some ll →
      ∀ c, c = s.chanFor j.pa → (s.chan c).com.st = .inService → s.wqTakes c = true →
      (s.chan (chanOf p.val)).rawWait = none → (s.chan (chanOf p.val)).fixq = [] →
      Completes (.queuePushRetry p) s fun t =>
        ∃ v : State, t = v.pump p ∧ (v.pav p).pushq = []
          ∧ (v.chan c).wq = (s.chan c).wq ++ [{ ll := ll, st := (s.chan c).encode j.data j.poison, at_ := s.now, plot := j.plot }]
          ∧ OnlyPav p s v ∧ OnlyChan c s v ∧ OnlyParts [.pavs, .chans, .csr, .glb, .blv] s v)
    ∧ (∀ (i : Nat) (l : SramLine) (rest : List (Option LineAddr × Nat × SramLine)), (s.pav p).sramFix = (none, i, l) :: rest →
      Completes (.sramRewrite p) s fun t =>
        (t.pav p).ghLineAt i = l ∧ (∀ k, k ≠ i → (t.pav p).ghLineAt k = (s.pav p).ghLineAt k) ∧ (t.pav p).sramFix = rest
          ∧ OnlyPav p s t ∧ OnlyParts [.pavs, .blv] s t)

/-! ## Main memory (chapters 7 and 8) -/

/-- R47, R295, R296, R321: over the queue as it stood when the cc began, and where no fill that a write waits on and no fill with its
row open before the write goes first, a write that issues is the oldest queued write of its line; its line in DRAM then holds it and
counts as written, every other line is as it was, and just that entry leaves the queue; a push always adds an entry of its own. -/
def Obligations.WritesReachDramInOrder : Prop :=
  (∀ (c : ChanId) (ready : List Nat) (w : WqEnt) (s : State), s.alive = true → s.canon → (s.chan c).com.st = .inService →
    let ch := (s.chan c).before s.now
    let banks := s.usable c ready
    (ch.drain = true ∨ ch.readyReads banks = []) → ch.urgentFill banks = none → (ch.openFill banks = none ∨ ch.openRow w.ll = true) →
    ch.selectWrite banks = some w →
    (ch.wq.find? fun x => x.ll = w.ll) = some w
      ∧ Completes (.dramWriteIssue c ready) s fun t =>
        (t.chan c).wq = (s.chan c).wq.erase w ∧ (t.chan c).dramGet w.ll = w.st ∧ (∀ k, k ≠ w.ll → (t.chan c).dramGet k = (s.chan c).dramGet k)
          ∧ (t.chan c).written w.ll = true ∧ OnlyChan c s t ∧ OnlyParts [.chans, .csr, .glb, .blv] s t)
  ∧ (∀ (c : ChanId) (ll : Nat) (st : Stored) (plot : Option PlotId) (s : State), (s.chan c).com.st ≠ .failed →
    ((s.wqPush c ll st plot).chan c).wq = (s.chan c).wq ++ [{ ll := ll, st := st, at_ := s.now, plot := plot }])

/-- R318: a read of a line in an uninitialized region that no queued write matches returns 64 zero bytes with good status and no
poison, and sends no DRAM command: no row opens, no stored line, budget or error count changes. -/
def Obligations.UninitializedReadsAreZero : Prop :=
  ∀ (c : ChanId) (ready : List Nat) (u : Upset) (r : RqEnt) (s : State), s.alive = true → s.regsOk → (s.chan c).com.st = .inService →
    let ch := (s.chan c).before s.now
    let banks := s.usable c ready
    (ch.drain = false ∨ (ch.readyWrites banks = [] ∧ ch.anyFill banks = false)) → s.selectReadFloor c (ch.readyReads banks) = some r →
    ch.lost = none → ch.written r.ll = false → ch.queued r.ll = none →
    Completes (.dramReadIssue c ready u) s fun t =>
      (t.chan c).rq = (s.chan c).rq.erase r ∧ (t.chan c).rows = (s.chan c).rows ∧ (t.chan c).dram = (s.chan c).dram
        ∧ (t.chan c).budget = (s.chan c).budget ∧ t.rget (R.chanErrCnt c) = s.rget (R.chanErrCnt c)
        ∧ (∀ p r' sub, r.src = .miss p r' sub → (t.chan c).rets = (s.chan c).rets ++ [{ src := r.src, pa := r.pa, data := 0, poison := false }])

/-- R294, R296, R347: a read of written memory that no queued write matches is answered with what its line stores: stored bits
that decode good go back unchanged to the miss register that asked, without poison, and no stored line changes.
R297, R320 to R322: a fill that may go on writes its next line, as the queued write of that line, which then leaves the queue, or
else as zeros, and after its last line its region is initialized and its slot free; a background pass starts a fill of the next
region in a free slot. -/
def Obligations.WrittenReadsAndZeroFills : Prop :=
  (∀ (c : ChanId) (ready : List Nat) (r : RqEnt) (p : PavId) (k sub : Nat) (s : State), s.alive = true → s.canon →
    (s.chan c).com.st = .inService →
    let ch := (s.chan c).before s.now
    let banks := s.usable c ready
    (ch.drain = false ∨ (ch.readyWrites banks = [] ∧ ch.anyFill banks = false)) →
    s.selectReadFloor c (ch.readyReads banks) = some r → r.src = .miss p k sub →
    ch.written r.ll = true → ch.queued r.ll = none →
    (memDecode (s.chan c).memGen ((s.chan c).dramGet r.ll)).cls = .good →
    Completes (.dramReadIssue c ready {}) s fun t =>
      (t.chan c).rets = (s.chan c).rets ++
        [{ src := r.src, pa := r.pa, data := (memDecode (s.chan c).memGen ((s.chan c).dramGet r.ll)).data, poison := false }]
        ∧ (∀ l, (t.chan c).dramGet l = (s.chan c).dramGet l) ∧ (t.chan c).rq = (s.chan c).rq.erase r ∧ (t.chan c).wq = (s.chan c).wq
        ∧ OnlyChan c s t ∧ OnlyParts [.chans, .csr, .glb, .blv] s t)
  ∧ ((∀ (c : ChanId) (x : FillIssue) (f : FillSlot) (s : State), s.alive = true → s.canon → (s.chan c).com.st = .inService →
    let ch := (s.chan c).before s.now
    ch.fills.getD x.slot.val none = some f → ch.fillMay f (s.usable c x.ready) = true →
    ∀ ll, ll = f.region * 32768 + (f.start + f.issued) % 32768 →
    Completes (.lazyZeroFillWrite c x) s fun t =>
      (∀ w, (ch.wq.find? fun w => w.ll = ll) = some w → (t.chan c).dramGet ll = w.st ∧ (t.chan c).wq = (s.chan c).wq.erase w)
        ∧ ((ch.wq.find? fun w => w.ll = ll) = none → (t.chan c).dramGet ll = {} ∧ (t.chan c).wq = (s.chan c).wq)
        ∧ (∀ k, k ≠ ll → (t.chan c).dramGet k = (s.chan c).dramGet k)
        ∧ (if f.issued + 1 = 32768 then f.region ∈ (t.chan c).init ∧ (t.chan c).fills = (s.chan c).fills.set x.slot.val none
          else (t.chan c).fills = (s.chan c).fills.set x.slot.val (some { f with issued := f.issued + 1 }))
        ∧ OnlyChan c s t ∧ OnlyParts [.chans, .csr, .glb, .blv] s t)
  ∧ (∀ (c : ChanId) (reg : Nat) (s : State), s.alive = true → (s.chan c).com.st = .inService → 2 ≤ (s.chan c).freeSlots → s.glb.hold = false →
    (∀ g, some g ∈ (s.chan c).fills → g.background = false) → (s.chan c).bgNext ((s.chan c).init.length + 5) (s.chan c).bgPos = some reg →
    Completes (.backgroundPassStart c) s fun t =>
      (t.chan c).fills = startFill { region := reg, start := 0, issued := 0, background := true } (s.chan c).fills
        ∧ (t.chan c).bgPos = reg + 1 ∧ (t.chan c).dram = (s.chan c).dram ∧ OnlyChan c s t ∧ OnlyParts [.chans] s t))

/-- R300 to R303: a refresh whose time has come closes the rows of its rank, owes the next one an interval later (half as long
while doubling applies), (when the first is due is the model's choice, log entry 98), takes on the doubling that temperatures
ask for, and changes no stored line. A reading of one of the unit's sources, its interval passed, is kept; a failed one, or one
above 85 °C, asks for doubling; a failed reading and a rise above 95 °C set ALARM; any other reading raises nothing. -/
def Obligations.RefreshAndTemperature : Prop :=
  (∀ (c : ChanId) (rank due : Nat) (s : State), s.alive = true → (s.chan c).com.st = .inService →
    due = (FMap.find? (s.chan c).com.postponed rank).getD s.now → due ≤ s.now →
    ∀ iv, iv = (if (s.chan c).memGen = .d4 then 23400 else 11700) / (if (s.chan c).com.ref2xNext then 2 else 1) →
    Completes (.refresh (.chan c) rank) s fun t =>
      (t.chan c).com.ref2x = (s.chan c).com.ref2xNext ∧ (t.chan c).com.lastRefresh = some s.now
        ∧ FMap.find? (t.chan c).com.postponed rank = some (due + iv)
        ∧ (t.chan c).rows = closeRows (.chan c) rank (s.chan c).rows ∧ (t.chan c).dram = (s.chan c).dram
        ∧ (t.chan c).rq = (s.chan c).rq ∧ (t.chan c).wq = (s.chan c).wq ∧ OnlyChan c s t ∧ OnlyParts [.chans, .csr, .glb, .blv] s t)
  ∧ (∀ (k : StackId) (rank due : Nat) (s : State), s.alive = true → (s.stk k).com.st = .inService →
    due = (FMap.find? (s.stk k).com.postponed rank).getD s.now → due ≤ s.now →
    ∀ iv, iv = (if (s.stk k).com.ref2xNext then 5850 else 11700) →
    Completes (.refresh (.stack k) rank) s fun t =>
      (t.stk k).com.ref2x = (s.stk k).com.ref2xNext ∧ (t.stk k).com.lastRefresh = some s.now
        ∧ FMap.find? (t.stk k).com.postponed rank = some (due + iv)
        ∧ (∀ p, (t.pav p).stack = (s.pav p).stack) ∧ OnlyStk k s t ∧ OnlyParts [.stks, .pavs, .csr, .glb, .blv] s t)
  ∧ (∀ (m : MemUnit) (src : Nat) (r : Option Int) (s : State), s.alive = true → s.regsOk → (s.com m).st ≠ .off → (s.com m).st ≠ .selfRefresh →
    src ∈ (s.tempSources m).1 → (∀ d, FMap.find? (s.com m).tempAt src = some d → d + (s.tempSources m).2 ≤ s.now) →
    Completes (.memoryTempRead m src r) s fun t =>
      FMap.find? (t.com m).temps src = some r ∧ FMap.find? (t.com m).tempAt src = some s.now ∧ (t.com m).ref2x = (s.com m).ref2x
        ∧ (r = none → (t.com m).ref2xNext = true ∧ Raised (evtOf m) 8 s t)
        ∧ (∀ v, r = some v → 85 < v → (t.com m).ref2xNext = true)
        ∧ (∀ v w, r = some v → FMap.find? (s.com m).temps src = some (some w) → w ≤ 95 → 95 < v → Raised (evtOf m) 8 s t)
        ∧ (∀ v, r = some v → v ≤ 95 → t.csr = s.csr)
        ∧ (∀ v w, r = some v → FMap.find? (s.com m).temps src = some (some w) → 95 < w → t.csr = s.csr)
        ∧ OnlyParts [.chans, .stks, .csr, .glb] s t)

/-- R307, R308, R310, R317: at start-up a passed full training of a channel clears its contents and its lazy-zero bitmap, stores
a good record for its code and DIMMs and sets FULL_TRAINED; a failed one takes the channel out of use; a passed verify trains it
with the contents untouched, and a failed verify calls for full training. A stack that trains waits for its sample test. -/
def Obligations.TrainingOutcomes : Prop :=
  (∀ (c : ChanId) (pc : W32) (s : State), s.alive = true → s.regsOk → (s.chan c).com.st = .training → (s.chan c).trained = false →
    (s.chan c).com.recal = false → (s.chan c).com.calib = false →
    (s.needsFull (.chan c) = true →
      (Completes (.fullTraining (.chan c) true pc) s fun t =>
        (t.chan c).trained = true ∧ (t.chan c).com.last = 1 ∧ (t.chan c).init = [] ∧ (t.chan c).dram = [] ∧ (t.chan c).lost = none
          ∧ (t.chan c).com.training = false ∧ (t.chan c).recOk = true ∧ Raised (R.chanEvt c) 13 s t
          ∧ (t.rget (R.chanCfg c)).getLsbD 30 = false ∧ OnlyChan c s t ∧ OnlyParts [.chans, .csr, .glb, .freeCtr] s t)
      ∧ (Completes (.fullTraining (.chan c) false pc) s fun t =>
        (t.chan c).com.st = .off ∧ (t.chan c).trained = false ∧ (t.chan c).dram = (s.chan c).dram ∧ Raised (R.chanEvt c) 15 s t
          ∧ OnlyChan c s t ∧ OnlyParts [.chans, .csr, .glb] s t))
    ∧ (s.needsFull (.chan c) = false →
      (Completes (.fastLoadVerify (.chan c) true) s fun t =>
        (t.chan c).trained = true ∧ (t.chan c).com.last = 2 ∧ (t.chan c).com.recs = (s.chan c).com.recs ∧ (t.chan c).dram = (s.chan c).dram
          ∧ (t.chan c).init = (s.chan c).init ∧ OnlyChan c s t ∧ OnlyParts [.chans, .csr, .glb] s t)
      ∧ (Completes (.fastLoadVerify (.chan c) false) s fun t =>
        t.chan c = { s.chan c with com := { (s.chan c).com with training := true } } ∧ OnlyChan c s t ∧ OnlyParts [.chans] s t)))
  ∧ (∀ (k : StackId) (pc : W32) (s : State), s.alive = true → (s.stk k).com.st = .training → (s.stk k).com.recal = false → (s.stk k).com.calib = false →
    (s.needsFull (.stack k) = true → (s.stk k).tested = false → Completes (.fullTraining (.stack k) true pc) s fun t =>
      (t.stk k).tested = true ∧ (t.stk k).com.last = 1 ∧ (t.stk k).com.st = .training ∧ (t.pav (pavOf (2 * k.val))).stack = []
        ∧ (t.pav (pavOf (2 * k.val + 1))).stack = [] ∧ OnlyStk k s t ∧ OnlyParts [.stks, .pavs, .freeCtr] s t)
    ∧ (s.needsFull (.stack k) = false → Completes (.fastLoadVerify (.stack k) true) s fun t =>
      (t.stk k).tested = true ∧ (t.stk k).com.last = 2 ∧ (t.stk k).com.st = .training ∧ OnlyStk k s t ∧ OnlyParts [.stks] s t))

/-- R45, R311 to R313: where the step fits the training budget of the tick, a margin walk starts once the walk period has
passed, and its last step, made inside a refresh window, keeps the result and sets WALK_DONE. A frequency change that the host
asks for is held; FREQ_CHANGE_START puts the channel into FREQ_CHANGE when no walk runs; when its time, 230 µs by the model's
choice (log entry 103), is over a good verify brings it into service at the new code with its contents kept, a bad one goes back
to the old code with FREQ_FAIL, and a second failure makes the channel FAILED; a walk that still runs 50 ms after the acceptance
is aborted. -/
def Obligations.WalksAndFrequencyChanges : Prop :=
  (∀ (m : MemUnit) (units : Nat) (s : State), s.alive = true → s.regsOk → (s.com m).st = .inService → s.fits .train units →
    ((s.com m).walk = false → (s.com m).restart = false → s.walkHours m ≠ 0 → (s.com m).walkStart + s.walkHours m * (3600 * 1000000 * 3000) ≤ s.now →
      s.glb.hold = false →
      Completes (.marginWalkStart ⟨m, units⟩) s fun t =>
        t.com m = { s.com m with walk := true, walkStart := s.now } ∧ OnlyParts [.chans, .stks, .glb] s t)
    ∧ ((s.com m).walk = true → ∀ r : WalkResult,
      (Completes (.marginWalkStep m false ⟨r, units⟩) s fun t => OnlyParts [.glb] s t)
      ∧ ((s.com m).inWindow s.now = true → Completes (.marginWalkStep m true ⟨r, units⟩) s fun t =>
        (t.com m).walk = false ∧ (∃ code, (t.com m).walkRes = some (r, code)) ∧ (t.com m).walkStart = (s.com m).walkStart
          ∧ Raised (evtOf m) (match m with | .chan _ => 16 | .stack _ => 10) s t ∧ OnlyParts [.chans, .stks, .csr, .glb] s t)))
  ∧ (∀ (c : ChanId) (f : FreqChg) (s : State), s.alive = true → s.regsOk → (s.chan c).freqChg = some f →
    ((s.chan c).com.st = .inService → (s.chan c).com.walk = false → (s.chan c).com.survey = none → f.running = false → ∀ new old : Bool,
      Completes (.freqChangeStart c new old) s fun t =>
        (t.chan c).com.st = .freqChange ∧ (t.chan c).freq = (s.chan c).freq ∧ (t.chan c).rows = [] ∧ (t.chan c).dram = (s.chan c).dram
          ∧ (t.chan c).freqChg = some { f with running := true, since := s.now, back := false, newOk := new, oldOk := old }
          ∧ (t.chan c).rq = (s.chan c).rq ∧ (t.chan c).wq = (s.chan c).wq ∧ OnlyChan c s t ∧ OnlyParts [.chans] s t)
    ∧ (f.running = true → f.since + 230 * ccPerUs ≤ s.now →
      let t := s.freqStep c
      (f.back = false → f.newOk = true →
        (t.chan c).freq = f.code ∧ (t.chan c).com.st = .inService ∧ (t.chan c).freqChg = none ∧ (t.chan c).dram = (s.chan c).dram
          ∧ (t.chan c).init = (s.chan c).init ∧ Raised (R.chanEvt c) 12 s t ∧ OnlyChan c s t ∧ OnlyParts [.chans, .csr, .glb] s t)
      ∧ (f.back = false → f.newOk = false →
        t.chan c = { s.chan c with freqChg := some { f with back := true, since := s.now } } ∧ OnlyChan c s t ∧ OnlyParts [.chans] s t)
      ∧ (f.back = true → f.oldOk = true →
        (t.chan c).freq = (s.chan c).freq ∧ (t.chan c).com.st = .inService ∧ (t.chan c).dram = (s.chan c).dram ∧ (t.chan c).freqChg = none
          ∧ Raised (R.chanEvt c) 10 s t ∧ OnlyChan c s t ∧ OnlyParts [.chans, .csr, .glb] s t)
      ∧ (f.back = true → f.oldOk = false → (s.chan c).com.st ≠ .failed → (t.chan c).com.st = .failed ∧ (t.chan c).wq = []))
    ∧ ((s.chan c).com.walk = true → f.at_ + 50000 * 3000 ≤ s.now →
      Completes (.freqHoldTimeout c) s fun t =>
        t.chan c = { s.chan c with freqChg := some { f with aborted := true }, com := { (s.chan c).com with walk := false } }
          ∧ Raised (R.chanEvt c) 11 s t ∧ OnlyChan c s t ∧ OnlyParts [.chans, .csr, .glb] s t))

/-- R312, R314, R360, R364, R418: a privileged write starts what it asks for: a frequency change is held with its code, a stack
test takes the stack to TEST, a survey begins at its base, a repair runs for its ledger entry; a stack test outside GH_CACHE and
a reserved frequency code are rejected with nothing changed but CFG_REJECT. (While STANDBY or HIBERNATE has stopped the clocks,
these commands wait for the exit, R424.) -/
def Obligations.MemoryCommandsStart : Prop :=
  (∀ (a : Access) (c : ChanId) (v : W32) (s : State), s.alive = true → s.regsOk → s.privileged a = true →
    ((genOfCode (bitsOf v 3 0)).isSome = true → genOfCode (bitsOf v 3 0) = (s.chan c).gen →
      bitsOf v 3 0 ≤ min ((s.chan c).slot0.elim 0 (·.maxCode)) ((s.chan c).slot1.elim 15 (·.maxCode)) →
      (∃ r ∈ (s.chan c).com.recs, r.code = bitsOf v 3 0 ∧ r.good = true) → (s.chan c).com.st = .inService → (s.chan c).freqChg = none → s.clocksRun = true →
      Completes (.freqChange a c v) s fun t =>
        t.chan c = { s.chan c with freqChg := some { code := bitsOf v 3 0, at_ := s.now, running := false, aborted := false } }
          ∧ bitsOf (t.rget (R.chanFreqCmd c)) 3 0 = bitsOf v 3 0 ∧ OnlyChan c s t ∧ OnlyParts [.chans, .csr, .glb, .blv, .pairs] s t)
    ∧ (genOfCode (bitsOf v 3 0) = none → s.clocksRun = true →
      Completes (.freqChange a c v) s fun t =>
        t.chans = s.chans ∧ t.rget (R.chanFreqCmd c) = s.rget (R.chanFreqCmd c) ∧ (t.rget R.glbCfgRejectEvt).getLsbD 8 = true))
  ∧ (∀ (a : Access) (k : StackId) (s : State), s.alive = true → s.regsOk → s.privileged a = true → s.clocksRun = true →
    ((s.pav (pavOf (2 * k.val))).place = .ghCache → (s.pav (pavOf (2 * k.val + 1))).place = .ghCache →
      ((s.stk k).com.st = .inService ∨ (s.stk k).com.st = .failed) → (s.stk k).com.survey = none →
      Completes (.stackTest a k) s fun t =>
        t.stk k = { s.stk k with com := { (s.stk k).com with st := .test, walk := false } } ∧ OnlyStk k s t
          ∧ OnlyParts [.stks, .csr, .glb, .blv, .pairs] s t)
    ∧ ((s.pav (pavOf (2 * k.val))).place = .sectored → s.isFenced (pavOf (2 * k.val)) = false →
      Completes (.stackTest a k) s fun t => t.stks = s.stks ∧ (t.rget R.glbCfgRejectEvt).getLsbD 8 = true))
  ∧ (∀ (a : Access) (c : ChanId) (v : W32) (s : State), s.alive = true → s.regsOk → s.privileged a = true → (s.chan c).com.st = .inService →
    s.clocksRun = true →
    ((s.chan c).com.survey = none → ∀ b n, b = s.rf (R.chanSurveyBase c) 26 0 * 64 → n = s.rf (R.chanSurveySize c) 27 0 * 64 → 0 < n → b + n ≤ (s.chan c).lines →
      Completes (.surveyGo a (.chan c) v) s fun t =>
        (t.chan c).com.survey = some { pos := b, stop := b + n } ∧ (t.chan c).com.surveyOut = 0 ∧ t.rget (R.chanSurveyLinesLo c) = 0
          ∧ t.rget (R.chanSurveyErr c) = 0 ∧ OnlyChan c s t ∧ OnlyParts [.chans, .csr, .glb, .blv, .pairs, .pend] s t)
    ∧ (∀ e : Fin 64, e.val = bitsOf v 5 0 → (s.chan c).pprRun = none → (s.chan c).ledger[e].valid = true → (s.chan c).repairs.length < 8 →
      Completes (.repairApprove a c v) s fun t =>
        t.chan c = { s.chan c with pprRun := some { entry := e.val } } ∧ OnlyChan c s t ∧ OnlyParts [.chans, .csr, .glb, .blv, .pairs] s t))

/-- R291, R314, R353, R417, R418: a stack test without failing pseudo-channels puts a stack whose sample test has passed in
service, a sample test without any puts it in service, and one with any leaves it FAILED with TEST_RES; bring-up starts the
training of every stack; MEM_GO waits for the tick, and at the tick each trained channel large enough for the map enters service
while the others stay out. -/
def Obligations.StacksAndChannelsEnterService : Prop :=
  (∀ (k : StackId) (pc : W32) (s : State), s.alive = true → s.regsOk →
    ((s.stk k).com.st = .test → Completes (.stackTestDone k pc) s fun t =>
      (t.stk k).com.st = (if pc = 0 ∧ (s.stk k).passed = true then MemSt.inService else MemSt.failed) ∧ t.rget (R.stackTestRes k) = pc
        ∧ (t.rget (R.stackEvt k)).getLsbD 12 = true ∧ (pc ≠ 0 → (t.rget (R.stackEvt k)).getLsbD 13 = true) ∧ OnlyStk k s t)
    ∧ ((s.stk k).com.st = .training → (s.stk k).tested = true → Completes (.sampleTestDone k pc) s fun t =>
      (t.stk k).com.st = (if pc = 0 then MemSt.inService else MemSt.failed) ∧ (pc = 0 → (t.stk k).passed = true) ∧ t.rget (R.stackTestRes k) = pc
        ∧ (pc ≠ 0 → (t.rget (R.stackEvt k)).getLsbD 13 = true) ∧ OnlyStk k s t))
  ∧ (∀ s : State, s.alive = true → s.glb.stackUp = true →
    Completes .stackBringup s fun t =>
      (∀ k, (t.stk k).com.st = .training ∧ (t.stk k).tested = false) ∧ t.glb.stackUp = false ∧ t.glb.stackReady = false ∧ OnlyParts [.glb, .stks] s t)
  ∧ (∀ (a : Access) (s : State), s.alive = true → s.regsOk → s.privileged a = true → s.glb.memReady = true → s.glb.memGo = false →
    s.glb.memGoPend = false → s.glb.memGoDue = false →
    Completes (.memGo a) s fun t => t.glb.memGoPend = true ∧ t.glb.memGo = false ∧ OnlyParts [.glb, .csr, .blv, .pairs] s t)
  ∧ (∀ s : State, s.alive = true → s.regsOk → s.glb.memGoDue = true → 4 ≤ (choosePivots s.fold).length →
    Completes .memServiceStart s fun t =>
      t.glb.memGoDue = false ∧ t.glb.mapValid = true ∧ t.glb.pivots = choosePivots s.fold ∧ t.glb.mapRanges = s.glb.ranges
        ∧ (∀ c, (s.chan c).trained = true → mapReqOf s.glb.ranges ≤ 16 * (s.chan c).used →
          (t.chan c).com.st = .inService ∧ (s.rbit (R.chanCfg c) 31 = false → (t.chan c).init = []) ∧ (s.rbit (R.chanCfg c) 31 = true → (t.chan c).init = (s.chan c).init))
        ∧ (∀ c, (s.chan c).trained = true → 16 * (s.chan c).used < mapReqOf s.glb.ranges → (t.chan c).com.st = .off)
        ∧ (∀ c, (s.chan c).trained = false → t.chan c = s.chan c) ∧ OnlyParts [.glb, .chans, .csr] s t)

/-- R45, R358 to R364: a patrol spends one credit, reads the next line of a channel and moves on; a line due for a targeted read
goes first and the walk stays; a stack's patrol moves on; a survey whose lines are read ends with RESULT 0 and DONE; where the
step fits the scrub budget of the tick, a ledger entry that is not HARD and has been quiet for 24 h is freed, and a repair that
has its row in the buffer ends and reports whether a spare row was there. -/
def Obligations.ScrubSurveyAndLedger : Prop :=
  (∀ (c : ChanId) (s : State), s.alive = true → s.regsOk → (s.chan c).com.st = .inService → (s.chan c).com.survey = none → 0 < (s.chan c).com.patrolCredit →
    (s.chan c).rq.length < 48 → 0 < (s.chan c).lines → s.engineRoom c = true →
    let x := (s.chan c).com
    let read (ll : Nat) (src : RdSrc) : List RqEnt :=
      if (s.chan c).written ll then (s.chan c).rq ++ [{ ll := ll, pa := s.paOfLl c.val ll, plot := none, at_ := s.now, src := src }] else (s.chan c).rq
    ((s.chan c).targets = [] → Completes (.patrolRead c) s fun t =>
      (t.chan c).com.patrolCredit = x.patrolCredit - 1 ∧ (t.chan c).rq = read x.patrolPos .patrol
        ∧ (t.chan c).com.patrolPos = (if (s.chan c).lines ≤ x.patrolPos + 1 then 0 else x.patrolPos + 1)
        ∧ (t.chan c).com.passes = (if (s.chan c).lines ≤ x.patrolPos + 1 then (x.passes + 1) % 32 else x.passes)
        ∧ OnlyChan c s t ∧ OnlyParts [.chans] s t)
    ∧ (∀ ll rest units, (s.chan c).targets = ll :: rest → s.fits .scrub units → Completes (.targetedRewrite ⟨c, units⟩) s fun t =>
      (t.chan c).targets = rest ∧ (t.chan c).rq = read ll .targeted ∧ (t.chan c).com.patrolPos = x.patrolPos
        ∧ (t.chan c).com.patrolCredit = x.patrolCredit - 1 ∧ OnlyChan c s t ∧ OnlyParts [.chans, .glb] s t))
  ∧ (∀ (k : StackId) (s : State), s.alive = true → (s.stk k).com.st = .inService → (s.stk k).com.survey = none → 0 < (s.stk k).com.patrolCredit →
    (s.pav (pavOf (2 * k.val))).place = .sectored → (s.pav (pavOf (2 * k.val))).halted = false → (s.stk k).com.patrolPos < 2 ^ 24 →
    s.glb.hold = false → (∀ q set w, ((s.pav q).tag set w).parOk = true) →
    Completes (.stackPatrolRead k) s fun t =>
      (t.stk k).com.patrolPos = (s.stk k).com.patrolPos + 1 ∧ (t.stk k).com.patrolCredit = (s.stk k).com.patrolCredit - 1
        ∧ (∀ p, (t.pav p).stack = (s.pav p).stack ∧ (t.pav p).tags = (s.pav p).tags) ∧ OnlyStk k s t ∧ OnlyParts [.stks, .pavs, .blv] s t)
  ∧ (∀ (m : MemUnit) (v : Survey) (s : State), s.alive = true → s.regsOk → (s.com m).survey = some v → (s.com m).st = .inService → v.stop ≤ v.pos →
    (s.com m).surveyOut = 0 →
    Completes (.surveyDone m) s fun t =>
      (t.com m).survey = none
        ∧ (∀ c, m = .chan c → t.rf (R.chanSurveyStat c) 11 10 = 0 ∧ (t.rget (R.chanSurveyStat c)).getLsbD 8 = true)
        ∧ (∀ k, m = .stack k → t.rf (R.stackSurveyStat k) 11 10 = 0 ∧ (t.rget (R.stackSurveyStat k)).getLsbD 8 = true))
  ∧ (∀ (c : ChanId) (e : Fin 64) (units : Nat) (s : State), s.alive = true → (s.chan c).ledger[e].valid = true → (s.chan c).ledger[e].hard = false →
    (s.chan c).ledger[e].tLast + 86400 ≤ s.band.sec → s.fits .scrub units →
    Completes (.ledgerEntryExpiry c ⟨e, units⟩) s fun t =>
      (t.chan c).ledger[e].valid = false ∧ (∀ j : Fin 64, j ≠ e → (t.chan c).ledger[j] = (s.chan c).ledger[j])
        ∧ (t.chan c).dram = (s.chan c).dram ∧ OnlyChan c s t ∧ OnlyParts [.chans, .glb] s t)
  ∧ (∀ (c : ChanId) (r : PprRun) (spare : Bool) (units : Nat) (s : State), s.alive = true → s.regsOk → (s.chan c).pprRun = some r →
    (s.chan c).com.st = .inService → r.held = true → 128 ≤ r.next → (∀ x ∈ (s.chan c).rq, x.src ≠ .repair) → s.fits .scrub units →
    Completes (.repairDone c ⟨spare, units⟩) s fun t =>
      (t.chan c).pprRun = none ∧ t.rf (R.chanPprStat c) 27 25 = (if spare then 1 else 2)
        ∧ (t.rget (R.chanErrEvt c)).getLsbD (if spare then 12 else 13) = true ∧ OnlyChan c s t)

/-- R235, R356, R357: a raw read of an initialized line in service joins the channel's read queue behind the rest; a raw write
queues the line as given, or encoded; a line outside the capacity, uninitialized, or not in service ends with RESULT 1, 2 or 3
and nothing done; RAW_ACCESS_DONE puts the waiting result into RAW_STAT. -/
def Obligations.RawAccesses : Prop :=
  (∀ (a : Access) (v : W32) (c : ChanId) (s : State), s.alive = true → s.regsOk → s.privileged a = true → s.glb.rawBusy = false →
    bitsOf v 27 26 = 0 → bitsOf v 19 16 = c.val →
    ∀ ll, ll = (s.rf R.rawRawAddrHi 19 0 * 2 ^ 32 + s.rf R.rawRawAddrLo 31 6 * 64) / 64 →
    (ll < (s.chan c).lines → (s.chan c).written ll = true → (s.chan c).com.st = .inService → s.engineRoom c = true →
      (∀ i, i = Instr.readRaw a v ∨ i = Instr.readDec a v → Completes i s fun t =>
        t.glb.rawBusy = true ∧ (t.chan c).rq = (s.chan c).rq ++ [{ ll := ll, pa := s.paOfLl c.val ll, plot := none, at_ := s.now, src := .raw }]
          ∧ (t.chan c).dram = (s.chan c).dram ∧ OnlyChan c s t ∧ OnlyParts [.chans, .csr, .glb, .blv, .pairs] s t))
    ∧ (ll < (s.chan c).lines → (s.chan c).written ll = true → (s.chan c).com.st = .inService → s.wqTakes c = true → s.glb.hold = false →
      (Completes (.writeRaw a v) s fun t =>
        t.glb.rawBusy = true ∧ t.glb.rawDone = some (0, 0, 0x7F)
          ∧ (t.chan c).wq = (s.chan c).wq ++ [{ ll := ll, st := { data := s.rawData, check := checkMask ((s.chan c).memGen = .d5) s.rawCheck }, at_ := s.now, plot := none, raw := true }]
          ∧ OnlyChan c s t ∧ OnlyParts [.chans, .csr, .glb, .blv, .pairs] s t)
      ∧ (Completes (.writeEnc a v) s fun t =>
        t.glb.rawBusy = true ∧ t.glb.rawDone = some (0, 0, 0x7F)
          ∧ (t.chan c).wq = (s.chan c).wq ++ [{ ll := ll, st := memEncode (s.chan c).memGen s.rawData, at_ := s.now, plot := none, raw := true }]
          ∧ OnlyChan c s t ∧ OnlyParts [.chans, .csr, .glb, .blv, .pairs] s t))
    ∧ (∀ i, i = Instr.readRaw a v ∨ i = Instr.readDec a v ∨ i = Instr.writeRaw a v ∨ i = Instr.writeEnc a v → ∀ res,
      ((res = 1 ∧ (s.chan c).lines ≤ ll) ∨ (res = 2 ∧ ll < (s.chan c).lines ∧ (s.chan c).written ll = false)
        ∨ (res = 3 ∧ ll < (s.chan c).lines ∧ (s.chan c).written ll = true ∧ (s.chan c).com.st ≠ .inService)) →
      Completes i s fun t => bitsOf (t.rget R.rawRawStat) 12 10 = res ∧ t.chans = s.chans ∧ t.glb.rawBusy = false))
  ∧ (∀ (r cls loc : Nat) (s : State), s.alive = true → s.regsOk → s.glb.rawBusy = true → s.glb.rawDone = some (r, cls, loc) →
    Completes .rawAccessDone s fun t =>
      t.rget R.rawRawStat = BitVec.ofNat 32 (r * 2 ^ 10 + cls * 2 ^ 8 + loc) ∧ t.glb = { s.glb with rawBusy := false, rawDone := none }
        ∧ OnlyRegs [R.rawRawStat] s t ∧ OnlyParts [.csr, .glb] s t)

/-- R235: in WINDOW a privileged 32-bit write at a Glasshouse offset merges its word into the line and rewrites the check bits,
leaving every other line, and a privileged read answers the corrected word; in GH_CACHE a read answers the stored word, in
SECTORED the array holds tags and the word is a free value (log entry 284); in another placement a write changes no line. -/
def Obligations.GlasshouseDebugWindow : Prop :=
  ∀ (a : Access) (p : PavId) (k : Nat) (v : W32) (s : State), s.alive = true → s.canon → s.privileged a = true → s.glb.pwr ≠ .hibernate → k < 524288 →
    let off := 0x2000000 + 0x200000 * p.val + 4 * k
    let l := (s.pav p).ghLineAt (k / 16)
    ((s.pav p).place = .window → (sramDecode true l).cls = .good →
      (Completes (.glasshouseDebugWrite a off v) s fun t =>
        (t.pav p).ghLineAt (k / 16) = sramEncode (setBits (sramDecode true l).data (32 * (k % 16) + 31) (32 * (k % 16)) v.toNat)
          ∧ (∀ j, j ≠ k / 16 → (t.pav p).ghLineAt j = (s.pav p).ghLineAt j) ∧ (t.pav p).dir = (s.pav p).dir
          ∧ OnlyPav p s t ∧ OnlyParts [.pavs, .csr, .glb, .blv, .pairs] s t)
      ∧ (Completes (.glasshouseDebugRead a ⟨off, 4⟩) s fun t =>
        t.outs = .read a.master off (BitVec.ofNat 64 ((sramDecode true l).data.toNat >>> (32 * (k % 16)) % 2 ^ 32)) :: s.outs ∧ OnlyParts [.csr, .glb, .blv, .outs] s t))
    ∧ ((s.pav p).place = .ghCache → Completes (.glasshouseDebugRead a ⟨off, 4⟩) s fun t =>
      t.outs = .read a.master off (BitVec.ofNat 64 (l.data.toNat >>> (32 * (k % 16)) % 2 ^ 32)) :: s.outs ∧ OnlyParts [.csr, .glb, .blv, .outs] s t)
    ∧ ((s.pav p).place = .sectored → Completes (.glasshouseDebugRead a ⟨off, 4⟩) s fun t =>
      t.outs = .read a.master off ((Config.tagBits s.freeCtr).setWidth 64) :: s.outs ∧ OnlyParts [.csr, .glb, .blv, .outs, .freeCtr] s t)
    ∧ ((s.pav p).place ≠ .window → Completes (.glasshouseDebugWrite a off v) s fun t =>
      t.pavs = s.pavs ∧ (t.rget R.glbAccessEvt).getLsbD 9 = true)

/-! ## Fences, placement and maintenance (chapters 1 and 6) -/

/-- R30, R31, R33: an accepted orderly fence starts at its first step with nothing else changed; an accepted failed fence whose
walk cannot complete sets DATA_LOST and a fatal cause, and exactly the moved share's channels hold free values; a fence of a
fenced pavilion, to a fenced target, to itself or beside a running fence sets REJECT and changes nothing. A walk that completes
leaves nothing in the stores of the pavilion and everything of the directory and the table. The map waits for the tick after the
pavilion's last push has been taken by its write queue.
R30 steps 5 and 6, R31, R32, R151: at the tick after a fence's last step every interleave entry that names the fenced pavilion
names the target, no other entry changes, the pavilion is fenced and IL_STAT.DONE is set, and the target recovers the lines of
the moved share's hash values that no start-up has ended; before that tick nothing happens. -/
def Obligations.PavilionFences : Prop :=
  (∀ (a : Access) (v : W32) (s : State), s.alive = true → s.canon → s.privileged a = true →
    let p := pavOf (bitsOf v 3 0); let q := pavOf (bitsOf v 11 8)
    (s.glb.fence.running = false → s.isFenced p = false → s.isFenced q = false → q ≠ p →
      (Completes (.pavilionFenceOrderly a v) s fun t =>
        t.glb.fence = { running := true, pav := p.val, target := q.val, stage := 1 } ∧ t.glb.ilMap = s.glb.ilMap
          ∧ OnlyRegs [R.glbPavFence, R.blvEvt] s t ∧ OnlyParts [.glb, .csr, .blv, .pairs] s t)
      ∧ (Completes (.pavilionFenceFailed a v false) s fun t =>
        t.glb.fence = { running := true, pav := p.val, target := q.val, failed := true, stage := if (s.pav p).pushq = [] then 4 else 3, tick := s.glb.tickNum }
          ∧ (t.rget R.glbIlStat).getLsbD 9 = true ∧ (t.rget R.glbFatalStat).getLsbD 15 = true ∧ t.glb.fatalNew = true
          ∧ (∀ c : ChanId, s.glb.ilMap.getD c.val 0 = p.val → (t.chan c).lost.isSome = true ∧ (t.chan c).dram = [] ∧ (t.chan c).init = (s.chan c).init)
          ∧ (∀ c : ChanId, s.glb.ilMap.getD c.val 0 ≠ p.val → t.chan c = s.chan c)
          ∧ OnlyParts [.glb, .csr, .blv, .pairs, .chans, .lodge, .freeCtr] s t)
      ∧ ((s.pav p).tagsReadable = true → Completes (.pavilionFenceFailed a v true) s fun t =>
        t.glb.fence = { running := true, pav := p.val, target := q.val, failed := true, stage := if (t.pav p).pushq = [] then 4 else 3, tick := s.glb.tickNum }
          ∧ (t.pav p).tags = [] ∧ (t.pav p).gh = [] ∧ (t.pav p).orang = [] ∧ (t.pav p).miss = [] ∧ (t.pav p).evBuf = []
          ∧ (t.pav p).tt = (s.pav p).tt ∧ (t.pav p).dir = (s.pav p).dir
          ∧ (∀ c, (t.chan c).lost = (s.chan c).lost ∧ (t.chan c).dram = (s.chan c).dram) ∧ OnlyPav p s t ∧ t.freeCtr = s.freeCtr))
    ∧ (s.glb.fence.running = true ∨ s.isFenced p = true ∨ s.isFenced q = true ∨ q = p →
      ∀ i, i = Instr.pavilionFenceOrderly a v ∨ i = Instr.pavilionFenceFailed a v false ∨ i = Instr.pavilionFenceFailed a v true →
      Completes i s fun t =>
        (t.rget R.glbIlStat).getLsbD 10 = true ∧ (t.rget R.glbCfgRejectEvt).getLsbD 8 = true ∧ t.rget R.glbPavFence = s.rget R.glbPavFence
          ∧ t.glb.fence = s.glb.fence ∧ OnlyParts [.glb, .csr, .blv, .pairs, .lodge] s t))
  ∧ (∀ s : State, s.glb.fence.running = true → s.glb.fence.failed = true → s.glb.fence.stage = 3 →
    ((s.pav (pavOf s.glb.fence.pav)).pushq = [] →
      s.fenceStep.glb = { s.glb with fence := { s.glb.fence with stage := 4, tick := s.glb.tickNum } } ∧ OnlyParts [.glb] s s.fenceStep)
    ∧ ((s.pav (pavOf s.glb.fence.pav)).pushq ≠ [] → s.fenceStep = s))
  ∧ (∀ s : State, s.alive = true → s.regsOk → s.glb.fence.running = true → s.glb.fence.stage = 4 → s.glb.fence.pav < 16 →
    (s.glb.fence.tick < s.glb.tickNum →
      Completes .fenceMapUpdate s fun t =>
        t.glb.ilMap = (s.glb.ilMap.map fun x => if x = s.glb.fence.pav then s.glb.fence.target else x)
          ∧ t.glb.fenced = setBits s.glb.fenced s.glb.fence.pav s.glb.fence.pav 1 ∧ t.glb.fence.running = false
          ∧ (t.pav (pavOf s.glb.fence.pav)).tt = [] ∧ (t.pav (pavOf s.glb.fence.pav)).dir = [] ∧ (t.pav (pavOf s.glb.fence.pav)).tags = []
          ∧ (t.pav (pavOf s.glb.fence.pav)).stale = (s.pav (pavOf s.glb.fence.pav)).stale
          ∧ (∀ h, h ∈ (s.pav (pavOf s.glb.fence.target)).rebuild ∨ (s.glb.fence.failed = false ∧ h ∈ (s.pav (pavOf s.glb.fence.pav)).rebuild)
              ∨ (s.glb.fence.failed = true ∧ h < 16 ∧ s.glb.ilMap.getD h 0 = s.glb.fence.pav) →
            pavOf s.glb.fence.target ≠ pavOf s.glb.fence.pav → h ∈ (t.pav (pavOf s.glb.fence.target)).rebuild)
          ∧ (t.rget R.glbIlStat).getLsbD 8 = true ∧ OnlyParts [.ports, .pavs, .glb, .blv, .csr] s t)
    ∧ (s.glb.tickNum ≤ s.glb.fence.tick → exec .fenceMapUpdate s = .next s))

/-- R238 to R243: an accepted placement command names its pavilions and waits for the tick. A walk of the window passes one line at a
time: one that an access has pushed already is passed over, any other goes to its channel's write queue with its data, or waits for
it; it ends, once quiet, with the Glasshouse empty. A walk out of GH_CACHE makes the lines of a set Invalid, a dirty one after it has
gone to the write queue; one out of SECTORED clears PRESENT of a set's clean sub-blocks and asks the stack for its dirty ones; both
end, with everything gone, with the tags empty, no way locked and no Plot charged. The tick after its end a pavilion is in its new
placement, and the last one ends the transition; a fenced pavilion keeps its field (R272). -/
def Obligations.PlacementChanges : Prop :=
  (∀ (a : Access) (v : W32) (s : State), s.alive = true → s.regsOk → s.privileged a = true → s.glb.placeEng.running = false → s.glb.mop.busy = false →
    (∃ p : PavId, v.getLsbD p.val = true) → (∀ p : PavId, v.getLsbD p.val = true → s.isFenced p = false) →
    let started (mode : Place) (t : State) : Prop :=
      t.glb.placeEng = { running := true, mode := mode, mask := v.setWidth 16, started := false, disabled := !s.glb.hcEn }
        ∧ OnlyParts [.glb, .csr, .blv, .pairs] s t
    ((∀ p : PavId, s.isFenced p = false → v.getLsbD p.val = true) →
      (∀ p : PavId, v.getLsbD p.val = true → (s.pav p).place = .window ∧ (s.chan p).com.st = .inService) →
      Completes (.windowToGhCache a v) s (started .ghCache))
    ∧ ((∀ p : PavId, v.getLsbD p.val = true → (s.pav p).place = .sectored) → Completes (.sectoredToGhCache a v) s (started .ghCache))
    ∧ ((∀ p : PavId, v.getLsbD p.val = true → (s.pav p).place = .ghCache ∧ (s.stk (stackOfPav p)).com.st = .inService) →
      Completes (.ghCacheToSectored a v) s (started .sectored))
    ∧ ((∃ p : PavId, v.getLsbD p.val = true ∧ (s.pav p).place = .transition) →
      ∀ i, i = Instr.windowToGhCache a v ∨ i = Instr.sectoredToGhCache a v ∨ i = Instr.ghCacheToSectored a v →
      Completes i s fun t =>
        (t.rget R.glbPlaceStat).getLsbD 10 = true ∧ t.glb.placeEng = s.glb.placeEng ∧ OnlyParts [.glb, .csr, .blv, .pairs, .lodge] s t))
  ∧ (∀ (p : PavId) (s : State), s.alive = true → (s.pav p).place = .transition → s.isFenced p = false → (s.pav p).from_ = .window → (s.pav p).walkEnd = none →
    (s.pav p).halted = false →
    ((s.pav p).walkPos < 16384 → s.glb.noWindow = false → (s.pav p).walkPos ∈ (s.pav p).moved → Completes (.placementWalkerStep p) s fun t =>
      (t.pav p).walkPos = (s.pav p).walkPos + 1 ∧ (s.pav p).walkPos ∉ (t.pav p).moved ∧ (t.pav p).ghData = (s.pav p).ghData
        ∧ (t.pav p).pushq = (s.pav p).pushq ∧ OnlyPav p s t ∧ OnlyParts [.pavs, .blv] s t)
    ∧ (∀ la ll, (s.pav p).walkPos < 16384 → s.glb.noWindow = false → (s.pav p).walkPos ∉ (s.pav p).moved →
      s.windowLine p (s.pav p).walkPos = some la → s.llOf la = some ll → (s.pav p).pushq = [] →
      ∀ d, d = sramDecode true ((s.pav p).ghLineAt (windowIdx la)) → d.cls = .good → ∀ c, c = s.chanFor la → (s.chan c).com.st = .inService →
      Completes (.placementWalkerStep p) s fun t =>
        (t.pav p).walkPos = (s.pav p).walkPos + 1 ∧ (t.pav p).ghData = (s.pav p).ghData
          ∧ (s.wqTakes c = true → (t.pav p).pushq = []
            ∧ (t.chan c).wq = (s.chan c).wq ++ [{ ll := ll, st := memEncode (s.chan c).memGen d.data, at_ := s.now, plot := none }])
          ∧ (s.wqTakes c = false → (t.pav p).pushq = [{ pa := la, data := d.data, poison := false, for_ := .walk }] ∧ t.chans = s.chans)
          ∧ OnlyPav p s t ∧ OnlyChan c s t ∧ OnlyParts [.pavs, .chans, .csr, .glb, .blv] s t)
    ∧ (16384 ≤ (s.pav p).walkPos → (s.pav p).walkQuiet = true → Completes (.placementWalkerStep p) s fun t =>
      (t.pav p).ghData = [] ∧ (t.pav p).gh = [] ∧ (t.pav p).walkEnd = some s.glb.tickNum ∧ (t.pav p).dir = (s.pav p).dir
        ∧ OnlyPav p s t ∧ OnlyParts [.pavs, .blv] s t))
  ∧ (∀ (p : PavId) (s : State), s.alive = true → s.canon → (s.pav p).place = .transition → s.isFenced p = false → (s.pav p).walkEnd = none →
    (s.pav p).halted = false →
    let set := (s.pav p).walkPos
    ((s.pav p).from_ ≠ .window → (s.pav p).holds.sets ≤ set → (s.pav p).emptied = true → Completes (.placementWalkerStep p) s fun t =>
      (t.pav p).tags = [] ∧ (t.pav p).gh = [] ∧ (t.pav p).walkEnd = some s.glb.tickNum ∧ t.rget (R.pavLockMask p) = 0
        ∧ (∀ m ∈ (t.pav p).meters.toList, m.occ = 0) ∧ (t.pav p).dir = (s.pav p).dir ∧ OnlyPav p s t ∧ OnlyRegs [R.pavLockMask p, R.blvEvt] s t
        ∧ OnlyParts [.pavs, .csr, .glb, .blv] s t)
    ∧ ((s.pav p).from_ = .ghCache → set < 2048 → (∀ w, w < 16 → ((s.pav p).ghe set w).parOk = true) → (s.pav p).miss = [] → (s.pav p).pushq = [] →
      ((∀ w, w < 16 → ((s.pav p).ghe set w).dirtyA = false ∧ ((s.pav p).ghe set w).dirtyB = false) → Completes (.placementWalkerStep p) s fun t =>
        (t.pav p).walkPos = set + 1 ∧ (∀ w, w < 16 → ((t.pav p).ghe set w).valid = false)
          ∧ (∀ k w, k ≠ set → w < 16 → (t.pav p).ghe k w = (s.pav p).ghe k w) ∧ OnlyPav p s t ∧ OnlyParts [.pavs, .blv] s t)
      ∧ (∀ w0, w0 < 16 → ((s.pav p).ghe set w0).valid = true → ((s.pav p).ghe set w0).dirtyA = true → ((s.pav p).ghe set w0).poison = false →
        (∀ w, w < 16 → w ≠ w0 → ((s.pav p).ghe set w).dirtyA = false ∧ ((s.pav p).ghe set w).dirtyB = false) →
        ∀ d, d = sramDecode false ((s.pav p).ghLineAt (ghKey set w0)) → d.cls = .good → ∀ la, la = ghLine ((s.pav p).ghe set w0).tag set →
        ∀ ll, s.llOf la = some ll → ∀ c, c = s.chanFor la → (s.chan c).com.st = .inService → s.wqTakes c = true →
        Completes (.placementWalkerStep p) s fun t =>
          (t.pav p).walkPos = set + 1 ∧ (∀ w, w < 16 → ((t.pav p).ghe set w).valid = false)
            ∧ (t.chan c).wq = (s.chan c).wq ++ [{ ll := ll, st := memEncode (s.chan c).memGen d.data, at_ := s.now, plot := none }]
            ∧ OnlyPav p s t ∧ OnlyChan c s t ∧ OnlyParts [.pavs, .chans, .csr, .glb, .blv] s t))
    ∧ ((s.pav p).from_ = .sectored → set < 16384 → (s.pav p).still → (s.pav p).stackq = [] → (s.pav p).merging = [] →
      (∀ w, w < 16 → ((s.pav p).tag set w).parOk = true ∧ (((s.pav p).tag set w).st = .valid ∨ ((s.pav p).tag set w).st = .invalid)) →
      Completes (.placementWalkerStep p) s fun t =>
        (t.pav p).walkPos = set + 1
          ∧ (∀ w sub, w < 16 → sub < 64 → ((s.pav p).tag set w).st = .valid → ((s.pav p).tag set w).present.getLsbD sub = true →
            (((s.pav p).tag set w).dirty.getLsbD sub = false → ((t.pav p).tag set w).present.getLsbD sub = false)
            ∧ (((s.pav p).tag set w).dirty.getLsbD sub = true → ((t.pav p).tag set w).present.getLsbD sub = true
              ∧ ∃ c ∈ (t.pav p).stackq, c.set = set ∧ c.way = w ∧ c.sub = sub ∧ c.op = .mop true .place))
          ∧ OnlyPav p s t ∧ OnlyParts [.pavs, .blv] s t))
  ∧ (∀ (p : PavId) (k : Nat) (s : State), s.alive = true → s.regsOk → (s.pav p).place = .transition → (s.pav p).walkEnd = some k → s.isFenced p = false →
    (k < s.glb.tickNum → Completes (.placementComplete p) s fun t =>
      (t.pav p).place = s.glb.placeEng.mode ∧ (t.pav p).walkEnd = none ∧ OnlyPav p s t ∧ OnlyParts [.pavs, .glb, .csr] s t
        ∧ ((∃ q, q ≠ p ∧ s.isFenced q = false ∧ (s.pav q).place = .transition) → t.glb = s.glb)
        ∧ (s.glb.placeEng.running = true → s.glb.placeEng.started = true → s.glb.placeEng.mode ≠ .transition →
          (∀ q, q ≠ p → s.isFenced q = false → (s.pav q).place ≠ .transition) →
          t.glb.placeEng.running = false ∧ (t.rget R.glbPlaceStat).getLsbD 9 = true))
    ∧ (s.glb.tickNum ≤ k → exec (.placementComplete p) s = .next s))
  ∧ (∀ (p : PavId) (s : State), s.alive = true → s.isFenced p = true → exec (.placementComplete p) s = .next s)

/-- R249, R250, R255, R256, R258: an accepted maintenance command takes its number and arguments and becomes busy; CLEAN, INV
and CLEAN_INV begin to walk, PRELOAD and DISABLE_CLEAN wait for the tick; one beside a running operation is rejected; a walk
that has reached its end with nothing on its way completes with its result; a lock mask waits for the tick. -/
def Obligations.MaintenanceOperations : Prop :=
  (∀ (a : Access) (v : W32) (s : State), s.alive = true → s.regsOk → s.privileged a = true →
    (s.glb.mop.busy = false → s.glb.placeEng.running = false → (∀ p, (s.pav p).place = .sectored) → bitsOf v 27 26 = 3 →
      (∀ op i, (op = 1 ∧ i = Instr.mopClean a v) ∨ (op = 2 ∧ i = Instr.mopInv a v) ∨ (op = 3 ∧ i = Instr.mopCleanInv a v) →
        Completes i s fun t =>
          t.glb.mop.busy = true ∧ t.glb.mop.op = op ∧ t.glb.mop.scope = 3 ∧ t.glb.mop.stage = 1 ∧ t.glb.mop.pos = List.replicate 16 0
            ∧ t.glb.opnum = (s.glb.opnum + 1) % 256 ∧ t.glb.doneNum = s.glb.doneNum ∧ OnlyParts [.glb, .csr, .blv, .pairs] s t)
      ∧ (s.glb.hcEn = true → Completes (.mopDisableClean a v) s fun t =>
          t.glb.mop.busy = true ∧ t.glb.mop.op = 5 ∧ t.glb.mop.stage = 0 ∧ t.glb.hcEn = true ∧ OnlyParts [.glb, .csr, .blv, .pairs] s t))
    ∧ (s.glb.mop.busy = false → s.glb.placeEng.running = false → (∀ p, (s.pav p).place = .sectored) → bitsOf v 27 26 = 2 →
      ∀ size, size = s.rf R.glbHcMopSizeHi 20 0 * 2 ^ 32 + s.rf R.glbHcMopSizeLo 31 6 * 64 →
      ∀ base, base = s.rf R.glbHcMopBaseHi 19 0 * 2 ^ 32 + s.rf R.glbHcMopBaseLo 31 6 * 64 →
      0 < size → size % 4096 = 0 → base % 4096 = 0 → size ≤ 12 * 2 ^ 30 → base + size ≤ 2 ^ 52 → s.rf R.glbHcMopWays 15 0 ≠ 0 →
      Completes (.mopPreload a v) s fun t =>
        t.glb.mop.busy = true ∧ t.glb.mop.op = 4 ∧ t.glb.mop.stage = 0 ∧ t.glb.mop.base = base ∧ t.glb.mop.size = size
          ∧ OnlyParts [.glb, .csr, .blv, .pairs] s t)
    ∧ (s.glb.mop.busy = true →
      ∀ i, i = Instr.mopClean a v ∨ i = Instr.mopInv a v ∨ i = Instr.mopCleanInv a v ∨ i = Instr.mopPreload a v ∨ i = Instr.mopDisableClean a v →
      Completes i s fun t =>
        t.glb.mop = s.glb.mop ∧ t.glb.opnum = s.glb.opnum ∧ (t.rget R.glbHcMopStat).getLsbD 9 = true ∧ t.rget R.glbHcMopCtl = s.rget R.glbHcMopCtl
          ∧ OnlyParts [.glb, .csr, .blv, .pairs, .lodge] s t)
    ∧ (∀ p : PavId, s.glb.pwr ≠ .hibernate → popcount (v &&& 0xFFFF) ≤ 12 → Completes (.lockMaskWrite a p v) s fun t =>
      bitsOf (t.rpend (R.pavLockMask p)) 15 0 = bitsOf v 15 0 ∧ t.rget (R.pavLockMask p) = s.rget (R.pavLockMask p)
        ∧ OnlyParts [.csr, .pend, .glb, .blv, .pairs] s t))
  ∧ (∀ (p : PavId) (s : State), s.alive = true → s.glb.mop.busy = true → s.glb.mop.stage = 1 → s.isFenced p = false → (s.pav p).halted = false →
    s.glb.mop.op = 1 → s.glb.mop.scope = 3 → s.glb.mop.pos.length = 16 → (s.pav p).place = .sectored → s.glb.mop.posOf p < 16384 →
    (∀ w < 16, (s.pav p).tag (s.glb.mop.posOf p) w = {}) →
    Completes (.mopStep p) s fun t =>
      t.glb = { s.glb with mop := { s.glb.mop with pos := s.glb.mop.pos.set p.val (s.glb.mop.posOf p + 1) } } ∧ t.pavs = s.pavs ∧ OnlyParts [.glb, .blv] s t)
  ∧ (∀ s : State, s.alive = true → s.regsOk → s.glb.mop.busy = true → s.glb.mop.stage = 1 → (s.glb.mop.op = 1 ∨ s.glb.mop.op = 2 ∨ s.glb.mop.op = 3) →
    s.glb.mop.disabled = false →
    (∀ p, s.isFenced p = false → (s.pav p).halted = false → s.mopWalked p = true ∧ (s.pav p).walkQuiet = true ∧ s.mopOrang p = false) →
    Completes .mopComplete s fun t =>
      t.glb.mop.busy = false ∧ t.glb.mopResult = (if s.glb.mop.errs = 0 then 0 else 1) ∧ t.glb.doneNum = s.glb.opnum
        ∧ Raised R.glbHcMopStat 8 s t ∧ OnlyParts [.glb, .csr] s t)

/-! ## Regulation, power and ports (chapters 9 and 10) -/

/-- R389, R392, R393, R395, R399, R400: an accepted regulation write waits for the tick with the value in force unchanged; a
guarantee that the 90 % rule does not admit is rejected with OVERCOMMIT and leaves no pending value of its own. -/
def Obligations.RegulationWritesWaitForTick : Prop :=
  ∀ (a : Access) (k : PlotId) (v : W32) (s : State), s.alive = true → s.regsOk → s.privileged a = true → s.glb.pwr ≠ .hibernate →
    let waits (off : Nat) (fs : List (Nat × Nat)) (t : State) : Prop :=
      (∀ f ∈ fs, bitsOf (t.rpend off) f.1 f.2 = bitsOf v f.1 f.2) ∧ t.rget off = s.rget off ∧ OnlyParts [.csr, .pend, .glb, .blv, .pairs] s t
    (s.gbwAdmit ⟨k.toNat, k.isLt⟩ (bitsOf v 15 0) = true → Completes (.gbwWrite a k v) s (waits (R.regPlotGbw k.toNat) [(15, 0)]))
    ∧ (s.gbwAdmit ⟨k.toNat, k.isLt⟩ (bitsOf v 15 0) = false → Completes (.gbwWrite a k v) s fun t =>
      (t.rget R.regEvt).getLsbD 10 = true ∧ (t.rget R.glbCfgRejectEvt).getLsbD 8 = true ∧ t.pend = s.pend
        ∧ t.rget (R.regPlotGbw k.toNat) = s.rget (R.regPlotGbw k.toNat))
    ∧ (bitsOf v 10 0 ≤ 1024 → bitsOf v 26 16 ≤ bitsOf v 10 0 → s.minSum k.toNat (bitsOf v 26 16) ≤ 1024 →
      Completes (.plotCacheWrite a k v) s (waits (R.regPlotCache k.toNat) [(10, 0), (26, 16)]))
    ∧ (bitsOf v 18 16 ≤ 4 → Completes (.plotLatWrite a k v) s (waits (R.regPlotLat k.toNat) [(15, 0), (18, 16)]))
    ∧ (bitsOf v 15 8 ≤ 64 → bitsOf v 31 24 ≤ 128 → bitsOf v 7 0 < bitsOf v 15 8 → bitsOf v 23 16 < bitsOf v 31 24 →
      Completes (.mqMarkWrite a v) s (waits R.regMqMark [(7, 0), (15, 8), (23, 16), (31, 24)]))

/-- R421, R423, R426: STANDBY and HIBERNATE are accepted in ACTIVE with nothing of R421 running, and hold ingress; elsewhere
they are rejected; with everything drained the memories go to self-refresh and the links are asked into LOWPOWER, STANDBY being
reached with the last of them, or the clean of HIBERNATE begins; an entry that takes too long is given up.
R305, R425 to R427: at the end of its clean HIBERNATE keeps DRAM in self-refresh and loses stacks, directories and tags; an
accepted EXIT shows STATE EXIT, and as its time goes on memories leave self-refresh and calibrate, links of LOWPOWER are active
again, pavilions after HIBERNATE are in GH_CACHE, channels whose calibration passes are back in service with kept contents and
the others train, and ACTIVE is reached with ingress released (the times, at the limits of the rules, are the model's choice,
log entry 135). -/
def Obligations.PowerEntriesAndExit : Prop :=
  ((∀ (a : Access) (s : State), s.alive = true → s.regsOk → s.privileged a = true →
    (s.glb.pwr = .active → s.pwrBusy = false →
      let entered (st : Pwr) (t : State) : Prop :=
        t.glb.pwr = st ∧ t.glb.pwrAt = s.now ∧ t.glb.hold = true ∧ (∀ c : ChanId, (t.chan c).com.survey = none ∧ (t.chan c).com.walk = false)
          ∧ (∀ k : StackId, (t.stk k).com.survey = none ∧ (t.stk k).com.walk = false) ∧ OnlyParts [.glb, .csr, .blv, .pairs, .chans, .stks, .pavs] s t
      Completes (.standby a) s (entered .standbyEntry)
        ∧ ((∀ n : PortId, (s.port n).io.enabled = false) → Completes (.hibernate a) s (entered .hibernateEntry)))
    ∧ (s.glb.pwr ≠ .active → ∀ i, i = Instr.standby a ∨ i = Instr.hibernate a → Completes i s fun t =>
      t.glb.pwr = s.glb.pwr ∧ (t.rget R.glbPwrEvt).getLsbD 9 = true ∧ OnlyParts [.glb, .csr, .blv, .pairs, .lodge] s t))
  ∧ (∀ s : State, s.alive = true → s.canon →
    (s.drained = true → s.glb.pwr = .standbyEntry → Completes .standbyDrainDone s fun t =>
      t.glb = { s.glb with lowAsk := true }
        ∧ (∀ c : ChanId, (s.chan c).com.st = .inService → t.chan c = { s.chan c with com := { (s.chan c).com with st := .selfRefresh } })
        ∧ (∀ c : ChanId, (s.chan c).com.st ≠ .inService → t.chan c = s.chan c)
        ∧ (∀ k : StackId, (s.stk k).com.st = .inService → t.stk k = { s.stk k with com := { (s.stk k).com with st := .selfRefresh } })
        ∧ OnlyParts [.chans, .stks, .glb] s t)
    ∧ (s.drained = true → s.glb.pwr = .hibernateEntry → s.glb.hibClean = false → Completes .standbyDrainDone s fun t =>
      t.glb.hibClean = true ∧ t.glb.pwr = .hibernateEntry ∧ (∀ p : PavId, s.isFenced p = false → (s.pav p).stale = true → (t.pav p).tags = [] ∧ (t.pav p).gh = [])
        ∧ (∀ p : PavId, s.isFenced p = false → (s.pav p).stale = false → (t.pav p).tags = (s.pav p).tags ∧ (t.pav p).gh = (s.pav p).gh) ∧ OnlyParts [.glb, .pavs] s t)
    ∧ (s.drained = false → exec .standbyDrainDone s = .next s)
    ∧ ((s.glb.pwr = .standbyEntry ∨ s.glb.pwr = .hibernateEntry) → s.glb.hibClean = false → s.glb.lowAsk = false →
      (s.glb.pwrAt + s.rf R.glbPwrCfg 9 0 * 1000 * ccPerUs ≤ s.now → Completes .standbyTimeout s fun t =>
        t.glb.pwr = .active ∧ t.glb.hold = false ∧ (t.rget R.glbPwrEvt).getLsbD 10 = true ∧ OnlyParts [.ports, .glb, .csr, .blv, .lodge] s t)
      ∧ (s.now < s.glb.pwrAt + s.rf R.glbPwrCfg 9 0 * 1000 * ccPerUs → exec .standbyTimeout s = .next s))
    ∧ (s.glb.lowAsk = true →
      ((∀ n : PortId, (s.port n).link.st ≠ .active ∧ (s.port n).link.st ≠ .recovery) →
        s.lowStep.glb.pwr = .standby ∧ s.lowStep.glb.lowAsk = false ∧ (s.lowStep.rget R.glbPwrEvt).getLsbD 8 = true
          ∧ OnlyParts [.glb, .csr, .lodge] s s.lowStep)
      ∧ (∀ n : PortId, (s.port n).link.st = .active → s.lowStep.glb = s.glb
        ∧ ((s.port n).link.ctlReq = none → (s.lowStep.port n).link
            = { (s.port n).link with ctlReq := some (1, 0, s.now), ctlOut := (s.port n).link.ctlOut ++ [(1, 0, 0)] })))))
  ∧ ((∀ s : State, s.alive = true → s.canon → s.glb.hibClean = true →
    (∀ p : PavId, s.isFenced p = false → (s.pav p).drained = true ∧ (s.pav p).orang = [] ∧ ((s.pav p).place = .window ∨ (s.pav p).emptied = true)) →
    (∀ c : ChanId, (s.chan c).drained = true) →
    Completes .hibernateCleanDone s fun t =>
      t.glb.pwr = .hibernate ∧ t.glb.hibClean = false ∧ (t.rget R.glbPwrEvt).getLsbD 8 = true
        ∧ (∀ c : ChanId, (t.chan c).dram = (s.chan c).dram ∧ (t.chan c).init = (s.chan c).init ∧ ((s.chan c).com.st = .inService → (t.chan c).com.st = .selfRefresh))
        ∧ (∀ k : StackId, (t.stk k).com.st = .off)
        ∧ (∀ p : PavId, (t.pav p).tags = [] ∧ (t.pav p).dir = [] ∧ (t.pav p).gh = [] ∧ (t.pav p).stack = [] ∧ (t.pav p).stale = false)
        ∧ (∀ n : PortId, (t.port n).io.enabled = false ∧ (t.port n).link.saved = (s.port n).link.saved ∧ (t.port n).link.up = false)
        ∧ OnlyParts [.ports, .pavs, .chans, .stks, .glb, .csr, .blv, .lodge] s t)
  ∧ (∀ (a : Access) (r : CalibResult) (s : State), s.alive = true → s.regsOk → s.privileged a = true →
    (s.glb.pwr = .standby ∨ s.glb.pwr = .hibernate → (∀ c : ChanId, (s.chan c).com.st = .selfRefresh → s.rbit (R.chanCfg c) 31 = true) →
      Completes (.exit a r) s fun t =>
        t.glb.pwr = .exit ∧ t.glb.pwrAt = s.now ∧ t.glb.hold = s.glb.hold ∧ t.glb.exiting = some (r, decide (s.glb.pwr = .hibernate), 0)
          ∧ OnlyParts [.glb, .csr, .blv, .pairs] s t)
    ∧ (s.glb.pwr = .active → Completes (.exit a r) s fun t =>
      t.glb.pwr = .active ∧ (t.rget R.glbPwrEvt).getLsbD 9 = true ∧ OnlyParts [.glb, .csr, .blv, .pairs, .lodge] s t))
  ∧ (∀ (r : CalibResult) (hib : Bool) (k : Nat) (s : State), s.canon → s.glb.exiting = some (r, hib, k) →
    let u := s.exitStep
    (s.now < s.glb.pwrAt + exitUs.getD k 0 * ccPerUs → u = s)
    ∧ (s.glb.pwrAt + exitUs.getD k 0 * ccPerUs ≤ s.now →
      (k = 0 → (∀ c : ChanId, (s.chan c).com.st = .selfRefresh → u.chan c = { s.chan c with com := { (s.chan c).com with st := .training, calib := true } })
        ∧ (∀ c : ChanId, (s.chan c).com.st ≠ .selfRefresh → u.chan c = s.chan c) ∧ OnlyParts [.glb, .chans, .stks] s u)
      ∧ (k = 1 → (∀ n : PortId, s.rbit (R.portLinkCtl n) 30 = false → (s.port n).link.st = .lowpower → (u.port n).link.st = .active
            ∧ (u.port n).link.retry = (s.port n).link.retry ∧ (u.port n).link.txSeq = (s.port n).link.txSeq ∧ (u.port n).link.rxExp = (s.port n).link.rxExp)
        ∧ (hib = true → u.glb.stackUp = true ∧ ∀ p : PavId, s.isFenced p = false → (u.pav p).place = .ghCache) ∧ u.chans = s.chans)
      ∧ (k = 2 → (∀ c : ChanId, (s.chan c).com.calib = true → s.rbit (R.chanCfg c) 31 = true → r.chanOk.getLsbD c.val = true →
          (u.chan c).com.st = .inService ∧ (u.chan c).com.last = 4 ∧ (u.chan c).dram = (s.chan c).dram ∧ (u.chan c).init = (s.chan c).init)
        ∧ (∀ c : ChanId, (s.chan c).com.calib = true → r.chanOk.getLsbD c.val = false →
          u.chan c = { s.chan c with com := { (s.chan c).com with calib := false, recal := true, training := false } })
        ∧ (∀ c : ChanId, (s.chan c).com.calib = false → u.chan c = s.chan c) ∧ OnlyParts [.glb, .chans, .stks] s u)
      ∧ (k = 3 → (∀ n : PortId, (s.port n).io.svcLate = []) → s.glb.cmdLate = [] →
        u.glb.pwr = .active ∧ u.glb.hold = false ∧ u.glb.exiting = none ∧ (u.rget R.glbPwrEvt).getLsbD 8 = true ∧ u.pavs = s.pavs ∧ u.chans = s.chans))))


/-- R422, R428: a gated pavilion that is idle loses its clock, and gets it back, as the clock goes on, with a request or an
engine that needs a slot; a junction reading is kept, warns above the junction maximum, and at 120 °C trips the hub, whose DIMMs
lose their contents. -/
def Obligations.ClockStopAndJunction : Prop :=
  (∀ (p : PavId) (s : State), s.alive = true →
    (s.rbit R.glbPavGate p.val = true → (s.pav p).idle = true → Completes (.pavilionClockStop p) s fun t =>
      t.pav p = { s.pav p with gated := true } ∧ OnlyPav p s t ∧ OnlyParts [.pavs] s t)
    ∧ (s.rbit R.glbPavGate p.val = false ∨ (s.pav p).idle = false → exec (.pavilionClockStop p) s = .next s))
  ∧ (∀ (x : Int) (s : State), s.alive = true → s.regsOk →
    Completes (.junctionTempRead x) s fun t =>
      t.glb.tj = x ∧ t.lodge.tjCnt = s.lodge.tjCnt + 1 ∧ t.lodge.tjHi = some (s.lodge.tjHi.elim x (max x))
        ∧ (x ≤ tjMax → t.csr = s.csr ∧ OnlyParts [.glb, .lodge] s t) ∧ (tjMax < x → (t.rget R.glbPwrEvt).getLsbD 12 = true)
        ∧ (x < 120 → t.glb.tripped = false ∧ t.chans = s.chans)
        ∧ (120 ≤ x → t.glb.tripped = true ∧ t.glb.thermtrip = true ∧ t.glb.tripAt = some s.now
          ∧ ∀ c, (t.chan c).com.st = .off ∧ (t.chan c).dram = [] ∧ (t.chan c).init = []))
  ∧ (∀ (p : PavId) (s : State), (s.pav p).gated = true → ((s.pav p).idle = false ∨ s.needsSlot p = true) →
    (s.ungate p).pav p = { s.pav p with gated := false } ∧ OnlyPav p s (s.ungate p) ∧ OnlyParts [.pavs] s (s.ungate p))

/-- R97, R429, R430, R432, R433: ENABLE grants the port its credits and RELEASE returns a quiesced port to DETECT; QUIESCE
begins by refusing; its sweep starts when the port's transactions are done, and its end takes the link out of service; RETRAIN
takes an active link to RECOVERY and is ignored in another state; DISABLE takes an idle port out. ENABLE, QUIESCE and RELEASE out
of place are rejected. -/
def Obligations.PortServiceCommands : Prop :=
  ∀ (a : Access) (n : PortId) (s : State), s.alive = true → s.canon → s.privileged a = true → s.glb.pwr = .active →
    let p := s.port n
    let w := s.view (R.portLinkCtl n)
    let legal := 10 ≤ bitsOf w 15 8 ∧ bitsOf w 15 8 ≤ 100 ∧ bitsOf w 23 16 ≠ 0 ∧ bitsOf w 27 26 ≠ 0 ∧ bitsOf w 29 28 ≠ 3
    let rejected (t : State) : Prop :=
      t.ports = s.ports ∧ (t.rget (R.portSvcStat n)).getLsbD 9 = true ∧ (t.rget R.glbCfgRejectEvt).getLsbD 8 = true
        ∧ OnlyParts [.csr, .glb, .blv, .pairs, .lodge] s t
    ((p.link.st = .active ∨ p.link.st = .lowpower) → p.io.enabled = false → p.io.qst = .none → p.link.credRet.length = 6 →
      Completes (.enable a n) s fun t =>
        (t.port n).io = { p.io with enabled := true } ∧ (t.port n).link.st = p.link.st
          ∧ (t.port n).link.credRet.getD 0 0 = p.link.credRet.getD 0 0 + s.rf (R.portCredCfg n) 9 0
          ∧ (t.port n).link.credRet.getD 4 0 = p.link.credRet.getD 4 0 + 64 ∧ (t.port n).link.credRet.getD 5 0 = p.link.credRet.getD 5 0 + 16
          ∧ OnlyPort n s t ∧ OnlyParts [.ports, .csr, .glb, .blv, .pairs] s t)
    ∧ (p.io.enabled = true ∨ p.io.qst ≠ .none ∨ p.link.st = .detect → Completes (.enable a n) s rejected)
    ∧ (p.io.qst = .none → Completes (.quiesce a n) s fun t =>
      t.port n = { p with io := { p.io with qst := .refusing, swept := false, quiesced := false } }
        ∧ OnlyPort n s t ∧ OnlyParts [.ports, .csr, .glb, .blv, .pairs] s t)
    ∧ (p.io.qst ≠ .none → Completes (.quiesce a n) s rejected)
    ∧ (p.io.qst = .down → p.link.st = .down → p.io.sweeping = false → Completes (.release a n) s fun t =>
      (t.port n).io = { p.io with qst := .none } ∧ (t.port n).link.st = (if s.rbit (R.portLinkCtl n) 30 then LinkSt.disabled else LinkSt.detect)
        ∧ OnlyPort n s t ∧ OnlyParts [.ports, .csr, .glb, .blv, .pairs] s t)
    ∧ (p.io.qst ≠ .down → Completes (.release a n) s rejected)
    ∧ (p.io.qst = .refusing → s.portBusy n = false → Completes (.quiesceSweepStart n) s fun t => (t.port n).io.qst = .sweeping)
    ∧ (p.io.qst = .refusing → s.portBusy n = true → exec (.quiesceSweepStart n) s = .next s)
    ∧ (p.io.qst = .sweeping → p.io.sweeping = false → p.io.swept = true → p.io.arb = [] → p.io.rdt = [] → Completes (.quiesceComplete n) s fun t =>
      (t.port n).io.qst = .down ∧ ((p.link.st = .active ∨ p.link.st = .lowpower) → (t.port n).link.st = .down ∧ (t.port n).io.enabled = false))
    ∧ (legal → p.link.st = .active → w.getLsbD 30 = false → Completes (.retrain a n) s fun t =>
      (t.port n).link = { p.link with st := .recovery, since := s.now, setsOut := 0, echoes := [], recAttempts := 0 } ∧ (t.port n).io = p.io
        ∧ (t.rget (R.portLinkEvt n)).getLsbD 10 = true ∧ OnlyPort n s t ∧ OnlyParts [.ports, .csr, .pend, .glb, .blv, .pairs] s t)
    ∧ (legal → (p.link.st ≠ .active ∧ p.link.st ≠ .disabled ∧ w.getLsbD 30 = false) ∨ (p.link.st = .disabled ∧ w.getLsbD 30 = true) →
      Completes (.retrain a n) s fun t => t.ports = s.ports ∧ OnlyParts [.csr, .pend, .glb, .blv, .pairs] s t)
    ∧ (legal → p.link.st = .detect → Completes (.linkDisable a n true) s fun t =>
      (t.port n).link.st = .disabled ∧ (t.port n).io = p.io ∧ (t.rget (R.portLinkCtl n)).getLsbD 30 = true
        ∧ OnlyPort n s t ∧ OnlyParts [.ports, .csr, .pend, .glb, .blv, .pairs] s t)
    ∧ (legal → p.link.st = .disabled → Completes (.linkDisable a n false) s fun t =>
      (t.port n).link = { p.link with st := .detect, since := s.now, setsOut := 0 } ∧ (t.port n).io = p.io ∧ (t.rget (R.portLinkCtl n)).getLsbD 30 = false
        ∧ OnlyPort n s t ∧ OnlyParts [.ports, .csr, .pend, .glb, .blv, .pairs] s t)

/-! ## Time (chapter 12) -/

/-- R480, R481, R483 to R485, R498: a window against TREF, whose edges are periods of the TREF that TREF_25 names, gives ERR, steers the
increment and counts towards LOCKED; a TREF that is lost, by its edges, by a window beyond 100 ppm or by a TREF_25 that does not name
the oscillator fitted, takes the hub to HOLDOVER with the increment frozen at the mean of those kept; a TREF that is good again returns
it to LOCKING. A PPS_IN edge is slewed out by its error, or stepped out at the next apply window, before item 1 of it and without a
PPS_OUT pulse; its loss leaves LOCKED_1588 or HOLDOVER. STEP waits for the next window too, SLEW replaces what is left of a slew, and a
command that R484 refuses changes nothing of the timebase. (The sign of ERR against TREF is the model's reading, log entry 323.) -/
def Obligations.TimeSourcesAndSetting : Prop :=
  ∀ s : State, s.alive = true → s.regsOk →
    let b := s.band
    let disciplined := b.st = .locking ∨ b.st = .locked
    let freeze : Band → Band := fun x =>
      { x with st := .holdover, holdAt := s.now, good := 0, inc := if x.incs = [] then x.inc else x.incs.sum / x.incs.length }
    let err (sub : Nat) : Int :=
      let t : Int := (b.t100 + sub : Nat) - (BitVec.ofNat 16 (s.rf R.bandPpsCfg 15 0)).toInt
      t - (t - (if b.ptpAt.isSome then b.offset * 10 else 0) + 5000000000) / 10000000000 * 10000000000
    let phase (edges : Nat) (rest : Int) : Int := 10000000000 - ((edges * (if s.rbit R.bandTimeCtl 29 then 400 else 1000) : Nat) + rest)
    (∀ edges rest e, e = phase edges rest → b.src = 1 → e.natAbs ≤ 1000000 → s.rbit R.bandTimeCtl 29 = b.trefFit25 → disciplined →
      ∀ g, g = (if e.natAbs ≤ 10 then b.good + 1 else 0) →
      Completes (.trefWindow edges rest) s fun t =>
        t.band = { b with err := e, trefSeen := true, inc := Config.servo b.inc e, incs := (Config.servo b.inc e :: b.incs).take 16, good := g
                          st := if b.st = .locking ∧ 4 ≤ g then .locked else b.st }
          ∧ (b.st = .locking → 4 ≤ g → Raised R.bandTimeEvt 11 s t) ∧ OnlyParts [.band, .csr, .glb] s t)
    ∧ (∀ i seen e, (i = Instr.trefLoss ∧ seen = b.trefSeen ∧ e = b.err
        ∨ (∃ edges rest, e = phase edges rest ∧ (1000000 < e.natAbs ∨ s.rbit R.bandTimeCtl 29 ≠ b.trefFit25) ∧ i = .trefWindow edges rest) ∧ seen = true) →
      b.src = 1 → disciplined →
      Completes i s fun t =>
        t.band = freeze { b with trefOk := false, trefBad := s.now, trefSeen := seen, err := e } ∧ Raised R.bandTimeEvt 12 s t
          ∧ OnlyParts [.band, .csr, .glb] s t)
    ∧ (b.trefOk = false → s.rbit R.bandTimeCtl 29 = b.trefFit25 → b.trefBad + 10000000 * ccPerUs ≤ s.now →
      Completes .trefGood s fun t =>
        t.band = { b with trefOk := true, trefSeen := true, st := if b.src = 1 then .locking else b.st, good := if b.src = 1 then 0 else b.good }
          ∧ OnlyParts [.band] s t)
    ∧ (b.trefOk = true ∨ s.rbit R.bandTimeCtl 29 ≠ b.trefFit25 ∨ s.now < b.trefBad + 10000000 * ccPerUs → exec .trefGood s = .next s)
    ∧ (∀ sub : Nat, b.src ≠ 2 → Completes (.ppsInEdge sub) s fun t => t.band = { b with ppsOk := true, ppsAt := s.now } ∧ OnlyParts [.band] s t)
    ∧ (∀ sub : Nat, b.src = 2 → (err sub).natAbs ≤ (if b.st = .locked then 1000000 else 10000) →
      Completes (.ppsInEdge sub) s fun t =>
        t.band.ppsOk = true ∧ t.band.ppsAt = s.now ∧ t.band.err = err sub ∧ t.band.inc = Config.servo b.inc (err sub)
          ∧ t.band.sec = b.sec ∧ t.band.ns = b.ns ∧ t.band.frac = b.frac
          ∧ t.band.st = (if b.st = .locked ∨ ((err sub).natAbs ≤ 50 ∧ 8 ≤ b.good + 1) then .locked else .locking)
          ∧ OnlyParts [.band, .csr, .glb] s t)
    ∧ (∀ sub : Nat, b.src = 2 → (if b.st = .locked then 1000000 else 10000) < (err sub).natAbs →
      Completes (.ppsInEdge sub) s fun t =>
        t.band = { b with ppsOk := true, ppsAt := s.now, err := err sub, st := .locking, good := 0, stepBack := some (err sub) } ∧ OnlyParts [.band] s t)
    ∧ (∀ e, b.stepPend = none → b.stepBack = some e → ∀ x, x = ((b.t100 : Int) - e).toNat → ∀ t, t = s.stepApply →
      t.band.sec = x / 10000000000 % 2 ^ 48 ∧ t.band.ns = x / 10 % 1000000000 ∧ t.band.inc = b.inc ∧ t.band.stepBack = none
        ∧ t.band.ppsSec = t.ppsScale.1 ∧ t.glb.ppsOut = s.glb.ppsOut ∧ Raised R.bandTimeEvt 10 s t ∧ OnlyParts [.band, .csr, .glb] s t)
    ∧ (b.src = 2 → disciplined → b.ppsAt + 1500000 * ccPerUs ≤ s.now →
      Completes .ppsInLoss s fun t =>
        t.band = (if b.ptpAt.isSome then { b with ppsOk := false, st := .locked1588, good := 0 } else freeze { b with ppsOk := false })
          ∧ (t.rget R.bandTimeEvt).getLsbD 13 = true ∧ OnlyParts [.band, .csr, .glb] s t)
    ∧ (s.now < b.ppsAt + 1500000 * ccPerUs → exec .ppsInLoss s = .next s)
    ∧ (∀ a : Access, s.privileged a = true →
      let ok := s.rf R.bandTimeCtl 31 30 ≠ 2 ∧ s.rf R.bandTimeSetNs 29 0 ≤ 999999999 ∧ b.stepPend = none
      (ok → Completes (.step a) s fun t =>
        t.band = { b with stepPend := some ((s.rget R.bandTimeSetSecLo).toNat + s.rf R.bandTimeSetSecHi 15 0 * 2 ^ 32, s.rf R.bandTimeSetNs 29 0) }
          ∧ OnlyParts [.band, .csr, .glb, .blv, .pairs] s t)
      ∧ (ok → Completes (.slew a) s fun t =>
        t.band = { b with slew := (s.rget R.bandTimeAdj).toInt * nsFrac, slewing := true } ∧ OnlyParts [.band, .csr, .glb, .blv, .pairs] s t)
      ∧ (¬ok → ∀ i, i = Instr.step a ∨ i = Instr.slew a → Completes i s fun t =>
        t.band = b ∧ (t.rget R.bandTimeEvt).getLsbD 9 = true ∧ (t.rget R.glbCfgRejectEvt).getLsbD 8 = true
          ∧ t.rget R.bandTimeCmd = s.rget R.bandTimeCmd ∧ OnlyParts [.csr, .glb, .blv, .pairs, .lodge] s t))
    ∧ (b.slewing = true → b.slew = 0 → Completes .slewDone s fun t =>
      t.band = { b with slewing := false } ∧ Raised R.bandTimeEvt 8 s t ∧ OnlyParts [.band, .csr, .glb] s t)
    ∧ (b.slewing = false ∨ b.slew ≠ 0 → exec .slewDone s = .next s)

/-- R485, R488 to R490: PPS_OUT rises once at a boundary of the second while it is enabled and falls 100 ms later. A hub that
runs no 1588 takes and sends none; a grandmaster sends Announce, Sync and Follow_Up each second and answers Delay_Req, as Annex E
frames to 01-1B-19-00-00-00; a follower locks to its first clock identity, stamps a Sync as it arrives, ignores a second identity within
3 s and frames of another destination or EtherType, sends Delay_Req every 8 s and stamps it, takes the mean of the two ways as the path
delay, and loses PTP_OK after 3 s without a Sync. -/
def Obligations.PpsOutAndIeee1588 : Prop :=
  ∀ s : State, s.alive = true → s.regsOk →
    let b := s.band
    let d := s.rf R.bandTimeCtl 23 16
    let runs := s.rbit R.bandTimeCtl 28 = true ∧ s.lodge.plca ≠ 0
    let stamp : Int := (b.sec * 1000000000 + b.ns / 10 * 10 : Nat)
    (∀ k x, (k, x) = s.ppsScale → s.rbit R.bandPpsCfg 31 = true → s.glb.ppsOut = false → k ≠ b.ppsSec → x ≤ 10 →
      Completes .ppsOutPulse s fun t =>
        t.glb = { s.glb with ppsOut := true } ∧ t.band = { b with ppsSec := k, ppsOutAt := s.now } ∧ OnlyParts [.glb, .band] s t)
    ∧ (s.rbit R.bandPpsCfg 31 = false ∨ s.glb.ppsOut = true ∨ s.ppsScale.1 = b.ppsSec → exec .ppsOutPulse s = .next s)
    ∧ (s.glb.ppsOut = true → b.ppsOutAt + 100000 * ccPerUs ≤ s.now →
      Completes .ppsOutPulseEnd s fun t => t.glb = { s.glb with ppsOut := false } ∧ OnlyParts [.glb] s t)
    ∧ (s.now < b.ppsOutAt + 100000 * ccPerUs → exec .ppsOutPulseEnd s = .next s)
    ∧ (¬runs → ∀ i, i = Instr.syncSend ∨ (∃ m, i = .syncReceive m) ∨ i = .delayReqSend ∨ (∃ r, i = .delayReqReceive r) ∨ (∃ c x, i = .delayRespReceive c x) →
      exec i s = .next s)
    ∧ (runs → b.src ≠ 2 → b.syncDue ≤ s.now → Completes .syncSend s fun t =>
      t.outs = .ptp 0x011B19000000 0x88F7 2 [d, b.sec, b.ns / 10 * 10] :: .ptp 0x011B19000000 0x88F7 1 [d]
          :: .ptp 0x011B19000000 0x88F7 0 [d, s.rf R.bandTimeCtl 15 0, s.rf R.bandTimeCtl 27 27, 248, if b.st = .locked then 0x21 else 0xFE] :: s.outs
        ∧ t.band = { b with syncDue := s.now + 1000000 * ccPerUs } ∧ OnlyParts [.band, .outs] s t)
    ∧ (runs → b.src ≠ 2 → ∀ r : BitVec 64, Completes (.delayReqReceive r) s fun t =>
      t.outs = .ptp 0x011B19000000 0x88F7 4 [d, b.sec, b.ns / 10 * 10, r.toNat] :: s.outs ∧ OnlyParts [.outs] s t)
    ∧ (runs → b.src = 2 → b.delayReqDue ≤ s.now → Completes .delayReqSend s fun t =>
      t.outs = .ptp 0x011B19000000 0x88F7 3 [d] :: s.outs ∧ t.band = { b with delayReqDue := s.now + 8000000 * ccPerUs, reqNs := stamp } ∧ OnlyParts [.band, .outs] s t)
    ∧ (runs → b.src = 2 → ∀ (c : BitVec 64) (x : Int), (b.gm = some c →
      Completes (.delayRespReceive c x) s fun t => t.band = { b with pathDelay := (b.syncRaw + (x - b.reqNs)) / 2 } ∧ OnlyParts [.band] s t)
      ∧ (b.gm ≠ some c → exec (.delayRespReceive c x) s = .next s))
    ∧ (runs → b.src = 2 → ∀ m : SyncMsg, (m.dstMac ≠ 0x011B19000000 ∨ m.etherType ≠ 0x88F7 → exec (.syncReceive m) s = .next s)
      ∧ (m.dstMac = 0x011B19000000 → m.etherType = 0x88F7 → m.domain = d → m.clockId ∉ b.ignored →
      (∀ c, b.gm = some c → c ≠ m.clockId → s.now ≤ b.gmAt + 3000000 * ccPerUs →
        Completes (.syncReceive m) s fun t =>
          t.band = { b with ignored := m.clockId :: b.ignored } ∧ Raised R.bandTimeEvt 14 s t ∧ OnlyParts [.band, .csr, .glb] s t)
      ∧ (b.gm = none ∨ b.gm = some m.clockId → m.valid = true → b.st ≠ .locked1588 → b.st ≠ .holdover →
        Completes (.syncReceive m) s fun t =>
          t.band = { b with gm := some m.clockId, gmAt := s.now, ptpAt := some s.now, syncRaw := stamp - m.originNs } ∧ OnlyParts [.band] s t)))
    ∧ (∀ x, b.ptpAt = some x → (x + 3000000 * ccPerUs ≤ s.now → Completes .ptpOkLoss s fun t =>
        t.band.ptpAt = none ∧ (b.src = 2 → b.st = .locked1588 → t.band.st = .holdover ∧ Raised R.bandTimeEvt 12 s t)
          ∧ (b.src ≠ 2 ∨ b.st ≠ .locked1588 → t.band = { b with ptpAt := none }) ∧ OnlyParts [.band, .csr, .glb] s t)
      ∧ (s.now < x + 3000000 * ccPerUs → exec .ptpOkLoss s = .next s))

/-! ## Ageing (chapter 12) -/

/-- R40, R45, R491, R492, R495: a TRAIN step within its budget arms the measurement of a port whose equalisation has changed, else
the hourly one, each pavilion that is not fenced lending a slot, at most one in 256, or the next port's; a port's asks for 255 MARGIN
flits, and one that is not ACTIVE is skipped. An armed measurement takes, after its 2^16 cc, every ring-oscillator pair outside the
fenced pavilions, whose D comes from the two counts and the factory ratio (its rounding is the model's, log entry 324), or, once the
MARGIN flits are over, the port's margins with the setting they were made at, the next port being due 15 min later; beyond the budget nothing happens (the Lodge time that a measurement takes is an operand, the
model's choice, log entry 294); a day of powered time writes one record of 64 bytes to the next slot of the ledger ring and
nothing else of the Icehouse, and the plan follows; an equalisation change that measures 2/64 UI worse within 1 s is to be reverted
(one not measured by then stands, log entry 325). Before its time a measurement or a record changes nothing. -/
def Obligations.AgeingMeasurementsAndRecords : Prop :=
  ∀ s : State, s.alive = true → s.canon →
    let l := s.lodge
    (∀ (i : Nat) (x : RingCount), 0 < x.reference * (Config.ringFuse i).1 → x.stressed * (Config.ringFuse i).2 ≤ x.reference * (Config.ringFuse i).1 →
      ringD i x = 10000 * (x.reference * (Config.ringFuse i).1 - x.stressed * (Config.ringFuse i).2) / (x.reference * (Config.ringFuse i).1))
    ∧ (∀ (d : List RingCount) (k : Nat), rising l.roD → rising l.roSum → s.clocksRun = true → s.fits .train k → l.roArm = true →
      l.roArmAt + 65536 ≤ s.now →
      Completes (.ringOscillatorMeasure ⟨d, k⟩) s fun t =>
        t.lodge.roAt = s.now + hourCc ∧ t.lodge.roArm = false ∧ t.glb = { s.glb with used := t.glb.used } ∧ OnlyParts [.lodge, .glb] s t
          ∧ ∀ i, i < 64 → ∀ x, x = ringD i (d.getD i { stressed := 0, reference := 0 }) →
            (s.isFenced (pavOf (i / 4)) = true → FMap.find? t.lodge.roD i = FMap.find? l.roD i ∧ FMap.find? t.lodge.roSum i = FMap.find? l.roSum i)
            ∧ (s.isFenced (pavOf (i / 4)) = false → FMap.find? t.lodge.roD i = some x
              ∧ FMap.find? t.lodge.roSum i = some (((FMap.find? l.roSum i).getD (0, 0)).1 + x, ((FMap.find? l.roSum i).getD (0, 0)).2 + 1)))
    ∧ (∀ (d : List RingCount) (k : Nat), ¬s.fits .train k → exec (.ringOscillatorMeasure ⟨d, k⟩) s = .next s)
    ∧ (∀ (d : List RingCount) (k : Nat), s.clocksRun = false ∨ l.roArm = false ∨ s.now < l.roArmAt + 65536 → Completes (.ringOscillatorMeasure ⟨d, k⟩) s fun t => OnlyParts [.glb] s t)
    ∧ (∀ (n : PortId) (r : EyeResult) (k : Nat), s.clocksRun = true → s.fits .train k → l.eyeArm = true → l.nextEye = n.val →
      ((s.port n).link.st = .active → s.marginOver n l.eyeArmAt = true → Completes (.portMarginMeasure n ⟨r, k⟩) s fun t =>
        t.lodge = { l with eyeArm := false, nextEye := (n.val + 1) % 96, eyeAt := s.now + 900000000 * ccPerUs }
          ∧ (t.port n).link = { (s.port n).link with marginIn := 0 } ∧ (t.port n).io.eyeEq = (s.port n).link.eqSetting ∧ (t.port n).io.eyeH = r.h ∧ (t.port n).io.eyeV = r.v ∧ (t.port n).io.eyeGen = (s.port n).link.gen ∧ (t.port n).io.eyeNew = true
          ∧ OnlyPort n s t ∧ OnlyParts [.ports, .lodge, .glb] s t)
      ∧ ((s.port n).link.st ≠ .active → Completes (.portMarginMeasure n ⟨r, k⟩) s fun t =>
        t.lodge = { l with eyeArm := false, nextEye := (n.val + 1) % 96, eyeAt := s.now + 900000000 * ccPerUs } ∧ OnlyParts [.lodge, .glb] s t))
    ∧ (s.clocksRun = true → ∀ k, s.fits .train k →
      (∀ n, s.eqDue = some n → Completes (.lodgeServiceStep .train k) s fun t =>
        (t.port n).link = { (s.port n).link with ctlReq := some (2, 255, s.now), ctlOut := (s.port n).link.ctlOut ++ [(2, 0, 255)], marginIn := 255 }
          ∧ (t.port n).io = { (s.port n).io with eqArm := some s.now } ∧ OnlyPort n s t ∧ OnlyParts [.ports, .glb] s t)
      ∧ (s.eqDue = none → l.roAt ≤ s.now → l.roArm = false →
        (∀ p, s.isFenced p = false → FMap.find? s.blv.slot p.val = none ∧ (∀ x, (s.pav p).lent = some x → x + 256 ≤ s.now)) →
        Completes (.lodgeServiceStep .train k) s fun t =>
          t.lodge = { l with roArm := true, roArmAt := s.now } ∧ (∀ p, s.isFenced p = false → t.pav p = { s.pav p with lent := some s.now })
            ∧ (∀ p, s.isFenced p = true → t.pav p = s.pav p) ∧ OnlyParts [.lodge, .pavs, .blv, .glb] s t)
      ∧ (s.eqDue = none → s.now < l.roAt → l.eyeAt ≤ s.now → l.eyeArm = false → ∀ n : PortId, l.nextEye = n.val →
        ((s.port n).link.st = .active → (s.port n).link.ctlReq = none → (s.port n).link.marginIn = 0 → Completes (.lodgeServiceStep .train k) s fun t =>
          t.lodge = { l with eyeArm := true, eyeArmAt := s.now }
            ∧ (t.port n).link = { (s.port n).link with ctlReq := some (2, 255, s.now), ctlOut := (s.port n).link.ctlOut ++ [(2, 0, 255)], marginIn := 255 }
            ∧ (t.port n).io = (s.port n).io ∧ OnlyPort n s t ∧ OnlyParts [.ports, .lodge, .glb] s t)
        ∧ ((s.port n).link.st ≠ .active → Completes (.lodgeServiceStep .train k) s fun t =>
          t.lodge = { l with nextEye := (n.val + 1) % 96 } ∧ OnlyParts [.lodge, .glb] s t)))
    ∧ (s.fits .ice 4 → l.dayStart + 24 * hourCc ≤ s.now → Completes .ageingRecord s fun t =>
      iceRead t.lodge.ice (ledgerBase + 64 * l.ledgerPos) 64 = s.ledgerBytes
        ∧ (∀ a, a < ledgerBase + 64 * l.ledgerPos ∨ ledgerBase + 64 * l.ledgerPos + 64 ≤ a → iceByte t.lodge.ice a = iceByte l.ice a)
        ∧ t.lodge.ledgerPos = (l.ledgerPos + 1) % 32768 ∧ t.lodge.lseq = (l.lseq + 1) % 2 ^ 32 ∧ t.lodge.powered = l.powered + 24
        ∧ t.lodge.day = l.day + 1 ∧ t.lodge.dayStart = l.dayStart + 24 * hourCc ∧ t.lodge.roSum = [] ∧ t.lodge.planSeq = (l.planSeq + 1) % 256
        ∧ (t.rget R.lodgeAgeEvt).getLsbD 8 = true ∧ OnlyParts [.ports, .pavs, .chans, .stks, .glb, .lodge, .csr] s t)
    ∧ (¬s.fits .ice 4 → exec .ageingRecord s = .next s)
    ∧ (s.now < l.dayStart + 24 * hourCc → Completes .ageingRecord s fun t => t.lodge = l ∧ OnlyParts [.glb] s t)
    ∧ (∀ (n : PortId) (r : EyeResult) (k : Nat),
      (¬s.fits .train k → exec (.eqChangeCheck n ⟨r, k⟩) s = .next s)
      ∧ (s.fits .train k → (s.port n).io.eqChg = none ∨ (s.port n).io.eqArm = none ∨ (s.port n).link.st ≠ .active ∨ s.clocksRun = false →
        Completes (.eqChangeCheck n ⟨r, k⟩) s fun t => OnlyParts [.glb] s t)
      ∧ (∀ old dir h x y, s.fits .train k → s.clocksRun = true → (s.port n).io.eqChg = some (old, dir, h, x) → (s.port n).io.eqArm = some y →
        (s.port n).link.st = .active → s.marginOver n y = true →
        (x + 1000000 * ccPerUs < s.now → Completes (.eqChangeCheck n ⟨r, k⟩) s fun t =>
          (t.port n).io = { (s.port n).io with eqChg := none, eqArm := none } ∧ OnlyPort n s t ∧ OnlyParts [.ports, .glb] s t)
        ∧ (s.now ≤ x + 1000000 * ccPerUs → Completes (.eqChangeCheck n ⟨r, k⟩) s fun t =>
        (t.port n).io.eqChg = none ∧ (t.port n).io.eqArm = none ∧ (t.port n).io.eyeH = r.h ∧ (t.port n).io.eyeV = r.v
          ∧ (t.port n).link = { (s.port n).link with marginIn := 0 }
          ∧ (worst r.h + 2 ≤ h → (t.port n).io.eqPend = some (old, none) ∧ (t.port n).io.eqBlock = (dir, l.day) :: (s.port n).io.eqBlock)
          ∧ (h < worst r.h + 2 → (t.port n).io.eqPend = (s.port n).io.eqPend ∧ (t.port n).io.eqBlock = (s.port n).io.eqBlock)
          ∧ OnlyPort n s t ∧ OnlyParts [.ports, .glb] s t)))

/-! ## Observation (chapter 14) -/

/-- R519, R538, R539, R542, R543: a counter written through its pair takes both words in one write, and its low word alone keeps the
rest as it was before the increments of this cc; CLEAR and ARM wait for the next apply window; an accepted group read reads its counters in slot order, each at most 64 cc
after the one before and counters of one instance together, and one that is busy or names no counter is rejected; the last value
sets GRP_DONE. -/
def Obligations.CountersAndGroupReads : Prop :=
  ∀ s : State, s.alive = true → s.canon → s.glb.pwr ≠ .hibernate →
    (∀ a : Access, s.privileged a = true →
      ∀ u, u = s.cntGlob 3 →
      (Completes (.clear a) s fun t => t.blv = { u.blv with clearPend := true } ∧ OnlyParts [.blv, .csr, .glb, .pairs] s t)
      ∧ (Completes (.arm a) s fun t => t.blv = { u.blv with armed := true } ∧ OnlyParts [.blv, .csr, .glb, .pairs] s t)
      ∧ (∀ (i : Fin 552) (v : W32),
        let old := (FMap.find? u.blv.cntOld i.val).getD (u.blv.cnt[i], u.blv.ovf[i])
        let reads (c : BitVec 48) (o : Bool) (t : State) : Prop :=
          t.blv = { u.blv with cnt := u.blv.cnt.set i c, ovf := u.blv.ovf.set i o, cntOld := FMap.insert u.blv.cntOld i.val (c, o) }
            ∧ (t.pairOf a.master).hold = none ∧ OnlyParts [.blv, .csr, .glb, .pairs] s t
        (∀ x, (s.pairOf a.master).hold = some (R.blvImgHi i, x, true) → Completes (.counterWrite a i false v) s
            (reads (BitVec.ofNat 48 (bitsOf x 15 0 * 2 ^ 32 + v.toNat)) (x.getLsbD 31)))
          ∧ ((∀ x, (s.pairOf a.master).hold ≠ some (R.blvImgHi i, x, true)) → Completes (.counterWrite a i false v) s
            (reads (BitVec.ofNat 48 (old.1.toNat / 2 ^ 32 * 2 ^ 32 + v.toNat)) old.2))
          ∧ (Completes (.counterWrite a i true v) s fun t =>
            t.blv = u.blv ∧ (t.pairOf a.master).hold = some (R.blvImgHi i, v, true) ∧ OnlyParts [.blv, .csr, .glb, .pairs] s t))
      ∧ (∀ v : W32, ∀ is, is = s.grpIndices (bitsOf v 2 0 + 1) →
        (s.blv.grpBusy = false → (∀ i ∈ is, i ≤ 551) → Completes (.groupRead a v) s fun t =>
          t.blv.grpBusy = true ∧ t.blv.cnt = u.blv.cnt ∧ t.blv.grpDue.map (fun x => x.2.2) = is
            ∧ t.blv.grpDue.map (fun x => x.2.1) = List.range is.length
            ∧ (∀ x ∈ t.blv.grpDue.head?, s.now < x.1 ∧ x.1 ≤ s.now + 64)
            ∧ t.blv.grpDue.IsChain (fun x y => x.1 ≤ y.1 ∧ y.1 ≤ x.1 + 64 ∧ (cntInstance x.2.2 = cntInstance y.2.2 → y.1 = x.1))
            ∧ OnlyParts [.blv, .csr, .glb, .pairs, .freeCtr] s t)
        ∧ (s.blv.grpBusy = true ∨ (∃ i ∈ is, 551 < i) → Completes (.groupRead a v) s fun t =>
          t.blv.grpDue = s.blv.grpDue ∧ t.blv.grpBusy = s.blv.grpBusy ∧ (t.rget R.glbCfgRejectEvt).getLsbD 8 = true
            ∧ t.rget R.blvGrpCtl = s.rget R.blvGrpCtl ∧ OnlyParts [.blv, .csr, .glb, .pairs, .lodge] s t)))
    ∧ (s.blv.grpBusy = true → s.blv.grpDue = [] → Completes .groupReadDone s fun t =>
      t.blv = { s.blv with grpBusy := false } ∧ Raised R.blvEvt 10 s t ∧ OnlyParts [.blv, .csr, .glb] s t)
    ∧ (s.blv.grpBusy = false ∨ s.blv.grpDue ≠ [] → exec .groupReadDone s = .next s)

/-- R47, R48, R550, R553 to R556: a traced occurrence that passes the filters and its sampling is staged, or lost where staging was full as
the cc began;
an export that has waited closes a frame with a record in it and sets IDLE; TRC_POP[0] latches the next record and TRC_POP[3]
removes it; a DMA write carries at most 16 available records within the ring and moves HEAD; MARK, REWIND and MARK_CLR move the
mark and the read position, and a REWIND without a mark is rejected. -/
def Obligations.TraceBufferCommands : Prop :=
  ∀ s : State, s.alive = true → s.canon → s.glb.pwr ≠ .hibernate →
    let b := s.blv
    (∀ (src kind port plot : Nat) (addr : BitVec 48) (det : BitVec 16),
      let rec_ := (s.band.sec, trcRec s.band.ns kind src port plot addr.toNat det.toNat)
      let occ := b.occ.erase { src := src, kind := kind, port := port, plot := plot, addr := addr, detail := det }
      (s.rbit R.blvTrcCtl 31 = false ∨ s.trcPass kind src port plot addr.toNat = false → Completes (.traceRecord src kind port plot addr det) s fun t =>
        t.blv = { b with occ := occ } ∧ OnlyParts [.blv] s t)
      ∧ (s.rbit R.blvTrcCtl 31 = true → s.trcPass kind src port plot addr.toNat = true → s.rf R.blvTrcCfg 27 24 = 0 →
        (b.staging.length + b.stPop.at_ s.now < 64 → Completes (.traceRecord src kind port plot addr det) s fun t =>
          t.blv = { b with occ := occ, sampleCtr := b.sampleCtr + 1, staging := b.staging ++ [rec_] } ∧ OnlyParts [.blv] s t)
        ∧ (64 ≤ b.staging.length + b.stPop.at_ s.now → Completes (.traceRecord src kind port plot addr det) s fun t =>
          t.blv.staging = b.staging ∧ t.blv.buf = b.buf ∧ (t.rget R.blvTrcStat).getLsbD 13 = true
            ∧ (s.softFree R.blvTrcLost → t.rf R.blvTrcLost 15 0 = satAdd (s.rf R.blvTrcLost 15 0) 1 (2 ^ 16 - 1)) ∧ OnlyParts [.blv, .csr, .glb] s t)))
    ∧ (∀ k, k = s.rf R.blvTrcCfg 15 0 →
      (k ≠ 0 → b.rd < b.wr → b.idleAt + k * ccPerUs ≤ s.now → Completes .traceIdleTimeout s fun t =>
        t.blv.idleAt = s.now ∧ (t.rget R.blvTrcStat).getLsbD 12 = true
          ∧ (b.openFrame = none → t.blv = { b with idleAt := s.now }) ∧ (∀ f, b.openFrame = some f → f.count < 2 → t.blv = { b with idleAt := s.now })
          ∧ (∀ f, b.openFrame = some f → 2 ≤ f.count → t.blv.openFrame = none ∧ t.blv.wr = b.wr + 1) ∧ OnlyParts [.blv, .csr, .glb] s t)
      ∧ (k = 0 ∨ b.wr ≤ b.rd ∨ s.now < b.idleAt + k * ccPerUs → exec .traceIdleTimeout s = .next s))
    ∧ (∀ a : Access, s.privileged a = true → ∀ u, u = s.cntGlob 3 →
      (s.trcDma = false → s.trcAvail ≠ 0 → Completes (.tracePopLatch a) s fun t =>
        t.blv = { u.blv with pop := some (s.trcAt b.rd, b.rd) } ∧ OnlyParts [.blv, .csr, .glb, .outs] s t
          ∧ t.outs = .read a.master (R.blvTrcPop 0) (BitVec.ofNat 64 ((s.trcAt b.rd).toNat % 2 ^ 32)) :: s.outs)
      ∧ (∀ r, s.trcDma = false → b.pop = some (r, b.rd) → Completes (.tracePopRemove a) s fun t =>
        t.blv = { u.blv with pop := none, rd := b.rd + 1, idleAt := s.now } ∧ OnlyParts [.blv, .csr, .glb, .outs] s t
          ∧ t.outs = .read a.master (R.blvTrcPop 3) (BitVec.ofNat 64 (r.toNat / 2 ^ 96 % 2 ^ 32)) :: s.outs)
      ∧ (s.trcDma = false →
        (∀ f, (b.frames.find? fun x => decide (x.first ≤ b.rd) && decide (b.rd < x.first + x.count)) = some f → Completes (.mark a) s fun t =>
          t.blv = { u.blv with mark := some f.first } ∧ OnlyParts [.blv, .csr, .glb, .pairs] s t)
        ∧ (∀ k, b.mark = some k → Completes (.rewind a) s fun t =>
          t.blv.rd = k ∧ t.blv.mark = some k ∧ t.blv.wr = b.wr ∧ t.blv.buf = b.buf ∧ OnlyParts [.blv, .csr, .glb, .pairs] s t)
        ∧ (b.mark = none → Completes (.rewind a) s fun t =>
          t.blv.rd = b.rd ∧ t.blv.mark = none ∧ (t.rget R.blvTrcStat).getLsbD 11 = true ∧ (t.rget R.glbCfgRejectEvt).getLsbD 8 = true
            ∧ OnlyParts [.blv, .csr, .glb, .pairs, .lodge] s t))
      ∧ (Completes (.markClr a) s fun t => t.blv = { u.blv with mark := none } ∧ OnlyParts [.blv, .csr, .glb, .pairs] s t))
    ∧ (∀ ring head free n, ring = 4096 * 2 ^ s.rf R.blvTrcDmaCfg 4 0 → head = b.head % ring →
      free = ((s.rget R.blvTrcDmaTail).toNat % ring + 2 * ring - head - 16) % ring / 16 → n = min (min s.trcAvail 16) (min ((ring - head) / 16) free) →
      (s.trcDma = false ∨ n = 0 → exec .traceDmaWrite s = .next s)
      ∧ (s.trcDma = true → n ≠ 0 → Completes .traceDmaWrite s fun t =>
        t.outs = .dma ((s.rget R.blvTrcDmaBaseLo).toNat + (s.rget R.blvTrcDmaBaseHi).toNat * 2 ^ 32 + head)
            ((List.range n).map fun i => s.trcAt (b.rd + i)) :: s.outs
          ∧ t.blv = { b with head := (head + 16 * n) % ring, rd := b.rd + n, idleAt := s.now } ∧ OnlyParts [.blv, .outs] s t))

/-! ## Management (chapter 11) -/

/-- R45, R452, R456, R463, R468, R470: a mailbox request waits for the Lodge, and one while another waits is rejected; a service
step beyond its budget changes nothing, and within it the DICT service answers the waiting read with DONE, ahead of a network
frame that came in a later tick or the same, and the ICE service writes 16 bytes of a commit's bank for each 50 ns, from the
tick after it. A commit, or a good image, zeroes the valid mark of the bank not in force and nothing else of the Icehouse, at
once or, where the ICE budget has no room, as the service's first step; a good read-back of the mark makes that bank the one in force, a second bad one gives the commit up. A right proof opens the
mailbox session, a wrong one reports AUTH_FAIL; idle sessions and transfers time out. COMMIT, IMAGE_LOAD and the session's proof
stand for the served write (the model's choice, log entry 298). -/
def Obligations.MailboxAndCommit : Prop :=
  ∀ s : State, s.alive = true → s.canon →
    let l := s.lodge
    let started (c : Commit) (t : State) : Prop :=
      t.lodge.commit = some { c with since := s.glb.tickNum } ∧ (¬s.fits .ice 4 → t.lodge.ice = l.ice)
        ∧ (s.fits .ice 4 → bankRead t.lodge.ice c.bank = none
          ∧ ∀ x, x < markBase c.bank ∨ markBase c.bank + 64 ≤ x → iceByte t.lodge.ice x = iceByte l.ice x)
        ∧ t.lodge.bank = l.bank ∧ OnlyParts [.lodge, .csr, .glb] s t
    let mayWrite (m : Master) : Prop := m = .lodge ∨ (s.privileged { master := m, priv := true } = true ∧ l.mbxReq = none)
    (∀ (a : Access) (v : W32), s.privileged a = true →
      (l.mbxReq = none → Completes (.mailboxRequest a v) s fun t =>
        ∃ w, t.lodge.mbxReq = some (w, s.rget R.lodgeMbxArg) ∧ w &&& 0x60FFFFFF = v &&& 0x60FFFFFF
          ∧ OnlyParts [.lodge, .csr, .glb, .blv, .pairs] s t)
      ∧ (∀ x, l.mbxReq = some x → Completes (.mailboxRequest a v) s fun t =>
        t.lodge.mbxReq = some x ∧ (t.rget R.lodgeMbxStat).getLsbD 10 = true ∧ (t.rget R.glbCfgRejectEvt).getLsbD 8 = true
          ∧ t.rget R.lodgeMbxCmd = s.rget R.lodgeMbxCmd ∧ OnlyParts [.lodge, .csr, .glb, .blv, .pairs] s t))
    ∧ (∀ (v : Service) (k : Nat), ∀ i, i = Machine.Service.num v → ∀ w, w = s.glb.used.getD i 0 + k →
      (s.glb.scaled.getD i 0 < w → exec (.lodgeServiceStep v k) s = .next s)
      ∧ (w ≤ s.glb.scaled.getD i 0 →
        let z := s.modGlb fun g => { g with used := g.used.set i w }
        (v = .scrub ∨ (v = .ice ∧ l.commit = none) ∨ (v = .dict ∧ l.mbxReq = none ∧ ∀ x rest, l.netq = x :: rest → x.1 = s.glb.tickNum) → exec (.lodgeServiceStep v k) s = .next z)
        ∧ (v = .dict → ∀ cmd arg, l.mbxReq = some (cmd, arg) → (∀ x rest, l.netq = x :: rest → l.mbxTick ≤ x.1) →
          let r := (z.modLodge fun y => { y with mbxLast := s.now }).dictRead .mailbox (bitsOf cmd 23 8) (bitsOf cmd 7 0) (2 * bitsOf arg 31 9) (bitsOf arg 8 0)
          cmd.getLsbD 30 = false → bitsOf arg 8 0 ≤ 256 → Completes (.lodgeServiceStep v k) s fun t =>
            t.lodge.mbxReq = none ∧ t.lodge.mbxAbort = r.2.1 ∧ t.lodge.mbxRlen = r.2.2.length ∧ (t.rget R.lodgeMbxStat).getLsbD 8 = true
              ∧ t.lodge.netq = l.netq ∧ t.lodge.ice = l.ice)
        ∧ (v = .ice → ∀ c, l.commit = some c →
          (c.since = s.glb.tickNum → exec (.lodgeServiceStep v k) s = .next z)
          ∧ (c.since ≠ s.glb.tickNum → c.stage = 1 → c.pos = 0 → iceRead l.ice (markBase c.bank) 64 ≠ zeros 64 → 4 ≤ k →
            Completes (.lodgeServiceStep v k) s fun t => bankRead t.lodge.ice c.bank = none ∧ t.lodge.commit = some c
              ∧ (∀ x, x < markBase c.bank ∨ markBase c.bank + 64 ≤ x → iceByte t.lodge.ice x = iceByte l.ice x) ∧ OnlyParts [.glb, .lodge] s t)
          ∧ (c.since ≠ s.glb.tickNum → c.stage = 1 → c.pos < c.total → (c.pos = 0 → iceRead l.ice (markBase c.bank) 64 = zeros 64) → Completes (.lodgeServiceStep v k) s fun t =>
            t.lodge.commit = some { c with pos := min c.total (c.pos + 16 * k) }
              ∧ (∀ x, x < bankBase c.bank + c.pos ∨ bankBase c.bank + min c.total (c.pos + 16 * k) ≤ x → iceByte t.lodge.ice x = iceByte l.ice x)
              ∧ (∀ x, c.pos ≤ x → x < min c.total (c.pos + 16 * k) → iceByte t.lodge.ice (bankBase c.bank + x) = (c.header ++ c.body).getD x 0)
              ∧ OnlyParts [.glb, .lodge] s t))))
    ∧ (∀ (m : Master) (v k : Nat), mayWrite m → (¬s.fits .dict k → exec (.commit m ⟨v, k⟩) s = .next s) ∧ (s.fits .dict k →
      (l.commit = none → v % 2 ^ 32 = 0x434D4954 → Completes (.commit m ⟨v, k⟩) s
        (started { bank := l.target, body := s.commitBody, flags := 0, seq := (l.seq + 1) % 2 ^ 32, eng := l.keyEngC, fac := l.keyFacC, node := l.node }))
      ∧ (l.commit ≠ none ∨ v % 2 ^ 32 ≠ 0x434D4954 → Completes (.commit m ⟨v, k⟩) s fun t =>
        t.lodge.commit = l.commit ∧ t.lodge.ice = l.ice ∧ (m ≠ .lodge → t.lodge.mbxAbort ≠ 0) ∧ OnlyParts [.lodge, .csr, .glb] s t)))
    ∧ (∀ (img : List Byte) (k : Nat), s.fits .dict k → ∀ hdr body, hdr = img.take 64 → body = (img.drop 64).take (headerLen hdr) → img.length ≤ 0x200000 →
      (l.commit = none → 64 ≤ img.length → headerOk hdr = true → body.length = headerLen hdr → bodyOk hdr body = true →
        Completes (.imageLoad .lodge ⟨img, k⟩) s
          (started { bank := l.target, body := body, flags := field hdr 6 2, seq := (l.seq + 1) % 2 ^ 32, load := true }))
      ∧ (l.commit ≠ none ∨ img.length < 64 ∨ headerOk hdr = false ∨ body.length ≠ headerLen hdr ∨ bodyOk hdr body = false →
        Completes (.imageLoad .lodge ⟨img, k⟩) s fun t => t.lodge.commit = l.commit ∧ t.lodge.ice = l.ice ∧ OnlyParts [.lodge, .glb] s t))
    ∧ (∀ ok : Bool, l.commit = none ∨ (∃ c, l.commit = some c ∧ c.checked = false) → exec (.commitDone ok) s = .next s)
    ∧ (∀ c : Commit, l.commit = some c → c.checked = true →
      (c.stage = 3 → Completes (.commitDone true) s fun t =>
        t.lodge.commit = none ∧ t.lodge.commitRes = 1 ∧ t.lodge.bank = c.bank ∧ t.lodge.seq = c.seq ∧ t.lodge.ice = l.ice
          ∧ Raised R.iceEvt 8 s t ∧ OnlyParts [.lodge, .csr, .glb, .ports] s t)
      ∧ (c.again = true → ¬s.fits .ice 4 → exec (.commitDone false) s = .next s)
      ∧ (c.again = true → s.fits .ice 4 → Completes (.commitDone false) s fun t =>
        t.lodge.commit = none ∧ t.lodge.commitRes = 2 ∧ t.lodge.bank = l.bank ∧ bankRead t.lodge.ice c.bank = none
          ∧ Raised R.iceEvt 9 s t ∧ OnlyParts [.lodge, .csr, .glb] s t)
      ∧ (c.again = false → Completes (.commitDone false) s (started { c with stage := 1, pos := 0, again := true })))
    ∧ (∀ u, s.fits .dict u → ∀ k c, l.keyFac = some k → l.mbxChal = some c → l.mbxReq = none →
      (Completes (.mailboxSessionOpen ⟨3 :: leBytes (proofOf k c 3 0).toNat 16, u⟩) s fun t =>
        t.lodge.mbxLevel = 3 ∧ t.lodge.mbxLast = s.now ∧ t.lodge.mbxChal = none ∧ t.lodge.mbxAbort = 0 ∧ OnlyParts [.lodge, .csr, .glb] s t)
      ∧ (∀ bs : List Byte, bs.length = 16 → bs ≠ leBytes (proofOf k c 3 0).toNat 16 → Completes (.mailboxSessionOpen ⟨3 :: bs, u⟩) s fun t =>
        t.lodge.mbxLevel = l.mbxLevel ∧ t.lodge.mbxChal = none ∧ t.lodge.mbxAbort = 14 ∧ Raised R.iceEvt 10 s t
          ∧ OnlyParts [.lodge, .csr, .glb, .blv] s t))
    ∧ (l.netLevel ≠ 0 → l.netLast + sessCc ≤ s.now → Completes (.sessionTimeout true) s fun t =>
      t.lodge = { l with netLevel := 0, netSess := 0, netKey := 0 } ∧ OnlyParts [.lodge] s t)
    ∧ (l.mbxLevel ≠ 0 → l.mbxLast + sessCc ≤ s.now → Completes (.sessionTimeout false) s fun t =>
      t.lodge = { l with mbxLevel := 0 } ∧ OnlyParts [.lodge] s t)
    ∧ (s.now < l.netLast + sessCc → exec (.sessionTimeout true) s = .next s) ∧ (s.now < l.mbxLast + sessCc → exec (.sessionTimeout false) s = .next s)
    ∧ (∀ (net : Bool) (d : DomWrite), ∀ p, p = (if net then Party.network else Party.mailbox) → s.domOf p = some d → d.stale = false →
      (d.last + 1000000 * ccPerUs < s.now → Completes (.domainTransferTimeout net) s fun t =>
        t.domOf p = some { d with bytes := [], stale := true } ∧ OnlyParts [.lodge] s t)
      ∧ (s.now ≤ d.last + 1000000 * ccPerUs → exec (.domainTransferTimeout net) s = .next s))

/-- R448, R454, R455, R457 to R462, R471: a frame that is not for the hub changes nothing. A READ or WRITE for it completes by
waiting, in a queue without a bound (log entry 174), for the dictionary service, a step of which in a later tick does one with a new XID once
and keeps its answer; the same XID again gets the same answer. ASSIGN is taken by an unassigned hub under CHAIN_IN and its
acknowledgement gives the node and PLCA ID. SESS_OPEN draws a challenge; the right proof opens the session, a wrong one counts
and the third locks; SESS_CLOSE acts only with a good TAG. The oldest event record goes to the next slot of the history ring,
and one EVENT frame per tick reports one: a record that comes behind it is not reported. -/
def Obligations.ManagementNetwork : Prop :=
  ∀ s : State, s.alive = true → s.canon →
    let l := s.lodge
    (∀ f : Frame, ∀ x ∈ [(1, Instr.read f), (2, .write f), (0x10, .assign f), (0x20, .sessOpen f), (0x22, .sessProve f), (0x23, .sessClose f)],
      s.netTakes x.1 f = false → exec x.2 s = .next s)
    ∧ (∀ f : Frame,
      (s.netTakes 1 f = true → Completes (.read f) s fun t =>
        t.lodge = { l with ctlMac := f.srcMac, netq := l.netq ++ [(s.glb.tickNum, 1, f)] } ∧ OnlyParts [.lodge] s t)
      ∧ (s.netTakes 2 f = true → Completes (.write f) s fun t =>
        t.lodge = { l with ctlMac := f.srcMac, netq := l.netq ++ [(s.glb.tickNum, 2, f)] } ∧ OnlyParts [.lodge] s t))
    ∧ (∀ (f : Frame) (x ty k : Nat) (rest : List (Nat × Nat × Frame)), l.netq = (x, ty, f) :: rest → (l.mbxReq = none ∨ x < l.mbxTick) →
      x ≠ s.glb.tickNum → s.netTakes ty f = true → f.sess = 0 → s.fits .dict k →
      let b := f.payload
      let h := ((s.modGlb fun g => { g with used := g.used.set 2 (g.used.getD 2 0 + k) }).modLodge fun y => { y with netq := rest }).netHeard f
      let answers (u : State) (bs : List Byte) : Prop :=
        exec (.lodgeServiceStep .dict k) s
          = .next ((u.modLodge fun y => { y with lastXid := some f.xid, lastResp := u.netFrame 3 f.xid.toNat bs false }).netSend (u.netFrame 3 f.xid.toNat bs false))
      let rd := h.dictRead .network (field b 0 2) (field b 2 1) (field b 4 4) (field b 8 2)
      let wr := h.dictWrite .network 0 false (field b 0 2) (field b 2 1) (field b 4 4) (field b 3 1 % 2 = 1) (b.drop 10)
      (l.lastXid = some f.xid → exec (.lodgeServiceStep .dict k) s = .next (h.netSend l.lastResp))
      ∧ (l.lastXid ≠ some f.xid → ty = 1 → b.length = 10 → field b 8 2 ≤ 1024 → answers rd.1 (BitVec.ofNat 8 rd.2.1 :: rd.2.2))
      ∧ (l.lastXid ≠ some f.xid → ty = 2 → b.length = 10 + field b 8 2 → field b 8 2 ≤ 1024 → answers wr.1 [BitVec.ofNat 8 wr.2]))
    ∧ (∀ f : Frame, f.sess = 0 →
      let b := f.payload
      (s.netTakes 0x10 f = true → b.length = 2 → l.node = 0xFF → l.assign = none → s.glb.chainIn = true → field b 0 1 ≤ 0xFD → 1 ≤ field b 1 1 → field b 1 1 ≤ 16 →
        Completes (.assign f) s fun t => t.lodge = { l with ctlMac := f.srcMac, assign := some (field b 0 1, field b 1 1, f.xid) } ∧ OnlyParts [.lodge] s t)
      ∧ (∀ lv : Byte, s.netTakes 0x20 f = true → b = [lv] → lv = 2 ∨ lv = 3 → l.lockedAt = none → (l.keyOf lv.toNat).isSome = true → l.plca ≠ 0 →
        ∀ c n, c = Config.random s.freeCtr → n = 1 + (Config.random (s.freeCtr + 1)).toNat % 65535 →
        Completes (.sessOpen f) s fun t =>
          t.lodge = { l with ctlMac := f.srcMac, netLevel := 0, netSess := 0, netKey := 0, netChal := some (lv.toNat, n, c) } ∧ t.freeCtr = s.freeCtr + 2
            ∧ t.outs = .frame (ethFrame f.srcMac hubMac 0x88B5 (s.netFrame 0x21 f.xid.toNat ([0] ++ leBytes n 2 ++ leBytes c.toNat 16) false)) :: s.outs
            ∧ OnlyParts [.lodge, .outs, .freeCtr] s t)
      ∧ (∀ lv n c k, s.netTakes 0x22 f = true → l.netChal = some (lv, n, c) → l.keyOf lv = some k → b.length = 16 →
        (leBytes (proofOf k c lv n).toNat 16 = b → Completes (.sessProve f) s fun t =>
          t.lodge.netLevel = lv ∧ t.lodge.netSess = n ∧ t.lodge.fails = 0 ∧ t.lodge.netChal = none ∧ t.lodge.netLast = s.now
            ∧ OnlyParts [.lodge, .outs] s t)
        ∧ (leBytes (proofOf k c lv n).toNat 16 ≠ b → Completes (.sessProve f) s fun t =>
          t.lodge.netLevel = l.netLevel ∧ t.lodge.netChal = none ∧ t.lodge.fails = l.fails + 1 ∧ Raised R.iceEvt 10 s t
            ∧ t.lodge.lockedAt = (if l.fails + 1 = 3 then some s.now else l.lockedAt) ∧ OnlyParts [.lodge, .csr, .glb, .blv, .outs] s t)))
    ∧ (∀ f : Frame, s.netTakes 0x23 f = true → f.sess ≠ 0 →
      let good : Prop := l.netLevel ≠ 0 ∧ f.sess.toNat = l.netSess
        ∧ leBytes f.tag.toNat 8 = tagOfPdu l.netKey (pduBytes 0x23 f.src.toNat f.dst.toNat f.xid.toNat f.sess.toNat f.payload)
      (good → Completes (.sessClose f) s fun t => t.lodge.netLevel = 0 ∧ t.lodge.netSess = 0 ∧ t.lodge.netKey = 0 ∧ OnlyParts [.lodge] s t)
      ∧ (¬good → Completes (.sessClose f) s fun t => t.lodge = { l with ctlMac := f.srcMac } ∧ OnlyParts [.lodge, .outs] s t))
    ∧ (∀ node plca xid, l.assign = some (node, plca, xid) →
      (plca ≠ 0 → Completes (.assignAck false) s fun t =>
        t.lodge = { l with assign := none, node := node, plca := plca, nodePend := true } ∧ t.glb = { s.glb with chainOut := true }
          ∧ t.outs = .frame (ethFrame l.ctlMac hubMac 0x88B5 (pduBytes 0x11 node 0xFE xid.toNat 0 (leBytes node 1 ++ leBytes Config.serial.toNat 8))) :: s.outs
          ∧ OnlyParts [.lodge, .glb, .outs] s t)
      ∧ (Completes (.assignAck true) s fun t =>
        t.lodge = { l with assign := none, node := 0xFF, plca := 0, chainFault := true } ∧ t.glb = { s.glb with chainOut := false }
          ∧ OnlyParts [.lodge, .glb] s t))
    ∧ (∀ x, l.lockedAt = some x → (x + sessCc ≤ s.now → Completes .sessionLockExpiry s fun t =>
        t.lodge = { l with lockedAt := none, fails := 0 } ∧ OnlyParts [.lodge] s t) ∧ (s.now < x + sessCc → exec .sessionLockExpiry s = .next s))
    ∧ (¬s.fits .ice 4 → exec .eventRecordWrite s = .next s)
    ∧ (s.fits .ice 4 → l.evq = [] → Completes .eventRecordWrite s fun t => t.lodge = l ∧ OnlyParts [.glb] s t)
    ∧ (s.fits .ice 4 → ∀ r rest, l.evq = r :: rest → s.now ≤ r.at_ → Completes .eventRecordWrite s fun t => t.lodge = l ∧ OnlyParts [.glb] s t)
    ∧ (s.fits .ice 4 → ∀ r rest, l.evq = r :: rest → r.at_ < s.now → Completes .eventRecordWrite s fun t =>
      t.lodge.evq = rest ∧ t.lodge.histPos = (l.histPos + 1) % 32768 ∧ t.lodge.rseq = (l.rseq + 1) % 2 ^ 32
        ∧ iceRead t.lodge.ice (historyBase + 64 * l.histPos) 64 = historyBytes l.rseq r ∧ t.lodge.evNew = (if l.evTick = some s.glb.tickNum then none else some (historyBytes l.rseq r))
        ∧ (∀ a, a < historyBase + 64 * l.histPos ∨ historyBase + 64 * l.histPos + 64 ≤ a → iceByte t.lodge.ice a = iceByte l.ice a)
        ∧ OnlyParts [.lodge, .glb] s t)
    ∧ (l.evNew = none → exec .eventFrameSend s = .next s)
    ∧ (l.evNew ≠ none → l.evTick = some s.glb.tickNum ∨ l.plca = 0 → Completes .eventFrameSend s fun t =>
      t.lodge = { l with evNew := none } ∧ OnlyParts [.lodge] s t)
    ∧ (∀ bs, l.evNew = some bs → l.evTick ≠ some s.glb.tickNum → l.plca ≠ 0 → Completes .eventFrameSend s fun t =>
      t.lodge = { l with evNew := none, evTick := some s.glb.tickNum } ∧ t.freeCtr = s.freeCtr + 1
        ∧ t.outs = .frame (ethFrame l.ctlMac hubMac 0x88B5 (s.netFrame 0x30 ((Config.random s.freeCtr).toNat % 2 ^ 16) bs false)) :: s.outs ∧ OnlyParts [.lodge, .outs, .freeCtr] s t)

/-! ## Registers (chapter 13) -/

/-- R508, R509, R515 to R517, R523: a read across words is a Completer Abort, a write of part of a word or across words is dropped,
and both are reported; a NOW register takes what is written at once and a TICK register keeps its value until the tick. Writing
back a status register's sequence clears its events, and another value clears nothing. A read of a _LO word latches its _HI word
for the master, whose next read of it empties the latch, and one of 8 bytes gives both; a _HI write is held with its privilege;
TIME_NS latches the seconds. A pending unmasked vector sends the address and data of its table entry once its holdoff is over. -/
def Obligations.RegisterAccesses : Prop :=
  ∀ (a : Access) (s : State), s.alive = true → s.canon →
    let info (off : Nat) (write : Bool) : W32 := BitVec.ofNat 32 (((off / 4) % 2 ^ 24) * 256 + (if write then 128 else 0) + Machine.Master.num a.master)
    let dropped (off bit : Nat) (t : State) : Prop :=
      (t.rget R.glbAccessEvt).getLsbD bit = true ∧ t.rget R.glbAccessInfo = info off true
        ∧ OnlyRegs [R.glbAccessEvt, R.glbAccessInfo, R.blvEvt] s t ∧ OnlyParts [.csr, .glb, .blv, .pairs] s t
    (∀ off n : Nat, (n = 0 ∨ 4 < off % 4 + n) → ¬(n = 8 ∧ off % 8 = 0) →
      ∀ i ∈ [Instr.pairLoRead a ⟨off, n⟩, .pairHiRead a ⟨off, n⟩], Completes i s fun t =>
        (t.rget R.glbAccessEvt).getLsbD 10 = true ∧ t.rget R.glbAccessInfo = info off false ∧ t.outs = .abort a.master off :: s.outs
          ∧ OnlyRegs [R.glbAccessEvt, R.glbAccessInfo, R.blvEvt] s t ∧ OnlyParts [.csr, .glb, .blv, .outs] s t)
    ∧ (∀ (off n : Nat) (d : BitVec 64), 1 ≤ n → n < 4 → off % 4 + n ≤ 4 → Completes (.registerWrite a off n d) s (dropped off 9))
    ∧ (∀ (off n : Nat) (d : BitVec 64), 1 ≤ n → n ≤ 8 → 4 < off % 4 + n → ¬(n = 8 ∧ off % 8 = 0) → Completes (.registerWrite a off n d) s (dropped off 10))
    ∧ (s.privileged a = true →
      (∀ (k : Fin 64) (d : BitVec 64), Completes (.registerWrite a (R.lodgeMbxData k) 4 d) s fun t =>
        t.rget (R.lodgeMbxData k) = d.setWidth 32 ∧ OnlyRegs [R.lodgeMbxData k, R.blvEvt] s t ∧ OnlyParts [.csr, .glb, .blv, .pairs] s t)
      ∧ (∀ (g : Fin 64) (d : BitVec 64), Completes (.registerWrite a (R.glbIntRoute g) 4 d) s fun t =>
        (∀ x ∈ [(31, 31), (30, 30), (5, 0)], bitsOf (t.rpend (R.glbIntRoute g)) x.1 x.2 = bitsOf d x.1 x.2)
          ∧ OnlyRegs [R.blvEvt] s t ∧ OnlyParts [.csr, .pend, .glb, .blv, .pairs] s t)
      ∧ (s.glb.pwr ≠ .hibernate → ∀ (c : ChanId) (k : StackId) (n : PortId) (v : W32),
        ∀ off ∈ [R.glbFatalStat, R.glbAccessEvt, R.glbCfgRejectEvt, R.glbStartEvt, R.glbPwrEvt, R.bandTimeEvt, R.lodgeAgeEvt, R.iceEvt, R.regEvt,
          R.chanEvt c, R.stackEvt k, R.portLinkEvt n, R.portCohEvt n, R.portIoEvt n],
        Completes (.statusClear a off v) s fun t =>
          t.rget off = (if bitsOf v 7 0 = s.rf off 7 0 then s.rget off &&& ~~~(BitVec.ofNat 32 (rsqBits off)) else s.rget off)
            ∧ OnlyRegs [off, R.blvEvt] s t ∧ OnlyParts [.csr, .glb, .blv, .pairs] s t)
      ∧ (∀ off u, u = s.cntGlob 3 → off % 8 = 0 → pairHalf off = some .lo → Completes (.pairLoRead a ⟨off, 4⟩) s fun t =>
        t.outs = .read a.master off (BitVec.ofNat 64 (u.view off).toNat) :: s.outs
          ∧ t.pairOf a.master = { s.pairOf a.master with latch := some (off + 4, u.view (off + 4)), tsec := [] }
          ∧ OnlyRegs [R.blvEvt] s t ∧ OnlyParts [.csr, .glb, .blv, .pairs, .outs] s t)
      ∧ (∀ off u, u = s.cntGlob 3 → off % 8 = 0 → pairHalf off = some .lo → Completes (.pairLoRead a ⟨off, 8⟩) s fun t =>
        t.outs = .read a.master off (u.view (off + 4) ++ u.view off) :: s.outs ∧ OnlyRegs [R.blvEvt] s t ∧ OnlyParts [.csr, .glb, .blv, .outs] s t)
      ∧ (∀ off u, u = s.cntGlob 3 → off % 8 = 4 → pairHalf off = some .hi →
        (∀ v, (s.pairOf a.master).latch = some (off, v) → Completes (.pairHiRead a ⟨off, 4⟩) s fun t =>
          t.outs = .read a.master off (BitVec.ofNat 64 v.toNat) :: s.outs ∧ t.pairOf a.master = { s.pairOf a.master with latch := none }
            ∧ OnlyRegs [R.blvEvt] s t ∧ OnlyParts [.csr, .glb, .blv, .pairs, .outs] s t)
        ∧ ((∀ v, (s.pairOf a.master).latch ≠ some (off, v)) → Completes (.pairHiRead a ⟨off, 4⟩) s fun t =>
          t.outs = .read a.master off (BitVec.ofNat 64 (u.view off).toNat) :: s.outs ∧ OnlyRegs [R.blvEvt] s t
            ∧ OnlyParts [.csr, .glb, .blv, .outs] s t))
      ∧ (∀ off v, pairHalf off = some .hi → s.glb.pwr ≠ .hibernate → Completes (.pairHiWrite a off v) s fun t =>
        t.pairOf a.master = { s.pairOf a.master with hold := some (off, v, true) } ∧ OnlyRegs [R.blvEvt] s t ∧ OnlyParts [.csr, .glb, .blv, .pairs] s t)
      ∧ (s.band.legal → Completes (.timeNsRead a) s fun t =>
        t.outs = .read a.master R.bandTimeNs (BitVec.ofNat 64 (s.view R.bandTimeNs).toNat) :: s.outs
          ∧ (t.pairOf a.master).tsec = [(R.bandTimeSecLo, s.view R.bandTimeSecLo), (R.bandTimeSecHi, s.view R.bandTimeSecHi)]
          ∧ bitsOf (s.view R.bandTimeNs) 29 0 = s.band.ns ∧ bitsOf (s.view R.bandTimeSecLo) 31 0 = s.band.sec % 2 ^ 32
          ∧ bitsOf (s.view R.bandTimeSecHi) 15 0 = s.band.sec / 2 ^ 32 % 2 ^ 16
          ∧ OnlyRegs [R.blvEvt] s t ∧ OnlyParts [.csr, .glb, .blv, .pairs, .outs] s t))
    ∧ (∀ v : Fin 64,
      let ready := s.glb.msixPend.getLsbD v.val = true ∧ s.glb.msixEn = true ∧ s.glb.msixMask = false ∧ (s.msixWord (0x200C + 16 * v.val)).getLsbD 0 = false
      (ready → (∀ x, FMap.find? s.glb.msixLast v.val = some x → x + s.rf R.glbIntCtl 9 0 * ccPerUs ≤ s.now) → Completes (.msixMessage v) s fun t =>
        t.outs = .msix v.val (s.msixWord (0x2004 + 16 * v.val) ++ s.msixWord (0x2000 + 16 * v.val)) (s.msixWord (0x2008 + 16 * v.val)) :: s.outs ∧ (rising s.glb.msixLast → FMap.find? t.glb.msixLast v.val = some s.now)
          ∧ (s.rbit R.blvCntCtl 30 = false → t.glb.msixPend = setBits s.glb.msixPend v.val v.val 0) ∧ OnlyParts [.glb, .blv, .csr, .outs] s t)
      ∧ (¬ready → exec (.msixMessage v) s = .next s)
      ∧ (∀ x, FMap.find? s.glb.msixLast v.val = some x → s.now < x + s.rf R.glbIntCtl 9 0 * ccPerUs → s.rbit (R.glbIntRoute 0) 31 = false →
        exec (.msixMessage v) s = .next s))

/-- R511: an offset that no register occupies reads as zero; a write to it is dropped, sets ACCESS_EVT.UNMAPPED and is recorded
in ACCESS_INFO. Nothing else of any register changes but the report of a counter's overflow. -/
def Obligations.UnoccupiedOffsets : Prop :=
  ∀ (a : Access) (off : Nat) (d : BitVec 64) (s : State), s.alive = true → s.regsOk →
    regAt off = none → isMsix off = false → isDebug off = false → off % 4 = 0 →
    (Completes (.pairLoRead a ⟨off, 4⟩) s fun t =>
      t.outs = .read a.master off 0 :: s.outs ∧ OnlyRegs [R.blvEvt] s t ∧ OnlyParts [.csr, .glb, .blv, .outs] s t)
    ∧ (Completes (.registerWrite a off 4 d) s fun t =>
      (t.rget R.glbAccessEvt).getLsbD 11 = true
        ∧ t.rget R.glbAccessInfo = BitVec.ofNat 32 (((off / 4) % 2 ^ 24) * 256 + 128 + Machine.Master.num a.master)
        ∧ OnlyRegs [R.glbAccessEvt, R.glbAccessInfo, R.blvEvt] s t ∧ OnlyParts [.csr, .glb, .blv, .pairs] s t)

/-- R506, R511 to R513: a master that is not privileged changes neither PRIV_CTL nor PRIV_PORTS, in force or pending, by any register
access, the ones of the service node for a port's IOWr and IORd included; its write to a register whose writable fields are all PRIV leaves that register as it was and sets ACCESS_EVT.GUARD. -/
def Obligations.PrivilegeGuardsRegisters : Prop :=
  (∀ (i : Instr) (a : Access) (s t : State), accessOf s i = some a → s.privileged a = false → s.canon → exec i s = .next t →
    ∀ off ∈ [R.glbPrivCtl, R.glbPrivPorts 0, R.glbPrivPorts 1, R.glbPrivPorts 2], t.rget off = s.rget off ∧ t.rpend off = s.rpend off)
  ∧ (∀ (a : Access) (off : Nat) (d : BitVec 64) (b : Blk) (i j : Nat) (r : RegDesc) (s : State), s.alive = true → s.canon → s.privileged a = false →
    s.glb.pwr ≠ .hibernate → off % 4 = 0 → regAt off = some (b, i, j, r) → (∀ f ∈ r.fields, isWritable f = true → f.priv = true) →
    (∃ f ∈ r.fields, isWritable f = true) → pairHalf off ≠ some .hi →
    off ∉ [R.glbAccessEvt, R.glbAccessInfo, R.glbCfgRejectEvt, R.glbCfgRejectInfo, R.blvEvt, R.lodgeEvqStat, R.regEvt] →
    Completes (.registerWrite a off 4 d) s fun t =>
      t.rget off = s.rget off ∧ t.rpend off = s.rpend off ∧ (t.rget R.glbAccessEvt).getLsbD 8 = true)

/-! ## Supply, ticks and the whole machine (chapters 1 and 10) -/

/-- R413, R415, R419, R428, R581, R586: POWER_ON with every rail good, as RAIL_RECOVERY with PWROK high, starts a hub held in reset
(which command says so is the model's choice, log entry 300) at time 0 with its Icehouse and its queue, no pavilion placed, no
port enabled and every link in DETECT or DISABLED, and each populated channel that may train in training; a fall of PWROK loses
everything but the Icehouse, a record of a trip that is still to be written and, of it, the time; an undervoltage with PWROK high
first writes its record if the always-on supply holds, of a tripped or a held hub too. A trip, with THERMTRIP_N, lasts until PWROK
falls (R428, R586). A hub that is held in reset or tripped takes no other command. TREF that shows no edge within 10 ms of PWROK sets TREF_MISSING. -/
def Obligations.SupplyAndReset : Prop :=
  (∀ (env : PowerEnv) (s : State), s.glb.on = false → s.glb.tripped = false →
    ∀ i, (i = Instr.powerOn env ∧ s.glb.railLow = false) ∨ (i = Instr.railRecovery env ∧ s.glb.pwrok = true) →
    Completes i s fun t =>
      t.glb.on = true ∧ t.glb.tripped = false ∧ t.now = 0 ∧ t.pending = s.pending ∧ t.lodge.ice = s.lodge.ice ∧ t.outs = s.outs ∧ t.pend = []
        ∧ t.band.sec = 0 ∧ t.band.ns = 0 ∧ t.glb.pwr = .active
        ∧ (∀ n, (t.port n).link.st = (if t.rbit (R.portLinkCtl n) 30 then LinkSt.disabled else LinkSt.detect) ∧ (t.port n).io.enabled = false)
        ∧ (∀ p, (t.pav p).place = .window ∧ (t.pav p).tags = [] ∧ (t.pav p).dir = [])
        ∧ (∀ c, (t.chan c).dram = [] ∧ ∀ e, env.chans[c.val]? = some e →
          (t.chan c).com.st = (if e.slot0 = none ∨ startCode t.lodge.freqCap e = 0 then MemSt.off else MemSt.training)))
  ∧ (∀ (env : PowerEnv) (s : State),
    (s.glb.on = true ∨ s.glb.railLow = true ∨ s.glb.tripped = true → Completes (.powerOn env) s fun t => t.glb = { s.glb with pwrok := true } ∧ OnlyParts [.glb] s t)
    ∧ (s.glb.on = true ∨ s.glb.pwrok = false ∨ s.glb.tripped = true → Completes (.railRecovery env) s fun t => t.glb = { s.glb with railLow := false } ∧ OnlyParts [.glb] s t))
  ∧ (∀ s : State,
    let off (t : State) : Prop :=
      t.glb.on = false ∧ t.csr = [] ∧ t.pend = [] ∧ (∀ c, (t.chan c).dram = []) ∧ (∀ p, (t.pav p).stack = [] ∧ (t.pav p).tags = [])
        ∧ t.blv = {} ∧ t.pending = s.pending ∧ t.outs = s.outs ∧ (s.glb.tripAt = none → t.band = {} ∧ t.lodge = { ice := t.lodge.ice })
    let pwr (ok : Bool) (t : State) : Prop :=
      t.glb.pwrok = ok ∧ t.glb.tripped = (s.glb.tripped && ok) ∧ t.glb.thermtrip = (s.glb.thermtrip && ok)
    let waits (t : State) : Prop := ∀ x, s.glb.tripAt = some x → t.glb.tripAt = some x ∧ t.now = s.now
    (Completes .powerFail s fun t => off t ∧ pwr false t ∧ t.glb.railLow = s.glb.railLow ∧ t.lodge.ice = s.lodge.ice ∧ waits t)
    ∧ (∀ (r : Rail) (holds : Bool),
      (holds = false ∨ s.glb.pwrok = false → Completes (.undervoltage r holds) s fun t =>
        off t ∧ pwr s.glb.pwrok t ∧ t.glb.railLow = true ∧ t.lodge.ice = s.lodge.ice ∧ (holds = true → waits t))
      ∧ (∀ u, u = (if s.glb.on then s else s.ringScan) → holds = true → s.glb.pwrok = true → u.lodge.evq = [] → 0 < u.recordsPerMs → s.canon →
        Completes (.undervoltage r holds) s fun t => off t ∧ pwr true t ∧ t.glb.railLow = true ∧ waits t
        ∧ iceRead t.lodge.ice (historyBase + 64 * u.lodge.histPos) 64
            = historyBytes u.lodge.rseq { sec := s.band.sec, ns := s.band.ns, kind := EvKind.power.num, inst := 16 + Machine.Rail.num r, addr := 0 }
        ∧ (∀ x, x < historyBase + 64 * u.lodge.histPos ∨ historyBase + 64 * u.lodge.histPos + 64 ≤ x → iceByte t.lodge.ice x = iceByte s.lodge.ice x))))
  ∧ (∀ s : State, s.alive = true → (s.band.trefSeen = false → 10000 * ccPerUs ≤ s.now → Completes .trefMissingTimeout s fun t =>
      t.glb = { s.glb with trefMissing := true } ∧ OnlyParts [.glb] s t)
    ∧ (s.band.trefSeen = true ∨ s.now < 10000 * ccPerUs → exec .trefMissingTimeout s = .next s)
    ∧ (Completes (.perst false) s fun t => t.glb.perst = false ∧ OnlyParts [.glb] s t)
    ∧ (Completes (.perst true) s fun t => t.glb.perst = true ∧ t.glb.msixEn = false ∧ t.glb.msixPend = 0 ∧ OnlyParts [.glb] s t))
  ∧ (∀ (i : Instr) (s : State), s.alive = false → (∀ e, i ≠ .powerOn e ∧ i ≠ .railRecovery e) → i ≠ .powerFail → (∀ r h, i ≠ .undervoltage r h) →
    exec i s = .next s)

/-- R41 to R44, R46, R422, R424, R485, R486, R517, R543: APPLY_WINDOW completes at every state of a hub that runs. It adds one to the
tick number, clears the service budgets used and takes an armed snapshot of the counters as they stood before it; where the data
plane's clocks run it brings every pending TICK field into force and leaves none pending, restarts gated pavilions, refills each
patrol's credit and has each active link that wants one send a TIME flit; a block whose clocks are stopped keeps what is pending.
A pending STEP, or a follower's, sets the time before all this. The budgets of the tick that begins are those of SVC_BUDGET, scaled
down in proportion where they exceed 80 percent of the tick. -/
def Obligations.ApplyWindowAtTheTick : Prop :=
  ∀ s : State, s.alive = true → s.canon → Completes .applyWindow s fun t =>
    t.glb.tickNum = s.glb.tickNum + 1 ∧ t.glb.used = [0, 0, 0, 0] ∧ t.outs = s.outs ∧ t.now = s.now
      ∧ (s.blv.armed = false → t.blv.snap = s.blv.snap)
      ∧ (∀ off v b i j d, FMap.find? s.pend off = some v → regAt off = some (b, i, j, d) →
        (s.glb.mop.busy = true → off ≠ R.glbHcCtl ∧ ∀ p, off ≠ R.pavLockMask p) →
        (s.blkRuns (blkInst off).1 = true → FMap.find? t.pend off = none
          ∧ ∀ k, k < 32 → (maskOf d.fields isTick).getLsbD k = true → (t.rget off).getLsbD k = v.getLsbD k)
        ∧ (s.blkRuns (blkInst off).1 = false → FMap.find? t.pend off = some v ∧ t.rget off = s.rget off))
      ∧ (∀ (k : PlotId), FMap.find? s.pend (R.regPlotGbw k.toNat) = none → t.rget (R.regPlotGbw k.toNat) = s.rget (R.regPlotGbw k.toNat))
      ∧ (∀ b limit, b = [(7, 0), (15, 8), (23, 16), (31, 24)].map (fun (x : Nat × Nat) => t.rf R.bandSvcBudget x.1 x.2) →
        limit = 16 * s.rf R.bandTickCfg 9 0 →
        t.glb.scaling = decide (limit < b.sum) ∧ t.glb.scaled = (if limit < b.sum then b.map fun x => x * limit / b.sum else b)
          ∧ (limit < b.sum → s.glb.scaling = false → (t.rget R.bandSvcStat).getLsbD 8 = true))
      ∧ (∀ e x, s.band.stepBack = some e → s.band.stepPend = none → x = ((s.band.t100 : Int) - e).toNat →
        t.band.sec = x / 10000000000 % 2 ^ 48 ∧ t.band.ns = x / 10 % 1000000000 ∧ t.band.stepBack = none)
      ∧ (s.clocksRun = true → t.pend = []
        ∧ (s.blv.armed = true → s.rbit R.blvSnapCtl 29 = false →
          t.blv.snap = s.blv.cnt ∧ t.blv.snapOvf = s.blv.ovf ∧ t.blv.armed = false ∧ t.blv.snapNum = (s.blv.snapNum + 1) % 65536
            ∧ t.blv.snapTick = s.glb.tickNum + 1)
        ∧ (∀ x, s.band.stepPend = some x → t.band.sec = x.1 ∧ t.band.ns = x.2 ∧ t.band.frac = 0 ∧ t.band.stepPend = none ∧ t.glb.ppsOut = s.glb.ppsOut)
        ∧ (∀ p, (t.pav p).gated = false) ∧ (∀ c, (t.chan c).com.patrolCredit = t.rf (R.chanScrubCtl c) 7 0)
        ∧ (∀ n, (s.port n).link.st = .active → t.rbit (R.portTimeCtl n) 31 = true → (t.port n).link.timeFlit = true))
      ∧ OnlyParts [.glb, .csr, .pend, .lastTick, .ports, .pavs, .chans, .stks, .lodge, .band, .blv] s t

/-- R26, R27: with the default fold masks the interleave hash of an address is the exclusive or of the ten nibbles of
PA[51:12]. -/
def Obligations.DefaultHashFoldsNibbles : Prop :=
  (∀ j, j < 16 → regReset (R.glbIlFold j) = if j % 5 = 0 then 0x3FF else 0)
  ∧ (∀ la : LineAddr, hashWith (fun j => bitsOf (regReset (R.glbIlFold j)) 9 0) (sectorOf la)
      = (List.range 10).foldl (fun h g => h ^^^ (sectorOf la / 16 ^ g % 16)) 0)

/-- A step takes the command at the front of the queue and does what it does to the state with the queue's rest; with nothing
waiting one core clock passes, which is the model's own choice (log entry 1). -/
def Obligations.CommandsRunFromTheFront : Prop :=
  (∀ (c : Instr) (rest : List Instr) (s : State), step { s with pending := c :: rest } = exec c { s with pending := rest })
  ∧ (∀ s : State, s.pending = [] → step s = .next s.clockTick)

/-- R15, R419: reset leaves a hub that is held in reset, with an empty queue, every register at its reset value, nothing stored
and nothing pending; its stores are canonical and its timebase legal. -/
def Obligations.ResetHoldsResetValues : Prop :=
  State.reset.pending = [] ∧ State.reset.glb.on = false ∧ State.reset.canon ∧ State.reset.band.legal
    ∧ (∀ off, State.reset.rget off = regReset off) ∧ State.reset.pend = [] ∧ State.reset.lodge.ice = []
    ∧ (∀ c, (State.reset.chan c).dram = [] ∧ (State.reset.chan c).com.st = .off) ∧ (∀ n, (State.reset.port n).io.enabled = false)
    ∧ regReset R.glbPrivCtl = 1

/-- Every command leaves alone the parts of State that it has no business with (`touches`): no command changes the queue, no
message, memory event or tick of an engine changes the timebase, a pending value or a master's latch, and of these only what ends
a training or a LOWPOWER state, at which the hub sends END sets, changes what the hub has sent (R61, R91). -/
def Obligations.CommandsTouchOnlyTheirParts : Prop :=
  ∀ (i : Instr) (s t : State), exec i s = .next t → OnlyParts (touches i) s t

/-- From every state whose stores are canonical and whose timebase is legal, whatever waits in the queue, a step answers a next
state of which the same holds: no command faults or is refused, no store lists a key twice, out of order or at what an unlisted
key reads as, and the nanoseconds stay below a second (R477). -/
def Obligations.EveryStepKeepsCanonicalStores : Prop :=
  ∀ s : State, s.canon → s.band.legal → SafeNext (step s)
end

