-- ==== Sys2Proof/Laws/Map.lean ====
section
/-!
SUPPORT. Laws of the sparse store: reading after writing, the canonical form that every write keeps, and that canonical stores
with equal contents are equal data.
-/

namespace Sys2Proof

variable {α : Type} {m n : FMap α} {lo k j : Nat}

@[simp] theorem FMap.find_nil (k : Nat) : FMap.find? ([] : FMap α) k = none := rfl

/-- An insertion is read at its key, and nowhere else. -/
theorem FMap.find_insert (m : FMap α) (k j : Nat) (v : α) :
    FMap.find? (FMap.insert m k v) j = if j = k then some v else FMap.find? m j := by
  fun_induction FMap.insert m k v <;> grind [FMap.find?]

theorem FMap.find_insert_same (m : FMap α) (k : Nat) (v : α) : FMap.find? (FMap.insert m k v) k = some v :=
  (FMap.find_insert m k k v).trans (if_pos rfl)

theorem FMap.find_insert_other (m : FMap α) (v : α) (h : j ≠ k) : FMap.find? (FMap.insert m k v) j = FMap.find? m j :=
  (FMap.find_insert m k j v).trans (if_neg h)

/-! ## The canonical form -/

variable [DecidableEq α] {d : Nat → α}

/-- A canonical store lists no key below its bound. -/
theorem FMap.find_below (h : FMap.wfFrom d lo m = true) (hk : k < lo) : FMap.find? m k = none := by
  fun_cases FMap.find? m k <;> grind [FMap.wfFrom]

theorem FMap.wfFrom_mono {lo' : Nat} (h : FMap.wfFrom d lo m = true) (le : lo' ≤ lo) : FMap.wfFrom d lo' m = true := by
  fun_cases FMap.wfFrom d lo m <;> grind [FMap.wfFrom]

/-- A key that is taken out is read no more, and every other key as before. -/
theorem FMap.find_erase (h : FMap.wfFrom d lo m = true) (k j : Nat) :
    FMap.find? (FMap.erase m k) j = if j = k then none else FMap.find? m j := by
  fun_induction FMap.erase m k generalizing lo <;> grind [FMap.find?, FMap.wfFrom, FMap.find_below]

theorem FMap.wfFrom_insert {v : α} (h : FMap.wfFrom d lo m = true) (hk : lo ≤ k) (hv : v ≠ d k) :
    FMap.wfFrom d lo (FMap.insert m k v) = true := by
  fun_induction FMap.insert m k v generalizing lo <;> grind [FMap.wfFrom]

theorem FMap.wfFrom_erase (k : Nat) (h : FMap.wfFrom d lo m = true) : FMap.wfFrom d lo (FMap.erase m k) = true := by
  fun_induction FMap.erase m k generalizing lo <;> grind [FMap.wfFrom, FMap.wfFrom_mono]

theorem FMap.wf_erase (k : Nat) (h : FMap.wf d m = true) : FMap.wf d (FMap.erase m k) = true := FMap.wfFrom_erase k h

@[simp] theorem FMap.wf_nil : FMap.wf d ([] : FMap α) = true := rfl

/-- A write keeps the canonical form. -/
theorem FMap.wf_put (k : Nat) (v : α) (h : FMap.wf d m = true) : FMap.wf d (FMap.put d m k v) = true := by
  grind [FMap.put, FMap.wf, FMap.wfFrom_erase, FMap.wfFrom_insert]

/-- A write is read at its key, and every other key reads as before. -/
theorem FMap.get_put (h : FMap.wf d m = true) (k j : Nat) (v : α) :
    FMap.get d (FMap.put d m k v) j = if j = k then v else FMap.get d m j := by
  grind [FMap.put, FMap.get, FMap.wf, FMap.find_erase, FMap.find_insert]

theorem FMap.get_put_same (k : Nat) (v : α) (h : FMap.wf d m = true) : FMap.get d (FMap.put d m k v) k = v :=
  (FMap.get_put h k k v).trans (if_pos rfl)

theorem FMap.get_put_other (v : α) (h : FMap.wf d m = true) (hj : j ≠ k) : FMap.get d (FMap.put d m k v) j = FMap.get d m j :=
  (FMap.get_put h k j v).trans (if_neg hj)

/-- The first listed key of a canonical store reads as no unlisted key does, so another store that reads alike lists it too. -/
theorem FMap.wfFrom_ext (hm : FMap.wfFrom d lo m = true) (hn : FMap.wfFrom d lo n = true)
    (h : ∀ k, lo ≤ k → FMap.get d m k = FMap.get d n k) : m = n := by
  fun_induction FMap.wfFrom d lo m generalizing n with
  | case1 lo =>
    cases n with
    | nil => rfl
    | cons y more => have := h y.1; grind [FMap.get, FMap.find?, FMap.wfFrom]
  | case2 lo k v rest ih =>
    cases n with
    | nil => have := h k; grind [FMap.get, FMap.find?, FMap.wfFrom]
    | cons y more =>
      have head : k = y.1 ∧ v = y.2 := by
        have := h k; have := h y.1; grind [FMap.get, FMap.find?, FMap.wfFrom]
      have tail : rest = more := ih (by grind) (by grind [FMap.wfFrom]) fun j hj => by
        have := h j; grind [FMap.get, FMap.find?]
      grind

theorem FMap.wf_ext (hm : FMap.wf d m = true) (hn : FMap.wf d n = true) (h : ∀ k, FMap.get d m k = FMap.get d n k) : m = n :=
  FMap.wfFrom_ext hm hn fun k _ => h k

end Sys2Proof
end

