-- ==== Sys2Proof/Laws/State.lean ====
section
/-!
SUPPORT. What each accessor of State changes, field by field, and how the parts of State read after a change.
-/

namespace Sys2Proof.Machine

variable (s : State)

/-! ## modPort -/

@[simp] theorem State.modPort_pending (n : PortId) (f : Port → Port) : (s.modPort n f).pending = s.pending := rfl
@[simp] theorem State.modPort_now (n : PortId) (f : Port → Port) : (s.modPort n f).now = s.now := rfl
@[simp] theorem State.modPort_glb (n : PortId) (f : Port → Port) : (s.modPort n f).glb = s.glb := rfl
@[simp] theorem State.modPort_csr (n : PortId) (f : Port → Port) : (s.modPort n f).csr = s.csr := rfl
@[simp] theorem State.modPort_pend (n : PortId) (f : Port → Port) : (s.modPort n f).pend = s.pend := rfl
@[simp] theorem State.modPort_lastTick (n : PortId) (f : Port → Port) : (s.modPort n f).lastTick = s.lastTick := rfl
@[simp] theorem State.modPort_pairs (n : PortId) (f : Port → Port) : (s.modPort n f).pairs = s.pairs := rfl
@[simp] theorem State.modPort_ports (n : PortId) (f : Port → Port) : (s.modPort n f).ports = s.ports.set n (f s.ports[n]) := rfl
@[simp] theorem State.modPort_pavs (n : PortId) (f : Port → Port) : (s.modPort n f).pavs = s.pavs := rfl
@[simp] theorem State.modPort_chans (n : PortId) (f : Port → Port) : (s.modPort n f).chans = s.chans := rfl
@[simp] theorem State.modPort_stks (n : PortId) (f : Port → Port) : (s.modPort n f).stks = s.stks := rfl
@[simp] theorem State.modPort_lodge (n : PortId) (f : Port → Port) : (s.modPort n f).lodge = s.lodge := rfl
@[simp] theorem State.modPort_band (n : PortId) (f : Port → Port) : (s.modPort n f).band = s.band := rfl
@[simp] theorem State.modPort_blv (n : PortId) (f : Port → Port) : (s.modPort n f).blv = s.blv := rfl
@[simp] theorem State.modPort_freeCtr (n : PortId) (f : Port → Port) : (s.modPort n f).freeCtr = s.freeCtr := rfl
@[simp] theorem State.modPort_outs (n : PortId) (f : Port → Port) : (s.modPort n f).outs = s.outs := rfl
@[simp] theorem State.modPort_swNow (n : PortId) (f : Port → Port) : (s.modPort n f).swNow = s.swNow := rfl
@[simp] theorem State.modPort_swBits (n : PortId) (f : Port → Port) : (s.modPort n f).swBits = s.swBits := rfl
@[simp] theorem State.modPort_hwNow (n : PortId) (f : Port → Port) : (s.modPort n f).hwNow = s.hwNow := rfl

/-! ## modLink -/

@[simp] theorem State.modLink_pending (n : PortId) (f : Link → Link) : (s.modLink n f).pending = s.pending := rfl
@[simp] theorem State.modLink_now (n : PortId) (f : Link → Link) : (s.modLink n f).now = s.now := rfl
@[simp] theorem State.modLink_glb (n : PortId) (f : Link → Link) : (s.modLink n f).glb = s.glb := rfl
@[simp] theorem State.modLink_csr (n : PortId) (f : Link → Link) : (s.modLink n f).csr = s.csr := rfl
@[simp] theorem State.modLink_pend (n : PortId) (f : Link → Link) : (s.modLink n f).pend = s.pend := rfl
@[simp] theorem State.modLink_lastTick (n : PortId) (f : Link → Link) : (s.modLink n f).lastTick = s.lastTick := rfl
@[simp] theorem State.modLink_pairs (n : PortId) (f : Link → Link) : (s.modLink n f).pairs = s.pairs := rfl
@[simp] theorem State.modLink_pavs (n : PortId) (f : Link → Link) : (s.modLink n f).pavs = s.pavs := rfl
@[simp] theorem State.modLink_chans (n : PortId) (f : Link → Link) : (s.modLink n f).chans = s.chans := rfl
@[simp] theorem State.modLink_stks (n : PortId) (f : Link → Link) : (s.modLink n f).stks = s.stks := rfl
@[simp] theorem State.modLink_lodge (n : PortId) (f : Link → Link) : (s.modLink n f).lodge = s.lodge := rfl
@[simp] theorem State.modLink_band (n : PortId) (f : Link → Link) : (s.modLink n f).band = s.band := rfl
@[simp] theorem State.modLink_blv (n : PortId) (f : Link → Link) : (s.modLink n f).blv = s.blv := rfl
@[simp] theorem State.modLink_freeCtr (n : PortId) (f : Link → Link) : (s.modLink n f).freeCtr = s.freeCtr := rfl
@[simp] theorem State.modLink_outs (n : PortId) (f : Link → Link) : (s.modLink n f).outs = s.outs := rfl
@[simp] theorem State.modLink_swNow (n : PortId) (f : Link → Link) : (s.modLink n f).swNow = s.swNow := rfl
@[simp] theorem State.modLink_swBits (n : PortId) (f : Link → Link) : (s.modLink n f).swBits = s.swBits := rfl
@[simp] theorem State.modLink_hwNow (n : PortId) (f : Link → Link) : (s.modLink n f).hwNow = s.hwNow := rfl

/-! ## modIo -/

@[simp] theorem State.modIo_pending (n : PortId) (f : PortIo → PortIo) : (s.modIo n f).pending = s.pending := rfl
@[simp] theorem State.modIo_now (n : PortId) (f : PortIo → PortIo) : (s.modIo n f).now = s.now := rfl
@[simp] theorem State.modIo_glb (n : PortId) (f : PortIo → PortIo) : (s.modIo n f).glb = s.glb := rfl
@[simp] theorem State.modIo_csr (n : PortId) (f : PortIo → PortIo) : (s.modIo n f).csr = s.csr := rfl
@[simp] theorem State.modIo_pend (n : PortId) (f : PortIo → PortIo) : (s.modIo n f).pend = s.pend := rfl
@[simp] theorem State.modIo_lastTick (n : PortId) (f : PortIo → PortIo) : (s.modIo n f).lastTick = s.lastTick := rfl
@[simp] theorem State.modIo_pairs (n : PortId) (f : PortIo → PortIo) : (s.modIo n f).pairs = s.pairs := rfl
@[simp] theorem State.modIo_pavs (n : PortId) (f : PortIo → PortIo) : (s.modIo n f).pavs = s.pavs := rfl
@[simp] theorem State.modIo_chans (n : PortId) (f : PortIo → PortIo) : (s.modIo n f).chans = s.chans := rfl
@[simp] theorem State.modIo_stks (n : PortId) (f : PortIo → PortIo) : (s.modIo n f).stks = s.stks := rfl
@[simp] theorem State.modIo_lodge (n : PortId) (f : PortIo → PortIo) : (s.modIo n f).lodge = s.lodge := rfl
@[simp] theorem State.modIo_band (n : PortId) (f : PortIo → PortIo) : (s.modIo n f).band = s.band := rfl
@[simp] theorem State.modIo_blv (n : PortId) (f : PortIo → PortIo) : (s.modIo n f).blv = s.blv := rfl
@[simp] theorem State.modIo_freeCtr (n : PortId) (f : PortIo → PortIo) : (s.modIo n f).freeCtr = s.freeCtr := rfl
@[simp] theorem State.modIo_outs (n : PortId) (f : PortIo → PortIo) : (s.modIo n f).outs = s.outs := rfl
@[simp] theorem State.modIo_swNow (n : PortId) (f : PortIo → PortIo) : (s.modIo n f).swNow = s.swNow := rfl
@[simp] theorem State.modIo_swBits (n : PortId) (f : PortIo → PortIo) : (s.modIo n f).swBits = s.swBits := rfl
@[simp] theorem State.modIo_hwNow (n : PortId) (f : PortIo → PortIo) : (s.modIo n f).hwNow = s.hwNow := rfl

/-! ## modPav -/

@[simp] theorem State.modPav_pending (p : PavId) (f : Pav → Pav) : (s.modPav p f).pending = s.pending := rfl
@[simp] theorem State.modPav_now (p : PavId) (f : Pav → Pav) : (s.modPav p f).now = s.now := rfl
@[simp] theorem State.modPav_glb (p : PavId) (f : Pav → Pav) : (s.modPav p f).glb = s.glb := rfl
@[simp] theorem State.modPav_csr (p : PavId) (f : Pav → Pav) : (s.modPav p f).csr = s.csr := rfl
@[simp] theorem State.modPav_pend (p : PavId) (f : Pav → Pav) : (s.modPav p f).pend = s.pend := rfl
@[simp] theorem State.modPav_lastTick (p : PavId) (f : Pav → Pav) : (s.modPav p f).lastTick = s.lastTick := rfl
@[simp] theorem State.modPav_pairs (p : PavId) (f : Pav → Pav) : (s.modPav p f).pairs = s.pairs := rfl
@[simp] theorem State.modPav_ports (p : PavId) (f : Pav → Pav) : (s.modPav p f).ports = s.ports := rfl
@[simp] theorem State.modPav_pavs (p : PavId) (f : Pav → Pav) : (s.modPav p f).pavs = s.pavs.set p (f s.pavs[p]) := rfl
@[simp] theorem State.modPav_chans (p : PavId) (f : Pav → Pav) : (s.modPav p f).chans = s.chans := rfl
@[simp] theorem State.modPav_stks (p : PavId) (f : Pav → Pav) : (s.modPav p f).stks = s.stks := rfl
@[simp] theorem State.modPav_lodge (p : PavId) (f : Pav → Pav) : (s.modPav p f).lodge = s.lodge := rfl
@[simp] theorem State.modPav_band (p : PavId) (f : Pav → Pav) : (s.modPav p f).band = s.band := rfl
@[simp] theorem State.modPav_blv (p : PavId) (f : Pav → Pav) : (s.modPav p f).blv = s.blv := rfl
@[simp] theorem State.modPav_freeCtr (p : PavId) (f : Pav → Pav) : (s.modPav p f).freeCtr = s.freeCtr := rfl
@[simp] theorem State.modPav_outs (p : PavId) (f : Pav → Pav) : (s.modPav p f).outs = s.outs := rfl
@[simp] theorem State.modPav_swNow (p : PavId) (f : Pav → Pav) : (s.modPav p f).swNow = s.swNow := rfl
@[simp] theorem State.modPav_swBits (p : PavId) (f : Pav → Pav) : (s.modPav p f).swBits = s.swBits := rfl
@[simp] theorem State.modPav_hwNow (p : PavId) (f : Pav → Pav) : (s.modPav p f).hwNow = s.hwNow := rfl

/-! ## modChan -/

@[simp] theorem State.modChan_pending (c : ChanId) (f : Chan → Chan) : (s.modChan c f).pending = s.pending := rfl
@[simp] theorem State.modChan_now (c : ChanId) (f : Chan → Chan) : (s.modChan c f).now = s.now := rfl
@[simp] theorem State.modChan_glb (c : ChanId) (f : Chan → Chan) : (s.modChan c f).glb = s.glb := rfl
@[simp] theorem State.modChan_csr (c : ChanId) (f : Chan → Chan) : (s.modChan c f).csr = s.csr := rfl
@[simp] theorem State.modChan_pend (c : ChanId) (f : Chan → Chan) : (s.modChan c f).pend = s.pend := rfl
@[simp] theorem State.modChan_lastTick (c : ChanId) (f : Chan → Chan) : (s.modChan c f).lastTick = s.lastTick := rfl
@[simp] theorem State.modChan_pairs (c : ChanId) (f : Chan → Chan) : (s.modChan c f).pairs = s.pairs := rfl
@[simp] theorem State.modChan_ports (c : ChanId) (f : Chan → Chan) : (s.modChan c f).ports = s.ports := rfl
@[simp] theorem State.modChan_pavs (c : ChanId) (f : Chan → Chan) : (s.modChan c f).pavs = s.pavs := rfl
@[simp] theorem State.modChan_chans (c : ChanId) (f : Chan → Chan) : (s.modChan c f).chans = s.chans.set c (f s.chans[c]) := rfl
@[simp] theorem State.modChan_stks (c : ChanId) (f : Chan → Chan) : (s.modChan c f).stks = s.stks := rfl
@[simp] theorem State.modChan_lodge (c : ChanId) (f : Chan → Chan) : (s.modChan c f).lodge = s.lodge := rfl
@[simp] theorem State.modChan_band (c : ChanId) (f : Chan → Chan) : (s.modChan c f).band = s.band := rfl
@[simp] theorem State.modChan_blv (c : ChanId) (f : Chan → Chan) : (s.modChan c f).blv = s.blv := rfl
@[simp] theorem State.modChan_freeCtr (c : ChanId) (f : Chan → Chan) : (s.modChan c f).freeCtr = s.freeCtr := rfl
@[simp] theorem State.modChan_outs (c : ChanId) (f : Chan → Chan) : (s.modChan c f).outs = s.outs := rfl
@[simp] theorem State.modChan_swNow (c : ChanId) (f : Chan → Chan) : (s.modChan c f).swNow = s.swNow := rfl
@[simp] theorem State.modChan_swBits (c : ChanId) (f : Chan → Chan) : (s.modChan c f).swBits = s.swBits := rfl
@[simp] theorem State.modChan_hwNow (c : ChanId) (f : Chan → Chan) : (s.modChan c f).hwNow = s.hwNow := rfl

/-! ## modStk -/

@[simp] theorem State.modStk_pending (k : StackId) (f : Stk → Stk) : (s.modStk k f).pending = s.pending := rfl
@[simp] theorem State.modStk_now (k : StackId) (f : Stk → Stk) : (s.modStk k f).now = s.now := rfl
@[simp] theorem State.modStk_glb (k : StackId) (f : Stk → Stk) : (s.modStk k f).glb = s.glb := rfl
@[simp] theorem State.modStk_csr (k : StackId) (f : Stk → Stk) : (s.modStk k f).csr = s.csr := rfl
@[simp] theorem State.modStk_pend (k : StackId) (f : Stk → Stk) : (s.modStk k f).pend = s.pend := rfl
@[simp] theorem State.modStk_lastTick (k : StackId) (f : Stk → Stk) : (s.modStk k f).lastTick = s.lastTick := rfl
@[simp] theorem State.modStk_pairs (k : StackId) (f : Stk → Stk) : (s.modStk k f).pairs = s.pairs := rfl
@[simp] theorem State.modStk_ports (k : StackId) (f : Stk → Stk) : (s.modStk k f).ports = s.ports := rfl
@[simp] theorem State.modStk_pavs (k : StackId) (f : Stk → Stk) : (s.modStk k f).pavs = s.pavs := rfl
@[simp] theorem State.modStk_chans (k : StackId) (f : Stk → Stk) : (s.modStk k f).chans = s.chans := rfl
@[simp] theorem State.modStk_stks (k : StackId) (f : Stk → Stk) : (s.modStk k f).stks = s.stks.set k (f s.stks[k]) := rfl
@[simp] theorem State.modStk_lodge (k : StackId) (f : Stk → Stk) : (s.modStk k f).lodge = s.lodge := rfl
@[simp] theorem State.modStk_band (k : StackId) (f : Stk → Stk) : (s.modStk k f).band = s.band := rfl
@[simp] theorem State.modStk_blv (k : StackId) (f : Stk → Stk) : (s.modStk k f).blv = s.blv := rfl
@[simp] theorem State.modStk_freeCtr (k : StackId) (f : Stk → Stk) : (s.modStk k f).freeCtr = s.freeCtr := rfl
@[simp] theorem State.modStk_outs (k : StackId) (f : Stk → Stk) : (s.modStk k f).outs = s.outs := rfl
@[simp] theorem State.modStk_swNow (k : StackId) (f : Stk → Stk) : (s.modStk k f).swNow = s.swNow := rfl
@[simp] theorem State.modStk_swBits (k : StackId) (f : Stk → Stk) : (s.modStk k f).swBits = s.swBits := rfl
@[simp] theorem State.modStk_hwNow (k : StackId) (f : Stk → Stk) : (s.modStk k f).hwNow = s.hwNow := rfl

/-! ## modGlb -/

@[simp] theorem State.modGlb_pending (f : Glb → Glb) : (s.modGlb f).pending = s.pending := rfl
@[simp] theorem State.modGlb_now (f : Glb → Glb) : (s.modGlb f).now = s.now := rfl
@[simp] theorem State.modGlb_glb (f : Glb → Glb) : (s.modGlb f).glb = f s.glb := rfl
@[simp] theorem State.modGlb_csr (f : Glb → Glb) : (s.modGlb f).csr = s.csr := rfl
@[simp] theorem State.modGlb_pend (f : Glb → Glb) : (s.modGlb f).pend = s.pend := rfl
@[simp] theorem State.modGlb_lastTick (f : Glb → Glb) : (s.modGlb f).lastTick = s.lastTick := rfl
@[simp] theorem State.modGlb_pairs (f : Glb → Glb) : (s.modGlb f).pairs = s.pairs := rfl
@[simp] theorem State.modGlb_ports (f : Glb → Glb) : (s.modGlb f).ports = s.ports := rfl
@[simp] theorem State.modGlb_pavs (f : Glb → Glb) : (s.modGlb f).pavs = s.pavs := rfl
@[simp] theorem State.modGlb_chans (f : Glb → Glb) : (s.modGlb f).chans = s.chans := rfl
@[simp] theorem State.modGlb_stks (f : Glb → Glb) : (s.modGlb f).stks = s.stks := rfl
@[simp] theorem State.modGlb_lodge (f : Glb → Glb) : (s.modGlb f).lodge = s.lodge := rfl
@[simp] theorem State.modGlb_band (f : Glb → Glb) : (s.modGlb f).band = s.band := rfl
@[simp] theorem State.modGlb_blv (f : Glb → Glb) : (s.modGlb f).blv = s.blv := rfl
@[simp] theorem State.modGlb_freeCtr (f : Glb → Glb) : (s.modGlb f).freeCtr = s.freeCtr := rfl
@[simp] theorem State.modGlb_outs (f : Glb → Glb) : (s.modGlb f).outs = s.outs := rfl
@[simp] theorem State.modGlb_swNow (f : Glb → Glb) : (s.modGlb f).swNow = s.swNow := rfl
@[simp] theorem State.modGlb_swBits (f : Glb → Glb) : (s.modGlb f).swBits = s.swBits := rfl
@[simp] theorem State.modGlb_hwNow (f : Glb → Glb) : (s.modGlb f).hwNow = s.hwNow := rfl

/-! ## modLodge -/

@[simp] theorem State.modLodge_pending (f : Lodge → Lodge) : (s.modLodge f).pending = s.pending := rfl
@[simp] theorem State.modLodge_now (f : Lodge → Lodge) : (s.modLodge f).now = s.now := rfl
@[simp] theorem State.modLodge_glb (f : Lodge → Lodge) : (s.modLodge f).glb = s.glb := rfl
@[simp] theorem State.modLodge_csr (f : Lodge → Lodge) : (s.modLodge f).csr = s.csr := rfl
@[simp] theorem State.modLodge_pend (f : Lodge → Lodge) : (s.modLodge f).pend = s.pend := rfl
@[simp] theorem State.modLodge_lastTick (f : Lodge → Lodge) : (s.modLodge f).lastTick = s.lastTick := rfl
@[simp] theorem State.modLodge_pairs (f : Lodge → Lodge) : (s.modLodge f).pairs = s.pairs := rfl
@[simp] theorem State.modLodge_ports (f : Lodge → Lodge) : (s.modLodge f).ports = s.ports := rfl
@[simp] theorem State.modLodge_pavs (f : Lodge → Lodge) : (s.modLodge f).pavs = s.pavs := rfl
@[simp] theorem State.modLodge_chans (f : Lodge → Lodge) : (s.modLodge f).chans = s.chans := rfl
@[simp] theorem State.modLodge_stks (f : Lodge → Lodge) : (s.modLodge f).stks = s.stks := rfl
@[simp] theorem State.modLodge_lodge (f : Lodge → Lodge) : (s.modLodge f).lodge = f s.lodge := rfl
@[simp] theorem State.modLodge_band (f : Lodge → Lodge) : (s.modLodge f).band = s.band := rfl
@[simp] theorem State.modLodge_blv (f : Lodge → Lodge) : (s.modLodge f).blv = s.blv := rfl
@[simp] theorem State.modLodge_freeCtr (f : Lodge → Lodge) : (s.modLodge f).freeCtr = s.freeCtr := rfl
@[simp] theorem State.modLodge_outs (f : Lodge → Lodge) : (s.modLodge f).outs = s.outs := rfl
@[simp] theorem State.modLodge_swNow (f : Lodge → Lodge) : (s.modLodge f).swNow = s.swNow := rfl
@[simp] theorem State.modLodge_swBits (f : Lodge → Lodge) : (s.modLodge f).swBits = s.swBits := rfl
@[simp] theorem State.modLodge_hwNow (f : Lodge → Lodge) : (s.modLodge f).hwNow = s.hwNow := rfl

/-! ## modBand -/

@[simp] theorem State.modBand_pending (f : Band → Band) : (s.modBand f).pending = s.pending := rfl
@[simp] theorem State.modBand_now (f : Band → Band) : (s.modBand f).now = s.now := rfl
@[simp] theorem State.modBand_glb (f : Band → Band) : (s.modBand f).glb = s.glb := rfl
@[simp] theorem State.modBand_csr (f : Band → Band) : (s.modBand f).csr = s.csr := rfl
@[simp] theorem State.modBand_pend (f : Band → Band) : (s.modBand f).pend = s.pend := rfl
@[simp] theorem State.modBand_lastTick (f : Band → Band) : (s.modBand f).lastTick = s.lastTick := rfl
@[simp] theorem State.modBand_pairs (f : Band → Band) : (s.modBand f).pairs = s.pairs := rfl
@[simp] theorem State.modBand_ports (f : Band → Band) : (s.modBand f).ports = s.ports := rfl
@[simp] theorem State.modBand_pavs (f : Band → Band) : (s.modBand f).pavs = s.pavs := rfl
@[simp] theorem State.modBand_chans (f : Band → Band) : (s.modBand f).chans = s.chans := rfl
@[simp] theorem State.modBand_stks (f : Band → Band) : (s.modBand f).stks = s.stks := rfl
@[simp] theorem State.modBand_lodge (f : Band → Band) : (s.modBand f).lodge = s.lodge := rfl
@[simp] theorem State.modBand_band (f : Band → Band) : (s.modBand f).band = f s.band := rfl
@[simp] theorem State.modBand_blv (f : Band → Band) : (s.modBand f).blv = s.blv := rfl
@[simp] theorem State.modBand_freeCtr (f : Band → Band) : (s.modBand f).freeCtr = s.freeCtr := rfl
@[simp] theorem State.modBand_outs (f : Band → Band) : (s.modBand f).outs = s.outs := rfl
@[simp] theorem State.modBand_swNow (f : Band → Band) : (s.modBand f).swNow = s.swNow := rfl
@[simp] theorem State.modBand_swBits (f : Band → Band) : (s.modBand f).swBits = s.swBits := rfl
@[simp] theorem State.modBand_hwNow (f : Band → Band) : (s.modBand f).hwNow = s.hwNow := rfl

/-! ## modBlv -/

@[simp] theorem State.modBlv_pending (f : Blv → Blv) : (s.modBlv f).pending = s.pending := rfl
@[simp] theorem State.modBlv_now (f : Blv → Blv) : (s.modBlv f).now = s.now := rfl
@[simp] theorem State.modBlv_glb (f : Blv → Blv) : (s.modBlv f).glb = s.glb := rfl
@[simp] theorem State.modBlv_csr (f : Blv → Blv) : (s.modBlv f).csr = s.csr := rfl
@[simp] theorem State.modBlv_pend (f : Blv → Blv) : (s.modBlv f).pend = s.pend := rfl
@[simp] theorem State.modBlv_lastTick (f : Blv → Blv) : (s.modBlv f).lastTick = s.lastTick := rfl
@[simp] theorem State.modBlv_pairs (f : Blv → Blv) : (s.modBlv f).pairs = s.pairs := rfl
@[simp] theorem State.modBlv_ports (f : Blv → Blv) : (s.modBlv f).ports = s.ports := rfl
@[simp] theorem State.modBlv_pavs (f : Blv → Blv) : (s.modBlv f).pavs = s.pavs := rfl
@[simp] theorem State.modBlv_chans (f : Blv → Blv) : (s.modBlv f).chans = s.chans := rfl
@[simp] theorem State.modBlv_stks (f : Blv → Blv) : (s.modBlv f).stks = s.stks := rfl
@[simp] theorem State.modBlv_lodge (f : Blv → Blv) : (s.modBlv f).lodge = s.lodge := rfl
@[simp] theorem State.modBlv_band (f : Blv → Blv) : (s.modBlv f).band = s.band := rfl
@[simp] theorem State.modBlv_blv (f : Blv → Blv) : (s.modBlv f).blv = f s.blv := rfl
@[simp] theorem State.modBlv_freeCtr (f : Blv → Blv) : (s.modBlv f).freeCtr = s.freeCtr := rfl
@[simp] theorem State.modBlv_outs (f : Blv → Blv) : (s.modBlv f).outs = s.outs := rfl
@[simp] theorem State.modBlv_swNow (f : Blv → Blv) : (s.modBlv f).swNow = s.swNow := rfl
@[simp] theorem State.modBlv_swBits (f : Blv → Blv) : (s.modBlv f).swBits = s.swBits := rfl
@[simp] theorem State.modBlv_hwNow (f : Blv → Blv) : (s.modBlv f).hwNow = s.hwNow := rfl

/-! ## emit -/

@[simp] theorem State.emit_pending (o : Out) : (s.emit o).pending = s.pending := rfl
@[simp] theorem State.emit_now (o : Out) : (s.emit o).now = s.now := rfl
@[simp] theorem State.emit_glb (o : Out) : (s.emit o).glb = s.glb := rfl
@[simp] theorem State.emit_csr (o : Out) : (s.emit o).csr = s.csr := rfl
@[simp] theorem State.emit_pend (o : Out) : (s.emit o).pend = s.pend := rfl
@[simp] theorem State.emit_lastTick (o : Out) : (s.emit o).lastTick = s.lastTick := rfl
@[simp] theorem State.emit_pairs (o : Out) : (s.emit o).pairs = s.pairs := rfl
@[simp] theorem State.emit_ports (o : Out) : (s.emit o).ports = s.ports := rfl
@[simp] theorem State.emit_pavs (o : Out) : (s.emit o).pavs = s.pavs := rfl
@[simp] theorem State.emit_chans (o : Out) : (s.emit o).chans = s.chans := rfl
@[simp] theorem State.emit_stks (o : Out) : (s.emit o).stks = s.stks := rfl
@[simp] theorem State.emit_lodge (o : Out) : (s.emit o).lodge = s.lodge := rfl
@[simp] theorem State.emit_band (o : Out) : (s.emit o).band = s.band := rfl
@[simp] theorem State.emit_blv (o : Out) : (s.emit o).blv = s.blv := rfl
@[simp] theorem State.emit_freeCtr (o : Out) : (s.emit o).freeCtr = s.freeCtr := rfl
@[simp] theorem State.emit_outs (o : Out) : (s.emit o).outs = o :: s.outs := rfl
@[simp] theorem State.emit_swNow (o : Out) : (s.emit o).swNow = s.swNow := rfl
@[simp] theorem State.emit_swBits (o : Out) : (s.emit o).swBits = s.swBits := rfl
@[simp] theorem State.emit_hwNow (o : Out) : (s.emit o).hwNow = s.hwNow := rfl

/-! ## modPend -/

@[simp] theorem State.modPend_pending (f : FMap W32 → FMap W32) : (s.modPend f).pending = s.pending := rfl
@[simp] theorem State.modPend_now (f : FMap W32 → FMap W32) : (s.modPend f).now = s.now := rfl
@[simp] theorem State.modPend_glb (f : FMap W32 → FMap W32) : (s.modPend f).glb = s.glb := rfl
@[simp] theorem State.modPend_csr (f : FMap W32 → FMap W32) : (s.modPend f).csr = s.csr := rfl
@[simp] theorem State.modPend_pend (f : FMap W32 → FMap W32) : (s.modPend f).pend = f s.pend := rfl
@[simp] theorem State.modPend_lastTick (f : FMap W32 → FMap W32) : (s.modPend f).lastTick = s.lastTick := rfl
@[simp] theorem State.modPend_pairs (f : FMap W32 → FMap W32) : (s.modPend f).pairs = s.pairs := rfl
@[simp] theorem State.modPend_ports (f : FMap W32 → FMap W32) : (s.modPend f).ports = s.ports := rfl
@[simp] theorem State.modPend_pavs (f : FMap W32 → FMap W32) : (s.modPend f).pavs = s.pavs := rfl
@[simp] theorem State.modPend_chans (f : FMap W32 → FMap W32) : (s.modPend f).chans = s.chans := rfl
@[simp] theorem State.modPend_stks (f : FMap W32 → FMap W32) : (s.modPend f).stks = s.stks := rfl
@[simp] theorem State.modPend_lodge (f : FMap W32 → FMap W32) : (s.modPend f).lodge = s.lodge := rfl
@[simp] theorem State.modPend_band (f : FMap W32 → FMap W32) : (s.modPend f).band = s.band := rfl
@[simp] theorem State.modPend_blv (f : FMap W32 → FMap W32) : (s.modPend f).blv = s.blv := rfl
@[simp] theorem State.modPend_freeCtr (f : FMap W32 → FMap W32) : (s.modPend f).freeCtr = s.freeCtr := rfl
@[simp] theorem State.modPend_outs (f : FMap W32 → FMap W32) : (s.modPend f).outs = s.outs := rfl
@[simp] theorem State.modPend_swNow (f : FMap W32 → FMap W32) : (s.modPend f).swNow = s.swNow := rfl
@[simp] theorem State.modPend_swBits (f : FMap W32 → FMap W32) : (s.modPend f).swBits = s.swBits := rfl
@[simp] theorem State.modPend_hwNow (f : FMap W32 → FMap W32) : (s.modPend f).hwNow = s.hwNow := rfl

/-! ## modLast -/

@[simp] theorem State.modLast_pending (f : FMap Nat → FMap Nat) : (s.modLast f).pending = s.pending := rfl
@[simp] theorem State.modLast_now (f : FMap Nat → FMap Nat) : (s.modLast f).now = s.now := rfl
@[simp] theorem State.modLast_glb (f : FMap Nat → FMap Nat) : (s.modLast f).glb = s.glb := rfl
@[simp] theorem State.modLast_csr (f : FMap Nat → FMap Nat) : (s.modLast f).csr = s.csr := rfl
@[simp] theorem State.modLast_pend (f : FMap Nat → FMap Nat) : (s.modLast f).pend = s.pend := rfl
@[simp] theorem State.modLast_lastTick (f : FMap Nat → FMap Nat) : (s.modLast f).lastTick = f s.lastTick := rfl
@[simp] theorem State.modLast_pairs (f : FMap Nat → FMap Nat) : (s.modLast f).pairs = s.pairs := rfl
@[simp] theorem State.modLast_ports (f : FMap Nat → FMap Nat) : (s.modLast f).ports = s.ports := rfl
@[simp] theorem State.modLast_pavs (f : FMap Nat → FMap Nat) : (s.modLast f).pavs = s.pavs := rfl
@[simp] theorem State.modLast_chans (f : FMap Nat → FMap Nat) : (s.modLast f).chans = s.chans := rfl
@[simp] theorem State.modLast_stks (f : FMap Nat → FMap Nat) : (s.modLast f).stks = s.stks := rfl
@[simp] theorem State.modLast_lodge (f : FMap Nat → FMap Nat) : (s.modLast f).lodge = s.lodge := rfl
@[simp] theorem State.modLast_band (f : FMap Nat → FMap Nat) : (s.modLast f).band = s.band := rfl
@[simp] theorem State.modLast_blv (f : FMap Nat → FMap Nat) : (s.modLast f).blv = s.blv := rfl
@[simp] theorem State.modLast_freeCtr (f : FMap Nat → FMap Nat) : (s.modLast f).freeCtr = s.freeCtr := rfl
@[simp] theorem State.modLast_outs (f : FMap Nat → FMap Nat) : (s.modLast f).outs = s.outs := rfl
@[simp] theorem State.modLast_swNow (f : FMap Nat → FMap Nat) : (s.modLast f).swNow = s.swNow := rfl
@[simp] theorem State.modLast_swBits (f : FMap Nat → FMap Nat) : (s.modLast f).swBits = s.swBits := rfl
@[simp] theorem State.modLast_hwNow (f : FMap Nat → FMap Nat) : (s.modLast f).hwNow = s.hwNow := rfl

/-! ## modPairs -/

@[simp] theorem State.modPairs_pending (f : FMap PairRegs → FMap PairRegs) : (s.modPairs f).pending = s.pending := rfl
@[simp] theorem State.modPairs_now (f : FMap PairRegs → FMap PairRegs) : (s.modPairs f).now = s.now := rfl
@[simp] theorem State.modPairs_glb (f : FMap PairRegs → FMap PairRegs) : (s.modPairs f).glb = s.glb := rfl
@[simp] theorem State.modPairs_csr (f : FMap PairRegs → FMap PairRegs) : (s.modPairs f).csr = s.csr := rfl
@[simp] theorem State.modPairs_pend (f : FMap PairRegs → FMap PairRegs) : (s.modPairs f).pend = s.pend := rfl
@[simp] theorem State.modPairs_lastTick (f : FMap PairRegs → FMap PairRegs) : (s.modPairs f).lastTick = s.lastTick := rfl
@[simp] theorem State.modPairs_pairs (f : FMap PairRegs → FMap PairRegs) : (s.modPairs f).pairs = f s.pairs := rfl
@[simp] theorem State.modPairs_ports (f : FMap PairRegs → FMap PairRegs) : (s.modPairs f).ports = s.ports := rfl
@[simp] theorem State.modPairs_pavs (f : FMap PairRegs → FMap PairRegs) : (s.modPairs f).pavs = s.pavs := rfl
@[simp] theorem State.modPairs_chans (f : FMap PairRegs → FMap PairRegs) : (s.modPairs f).chans = s.chans := rfl
@[simp] theorem State.modPairs_stks (f : FMap PairRegs → FMap PairRegs) : (s.modPairs f).stks = s.stks := rfl
@[simp] theorem State.modPairs_lodge (f : FMap PairRegs → FMap PairRegs) : (s.modPairs f).lodge = s.lodge := rfl
@[simp] theorem State.modPairs_band (f : FMap PairRegs → FMap PairRegs) : (s.modPairs f).band = s.band := rfl
@[simp] theorem State.modPairs_blv (f : FMap PairRegs → FMap PairRegs) : (s.modPairs f).blv = s.blv := rfl
@[simp] theorem State.modPairs_freeCtr (f : FMap PairRegs → FMap PairRegs) : (s.modPairs f).freeCtr = s.freeCtr := rfl
@[simp] theorem State.modPairs_outs (f : FMap PairRegs → FMap PairRegs) : (s.modPairs f).outs = s.outs := rfl
@[simp] theorem State.modPairs_swNow (f : FMap PairRegs → FMap PairRegs) : (s.modPairs f).swNow = s.swNow := rfl
@[simp] theorem State.modPairs_swBits (f : FMap PairRegs → FMap PairRegs) : (s.modPairs f).swBits = s.swBits := rfl
@[simp] theorem State.modPairs_hwNow (f : FMap PairRegs → FMap PairRegs) : (s.modPairs f).hwNow = s.hwNow := rfl

/-! ## drawn -/

@[simp] theorem State.drawn_pending : (s.drawn).pending = s.pending := rfl
@[simp] theorem State.drawn_now : (s.drawn).now = s.now := rfl
@[simp] theorem State.drawn_glb : (s.drawn).glb = s.glb := rfl
@[simp] theorem State.drawn_csr : (s.drawn).csr = s.csr := rfl
@[simp] theorem State.drawn_pend : (s.drawn).pend = s.pend := rfl
@[simp] theorem State.drawn_lastTick : (s.drawn).lastTick = s.lastTick := rfl
@[simp] theorem State.drawn_pairs : (s.drawn).pairs = s.pairs := rfl
@[simp] theorem State.drawn_ports : (s.drawn).ports = s.ports := rfl
@[simp] theorem State.drawn_pavs : (s.drawn).pavs = s.pavs := rfl
@[simp] theorem State.drawn_chans : (s.drawn).chans = s.chans := rfl
@[simp] theorem State.drawn_stks : (s.drawn).stks = s.stks := rfl
@[simp] theorem State.drawn_lodge : (s.drawn).lodge = s.lodge := rfl
@[simp] theorem State.drawn_band : (s.drawn).band = s.band := rfl
@[simp] theorem State.drawn_blv : (s.drawn).blv = s.blv := rfl
@[simp] theorem State.drawn_freeCtr : (s.drawn).freeCtr = s.freeCtr + 1 := rfl
@[simp] theorem State.drawn_outs : (s.drawn).outs = s.outs := rfl
@[simp] theorem State.drawn_swNow : (s.drawn).swNow = s.swNow := rfl
@[simp] theorem State.drawn_swBits : (s.drawn).swBits = s.swBits := rfl
@[simp] theorem State.drawn_hwNow : (s.drawn).hwNow = s.hwNow := rfl

/-! ## later -/

@[simp] theorem State.later_pending : (s.later).pending = s.pending := rfl
@[simp] theorem State.later_now : (s.later).now = s.now + 1 := rfl
@[simp] theorem State.later_glb : (s.later).glb = s.glb := rfl
@[simp] theorem State.later_csr : (s.later).csr = s.csr := rfl
@[simp] theorem State.later_pend : (s.later).pend = s.pend := rfl
@[simp] theorem State.later_lastTick : (s.later).lastTick = s.lastTick := rfl
@[simp] theorem State.later_pairs : (s.later).pairs = s.pairs := rfl
@[simp] theorem State.later_ports : (s.later).ports = s.ports := rfl
@[simp] theorem State.later_pavs : (s.later).pavs = s.pavs := rfl
@[simp] theorem State.later_chans : (s.later).chans = s.chans := rfl
@[simp] theorem State.later_stks : (s.later).stks = s.stks := rfl
@[simp] theorem State.later_lodge : (s.later).lodge = s.lodge := rfl
@[simp] theorem State.later_band : (s.later).band = s.band := rfl
@[simp] theorem State.later_blv : (s.later).blv = s.blv := rfl
@[simp] theorem State.later_freeCtr : (s.later).freeCtr = s.freeCtr := rfl
@[simp] theorem State.later_outs : (s.later).outs = s.outs := rfl
@[simp] theorem State.later_swNow : (s.later).swNow = s.swNow := rfl
@[simp] theorem State.later_swBits : (s.later).swBits = s.swBits := rfl
@[simp] theorem State.later_hwNow : (s.later).hwNow = s.hwNow := rfl

/-! ## rset -/

@[simp] theorem State.rset_pending (off : Nat) (v : W32) : (s.rset off v).pending = s.pending := rfl
@[simp] theorem State.rset_now (off : Nat) (v : W32) : (s.rset off v).now = s.now := rfl
@[simp] theorem State.rset_glb (off : Nat) (v : W32) : (s.rset off v).glb = s.glb := rfl
@[simp] theorem State.rset_csr (off : Nat) (v : W32) : (s.rset off v).csr = FMap.put regReset s.csr off v := rfl
@[simp] theorem State.rset_pend (off : Nat) (v : W32) : (s.rset off v).pend = s.pend := rfl
@[simp] theorem State.rset_lastTick (off : Nat) (v : W32) : (s.rset off v).lastTick = s.lastTick := rfl
@[simp] theorem State.rset_pairs (off : Nat) (v : W32) : (s.rset off v).pairs = s.pairs := rfl
@[simp] theorem State.rset_ports (off : Nat) (v : W32) : (s.rset off v).ports = s.ports := rfl
@[simp] theorem State.rset_pavs (off : Nat) (v : W32) : (s.rset off v).pavs = s.pavs := rfl
@[simp] theorem State.rset_chans (off : Nat) (v : W32) : (s.rset off v).chans = s.chans := rfl
@[simp] theorem State.rset_stks (off : Nat) (v : W32) : (s.rset off v).stks = s.stks := rfl
@[simp] theorem State.rset_lodge (off : Nat) (v : W32) : (s.rset off v).lodge = s.lodge := rfl
@[simp] theorem State.rset_band (off : Nat) (v : W32) : (s.rset off v).band = s.band := rfl
@[simp] theorem State.rset_blv (off : Nat) (v : W32) : (s.rset off v).blv = s.blv := rfl
@[simp] theorem State.rset_freeCtr (off : Nat) (v : W32) : (s.rset off v).freeCtr = s.freeCtr := rfl
@[simp] theorem State.rset_outs (off : Nat) (v : W32) : (s.rset off v).outs = s.outs := rfl
@[simp] theorem State.rset_swNow (off : Nat) (v : W32) : (s.rset off v).swNow = s.swNow := rfl
@[simp] theorem State.rset_swBits (off : Nat) (v : W32) : (s.rset off v).swBits = s.swBits := rfl
@[simp] theorem State.rset_hwNow (off : Nat) (v : W32) : (s.rset off v).hwNow = s.hwNow := rfl

/-! ## Parts after a change -/

@[simp] theorem State.modPort_port_same (n : PortId) (f : Port → Port) : (s.modPort n f).port n = f (s.port n) := by
  simp [State.port, State.modPort]
theorem State.modPort_port_other (f : Port → Port) {n k : PortId} (h : k ≠ n) : (s.modPort n f).port k = s.port k := by
  have : n.val ≠ k.val := fun e => h (Fin.ext e.symm)
  simp [State.port, State.modPort, Vector.getElem_set_ne, this]

@[simp] theorem State.modPav_pav_same (n : PavId) (f : Pav → Pav) : (s.modPav n f).pav n = f (s.pav n) := by
  simp [State.pav, State.modPav]
theorem State.modPav_pav_other (f : Pav → Pav) {n k : PavId} (h : k ≠ n) : (s.modPav n f).pav k = s.pav k := by
  have : n.val ≠ k.val := fun e => h (Fin.ext e.symm)
  simp [State.pav, State.modPav, Vector.getElem_set_ne, this]

@[simp] theorem State.modChan_chan_same (n : ChanId) (f : Chan → Chan) : (s.modChan n f).chan n = f (s.chan n) := by
  simp [State.chan, State.modChan]
theorem State.modChan_chan_other (f : Chan → Chan) {n k : ChanId} (h : k ≠ n) : (s.modChan n f).chan k = s.chan k := by
  have : n.val ≠ k.val := fun e => h (Fin.ext e.symm)
  simp [State.chan, State.modChan, Vector.getElem_set_ne, this]

@[simp] theorem State.modStk_stk_same (n : StackId) (f : Stk → Stk) : (s.modStk n f).stk n = f (s.stk n) := by
  simp [State.stk, State.modStk]
theorem State.modStk_stk_other (f : Stk → Stk) {n k : StackId} (h : k ≠ n) : (s.modStk n f).stk k = s.stk k := by
  have : n.val ≠ k.val := fun e => h (Fin.ext e.symm)
  simp [State.stk, State.modStk, Vector.getElem_set_ne, this]

@[simp] theorem State.modLink_link_same (n : PortId) (f : Link → Link) : ((s.modLink n f).port n).link = f (s.port n).link := by
  simp [State.modLink]
@[simp] theorem State.modLink_io_same (n : PortId) (f : Link → Link) : ((s.modLink n f).port n).io = (s.port n).io := by
  simp [State.modLink]
theorem State.modLink_port_other (f : Link → Link) {n k : PortId} (h : k ≠ n) : (s.modLink n f).port k = s.port k :=
  State.modPort_port_other s _ h

@[simp] theorem State.modIo_io_same (n : PortId) (f : PortIo → PortIo) : ((s.modIo n f).port n).io = f (s.port n).io := by
  simp [State.modIo]
@[simp] theorem State.modIo_link_same (n : PortId) (f : PortIo → PortIo) : ((s.modIo n f).port n).link = (s.port n).link := by
  simp [State.modIo]
theorem State.modIo_port_other (f : PortIo → PortIo) {n k : PortId} (h : k ≠ n) : (s.modIo n f).port k = s.port k :=
  State.modPort_port_other s _ h

@[simp] theorem State.modPav_port (p : PavId) (f : Pav → Pav) (j : PortId) : (s.modPav p f).port j = s.port j := rfl
@[simp] theorem State.modChan_port (c : ChanId) (f : Chan → Chan) (j : PortId) : (s.modChan c f).port j = s.port j := rfl
@[simp] theorem State.modStk_port (k : StackId) (f : Stk → Stk) (j : PortId) : (s.modStk k f).port j = s.port j := rfl
@[simp] theorem State.modGlb_port (f : Glb → Glb) (j : PortId) : (s.modGlb f).port j = s.port j := rfl
@[simp] theorem State.modLodge_port (f : Lodge → Lodge) (j : PortId) : (s.modLodge f).port j = s.port j := rfl
@[simp] theorem State.modBand_port (f : Band → Band) (j : PortId) : (s.modBand f).port j = s.port j := rfl
@[simp] theorem State.modBlv_port (f : Blv → Blv) (j : PortId) : (s.modBlv f).port j = s.port j := rfl
@[simp] theorem State.emit_port (o : Out) (j : PortId) : (s.emit o).port j = s.port j := rfl
@[simp] theorem State.modPend_port (f : FMap W32 → FMap W32) (j : PortId) : (s.modPend f).port j = s.port j := rfl
@[simp] theorem State.modLast_port (f : FMap Nat → FMap Nat) (j : PortId) : (s.modLast f).port j = s.port j := rfl
@[simp] theorem State.modPairs_port (f : FMap PairRegs → FMap PairRegs) (j : PortId) : (s.modPairs f).port j = s.port j := rfl
@[simp] theorem State.drawn_port (j : PortId) : (s.drawn).port j = s.port j := rfl
@[simp] theorem State.later_port (j : PortId) : (s.later).port j = s.port j := rfl
@[simp] theorem State.rset_port (off : Nat) (v : W32) (j : PortId) : (s.rset off v).port j = s.port j := rfl

@[simp] theorem State.modPort_pav (n : PortId) (f : Port → Port) (j : PavId) : (s.modPort n f).pav j = s.pav j := rfl
@[simp] theorem State.modLink_pav (n : PortId) (f : Link → Link) (j : PavId) : (s.modLink n f).pav j = s.pav j := rfl
@[simp] theorem State.modIo_pav (n : PortId) (f : PortIo → PortIo) (j : PavId) : (s.modIo n f).pav j = s.pav j := rfl
@[simp] theorem State.modChan_pav (c : ChanId) (f : Chan → Chan) (j : PavId) : (s.modChan c f).pav j = s.pav j := rfl
@[simp] theorem State.modStk_pav (k : StackId) (f : Stk → Stk) (j : PavId) : (s.modStk k f).pav j = s.pav j := rfl
@[simp] theorem State.modGlb_pav (f : Glb → Glb) (j : PavId) : (s.modGlb f).pav j = s.pav j := rfl
@[simp] theorem State.modLodge_pav (f : Lodge → Lodge) (j : PavId) : (s.modLodge f).pav j = s.pav j := rfl
@[simp] theorem State.modBand_pav (f : Band → Band) (j : PavId) : (s.modBand f).pav j = s.pav j := rfl
@[simp] theorem State.modBlv_pav (f : Blv → Blv) (j : PavId) : (s.modBlv f).pav j = s.pav j := rfl
@[simp] theorem State.emit_pav (o : Out) (j : PavId) : (s.emit o).pav j = s.pav j := rfl
@[simp] theorem State.modPend_pav (f : FMap W32 → FMap W32) (j : PavId) : (s.modPend f).pav j = s.pav j := rfl
@[simp] theorem State.modLast_pav (f : FMap Nat → FMap Nat) (j : PavId) : (s.modLast f).pav j = s.pav j := rfl
@[simp] theorem State.modPairs_pav (f : FMap PairRegs → FMap PairRegs) (j : PavId) : (s.modPairs f).pav j = s.pav j := rfl
@[simp] theorem State.drawn_pav (j : PavId) : (s.drawn).pav j = s.pav j := rfl
@[simp] theorem State.later_pav (j : PavId) : (s.later).pav j = s.pav j := rfl
@[simp] theorem State.rset_pav (off : Nat) (v : W32) (j : PavId) : (s.rset off v).pav j = s.pav j := rfl

@[simp] theorem State.modPort_chan (n : PortId) (f : Port → Port) (j : ChanId) : (s.modPort n f).chan j = s.chan j := rfl
@[simp] theorem State.modLink_chan (n : PortId) (f : Link → Link) (j : ChanId) : (s.modLink n f).chan j = s.chan j := rfl
@[simp] theorem State.modIo_chan (n : PortId) (f : PortIo → PortIo) (j : ChanId) : (s.modIo n f).chan j = s.chan j := rfl
@[simp] theorem State.modPav_chan (p : PavId) (f : Pav → Pav) (j : ChanId) : (s.modPav p f).chan j = s.chan j := rfl
@[simp] theorem State.modStk_chan (k : StackId) (f : Stk → Stk) (j : ChanId) : (s.modStk k f).chan j = s.chan j := rfl
@[simp] theorem State.modGlb_chan (f : Glb → Glb) (j : ChanId) : (s.modGlb f).chan j = s.chan j := rfl
@[simp] theorem State.modLodge_chan (f : Lodge → Lodge) (j : ChanId) : (s.modLodge f).chan j = s.chan j := rfl
@[simp] theorem State.modBand_chan (f : Band → Band) (j : ChanId) : (s.modBand f).chan j = s.chan j := rfl
@[simp] theorem State.modBlv_chan (f : Blv → Blv) (j : ChanId) : (s.modBlv f).chan j = s.chan j := rfl
@[simp] theorem State.emit_chan (o : Out) (j : ChanId) : (s.emit o).chan j = s.chan j := rfl
@[simp] theorem State.modPend_chan (f : FMap W32 → FMap W32) (j : ChanId) : (s.modPend f).chan j = s.chan j := rfl
@[simp] theorem State.modLast_chan (f : FMap Nat → FMap Nat) (j : ChanId) : (s.modLast f).chan j = s.chan j := rfl
@[simp] theorem State.modPairs_chan (f : FMap PairRegs → FMap PairRegs) (j : ChanId) : (s.modPairs f).chan j = s.chan j := rfl
@[simp] theorem State.drawn_chan (j : ChanId) : (s.drawn).chan j = s.chan j := rfl
@[simp] theorem State.later_chan (j : ChanId) : (s.later).chan j = s.chan j := rfl
@[simp] theorem State.rset_chan (off : Nat) (v : W32) (j : ChanId) : (s.rset off v).chan j = s.chan j := rfl

@[simp] theorem State.modPort_stk (n : PortId) (f : Port → Port) (j : StackId) : (s.modPort n f).stk j = s.stk j := rfl
@[simp] theorem State.modLink_stk (n : PortId) (f : Link → Link) (j : StackId) : (s.modLink n f).stk j = s.stk j := rfl
@[simp] theorem State.modIo_stk (n : PortId) (f : PortIo → PortIo) (j : StackId) : (s.modIo n f).stk j = s.stk j := rfl
@[simp] theorem State.modPav_stk (p : PavId) (f : Pav → Pav) (j : StackId) : (s.modPav p f).stk j = s.stk j := rfl
@[simp] theorem State.modChan_stk (c : ChanId) (f : Chan → Chan) (j : StackId) : (s.modChan c f).stk j = s.stk j := rfl
@[simp] theorem State.modGlb_stk (f : Glb → Glb) (j : StackId) : (s.modGlb f).stk j = s.stk j := rfl
@[simp] theorem State.modLodge_stk (f : Lodge → Lodge) (j : StackId) : (s.modLodge f).stk j = s.stk j := rfl
@[simp] theorem State.modBand_stk (f : Band → Band) (j : StackId) : (s.modBand f).stk j = s.stk j := rfl
@[simp] theorem State.modBlv_stk (f : Blv → Blv) (j : StackId) : (s.modBlv f).stk j = s.stk j := rfl
@[simp] theorem State.emit_stk (o : Out) (j : StackId) : (s.emit o).stk j = s.stk j := rfl
@[simp] theorem State.modPend_stk (f : FMap W32 → FMap W32) (j : StackId) : (s.modPend f).stk j = s.stk j := rfl
@[simp] theorem State.modLast_stk (f : FMap Nat → FMap Nat) (j : StackId) : (s.modLast f).stk j = s.stk j := rfl
@[simp] theorem State.modPairs_stk (f : FMap PairRegs → FMap PairRegs) (j : StackId) : (s.modPairs f).stk j = s.stk j := rfl
@[simp] theorem State.drawn_stk (j : StackId) : (s.drawn).stk j = s.stk j := rfl
@[simp] theorem State.later_stk (j : StackId) : (s.later).stk j = s.stk j := rfl
@[simp] theorem State.rset_stk (off : Nat) (v : W32) (j : StackId) : (s.rset off v).stk j = s.stk j := rfl

@[simp] theorem State.modPort_rget (n : PortId) (f : Port → Port) (j : Nat) : (s.modPort n f).rget j = s.rget j := rfl
@[simp] theorem State.modLink_rget (n : PortId) (f : Link → Link) (j : Nat) : (s.modLink n f).rget j = s.rget j := rfl
@[simp] theorem State.modIo_rget (n : PortId) (f : PortIo → PortIo) (j : Nat) : (s.modIo n f).rget j = s.rget j := rfl
@[simp] theorem State.modPav_rget (p : PavId) (f : Pav → Pav) (j : Nat) : (s.modPav p f).rget j = s.rget j := rfl
@[simp] theorem State.modChan_rget (c : ChanId) (f : Chan → Chan) (j : Nat) : (s.modChan c f).rget j = s.rget j := rfl
@[simp] theorem State.modStk_rget (k : StackId) (f : Stk → Stk) (j : Nat) : (s.modStk k f).rget j = s.rget j := rfl
@[simp] theorem State.modGlb_rget (f : Glb → Glb) (j : Nat) : (s.modGlb f).rget j = s.rget j := rfl
@[simp] theorem State.modLodge_rget (f : Lodge → Lodge) (j : Nat) : (s.modLodge f).rget j = s.rget j := rfl
@[simp] theorem State.modBand_rget (f : Band → Band) (j : Nat) : (s.modBand f).rget j = s.rget j := rfl
@[simp] theorem State.modBlv_rget (f : Blv → Blv) (j : Nat) : (s.modBlv f).rget j = s.rget j := rfl
@[simp] theorem State.emit_rget (o : Out) (j : Nat) : (s.emit o).rget j = s.rget j := rfl
@[simp] theorem State.modPend_rget (f : FMap W32 → FMap W32) (j : Nat) : (s.modPend f).rget j = s.rget j := rfl
@[simp] theorem State.modLast_rget (f : FMap Nat → FMap Nat) (j : Nat) : (s.modLast f).rget j = s.rget j := rfl
@[simp] theorem State.modPairs_rget (f : FMap PairRegs → FMap PairRegs) (j : Nat) : (s.modPairs f).rget j = s.rget j := rfl
@[simp] theorem State.drawn_rget (j : Nat) : (s.drawn).rget j = s.rget j := rfl
@[simp] theorem State.later_rget (j : Nat) : (s.later).rget j = s.rget j := rfl

/-! ## Registers in force -/

theorem State.rget_rset_same {s : State} (off : Nat) (v : W32) (h : FMap.wf regReset s.csr = true) : (s.rset off v).rget off = v :=
  FMap.get_put_same off v h
theorem State.rget_rset_other {s : State} {off o : Nat} (v : W32) (h : FMap.wf regReset s.csr = true) (ho : o ≠ off) :
    (s.rset off v).rget o = s.rget o :=
  FMap.get_put_other v h ho
theorem State.rset_wf {s : State} (off : Nat) (v : W32) (h : FMap.wf regReset s.csr = true) : FMap.wf regReset (s.rset off v).csr = true :=
  FMap.wf_put off v h

end Sys2Proof.Machine
end

