-- ==== Sys2Proof/Laws/Ops.lean ====
section
/-!
SUPPORT. What the shared operations can do: the parts of State that each may change, the registers and their canonical form, and
the value that an event leaves in its register.
-/

namespace Sys2Proof.Machine

/-! ## Frames compose -/

theorem Part.same_refl (p : Part) (s : State) : p.same s s := by cases p <;> simp [Part.same]
theorem Part.same_trans {p : Part} {s t u : State} (h : p.same s t) (k : p.same t u) : p.same s u := by
  cases p <;> simp_all [Part.same]

/-- An operation changes these parts of State only, and keeps the registers canonical. -/
structure Tame (ps : List Part) (s t : State) : Prop where
  only : OnlyParts ps s t
  regs : s.regsOk → t.regsOk

variable {ps qs : List Part} {s t u : State}

theorem Tame.refl : Tame ps s s := ⟨fun p _ => p.same_refl s, id⟩
theorem Tame.trans (h : Tame ps s t) (k : Tame ps t u) : Tame ps s u :=
  ⟨fun p hp => Part.same_trans (h.only p hp) (k.only p hp), k.regs ∘ h.regs⟩
theorem Tame.mono (h : Tame ps s t) (le : ps ⊆ qs) : Tame qs s t := ⟨fun p hp => h.only p fun hq => hp (le hq), h.regs⟩
theorem Tame.ite {c : Prop} [Decidable c] (h : c → Tame ps s t) (k : ¬c → Tame ps s u) : Tame ps s (if c then t else u) := by
  by_cases x : c
  · rw [if_pos x]; exact h x
  · rw [if_neg x]; exact k x
/-- A fold whose every step is tame is tame. -/
theorem Tame.foldl {β : Type} (f : State → β → State) (h : ∀ s x, Tame ps s (f s x)) (xs : List β) : Tame ps s (xs.foldl f s) := by
  induction xs generalizing s with
  | nil => exact .refl
  | cons x _ ih => exact (h s x).trans ih

variable (s)

theorem rset_tame (off : Nat) (v : W32) : Tame [.csr] s (s.rset off v) :=
  ⟨fun p hp => by cases p <;> simp_all [Part.same], fun h => FMap.wf_put off v h⟩
theorem modGlb_tame (f : Glb → Glb) : Tame [.glb] s (s.modGlb f) := ⟨fun p hp => by cases p <;> simp_all [Part.same], id⟩
theorem modBlv_tame (f : Blv → Blv) : Tame [.blv] s (s.modBlv f) := ⟨fun p hp => by cases p <;> simp_all [Part.same], id⟩
theorem modLodge_tame (f : Lodge → Lodge) : Tame [.lodge] s (s.modLodge f) := ⟨fun p hp => by cases p <;> simp_all [Part.same], id⟩
theorem modBand_tame (f : Band → Band) : Tame [.band] s (s.modBand f) := ⟨fun p hp => by cases p <;> simp_all [Part.same], id⟩
theorem modPort_tame (n : PortId) (f : Port → Port) : Tame [.ports] s (s.modPort n f) := ⟨fun p hp => by cases p <;> simp_all [Part.same], id⟩
theorem modPav_tame (n : PavId) (f : Pav → Pav) : Tame [.pavs] s (s.modPav n f) := ⟨fun p hp => by cases p <;> simp_all [Part.same], id⟩
theorem modChan_tame (n : ChanId) (f : Chan → Chan) : Tame [.chans] s (s.modChan n f) := ⟨fun p hp => by cases p <;> simp_all [Part.same], id⟩
theorem modStk_tame (n : StackId) (f : Stk → Stk) : Tame [.stks] s (s.modStk n f) := ⟨fun p hp => by cases p <;> simp_all [Part.same], id⟩

/-! ## Events and counters -/

theorem groupEvent_tame (g : Nat) : Tame [.glb] s (s.groupEvent g) := .ite (fun _ => modGlb_tame s _) fun _ => .refl
theorem hwSet_tame (off : Nat) (v : W32) : Tame [.csr] s (s.hwSet off v) :=
  .ite (fun _ => ⟨fun p hp => by cases p <;> simp_all [Part.same], (rset_tame s off v).regs⟩) fun _ => rset_tame s off v
theorem rcount_tame (off hi lo n : Nat) : Tame [.csr] s (s.rcount off hi lo n) := .ite (fun _ => .refl) fun _ => rset_tame s off _

/-- An event changes its register and what it makes pending. -/
theorem raise_tame (off bit : Nat) : Tame [.csr, .glb] s (s.raise off bit) := by
  have h := (hwSet_tame s off (eventWord (s.uncleared off) bit)).mono (qs := [.csr, .glb]) (by simp)
  unfold State.raise
  split
  · exact h
  · exact h.trans ((groupEvent_tame _ _).mono (by simp))

@[simp] theorem groupEvent_csr (g : Nat) : (s.groupEvent g).csr = s.csr := by unfold State.groupEvent; split <;> rfl
@[simp] theorem hwSet_csr (off : Nat) (v : W32) : (s.hwSet off v).csr = FMap.put regReset s.csr off v := by
  unfold State.hwSet; dsimp only; split <;> rfl
theorem raise_csr (off bit : Nat) : (s.raise off bit).csr = FMap.put regReset s.csr off (eventWord (s.uncleared off) bit) := by
  unfold State.raise; split <;> simp

variable {s}

/-- An event sets its bit and advances its sequence, in its own register only (R515). -/
theorem raise_raised (off bit : Nat) (h : s.regsOk) : Raised off bit s (s.raise off bit) := by
  unfold Raised State.rget; rw [raise_csr]; exact FMap.get_put_same off _ h
theorem raise_rget_other {off o : Nat} (bit : Nat) (h : s.regsOk) (ho : o ≠ off) : (s.raise off bit).rget o = s.rget o := by
  unfold State.rget; rw [raise_csr]; exact FMap.get_put_other _ h ho

variable (s)

theorem cntRaw_tame (i n : Nat) : Tame [.csr, .glb, .blv] s (s.cntRaw i n) := by
  have h (f : Blv → Blv) : Tame [.csr, .glb, .blv] s (s.modBlv f) := (modBlv_tame s f).mono (by simp)
  unfold State.cntRaw
  split
  · exact .refl
  split
  · exact .ite (fun _ => (h _).trans ((raise_tame _ _ _).mono (by simp))) fun _ => h _
  · exact .refl

theorem cntAdd_tame (i n : Nat) : Tame [.csr, .glb, .blv] s (s.cntAdd i n) := by
  have h := cntRaw_tame s i n
  unfold State.cntAdd
  split
  · exact .refl
  split
  · exact .ite (fun _ => h) fun _ => h.trans (.foldl _ (fun s _ => .ite (fun _ => cntRaw_tame s _ _) fun _ => .refl) _)
  · exact h

/-- Counting an event changes counters and, at an overflow, BLV.EVT and what it makes pending (R538). -/
theorem cntEv_tame (sel base k code : Nat) (plot : Option PlotId) (n : Nat) : Tame [.csr, .glb, .blv] s (s.cntEv sel base k code plot n) :=
  .ite (fun _ => .refl) fun _ => .foldl _ (fun s _ => .ite (fun _ => cntAdd_tame s _ _) fun _ => .refl) _
theorem cntPort_tame (p : PortId) (code : Nat) (plot : Option PlotId) (n : Nat) : Tame [.csr, .glb, .blv] s (s.cntPort p code plot n) :=
  .ite (fun _ => .refl) fun _ => .foldl _ (fun s _ => .ite (fun _ => cntAdd_tame s _ _) fun _ => .refl) _
theorem cntPav_tame (p : PavId) (code : Nat) (plot : Option PlotId) (n : Nat) : Tame [.csr, .glb, .blv] s (s.cntPav p code plot n) :=
  cntEv_tame s _ _ _ _ _ _
theorem cntChan_tame (c : ChanId) (code : Nat) (plot : Option PlotId) (n : Nat) : Tame [.csr, .glb, .blv] s (s.cntChan c code plot n) :=
  cntEv_tame s _ _ _ _ _ _
theorem cntStk_tame (k : StackId) (code : Nat) (plot : Option PlotId) (n : Nat) : Tame [.csr, .glb, .blv] s (s.cntStk k code plot n) :=
  cntEv_tame s _ _ _ _ _ _
/-- HIBERNATE leaves the Belvedere without power (R427). -/
theorem cntGlob_tame (code n : Nat) : Tame [.csr, .glb, .blv] s (s.cntGlob code n) := .ite (fun _ => .refl) fun _ => cntEv_tame s _ _ _ _ _ _

/-! ## Event records, rejections and guard events -/

/-- A traced occurrence waits in the Belvedere for the end of its cc (R550). -/
theorem occur_tame (o : TrcOcc) : Tame [.blv] s (s.occur o) := .ite (fun _ => modBlv_tame s _) fun _ => .refl
/-- A record goes to the Lodge event queue, or is counted as lost (R49). -/
theorem evPush_tame (r : EvRec) : Tame [.csr, .glb, .blv, .lodge] s (s.evPush r) :=
  ((cntGlob_tame s 5 1).mono (by simp)).trans
    (.ite (fun _ => ((modLodge_tame _ _).mono (by simp)).trans ((occur_tame _ _).mono (by simp))) fun _ =>
      ((hwSet_tame _ _ _).mono (by simp)).trans (((rcount_tame _ _ _ _ _).mono (by simp)).trans ((groupEvent_tame _ _).mono (by simp))))

theorem event_tame (k : EvKind) (inst addr cls dev detail : Nat) (st : Store) :
    Tame [.csr, .glb, .blv, .lodge] s (s.event k inst addr cls dev detail st) := evPush_tame s _

theorem fatal_tame (bit : Nat) : Tame [.csr, .glb, .blv, .lodge] s (s.fatal bit) :=
  ((raise_tame s _ _).mono (by simp)).trans (((modGlb_tame _ _).mono (by simp)).trans (event_tame _ _ _ _ _ _ _ _))

/-- A rejection changes CFG_REJECT_EVT and its record, and pushes an event record (R518, R529). -/
theorem cfgReject_tame (off bit : Nat) (r : Reason) : Tame [.csr, .glb, .blv, .lodge] s (s.cfgReject off bit r) :=
  ((rset_tame s _ _).mono (by simp)).trans (((raise_tame _ _ _).mono (by simp)).trans (event_tame _ _ _ _ _ _ _ _))

theorem accessEvt_tame (m : Master) (off : Nat) (w : Bool) (bit : Nat) : Tame [.csr, .glb, .blv, .lodge] s (s.accessEvt m off w bit) := by
  have h (v : W32) := ((rset_tame s R.glbAccessInfo v).mono (qs := [.csr, .glb, .blv, .lodge]) (by simp)).trans
    ((raise_tame _ R.glbAccessEvt bit).mono (by simp))
  exact .ite (fun _ => (h _).trans (event_tame _ _ _ _ _ _ _ _)) fun _ => h _

variable {s}

/-- What a step of a Lodge service can do (R45): nothing beyond its budget, and within it its act with the budget used. -/
theorem inBudget_cases (svc : Service) (k : Nat) (act : State → State) :
    (¬s.fits svc k ∧ s.inBudget svc k act = s)
      ∨ (s.fits svc k ∧ s.inBudget svc k act
          = act (s.modGlb fun g => { g with used := g.used.set (Machine.Service.num svc) (g.used.getD (Machine.Service.num svc) 0 + k) })) := by
  by_cases h : s.fits svc k
  · exact .inr ⟨h, if_neg (Nat.not_lt.mpr h)⟩
  · exact .inl ⟨h, if_pos (Nat.lt_of_not_le h)⟩

/-! ## Commands while the hub runs -/

theorem live_alive (f : State → State) (h : s.alive = true) : live s f = .next (f s) := by simp [live, h]
theorem live_dead (f : State → State) (h : s.alive = false) : live s f = .next s := by simp [live, h]
/-- The next state of a command: its effect, or the state itself in a hub that takes no command. -/
theorem live_next (f : State → State) (h : live s f = .next t) : (s.alive = true ∧ t = f s) ∨ (s.alive = false ∧ t = s) := by
  cases k : s.alive with
  | true => rw [live_alive f k] at h; injection h with h; exact .inl ⟨rfl, h.symm⟩
  | false => rw [live_dead f k] at h; injection h with h; exact .inr ⟨rfl, h.symm⟩

/-! ## Stores of memory keep their canonical form -/

theorem dramPut_canon {ch : Chan} (ll : Nat) (st : Stored) (h : ch.canon) : (ch.dramPut ll st).canon := by
  have : (ch.dramPut ll st).dramDefault = ch.dramDefault := rfl
  unfold Chan.canon at *
  rw [this]
  exact FMap.wf_put ll st h
theorem dramGet_dramPut_same {ch : Chan} (ll : Nat) (st : Stored) (h : ch.canon) : (ch.dramPut ll st).dramGet ll = st :=
  FMap.get_put_same ll st h
theorem dramGet_dramPut_other {ch : Chan} {ll j : Nat} (st : Stored) (h : ch.canon) (hj : j ≠ ll) : (ch.dramPut ll st).dramGet j = ch.dramGet j :=
  FMap.get_put_other st h hj

/-- Bytes written to the Icehouse keep its canonical form (R464). -/
theorem iceWrite_wf {ice : FMap Byte} (a : Nat) (bs : List Byte) (h : FMap.wf iceBlank ice = true) : FMap.wf iceBlank (iceWrite ice a bs) = true := by
  induction bs generalizing ice a with
  | nil => exact h
  | cons b rest ih => exact ih (a + 1) (FMap.wf_put a b h)
theorem iceWrite_below {ice : FMap Byte} {a x : Nat} (bs : List Byte) (h : FMap.wf iceBlank ice = true) (hx : x < a) :
    iceByte (iceWrite ice a bs) x = iceByte ice x := by
  induction bs generalizing ice a with
  | nil => rfl
  | cons b rest ih =>
    simp only [iceWrite]
    rw [ih (FMap.wf_put a b h) (Nat.lt_succ_of_lt hx)]
    exact FMap.get_put_other b h hx.ne
theorem iceWrite_above {ice : FMap Byte} {a x : Nat} (bs : List Byte) (h : FMap.wf iceBlank ice = true) (hx : a + bs.length ≤ x) :
    iceByte (iceWrite ice a bs) x = iceByte ice x := by
  induction bs generalizing ice a with
  | nil => rfl
  | cons b rest ih =>
    simp only [List.length_cons] at hx
    simp only [iceWrite]
    rw [ih (FMap.wf_put a b h) (by omega)]
    exact FMap.get_put_other b h (by omega)

end Sys2Proof.Machine
end

