-- ==== Sys2Proof/WellFormed.lean ====
section
/-!
DEFINITION. Which commands are well formed: their operands lie where the spec lets them lie. The meanings are total and
do not rest on this.
-/

namespace Sys2Proof

/-- A message carries the opcode of its command (R79). -/
def hasOp (m : Msg) (op : Nat) : Bool := m.hdr.opcode.toNat == op

/-- A register access moves 1 to 8 bytes and lies in BAR0 (R504, R508). -/
def accessOk (off nbytes : Nat) : Bool :=
  decide (1 ≤ nbytes) && decide (nbytes ≤ 8) && decide (off + nbytes ≤ 0x4000000)

/-- A word-aligned register offset inside the 64 MiB of BAR0 (R504, R524). -/
def offOk (off : Nat) : Bool := off % 4 == 0 && decide (off < 0x4000000)

/-- A read moves at least one byte and lies in BAR0; how many bytes it asks for is the master's choice (R504, R508). -/
def spanOk (x : Span) : Bool := decide (1 ≤ x.len) && decide (x.off + x.len ≤ 0x4000000)

/-- A received frame fits in an Ethernet frame (R454). -/
def frameOk (f : Frame) : Bool := decide (f.payload.length ≤ 1500)

/-- Per-lane measurements cover the four lanes (R491). -/
def eyeOk (r : EyeResult) : Bool := r.h.length == 4 && r.v.length == 4

/-- What start-up finds is given for each of the 16 channels (R278). -/
def envOk (env : PowerEnv) : Bool := env.chans.length == 16

/-- The well-formed commands. -/
def Instr.wf (i : Instr) : Bool :=
  match i with
  | .powerOn env => envOk env
  | .railRecovery env => envOk env
  | .lodgeServiceStep _ units => decide (0 < units)
  | .registerWrite _ off nbytes _ => accessOk off nbytes
  | .statusClear _ off _ => offOk off
  | .pairLoRead _ x => spanOk x
  | .pairHiRead _ x => spanOk x
  | .pairHiWrite _ off _ => offOk off
  | .glasshouseDebugRead _ x => spanOk x
  | .glasshouseDebugWrite _ off _ => offOk off
  | .rds _ m => hasOp m 0x01
  | .rdo _ m => hasOp m 0x02
  | .upg _ m => hasOp m 0x03
  | .rdonce _ m => hasOp m 0x04
  | .wrline _ m => hasOp m 0x05
  | .wrpart _ m => hasOp m 0x06
  | .wrstash _ m => hasOp m 0x07
  | .cclean _ m => hasOp m 0x08
  | .cinv _ m => hasOp m 0x09
  | .ccleaninv _ m => hasOp m 0x0A
  | .fence _ m => hasOp m 0x0B
  | .done _ m => hasOp m 0x40
  | .invack _ m => hasOp m 0x42
  | .fwdack _ m => hasOp m 0x43
  | .rspcrossed _ m => hasOp m 0x44
  | .stashacc _ m => hasOp m 0x46
  | .stashdecl _ m => hasOp m 0x47
  | .ioack _ m => hasOp m 0x48
  | .datas _ m => hasOp m 0x60
  | .datam _ m => hasOp m 0x62
  | .wbd _ m => hasOp m 0x68
  | .evc _ m => hasOp m 0x69
  | .recalld _ m => hasOp m 0x6A
  | .fwdackd _ m => hasOp m 0x6B
  | .iodat _ m => hasOp m 0x6C
  | .iowr _ m => hasOp m 0x80
  | .iord _ m => hasOp m 0xA0
  | .ppsInEdge sub => decide (sub < 4)
  | .parkedRetry _ set => decide (set < 4096)
  | .read f => frameOk f
  | .write f => frameOk f
  | .assign f => frameOk f
  | .sessOpen f => frameOk f
  | .sessProve f => frameOk f
  | .sessClose f => frameOk f
  | .commit _ v => decide (v.of < 2 ^ 32)
  | .ringOscillatorMeasure d => d.of.length == 64
  | .portMarginMeasure _ r => eyeOk r.of
  | .eqChangeCheck _ r => eyeOk r.of
  | .traceRecord src _ port plot _ _ => decide (src < 96) && (decide (port < 128) || port == 255) && (decide (plot < 64) || plot == 255)
  | .powerFail | .undervoltage _ _ | .trefMissingTimeout | .perst _ | .applyWindow | .timeNsRead _ | .msixMessage _
  | .eventRecordWrite | .eventFrameSend | .receiverDetect _ _ | .trainingSetReceive _ _ _ _ | .trainingStateTimeout _
  | .creditMinimumTimeout _ | .flitReceive _ _ | .retryReqRepeat _ | .retryReq _ _ | .recoveryTimeout _ | .retrain _ _
  | .linkDisable _ _ _ | .linkCtlRepeat _ | .lpEnter _ | .lowpowerWake _ | .linkDown _ | .svcFrame _ | .fenceComp _
  | .fenceDeadline _ | .ttEntryAllocate _ _ | .heldCreditReturn _ | .homeLookup _ _ _ | .lookupReplay _ _
  | .stashOfferTimeout _ _ | .fwdTimeout _ _ _ | .arbourDispatch _ | .arbourTimeout _ _ | .iordDispatch _
  | .iordTimeout _ _ | .missReadIssue _ _ | .fillReturn _ _ _ | .stackCommandIssue _ _ _ | .stackReadReturn _
  | .evictionCopyReturn _ | .orangeryDrain _ | .queuePushRetry _ | .dramReadIssue _ _ _ | .dramWriteIssue _ _
  | .lazyZeroFillWrite _ _ | .backgroundPassStart _ | .refresh _ _ | .memoryTempRead _ _ _ | .fullTraining _ _ _
  | .fastLoadVerify _ _ | .marginWalkStart _ | .marginWalkStep _ _ _ | .freqChange _ _ _ | .freqChangeStart _ _ _
  | .freqHoldTimeout _ | .stackTest _ _ | .stackTestDone _ _ | .stackBringup | .pavilionFenceOrderly _ _
  | .pavilionFenceFailed _ _ _ | .fenceMapUpdate | .windowToGhCache _ _ | .ghCacheToSectored _ _
  | .sectoredToGhCache _ _ | .placementWalkerStep _ | .placementComplete _ | .mopClean _ _ | .mopInv _ _
  | .mopCleanInv _ _ | .mopPreload _ _ | .mopDisableClean _ _ | .mopStep _ | .mopComplete | .lockMaskWrite _ _ _
  | .sramRewrite _ | .readRaw _ _ | .readDec _ _ | .writeRaw _ _ | .writeEnc _ _ | .rawAccessDone | .patrolRead _
  | .stackPatrolRead _ | .surveyGo _ _ _ | .surveyDone _ | .ledgerEntryExpiry _ _ | .targetedRewrite _
  | .repairApprove _ _ _ | .repairDone _ _ | .gbwWrite _ _ _ | .plotCacheWrite _ _ _ | .plotLatWrite _ _ _
  | .mqMarkWrite _ _ | .memGo _ | .memServiceStart | .standby _ | .standbyDrainDone | .standbyTimeout | .hibernate _
  | .hibernateCleanDone | .exit _ _ | .wakeReq _ | .pavilionClockStop _ | .junctionTempRead _ | .enable _ _
  | .quiesce _ _ | .quiesceSweepStart _ | .quiesceComplete _ | .release _ _ | .mailboxRequest _ _
  | .commitDone _ | .imageLoad _ _ | .domainTransferTimeout _ | .mailboxSessionOpen _ | .sessionTimeout _
  | .assignAck _ | .sessionLockExpiry | .trefWindow _ _ | .trefLoss | .trefGood | .ppsInLoss | .step _
  | .slew _ | .slewDone | .ppsOutPulse | .syncSend | .syncReceive _ | .delayReqSend | .delayReqReceive _
  | .delayRespReceive _ _ | .ageingRecord | .clear _ | .counterWrite _ _ _ _ | .arm _ | .groupRead _ _
  | .groupReadDone | .traceIdleTimeout | .tracePopLatch _ | .tracePopRemove _ | .traceDmaWrite | .mark _ | .rewind _
  | .markClr _ | .ptpOkLoss | .ppsOutPulseEnd | .sampleTestDone _ _ => true

end Sys2Proof
end

