-- ==== Sys2Proof/Tests/Slice0.lean ====
section
/-!
SUPPORT. The row's own tests: the ill-formed operands that the checks refuse, worked examples of the spec, and, for each
statement, concrete states and operands that meet the hypotheses of each of its clauses.
-/

open Sys2Proof Sys2Proof.Machine

namespace Sys2Proof.Tests

set_option Elab.async false

/-! ## States to start from -/

/-- The hub out of reset. -/
def base : State := { State.reset with glb := { State.reset.glb with on := true } }
/-- The host, which is privileged after reset (R512). -/
def host : Access := { master := .host, priv := true }
/-- The hub at a time, with link 2 changed. -/
def linkHub (now : Nat) (f : Link → Link) : State := { base.modLink 2 f with now := now }
def inPwr (p : Pwr) : State := base.modGlb fun g => { g with pwr := p }
/-- A training set of a kind with good marker and check byte (R61). -/
def goodSet (kind : Nat) : BitVec 128 := BitVec.ofNat 128 (0x7E1D + kind * 2 ^ 16 + (0x63 ^^^ kind) * 2 ^ 120)
/-- A flit of one PROT header with sequence 0 and no message, with its CRC (R67, R69). -/
def protFlit : BitVec 1024 := BitVec.ofNat 1024 (0x1000000 + 3773387815 * 2 ^ 992)
def active (l : Link) : Link := { l with st := .active }
/-- The home ranges cover the address space, port 2 caches and its link is active. -/
def homeHub : State :=
  ((linkHub 100 fun l => { l with st := .active, level := 2 }).modGlb fun g => { g with ranges := [(0, 0, 1024)] }).rset (R.portCohCtl 2) 4
/-- A message with an opcode, a TID and a line. -/
def msg (op : BitVec 8) (tid : BitVec 10) (pa : LineAddr) : Msg := { hdr := { opcode := op, tid := tid, pa := pa } }

/-- The keys of a store rise. -/
def keysRise {α : Type} (m : FMap α) : Bool := (m.map Prod.fst).Pairwise (· < ·)
/-- A pavilion's stores are canonical. -/
def pavOk (v : Pav) : Bool :=
  FMap.wf (fun _ => ({} : TagEntry)) v.tags && FMap.wf (fun _ => 0) v.plru && FMap.wf (fun _ => ({} : GhEntry)) v.gh
    && FMap.wf (fun _ => ({} : SramLine)) v.ghData && FMap.wf (fun _ => ({} : DirEntry)) v.dir && FMap.wf (fun _ => false) v.nru
    && FMap.wf (fun _ => ({} : Stored)) v.stack && keysRise v.tt && keysRise v.miss
/-- A state as the statements ask for one: alive, canonical, with a legal timebase and a privileged host. -/
def readyHub (s : State) : Bool :=
  s.alive && s.privileged host && FMap.wf regReset s.csr && keysRise s.pend && FMap.wf (fun _ => ({} : PairRegs)) s.pairs
    && allPavs.all (fun p => pavOk (s.pav p)) && allChans.all (fun c => FMap.wf (s.chan c).dramDefault (s.chan c).dram)
    && FMap.wf iceBlank s.lodge.ice && FMap.wf (fun _ => (0 : BitVec 128)) s.blv.buf
    && decide (s.band.ns < 1000000000) && decide (s.band.frac < nsFrac) && s.band.stepPend.all fun x => decide (x.2 < 1000000000)

theorem rising_of_keysRise {α : Type} {m : FMap α} (h : keysRise m = true) : rising m := by
  have h' : (m.map Prod.fst).Pairwise (· < ·) := by simpa [keysRise] using h
  simpa [rising, List.pairwise_map] using h'

theorem canon_of_pavOk {v : Pav} (h : pavOk v = true) : v.canon := by
  simp only [pavOk, Bool.and_eq_true] at h
  obtain ⟨⟨⟨⟨⟨⟨⟨⟨a, b⟩, c⟩, d⟩, e⟩, f⟩, g⟩, i⟩, j⟩ := h
  exact ⟨a, b, c, d, e, f, g, rising_of_keysRise i, rising_of_keysRise j⟩

/-- What `readyHub` checks is what the statements assume. -/
theorem readyHub_sound {s : State} (h : readyHub s = true) :
    s.alive = true ∧ s.privileged host = true ∧ s.regsOk ∧ s.canon ∧ s.band.legal := by
  simp only [readyHub, Bool.and_eq_true, List.all_eq_true, allPavs, allChans, List.mem_finRange, forall_const, decide_eq_true_eq,
    Option.all_eq_true] at h
  obtain ⟨⟨⟨⟨⟨⟨⟨⟨⟨⟨⟨a, b⟩, c⟩, d⟩, e⟩, f⟩, g⟩, i⟩, j⟩, k⟩, l⟩, m⟩ := h
  exact ⟨a, b, c, ⟨c, rising_of_keysRise d, e, fun p => canon_of_pavOk (f p), g, i, j⟩, k, l, m⟩


theorem eq_some_getD {α : Type} {o : Option α} {d : α} (h : o.isSome = true) : o = some (o.getD d) := by
  cases o with
  | none => cases h
  | some x => rfl
theorem leBytes_length (n k : Nat) : (leBytes n k).length = k := by
  induction k generalizing n with
  | zero => rfl
  | succ k ih => simp [leBytes, ih]
/-- For any bytes there are 16 others. -/
theorem other_bytes (x : List Byte) : ∃ bs : List Byte, bs.length = 16 ∧ bs ≠ x := by
  by_cases h : List.replicate 16 (0 : Byte) = x
  · exact ⟨List.replicate 16 1, rfl, by rw [← h]; decide⟩
  · exact ⟨List.replicate 16 0, rfl, h⟩
theorem tag_bytes (x : Nat) : leBytes (BitVec.ofNat 64 x).toNat 8 = (leBytes x 16).take 8 := by
  simp only [leBytes, List.take, List.cons.injEq, and_true, BitVec.toNat_ofNat]
  refine ⟨?_, ?_, ?_, ?_, ?_, ?_, ?_, ?_⟩ <;> apply BitVec.eq_of_toNat_eq <;> simp only [BitVec.toNat_ofNat] <;> omega
/-- Every node takes a frame that is sent to all, with a good FCS and a payload that fits (R454). -/
theorem all_takes {s : State} {ty : Nat} {f : Frame} (h : f.fcs = goodFcs f ty) (e : f.etherType = 0x88B5) (m : f.dstMac = 0xFFFFFFFFFFFF)
    (v : f.ver = 1) (d : f.dst = 0xFF) (l : f.payload.length ≤ 1040) : s.netTakes ty f = true := by
  simp [State.netTakes, h, e, m, v, d, l]
/-- A record built with its CRC is good (R309). -/
theorem good_trainRec (a : Nat) (b c : BitVec 288) (d : BitVec 512) : (trainRec a b c d).good = true := by
  simp [trainRec, TrainRec.good, TrainRec.bytes]
theorem stkNoFull {s : State} {k : StackId} {a : Nat} {b c : BitVec 288} {d : BitVec 512} (h : (s.stk k).com.recs = [trainRec a b c d])
    (t : (s.stk k).com.training = false) : s.needsFull (.stack k) = false := by
  simp [State.needsFull, h, t, good_trainRec]
theorem chanNoFull {s : State} {k : ChanId} {a : Nat} {b c : BitVec 288} {d : BitVec 512} (h : (s.chan k).com.recs = [trainRec a b c d])
    (t : (s.chan k).com.training = false) (e : (s.chan k).freq = a) (f : (s.chan k).slot0.elim 0 (·.ident) = b)
    (g : (s.chan k).slot1.elim 0 (·.ident) = c) (r : s.rbit (R.chanCfg k) 30 = false) : s.needsFull (.chan k) = false := by
  have ok : (s.chan k).recOk = true := by
    unfold Chan.recOk; rw [h, f, g, e]; simp [good_trainRec]; simp [trainRec]
  simp [State.needsFull, t, r, ok]

def pollHub : State := linkHub 0 fun l => { l with st := .poll }
def farHub : State := (homeHub.rset R.blvCntCtl 0).modGlb fun g => { g with ranges := [] }
/-- Pavilion 0 with one request in entry 0. -/
def txn0 : Txn := { kind := .req Op.rdS, port := 2, tid := 5 }
def pavHub (f : Pav → Pav) : State := (homeHub.rset R.blvCntCtl 0).modPav 0 f
def haltHub : State := pavHub fun v => { v with tt := [(0, txn0)], halted := true }
def hcOn (s : State) : State := (s.modGlb fun g => { g with hcEn := true }).modStk 0 fun k => { k with com := { k.com with st := .inService } }
def ownHub (pl : Place) : State := (homeHub.modPav 0 fun v => { (v.setDir 0 0 { st := .exclusive, owner := 2 }) with place := pl })
def txn3 : Txn := { kind := .req Op.rdS, port := 3, tid := 5 }
/-- Window 0 covers the whole address space and names port 3; the service node's window is off. -/
def ioHub : State := (((homeHub.rset (R.glbIowinBase 0) 0).rset (R.glbIowinCtl 0) 0x83001000).rset R.glbCsrWin 0).modPort 3 fun p => { p with link := { p.link with st := .active, cred := [4, 4, 4, 4, 4, 4] }, io := { p.io with enabled := true } }
def ioOff : State := homeHub.rset R.glbCsrWin 0
def quietHub : State := ioHub.modIo 2 fun io => { io with qst := .refusing }
def readMsg : Msg := { hdr := { opcode := Op.ioRd, tid := 9, size := 6 } }
def memHub : State := { homeHub with glb := { homeHub.glb with mapValid := true, mapRanges := [(0, 0, 1024)], pivots := [0, 1, 2, 3] } }
def chanHub (f : Chan → Chan) : State := homeHub.modChan 0 fun ch => f { ch with com := { ch.com with st := .inService } }
def reqOf (ll : Nat) (src : RdSrc) : RqEnt := { ll := ll, pa := BitVec.ofNat 46 ll, plot := some 0, at_ := 0, src := src }
def memLive (m : MemUnit) (f : MemCom → MemCom) : State := homeHub.modCom m fun x => f { x with st := .inService }
def dimm : Spd := ⟨.d5, 16, 0, 1, 12, 7, true⟩
def secHub : State := homeHub.modPav 0 fun v => { v with place := .sectored }
def t1 : Nat := 100000000000
def lodgeHub (f : Lodge → Lodge) : State := homeHub.modLodge f

namespace LinksDetectAndTrain

def delayHub : State := linkHub 0 fun l => { l with st := .delay, echoes := List.replicate 16 700 }

/-- The hypotheses of each clause of `Obligations.LinksDetectAndTrain` are met by a state above. -/
theorem test_hypotheses_met :
    (([base, (inPwr .standby), pollHub, delayHub].all readyHub = true) ∧
     (base.linksOn = true ∧ (base.port 2).link.st = LinkSt.detect ∧ 1#4 ≠ 0) ∧
     (base.linksOn = true ∧ ((base.port 2).link.st ≠ LinkSt.detect ∨ 0#4 = 0)) ∧
     ((inPwr Pwr.standby).glb.pwr = Pwr.standby) ∧
     (base.glb.pwr ≠ Pwr.standby ∧ (setMarker (setNormal 0 ((base.port 2).link.polInv.getLsbD 0 ^^ setMarkerInv (setNormal 0 ((base.port 2).link.polInv.getLsbD 0)))) && setOk (setNormal 0 ((base.port 2).link.polInv.getLsbD 0 ^^ setMarkerInv (setNormal 0 ((base.port 2).link.polInv.getLsbD 0))))) = false) ∧
     (pollHub.linksOn = true ∧ (setMarker (setNormal (goodSet 1) ((pollHub.port 2).link.polInv.getLsbD 0 ^^ setMarkerInv (setNormal (goodSet 1) ((pollHub.port 2).link.polInv.getLsbD 0)))) && setOk (setNormal (goodSet 1) ((pollHub.port 2).link.polInv.getLsbD 0 ^^ setMarkerInv (setNormal (goodSet 1) ((pollHub.port 2).link.polInv.getLsbD 0))))) = true
       ∧ (pollHub.port 2).link.st = LinkSt.poll ∧ (setByte (setNormal (goodSet 1) ((pollHub.port 2).link.polInv.getLsbD 0 ^^ setMarkerInv (setNormal (goodSet 1) ((pollHub.port 2).link.polInv.getLsbD 0)))) 2 = 1 ∨ setByte (setNormal (goodSet 1) ((pollHub.port 2).link.polInv.getLsbD 0 ^^ setMarkerInv (setNormal (goodSet 1) ((pollHub.port 2).link.polInv.getLsbD 0)))) 2 = 2 ∨ setByte (setNormal (goodSet 1) ((pollHub.port 2).link.polInv.getLsbD 0 ^^ setMarkerInv (setNormal (goodSet 1) ((pollHub.port 2).link.polInv.getLsbD 0)))) 2 = 3 ∨ setByte (setNormal (goodSet 1) ((pollHub.port 2).link.polInv.getLsbD 0 ^^ setMarkerInv (setNormal (goodSet 1) ((pollHub.port 2).link.polInv.getLsbD 0)))) 2 = 4 ∨ setByte (setNormal (goodSet 1) ((pollHub.port 2).link.polInv.getLsbD 0 ^^ setMarkerInv (setNormal (goodSet 1) ((pollHub.port 2).link.polInv.getLsbD 0)))) 2 = 15))) ∧
    (delayHub.linksOn = true ∧ (setMarker (setNormal (goodSet 15) ((delayHub.port 2).link.polInv.getLsbD 0 ^^ setMarkerInv (setNormal (goodSet 15) ((delayHub.port 2).link.polInv.getLsbD 0)))) && setOk (setNormal (goodSet 15) ((delayHub.port 2).link.polInv.getLsbD 0 ^^ setMarkerInv (setNormal (goodSet 15) ((delayHub.port 2).link.polInv.getLsbD 0))))) = true
      ∧ (delayHub.port 2).link.st = LinkSt.delay ∧ setByte (setNormal (goodSet 15) ((delayHub.port 2).link.polInv.getLsbD 0 ^^ setMarkerInv (setNormal (goodSet 15) ((delayHub.port 2).link.polInv.getLsbD 0)))) 2 = 15
      ∧ (delayHub.port 2).link.echoes.length = 16) :=
  ⟨by decide +kernel,
   by decide +kernel⟩

end LinksDetectAndTrain

namespace LinkTimeoutsAndLoss

/-- Link 2 in a training state for a second. -/
def lateHub (st : LinkSt) : State := linkHub 3000000000 fun l => { l with st := st, gen := 2 }
def lateFallback : State := linkHub 3000000000 fun l => { l with st := .speed, gen := 2, fallback := true }
def lateRecovery : State := linkHub 3000000000 fun l => { l with st := .recovery, recAttempts := 2 }
def lateCredits : State := linkHub 3000000000 fun l => { l with st := .active, credSeen := [0, 8, 8, 8, 0, 0] }
def earlyRecovery : State := linkHub 0 fun l => { l with st := .recovery }

/-- The hypotheses of each clause of `Obligations.LinkTimeoutsAndLoss` are met by a state above. -/
theorem test_hypotheses_met :
    ([pollHub, base, earlyRecovery, (lateHub .eq), (lateHub .speed), (lateHub .delay), lateFallback, (lateHub .recovery), lateRecovery, lateCredits, (lateHub .active)].all readyHub = true) ∧
    (∃ k, ((lateHub LinkSt.eq).port 2).link.limit = some k ∧ (lateHub LinkSt.eq).linksOn = true ∧ ((lateHub LinkSt.eq).port 2).link.since + k < (lateHub LinkSt.eq).now
      ∧ (((lateHub LinkSt.eq).port 2).link.st = LinkSt.eq ∨ ((lateHub LinkSt.eq).port 2).link.st = LinkSt.speed ∧ ((lateHub LinkSt.eq).port 2).link.fallback = false)) ∧
    (∃ k, ((lateHub LinkSt.delay).port 2).link.limit = some k ∧ (lateHub LinkSt.delay).linksOn = true ∧ ((lateHub LinkSt.delay).port 2).link.since + k < (lateHub LinkSt.delay).now
      ∧ (((lateHub LinkSt.delay).port 2).link.st = LinkSt.poll ∨ ((lateHub LinkSt.delay).port 2).link.st = LinkSt.config ∨ ((lateHub LinkSt.delay).port 2).link.st = LinkSt.delay ∨ ((lateHub LinkSt.delay).port 2).link.st = LinkSt.speed
      ∧ ((lateHub LinkSt.delay).port 2).link.fallback = true)) ∧
    (∃ k, (pollHub.port 2).link.limit = some k ∧ pollHub.linksOn = true ∧ pollHub.now ≤ (pollHub.port 2).link.since + k) ∧
    (((lateHub LinkSt.recovery).linksOn = true ∧ ((lateHub LinkSt.recovery).port 2).link.st = LinkSt.recovery ∧ ((lateHub LinkSt.recovery).port 2).link.since + 40 * ccPerUs < (lateHub LinkSt.recovery).now
       ∧ ((lateHub LinkSt.recovery).port 2).link.recAttempts < 2) ∧
     (lateRecovery.linksOn = true ∧ (lateRecovery.port 2).link.st = LinkSt.recovery ∧ (lateRecovery.port 2).link.since + 40 * ccPerUs < lateRecovery.now
       ∧ 2 ≤ (lateRecovery.port 2).link.recAttempts) ∧
     (earlyRecovery.linksOn = true ∧ (earlyRecovery.port 2).link.st = LinkSt.recovery ∧ earlyRecovery.now ≤ (earlyRecovery.port 2).link.since + 40 * ccPerUs) ∧
     (pollHub.linksOn = true ∧ pollHub.now < (pollHub.port 2).link.since + 10 * ccPerUs) ∧
     (lateCredits.linksOn = true ∧ (lateCredits.port 2).link.st = LinkSt.active ∧ (lateCredits.port 2).link.credMinDone = false ∧ (lateCredits.port 2).link.since + 10 * ccPerUs ≤ lateCredits.now
       ∧ 8 ≤ (lateCredits.port 2).link.credSeen.getD 1 0 ∧ 8 ≤ (lateCredits.port 2).link.credSeen.getD 2 0 ∧ 8 ≤ (lateCredits.port 2).link.credSeen.getD 3 0) ∧
     ((lateHub LinkSt.active).linksOn = true ∧ ((lateHub LinkSt.active).port 2).link.st = LinkSt.active ∧ ((lateHub LinkSt.active).port 2).link.credMinDone = false
       ∧ ((lateHub LinkSt.active).port 2).link.since + 10 * ccPerUs ≤ (lateHub LinkSt.active).now ∧ ¬(8 ≤ ((lateHub LinkSt.active).port 2).link.credSeen.getD 1 0
       ∧ 8 ≤ ((lateHub LinkSt.active).port 2).link.credSeen.getD 2 0 ∧ 8 ≤ ((lateHub LinkSt.active).port 2).link.credSeen.getD 3 0)) ∧
     ((pollHub.port 2).link.st ≠ LinkSt.detect ∧ (pollHub.port 2).link.st ≠ LinkSt.down ∧ (pollHub.port 2).link.st ≠ LinkSt.disabled) ∧
     (((base.port 2).link.st = LinkSt.detect ∨ (base.port 2).link.st = LinkSt.down ∨ (base.port 2).link.st = LinkSt.disabled))) :=
  ⟨by decide +kernel,
   ⟨_, rfl, by decide +kernel⟩,
   ⟨_, rfl, by decide +kernel⟩,
   ⟨_, rfl, by decide +kernel⟩,
   by decide +kernel⟩

end LinkTimeoutsAndLoss

namespace FlitsAcceptedOrRetried

def wideHub : State := linkHub 5 fun l => { l with st := .active, gen := 2, width := 4, scrRx := [0, 0, 0, 0] }

/-- The CRC register after more bytes. -/
def crcFrom (c : Nat) (bs : List Byte) : Nat := bs.foldl (fun c b => crcBits 8 (c ^^^ b.toNat)) c
theorem crcFrom_append (c : Nat) (a b : List Byte) : crcFrom c (a ++ b) = crcFrom (crcFrom c a) b := List.foldl_append
theorem crc32c_eq (bs : List Byte) : crc32c bs = BitVec.ofNat 32 (crcFrom 0xFFFFFFFF bs ^^^ 0xFFFFFFFF) := rfl
theorem crc_a : crcFrom 0xFFFFFFFF (List.replicate 59 0) = 2798266487 := by decide +kernel
theorem crc_b : crcFrom 2798266487 (List.replicate 59 0) = 3385476334 := by decide +kernel
theorem crc_c : crcFrom 0xFFFFFFFF [0, 0, 0, 1, 0, 0] = 227807499 := by decide +kernel
theorem crc_d : crcFrom 227807499 (List.replicate 56 0) = 1556267386 := by decide +kernel
theorem crc_e : crcFrom 1556267386 (List.replicate 56 0) = 521579480 := by decide +kernel
theorem zero_flit : (scramble 4 (flitBytes 0) 0 [0, 0, 0, 0]).1 = List.replicate 59 0 ++ List.replicate 59 0 ++ List.replicate 10 0 := by
  decide +kernel
theorem prot_flit : (scramble 4 (flitBytes protFlit) 0 [0, 0, 0, 0]).1
    = [0, 0, 0, 1, 0, 0] ++ List.replicate 56 0 ++ List.replicate 56 0 ++ (List.replicate 6 0 ++ leBytes 3773387815 4) := by
  decide +kernel
theorem zero_crc : crc32c ((scramble 4 (flitBytes 0) 0 [0, 0, 0, 0]).1.take 118) = BitVec.ofNat 32 (3385476334 ^^^ 0xFFFFFFFF) := by
  rw [zero_flit, List.take_left' (by rfl), crc32c_eq, crcFrom_append, crc_a, crc_b]
theorem prot_crc : crc32c ((scramble 4 (flitBytes protFlit) 0 [0, 0, 0, 0]).1.take 118) = 3773387815 := by
  rw [prot_flit, List.take_left' (by rfl), crc32c_eq, crcFrom_append, crcFrom_append, crc_c, crc_d, crc_e]; rfl
theorem wide_link : (wideHub.port 2).link.width = 4 ∧ (wideHub.port 2).link.scrRx = [0, 0, 0, 0] := by decide +kernel

/-- The hypotheses of each clause of `Obligations.FlitsAcceptedOrRetried` are met by the flit of zeros and by `protFlit`. -/
theorem test_hypotheses_met :
    ∀ l, l = (wideHub.port 2).link →
    (readyHub wideHub = true ∧ l.st = .active ∧ l.gen ≠ 3) ∧
    (∀ b, b = (scramble l.width (flitBytes 0) 0 l.scrRx).1 →
      crc32c (b.take 118) ≠ BitVec.ofNat 32 (leNat (b.drop 124)) ∧ l.discarding = false) ∧
    (∀ b, b = (scramble l.width (flitBytes protFlit) 0 l.scrRx).1 →
      crc32c (b.take 118) = BitVec.ofNat 32 (leNat (b.drop 124)) ∧ natBits (leNat (b.take 6)) 27 24 = 1
        ∧ natBits (leNat (b.take 6)) 11 0 = l.rxExp) := by
  rintro l rfl
  refine ⟨by decide +kernel, ?_, ?_⟩ <;> rintro b rfl <;> rw [wide_link.1, wide_link.2]
  · rw [zero_crc]; decide +kernel
  · rw [prot_crc]; decide +kernel

end FlitsAcceptedOrRetried

namespace RetryAndLowPower

def retryHub (k : Nat) : State := linkHub 6000 fun l => { l with st := .active, discarding := true, retryDue := some 3000, retryReqs := k, ctlReq := some (1, 0, 3000) }
def lowHub : State := linkHub 0 fun l => { l with st := .lowpower }
def idleHub : State := (linkHub 6000 active).rset (R.portLinkCtl 2) 0x01040000

/-- The hypotheses of each clause of `Obligations.RetryAndLowPower` are met by a state above. -/
theorem test_hypotheses_met :
    (([(retryHub 0), (retryHub 255), idleHub, lowHub].all readyHub = true) ∧
     (((retryHub 0).port 2).link.st = LinkSt.active)) ∧
    (∃ d, ((retryHub 0).port 2).link.retryDue = some d ∧ ((retryHub 0).port 2).link.st = LinkSt.active ∧ d ≤ (retryHub 0).now ∧ ((retryHub 0).port 2).link.discarding = true
      ∧ ((retryHub 0).port 2).link.retryReqs < (retryHub 0).rf (R.portLinkCtl 2) 23 16) ∧
    (∃ d, ((retryHub 255).port 2).link.retryDue = some d ∧ ((retryHub 255).port 2).link.st = LinkSt.active ∧ d ≤ (retryHub 255).now ∧ ((retryHub 255).port 2).link.discarding = true
      ∧ (retryHub 255).rf (R.portLinkCtl 2) 23 16 ≤ ((retryHub 255).port 2).link.retryReqs) ∧
    ((idleHub.port 2).link.st = LinkSt.active ∧ idleHub.rbit (R.portLinkCtl 2) 24 = true ∧ (idleHub.port 2).link.ctlReq = none ∧ (idleHub.port 2).link.egress = []
      ∧ (idleHub.port 2).link.rxq = [] ∧ (idleHub.port 2).link.txSlots = [] ∧ (idleHub.port 2).link.idleSince + ccPerUs ≤ idleHub.now) ∧
    (∃ c v d, ((retryHub 0).port 2).link.ctlReq = some (c, v, d) ∧ ((retryHub 0).port 2).link.st = LinkSt.active ∧ d + ccPerUs ≤ (retryHub 0).now) ∧
    ((lowHub.port 2).link.st = LinkSt.lowpower ∧ lowHub.linksOn = true ∧ lowHub.glb.lowAsk = false) :=
  ⟨by decide +kernel,
   ⟨_, rfl, by decide +kernel⟩,
   ⟨_, rfl, by decide +kernel⟩,
   by decide +kernel,
   ⟨_, _, _, rfl, by decide +kernel⟩,
   by decide +kernel⟩

end RetryAndLowPower

namespace ServiceChainFrames

/-- The button of port 2 has read 0 and then 1 twice. -/
def pressHub : State := linkHub 0 fun l => { l with btnState := true, btnRun := 2 }
/-- The last frame of the chain has not ended. -/
def dueHub : State := base.modGlb fun g => { g with svcDue := 9 }
def firstHub : State := linkHub 0 fun l => { l with btnState := true }

/-- The hypotheses of each clause of `Obligations.ServiceChainFrames` are met by a state above. -/
theorem test_hypotheses_met :
    ([base, pressHub, firstHub, dueHub, (inPwr .standby)].all readyHub = true) ∧
    (base.glb.svcDue ≤ base.now) ∧
    (dueHub.now < dueHub.glb.svcDue) ∧
    ((inPwr Pwr.standby).glb.pwr = Pwr.standby) := by
  decide +kernel

end ServiceChainFrames

namespace RequestsWaitInIngress


/-- The hypotheses of each clause of `Obligations.RequestsWaitInIngress` are met by a state above. -/
theorem test_hypotheses_met :
    ([homeHub].all readyHub = true) ∧
    ((Instr.rds 2 (msg 0 1023 0), Op.rdS) ∈ homeRequests 2 (msg 0 1023 0) ∧ (msg 0 1023 0).hdr.tid ∉ (homeHub.port 2).io.tids ∧ homeHub.localStatus 2 (homeHub.ingressPlot 2 (withOp (msg 0 1023 0) (Instr.rds 2 (msg 0 1023 0), Op.rdS).2)) = none
      ∧ (∀ y ∈ (homeHub.port 2).io.ingress, y.loc = none)) := by
  decide +kernel

end RequestsWaitInIngress

namespace RequestsAnsweredAtThePort

def tidHub : State := (homeHub.rset R.blvCntCtl 0).modIo 2 fun io => { io with tids := [5] }
def reissued : Msg := { hdr := { opcode := Op.rdS, tid := 5, retry := true } }

/-- The hypotheses of each clause of `Obligations.RequestsAnsweredAtThePort` are met by a state above. -/
theorem test_hypotheses_met :
    (([tidHub, farHub].all readyHub = true) ∧
     ((tidHub.port 2).link.keeps = true ∧ (tidHub.port 2).link.reqOut ≤ tidHub.rf (R.portCredCfg 2) 9 0 ∧ (Instr.rds 2 reissued, Op.rdS) ∈ homeRequests 2 reissued
       ∧ reissued.hdr.tid ∈ (tidHub.port 2).io.tids ∧ reissued.hdr.retry = true) ∧
     ((tidHub.port 2).link.keeps = true ∧ (tidHub.port 2).link.reqOut ≤ tidHub.rf (R.portCredCfg 2) 9 0 ∧ (Instr.rds 2 (msg Op.rdS 5 0), Op.rdS) ∈ homeRequests 2 (msg Op.rdS 5 0)
       ∧ (msg Op.rdS 5 0).hdr.tid ∈ (tidHub.port 2).io.tids ∧ (msg Op.rdS 5 0).hdr.retry = false)) ∧
    (∃ st, farHub.localStatus 2 (farHub.ingressPlot 2 (withOp (msg Op.rdS 5 0) (Instr.rds 2 (msg Op.rdS 5 0), Op.rdS).2)) = some st ∧ (farHub.port 2).link.keeps = true
      ∧ (farHub.port 2).link.reqOut ≤ farHub.rf (R.portCredCfg 2) 9 0 ∧ (Instr.rds 2 (msg Op.rdS 5 0), Op.rdS) ∈ homeRequests 2 (msg Op.rdS 5 0) ∧ (msg Op.rdS 5 0).hdr.tid ∉ (farHub.port 2).io.tids
      ∧ (∀ y ∈ (farHub.port 2).io.ingress, y.loc = none ∧ y.num ≠ (farHub.port 2).io.nextNum) ∧ (∀ o ∈ (farHub.port 2).io.opens, o.oid ≠ (msg Op.rdS 5 0).hdr.oid
      ∧ o.num ≠ (farHub.port 2).io.nextNum) ∧ (farHub.port 2).io.fences = [] ∧ farHub.glb.hold = false) :=
  ⟨by decide +kernel,
   ⟨_, rfl, by decide +kernel⟩⟩

end RequestsAnsweredAtThePort

namespace FencesWaitAndComplete

def fenceHub : State := homeHub.modIo 2 fun io => { io with fences := [{ num := 0, tid := 5, pa := 0, at_ := 0 }] }
def heldHub : State := homeHub.modGlb fun g => { g with hold := true }
def fenceLate : State := { homeHub.modIo 2 fun io => { io with fences := [{ num := 1, tid := 5, pa := 0, at_ := 0 }], opens := [{ num := 0, oid := 0, tid := 4, write := true }] } with now := 4000000000 }
/-- The deadline of the first Fence has run out in this cc. -/
def fenceOut : State := fenceLate.modIo 2 fun io => { io with fences := [{ num := 1, tid := 5, pa := 0, at_ := 0, runOut := true }] }
def fenceIn : State := fenceHub.modIo 2 fun io => { io with fences := [{ num := 0, tid := 5, pa := 0, at_ := 0, runOut := true }] }

/-- The hypotheses of each clause of `Obligations.FencesWaitAndComplete` are met by a state above. -/
theorem test_hypotheses_met :
    (([base, fenceHub, fenceLate, fenceOut, fenceIn, heldHub].all readyHub = true) ∧
     ((msg Op.fence 5 0).hdr.tid ∉ (base.port 2).io.tids ∧ (∀ y ∈ (base.port 2).io.ingress, y.num ≠ (base.port 2).io.nextNum) ∧ base.glb.hold = false) ∧
     ((msg Op.fence 5 0).hdr.tid ∉ (heldHub.port 2).io.tids ∧ (∀ y ∈ (heldHub.port 2).io.ingress, y.num ≠ (heldHub.port 2).io.nextNum) ∧ heldHub.glb.hold = true)) ∧
    (∃ f rest, (fenceHub.port 2).io.fences = f :: rest ∧ (∀ g ∈ rest, g.num ≠ f.num) ∧ (∀ y ∈ (fenceHub.port 2).io.ingress, y.loc = none) ∧ (fenceHub.port 2).link.keeps = true
      ∧ (fenceHub.port 2).io.fenceReady f = true ∧ (fenceHub.port 2).io.loss = false) ∧
    (∃ f rest, (fenceLate.port 2).io.fences = f :: rest ∧ (∀ g ∈ rest, g.num ≠ f.num) ∧ (∀ y ∈ (fenceLate.port 2).io.ingress, y.loc = none) ∧ (fenceLate.port 2).link.keeps = true
      ∧ (fenceLate.port 2).io.fenceReady f = false ∧ f.at_ + (fenceLate.rf R.glbIoCtl 19 0 + 5) * ccPerUs ≤ fenceLate.now) :=
  ⟨by decide +kernel,
   ⟨_, _, rfl, by decide +kernel⟩,
   ⟨_, _, rfl, by decide +kernel⟩⟩

/-- A Fence whose deadline ran out in the cc that ends, not complete and complete. -/
theorem test_hypotheses_met_as_the_cc_ends :
    ([fenceOut, fenceIn].all readyHub = true) ∧
    (∃ f, (fenceOut.port 2).io.fences = [f] ∧ f.runOut = true ∧ (fenceOut.port 2).io.fenceReady f = false ∧ (fenceOut.port 2).io.arb = []
      ∧ (fenceOut.port 2).io.rdt = [] ∧ (fenceOut.port 2).io.lossNow = false ∧ (fenceOut.port 2).link.keeps = true) ∧
    (∃ f, (fenceIn.port 2).io.fences = [f] ∧ f.runOut = true ∧ (fenceIn.port 2).io.fenceReady f = true ∧ (fenceIn.port 2).io.arb = []
      ∧ (fenceIn.port 2).io.rdt = [] ∧ (fenceIn.port 2).io.lossNow = false ∧ (fenceIn.port 2).link.keeps = true) :=
  ⟨by decide +kernel, ⟨_, rfl, by decide +kernel⟩, _, rfl, by decide +kernel⟩

end FencesWaitAndComplete

namespace TableEntriesAndCredits

def waiting : InMsg := { num := 0, msg := msg Op.rdS 5 0, at_ := 0 }
def waitHub : State := homeHub.modIo 2 fun io => { io with ingress := [waiting], tids := [5], opens := [{ num := 0, oid := 0, tid := 5, write := false }] }
def heldHub (k : Nat) : State := linkHub 10 fun l => { l with st := .active, held := [10, 20], reqOut := k }

/-- The hypotheses of each clause of `Obligations.TableEntriesAndCredits` are met by a state above. -/
theorem test_hypotheses_met :
    ([waitHub, (heldHub 0), (heldHub 1000)].all readyHub = true) ∧
    (∃ e, List.find? (fun k => ((waitHub.pav 0).tt.find? k).isNone) (List.range 992) = some e ∧ waitHub.turnGroup 0 = some (2 / 8) ∧ waitHub.eligible 0 2 = some waiting
      ∧ List.Pairwise (fun a b => a.1 < b.1) (waitHub.pav 0).tt ∧ waitHub.glb.turn.length = 16) ∧
    (∃ d rest, ((heldHub 0).port 2).link.held = d :: rest ∧ d ≤ (heldHub 0).now) :=
  ⟨by decide +kernel,
   ⟨0, by decide +kernel⟩,
   ⟨_, _, rfl, by decide +kernel⟩⟩



end TableEntriesAndCredits

namespace LookupsStartOrEnd

def lookHub : State := pavHub fun v => { v with tt := [(0, txn0)] }
def txn1 : Txn := { txn0 with arrive := some 0 }
/-- A CInv as its request took its entry. -/
def txnInv : Txn := { kind := .req Op.cInv, port := 2, tid := 5 }
def invHub : State := pavHub fun v => { v with tt := [(0, txnInv)] }
def lookFar : State := lookHub.modGlb fun g => { g with noWindow := true }
def lookUnmapped : State := (pavHub fun v => { v with tt := [(0, txn0)], place := .ghCache }).modGlb fun g => { g with mapValid := true }
def lookAgain (pl : Place) : State := pavHub fun v => { v with tt := [(0, txn1)], place := pl }

/-- The hypotheses of each clause of `Obligations.LookupsStartOrEnd` are met by a state above. -/
theorem test_hypotheses_met :
    (([lookHub, haltHub, invHub, lookFar, lookUnmapped, (lookAgain .window), (lookAgain .sectored)].all readyHub = true) ∧
     (0 < 992 ∧ (haltHub.pav 0).tt.find? 0 = some txn0 ∧ txn0.kind = TKind.req 1#8 ∧ txn0.phase = Phase.lookup ∧ txn0.active = false ∧ (haltHub.pav 0).halted = true) ∧
     (0 < 992 ∧ (lookFar.pav 0).tt.find? 0 = some txn0 ∧ txn0.kind = TKind.req 1#8 ∧ txn0.phase = Phase.lookup ∧ txn0.active = false ∧ (lookFar.pav 0).halted = false
       ∧ lookFar.tagsSound 0 txn0.pa ∧ (lookFar.pav 0).mustWait 0 txn0 = false ∧ (lookFar.pav 0).place = Place.window ∧ lookFar.inWindow txn0.pa = false) ∧
     (0 < 992 ∧ (lookUnmapped.pav 0).tt.find? 0 = some txn0 ∧ txn0.kind = TKind.req 1#8 ∧ txn0.phase = Phase.lookup ∧ txn0.active = false ∧ (lookUnmapped.pav 0).halted = false
       ∧ lookUnmapped.tagsSound 0 txn0.pa ∧ (lookUnmapped.pav 0).mustWait 0 txn0 = false ∧ (lookUnmapped.pav 0).place ≠ Place.window ∧ lookUnmapped.unmapped txn0.pa = true) ∧
     (0 < 992 ∧ (lookHub.pav 0).tt.find? 0 = some txn0 ∧ txn0.kind = TKind.req 1#8 ∧ txn0.phase = Phase.lookup ∧ txn0.active = false ∧ (lookHub.pav 0).halted = false
       ∧ (lookHub.pav 0).mustWait 0 txn0 = false ∧ ((lookHub.pav 0).place = Place.window → lookHub.inWindow txn0.pa = true) ∧ ((lookHub.pav 0).place ≠ Place.window → lookHub.unmapped txn0.pa = false)
       ∧ lookHub.tagsSound 0 txn0.pa ∧ (lookHub.pav 0).dirSound (dirSet txn0.pa) ∧ dirSet txn0.pa ∉ (lookHub.pav 0).retryDue ∧ txn0.pa ∉ (lookHub.pav 0).recoverQ
       ∧ (lookHub.pav 0).unblocked txn0.pa = true ∧ lookHub.mustRecover 0 txn0.pa = false)) ∧
    (0 < 992 ∧ (invHub.pav 0).tt = [(0, txnInv)] ∧ (invHub.pav 0).still ∧ txnInv.fresh ∧ txnInv.kind = TKind.req Op.cInv ∧ txnInv.phase = Phase.lookup ∧ txnInv.active = false
      ∧ portOf? txnInv.port = some 2 ∧ (invHub.port 2).link.keeps = true ∧ invHub.current 2 txnInv.num = true ∧ ((invHub.pav 0).place = Place.window → invHub.inWindow txnInv.pa = true)
      ∧ ((invHub.pav 0).place ≠ Place.window → invHub.unmapped txnInv.pa = false) ∧ invHub.tagsSound 0 txnInv.pa ∧ (invHub.pav 0).dirSound (dirSet txnInv.pa)
      ∧ ((invHub.pav 0).entry txnInv.pa).st = DirSt.free ∧ invHub.mustRecover 0 txnInv.pa = false) :=
  ⟨by decide +kernel,
   by decide +kernel⟩

end LookupsStartOrEnd

namespace ReplaysAndParkedRetries

def replayHub : State := pavHub fun v => { v with tt := [(0, { txn0 with active := true, phase := .data, fetch := .replay })], place := .sectored }
/-- Two reads parked on directory set 0, whose retry is due. -/
def parkedHub : State := pavHub fun v => { v with tt := [(0, { txn0 with active := true, phase := .waitSet, waitSeq := 1, parkedOnce := true }),
    (1, { txn0 with active := true, phase := .waitSet, waitSeq := 2, parkedOnce := true, pa := 0x1001 })], place := .sectored, retryDue := [0], waitCtr := 3 }
def txnReplay : Txn := { txn0 with active := true, phase := .data, fetch := .replay }
def txnClean : Txn := { kind := .req Op.cClean, port := 2, tid := 5, active := true, phase := .data, fetch := .replay }
def txnParked : Txn := { txn0 with active := true, phase := .waitSet, waitSeq := 1, parkedOnce := true }
def cleanHub : State := pavHub fun v => { v with tt := [(0, txnClean)] }

/-- The hypotheses of each clause of `Obligations.ReplaysAndParkedRetries` are met by a state above. -/
theorem test_hypotheses_met :
    ([replayHub, haltHub, parkedHub, cleanHub].all readyHub = true) ∧
    ((replayHub.pav 0).halted = false ∧ (replayHub.pav 0).tt.find? 0 = some txnReplay ∧ txnReplay.active = true ∧ (txnReplay.phase = Phase.waitSector ∨ txnReplay.fetch = Fetch.replay)
      ∧ replayHub.tagsSound 0 txnReplay.pa ∧ (replayHub.pav 0).dirSound (dirSet txnReplay.pa)) ∧
    (0 < 992 ∧ (cleanHub.pav 0).tt = [(0, txnClean)] ∧ (cleanHub.pav 0).still ∧ txnClean.kind = TKind.req Op.cClean ∧ txnClean.active = true ∧ txnClean.phase = Phase.data
      ∧ txnClean.fetch = Fetch.replay ∧ txnClean.outs = [] ∧ txnClean.cross = [] ∧ txnClean.waitEvict = false ∧ txnClean.acked = [] ∧ txnClean.evAcks = []
      ∧ txnClean.offer = false ∧ portOf? txnClean.port = some 2 ∧ (cleanHub.port 2).link.keeps = true ∧ cleanHub.current 2 txnClean.num = true ∧ (cleanHub.pav 0).place = Place.window
      ∧ ((cleanHub.pav 0).entry txnClean.pa).own = none ∧ (cleanHub.pav 0).dirSound (dirSet txnClean.pa)) ∧
    ((haltHub.pav 0).halted = true) ∧
    ((parkedHub.pav 0).halted = false ∧ 0 ∈ (parkedHub.pav 0).retryDue ∧ (parkedHub.pav 0).oldestParked 0 = some 0 ∧ (parkedHub.pav 0).tt.find? 0 = some txnParked
      ∧ txnParked.kind = TKind.req 1#8 ∧ txnParked.active = true ∧ txnParked.outs = [] ∧ txnParked.cross = [] ∧ txnParked.waitEvict = false ∧ (parkedHub.pav 0).dirSound 0
      ∧ List.find? (fun k => decide (((parkedHub.pav 0).dirAt 0 k).st = DirSt.free) && !(parkedHub.pav 0).promises.any fun x => decide (x.1 = 0) && decide (x.2.1 = k)) ways24 = some 0) ∧
    (0 ∉ (replayHub.pav 0).retryDue) := by
  decide +kernel

end ReplaysAndParkedRetries

namespace DoneEndsReads

def granted : Txn := { txn0 with phase := .doneWait, active := true, issued := true, issuedOp := Op.dataS, tstart := some 0 }
def grantHub : State := pavHub fun v => { v with tt := [(0, granted)], place := .sectored }

/-- The hypotheses of each clause of `Obligations.DoneEndsReads` are met by a state above. -/
theorem test_hypotheses_met :
    ([grantHub].all readyHub = true) ∧
    (grantHub.txnOf (msg Op.done 5 0) = some (htidPav (msg Op.done 5 0).hdr.htid, htidEnt (msg Op.done 5 0).hdr.htid, granted) ∧ htidEnt (msg Op.done 5 0).hdr.htid < 992
      ∧ granted.kind = TKind.req Op.rdS ∧ isReadOp Op.rdS = true ∧ granted.port = 2 ∧ granted.tid = (msg Op.done 5 0).hdr.tid ∧ granted.doneSeen = false
      ∧ granted.phase = Phase.doneWait ∧ granted.active = true ∧ granted.outs = [] ∧ granted.cross = [] ∧ granted.waitEvict = false ∧ (grantHub.pav (htidPav (msg Op.done 5 0).hdr.htid)).halted = false) := by
  decide +kernel

end DoneEndsReads

namespace AnswersToForwards

def fwdTo (op : BitVec 8) : FwdOut := { port := 2, op := op, sent := some 0 }
def fwdTxn (op : BitVec 8) : Txn := { txn0 with port := 3, active := true, phase := .forward, outs := [fwdTo op] }
/-- Entry 0 waits for port 2's answer to a forward; port 2 owns the line. -/
def fwdHub (op : BitVec 8) : State := pavHub fun v =>
  { (v.setDir 0 0 { st := .exclusive, owner := 2 }) with tt := [(0, fwdTxn op)], place := .sectored }
/-- Entry 0 waits likewise; the home copy of line 0 is in the Glasshouse or in a sector. -/
def inGh (op : BitVec 8) : State := (fwdHub op).modPav 0 fun v => { v.setGhe (ghSet 0) 2 { tag := ghTag 0, valid := true } with place := .ghCache }
def inSec (op : BitVec 8) : State := (fwdHub op).modPav 0 fun v => v.setTag (setOf 0) 3 { tag := tagOf 0, st := .valid, present := 1 }
def inWin (op : BitVec 8) : State := (fwdHub op).modPav 0 fun v => { v with place := .window }

/-- The hypotheses of each clause of `Obligations.AnswersToForwards` are met by a state above. -/
theorem test_hypotheses_met :
    (([(hcOn (inGh Op.fwdS)), (hcOn (inSec Op.fwdS)), (inWin Op.fwdS), (hcOn (inGh Op.rcl)), (hcOn (inSec Op.rcl)), (hcOn (fwdHub Op.rcl)), (inWin Op.rcl), (fwdHub Op.inv), (fwdHub Op.rcl), (fwdHub Op.fwdS), (fwdHub Op.fwdO)].all readyHub = true) ∧
     ((hcOn (inGh Op.fwdS)).rbit (R.portCohCtl 2) 2 = true ∧ (hcOn (inGh Op.fwdS)).txnOf (msg 0 5 9) = none)) ∧
    (∃ p, p = (hcOn (inGh Op.fwdS)).home (msg 0 5 9).hdr.pa ∧ (hcOn (inGh Op.fwdS)).rbit (R.portCohCtl 2) 2 = true ∧ (hcOn (inGh Op.fwdS)).txnOf (msg 0 5 9) = none
      ∧ (hcOn (inGh Op.fwdS)).isHome (msg 0 5 9).hdr.pa = true ∧ ((hcOn (inGh Op.fwdS)).pav p).halted = false ∧ ((hcOn (inGh Op.fwdS)).pav p).dirSound (dirSet (msg 0 5 9).hdr.pa)
      ∧ ((hcOn (inGh Op.fwdS)).pav p).dirUnique (msg 0 5 9).hdr.pa) ∧
    (∃ p e t0 o, (hcOn (inGh Op.rcl)).txnOf (msg 0 5 0) = some (p, e, t0) ∧ t0.outTo 2 = some o ∧ (hcOn (inGh Op.rcl)).rbit (R.portCohCtl 2) 2 = true ∧ ((hcOn (inGh Op.rcl)).pav p).halted = false
      ∧ ((hcOn (inGh Op.rcl)).pav p).dirSound (dirSet t0.pa) ∧ ((hcOn (inGh Op.rcl)).pav p).dirUnique t0.pa ∧ (o.op = Op.inv ∨ o.op = Op.rcl)) ∧
    (∃ p e t0 o, (hcOn (inGh Op.fwdS)).txnOf (msg 0 5 0) = some (p, e, t0) ∧ t0.outTo 2 = some o ∧ (hcOn (inGh Op.fwdS)).rbit (R.portCohCtl 2) 2 = true
      ∧ ((hcOn (inGh Op.fwdS)).pav p).halted = false ∧ ((hcOn (inGh Op.fwdS)).pav p).dirSound (dirSet t0.pa) ∧ ((hcOn (inGh Op.fwdS)).pav p).dirUnique t0.pa
      ∧ (o.op = Op.fwdS ∨ o.op = Op.fwdO)) ∧
    (∃ p e t0 o, (hcOn (inGh Op.fwdS)).txnOf (msg 0 5 0) = some (p, e, t0) ∧ t0.outTo 2 = some o ∧ (hcOn (inGh Op.fwdS)).rbit (R.portCohCtl 2) 2 = true
      ∧ ((hcOn (inGh Op.fwdS)).pav p).halted = false ∧ ((hcOn (inGh Op.fwdS)).pav p).dirSound (dirSet t0.pa) ∧ ((hcOn (inGh Op.fwdS)).pav p).dirUnique t0.pa
      ∧ o.op = Op.fwdS) ∧
    (∃ p e t0 o, (hcOn (inGh Op.rcl)).txnOf (msg 0 5 0) = some (p, e, t0) ∧ t0.outTo 2 = some o ∧ (hcOn (inGh Op.rcl)).rbit (R.portCohCtl 2) 2 = true ∧ ((hcOn (inGh Op.rcl)).pav p).halted = false
      ∧ ((hcOn (inGh Op.rcl)).pav p).dirSound (dirSet t0.pa) ∧ ((hcOn (inGh Op.rcl)).pav p).dirUnique t0.pa ∧ o.op = Op.rcl ∧ (((hcOn (inGh Op.rcl)).pav p).entry t0.pa).own = some 2) ∧
    (∃ p e t0 o, (hcOn (inGh Op.fwdS)).txnOf (msg 0 5 0) = some (p, e, t0) ∧ t0.outTo 2 = some o ∧ (hcOn (inGh Op.fwdS)).rbit (R.portCohCtl 2) 2 = true
      ∧ ((hcOn (inGh Op.fwdS)).pav p).halted = false ∧ ((hcOn (inGh Op.fwdS)).pav p).dirSound (dirSet t0.pa) ∧ ((hcOn (inGh Op.fwdS)).pav p).dirUnique t0.pa
      ∧ o.op ≠ Op.stashOffer) :=
  ⟨by decide +kernel,
   ⟨_, rfl, by decide +kernel⟩,
   ⟨_, _, _, _, rfl, rfl, by decide +kernel⟩,
   ⟨_, _, _, _, rfl, rfl, by decide +kernel⟩,
   ⟨_, _, _, _, rfl, rfl, by decide +kernel⟩,
   ⟨_, _, _, _, rfl, rfl, by decide +kernel⟩,
   ⟨_, _, _, _, rfl, rfl, by decide +kernel⟩⟩

end AnswersToForwards

namespace EvictionsAppliedAndAnswered

def inGh : State := hcOn ((ownHub .ghCache).modPav 0 fun v => v.setGhe (ghSet 0) 2 { tag := ghTag 0, valid := true })
def inSec : State := hcOn ((ownHub .sectored).modPav 0 fun v => v.setTag (setOf 0) 3 { tag := tagOf 0, st := .valid, present := 1 })
def mapped (s : State) : State := s.modGlb fun g => { g with mapValid := true, mapRanges := [(0, 0, 1024)], pivots := [0, 1, 2, 3] }

/-- The hypotheses of each clause of `Obligations.EvictionsAppliedAndAnswered` are met by a state above. -/
theorem test_hypotheses_met :
    ([(mapped inGh), (mapped inSec), (mapped (hcOn (ownHub .ghCache))), (mapped (hcOn (ownHub .sectored))), farHub, (ownHub .window), (ownHub .sectored)].all readyHub = true) ∧
    (∃ p, p = farHub.home (msg 0 5 0).hdr.pa ∧ farHub.rbit (R.portCohCtl 2) 2 = true ∧ (farHub.port 2).link.keeps = true ∧ farHub.isHome (msg 0 5 0).hdr.pa = false) ∧
    (∃ p, p = (mapped inGh).home (msg 0 5 0).hdr.pa ∧ (mapped inGh).rbit (R.portCohCtl 2) 2 = true ∧ ((mapped inGh).port 2).link.keeps = true ∧ (mapped inGh).isHome (msg 0 5 0).hdr.pa = true
      ∧ ((mapped inGh).pav p).halted = false ∧ (((mapped inGh).pav p).place = Place.window → (mapped inGh).inWindow (msg 0 5 0).hdr.pa = true) ∧ (((mapped inGh).pav p).place ≠ Place.window → (mapped inGh).unmapped (msg 0 5 0).hdr.pa = false)
      ∧ ((mapped inGh).pav p).dirSound (dirSet (msg 0 5 0).hdr.pa) ∧ ((mapped inGh).pav p).dirUnique (msg 0 5 0).hdr.pa ∧ ((mapped inGh).pav p).blocker (msg 0 5 0).hdr.pa = none) :=
  ⟨by decide +kernel,
   ⟨_, rfl, by decide +kernel⟩,
   ⟨_, rfl, by decide +kernel⟩⟩

end EvictionsAppliedAndAnswered

namespace DirectoryForgetsOnlyThePort

def sharedHub : State := (homeHub.modPav 0 fun v => v.setDir 0 23 { st := .ownedShared, owner := 2, sharers := 0x800000000000000000000021 })

/-- Only way 23 of directory set 0 holds line 0. -/
theorem test_hypotheses_met :
    readyHub sharedHub = true ∧ ((sharedHub.pav 0).dirAt (dirSet 0) 23).lists 2 = true ∧
    (sharedHub.pav 0).dirUnique 0 := by
  have key : ∀ w, w < 24 → ((sharedHub.pav 0).dirAt (dirSet 0) w).st ≠ .free → w = 23 := by decide +kernel
  exact ⟨by decide +kernel, by decide +kernel, fun w hw w' hw' h => (key w hw h.1).trans (key w' hw' h.2.2.1).symm⟩

end DirectoryForgetsOnlyThePort

namespace StashOffersEnd

/-- Entry 0 waits for port 2's answer to a stash offer. -/
def offered : Txn := { kind := .req Op.wrStash, port := 3, tid := 5, tport := 2, active := true, phase := .stash, offer := true, offerSent := some 0 }
def offerHub : State := { homeHub.modPav 0 fun v => { v with tt := [(0, offered)], place := .sectored } with now := 3000 }

/-- The hypotheses of each clause of `Obligations.StashOffersEnd` are met by a state above. -/
theorem test_hypotheses_met :
    (([offerHub].all readyHub = true) ∧
     (0 < 992 ∧ offerHub.rbit (R.portCohCtl 2) 2 = true ∧ 2 ≤ (offerHub.port 2).link.level ∧ (offerHub.pav 0).halted = false ∧ offered.phase = Phase.stash
       ∧ offered.offer = true ∧ offered.tport.toNat = 2 ∧ offerHub.txnOf (msg 0 7 0) = some (0, 0, offered))) ∧
    (∃ d, offered.offerSent = some d ∧ 0 < 992 ∧ offerHub.rbit (R.portCohCtl 2) 2 = true ∧ 2 ≤ (offerHub.port 2).link.level ∧ (offerHub.pav 0).halted = false
      ∧ offered.phase = Phase.stash ∧ offered.offer = true ∧ 0 = 0 ∧ (offerHub.pav 0).tt.find? 0 = some offered ∧ portOf? offered.tport.toNat = some 2 ∧ d + ccPerUs ≤ offerHub.now) :=
  ⟨by decide +kernel,
   ⟨_, rfl, by decide +kernel⟩⟩

end StashOffersEnd

namespace OwnerDataPassedOn

def owed : Txn := { txn3 with active := true, phase := .forward, fwdOwner := some 2, outs := [{ port := 2, op := Op.fwdS, sent := some 0 }] }
def reqHub : State := (homeHub.modPav 0 fun v => { v with tt := [(0, owed)] }).modLink 3 active

/-- The hypotheses of each clause of `Obligations.OwnerDataPassedOn` are met by a state above. -/
theorem test_hypotheses_met :
    ([reqHub].all readyHub = true) ∧
    (∃ p e, reqHub.txnOf (msg 0 5 0) = some (p, e, owed) ∧ owed.port = 3 ∧ 3 ≠ 2 ∧ (reqHub.port 3).link.keeps = true ∧ owed.fwdOwner = some 2) ∧
    ((∀ (p : PavId) (e : ℕ), reqHub.txnOf (msg 0 6 9) = some (p, e, owed) → owed.fwdOwner ≠ some 2) ∧ (reqHub.txnOf (msg 0 6 9) = none ∨ ∃ p e, reqHub.txnOf (msg 0 6 9) = some (p, e, owed))) :=
  ⟨by decide +kernel,
   ⟨_, _, rfl, by decide +kernel⟩,
   ⟨fun p e h => (by rw [(by decide +kernel : reqHub.txnOf (msg 0 6 9) = none)] at h; cases h), .inl (by decide +kernel)⟩⟩



end OwnerDataPassedOn

namespace ForwardTimeouts

def sent0 : FwdOut := { port := 2, op := Op.fwdS, sent := some 0 }
def owed : Txn := { txn3 with active := true, phase := .forward, outs := [sent0] }
def granted : Txn := { txn3 with phase := .doneWait, active := true, issued := true, issuedOp := Op.dataE, tstart := some 0 }
def lateFwd (t : Nat) : State := { homeHub.modPav 0 fun v => { (v.setDir 0 0 { st := .exclusive, owner := 2 }) with tt := [(0, owed)], place := .sectored } with now := t }
def lateDone (t : Nat) : State := { homeHub.modPav 0 fun v => { (v.setDir 0 0 { st := .exclusive, owner := 3 }) with tt := [(0, granted)], place := .sectored } with now := t }

/-- The hypotheses of each clause of `Obligations.ForwardTimeouts` are met by a state above. -/
theorem test_hypotheses_met :
    ([(lateFwd 1000000000000), (lateDone 1000000000000), (lateDone 5)].all readyHub = true) ∧
    (∃ d, sent0.sent = some d ∧ 0 < 992 ∧ ((lateFwd 1000000000000).pav 0).tt.find? 0 = some owed ∧ ((lateFwd 1000000000000).pav 0).halted = false ∧ ((lateFwd 1000000000000).pav 0).dirSound (dirSet owed.pa)
      ∧ sent0 ∈ owed.outs ∧ sent0.port = 2 ∧ d + (lateFwd 1000000000000).rf R.glbCohCtl 16 0 * ccPerUs ≤ (lateFwd 1000000000000).now ∧ ((lateFwd 1000000000000).pav 0).dirUnique owed.pa) ∧
    (∃ d, granted.tstart = some d ∧ 0 < 992 ∧ ((lateDone 1000000000000).pav 0).tt.find? 0 = some granted ∧ ((lateDone 1000000000000).pav 0).halted = false
      ∧ ((lateDone 1000000000000).pav 0).dirSound (dirSet granted.pa) ∧ granted.outs = [] ∧ granted.cross = [] ∧ granted.waitEvict = false ∧ granted.phase = Phase.doneWait
      ∧ granted.port = 3 ∧ granted.doneSeen = false ∧ d + (lateDone 1000000000000).rf R.glbCohCtl 16 0 * ccPerUs ≤ (lateDone 1000000000000).now) ∧
    (∃ d, granted.tstart = some d ∧ 0 < 992 ∧ ((lateDone 5).pav 0).tt.find? 0 = some granted ∧ ((lateDone 5).pav 0).halted = false ∧ ((lateDone 5).pav 0).dirSound (dirSet granted.pa)
      ∧ granted.outs = [] ∧ granted.cross = [] ∧ (lateDone 5).now < d + (lateDone 5).rf R.glbCohCtl 16 0 * ccPerUs) :=
  ⟨by decide +kernel,
   ⟨_, rfl, by decide +kernel⟩,
   ⟨_, rfl, by decide +kernel⟩,
   ⟨_, rfl, by decide +kernel⟩⟩

end ForwardTimeouts

namespace PostedWritesEnterArbour


/-- The hypotheses of each clause of `Obligations.PostedWritesEnterArbour` are met by a state above. -/
theorem test_hypotheses_met :
    ([ioHub, ioOff, quietHub].all readyHub = true) ∧
    (∃ tg k, ioHub.ioTarget 2 (msg Op.ioWr 0 0).hdr.pa = some tg ∧ freeSlot (List.map (fun x => x.slot) (ioHub.port 2).io.arb) 64 = some k ∧ (ioHub.port 2).io.qst = QState.none
      ∧ ioHub.glb.hold = false ∧ (ioHub.port 2).io.ingress = [] ∧ (ioHub.port 2).io.arb.length + (ioHub.port 2).io.arbPop.at_ ioHub.now < 64) ∧
    (((ioOff.port 2).io.qst = QState.none ∧ ioOff.ioTarget 2 (msg Op.ioWr 0 0).hdr.pa = none) ∧
     ((quietHub.port 2).io.qst ≠ QState.none)) :=
  ⟨by decide +kernel,
   ⟨_, _, rfl, rfl, by decide +kernel⟩,
   by decide +kernel⟩

end PostedWritesEnterArbour

namespace ArbourEntriesResolve

def posted (t : IoTgt) (st : ArbSt) : ArbEntry := { slot := 63, num := 0, msg := msg Op.ioWr 0 0, target := t, relaxed := false, use := 1, st := st, elig := some 0 }
def postedHub (t : IoTgt) (st : ArbSt) : State := { ioHub.modIo 2 fun io => { io with arb := [posted t st] } with now := 30000000000 }
def ackMsg : Msg := { hdr := { opcode := Op.ioAck, tid := 1, htid := 2 * 64 + 63 } }
/-- The timeout of the only entry has run out in this cc. -/
def ranOut (st : ArbSt) : ArbEntry := { posted (.port 3) st with runOut := true }
def ranOutHub (st : ArbSt) : State := { ioHub.modIo 2 fun io => { io with arb := [ranOut st] } with now := 30000000000 }
/-- A write was lost in the cc that ends. -/
def lossHub : State := ioHub.modIo 2 fun io => { io with lossNow := true }
def readAck : Msg := { hdr := { opcode := Op.ioAck, tid := 1, htid := 0x2000 + 2 * 64 + 63 } }

/-- The hypotheses of each clause of `Obligations.ArbourEntriesResolve` are met by a state above. -/
theorem test_hypotheses_met :
    ([(postedHub (.port 3) .waiting), (postedHub .svc .waiting), (postedHub (.port 3) .sent), ioHub, (ranOutHub .waiting), (ranOutHub .sent), lossHub].all readyHub = true) ∧
    (∃ x, (postedHub (IoTgt.port 3) ArbSt.waiting).arbNext 2 = some x ∧ x.target = IoTgt.port 3 ∧ 3 ≠ 2) ∧
    (∃ x, (postedHub IoTgt.svc ArbSt.waiting).arbNext 2 = some x ∧ x.target = IoTgt.svc) ∧
    ((portOf? (ioSource ackMsg) = some 2 ∧ ioIsRead ackMsg = false ∧ posted (IoTgt.port 3) ArbSt.sent ∈ ((postedHub (IoTgt.port 3) ArbSt.sent).port 2).io.arb
       ∧ (posted (IoTgt.port 3) ArbSt.sent).st = ArbSt.sent ∧ (posted (IoTgt.port 3) ArbSt.sent).slot = ioSlot ackMsg ∧ ackMsg.hdr.tid = BitVec.setWidth 10 (posted (IoTgt.port 3) ArbSt.sent).use) ∧
     (portOf? (ioSource ackMsg) = some 2 ∧ (ioIsRead ackMsg = true ∨ ∀ x ∈ ((postedHub (IoTgt.port 3) ArbSt.waiting).port 2).io.arb, x.st = ArbSt.sent → x.slot = ioSlot ackMsg → ackMsg.hdr.tid ≠ BitVec.setWidth 10 x.use))) ∧
    (∃ d, (posted (IoTgt.port 3) ArbSt.waiting).elig = some d ∧ posted (IoTgt.port 3) ArbSt.waiting ∈ ((postedHub (IoTgt.port 3) ArbSt.waiting).port 2).io.arb
      ∧ (posted (IoTgt.port 3) ArbSt.waiting).slot = 63 ∧ ((posted (IoTgt.port 3) ArbSt.waiting).st = ArbSt.waiting ∨ (posted (IoTgt.port 3) ArbSt.waiting).st = ArbSt.sent)
      ∧ d + (postedHub (IoTgt.port 3) ArbSt.waiting).ioTmo ≤ (postedHub (IoTgt.port 3) ArbSt.waiting).now) :=
  ⟨by decide +kernel,
   ⟨_, rfl, by decide +kernel⟩,
   ⟨_, rfl, by decide +kernel⟩,
   by decide +kernel,
   ⟨_, rfl, by decide +kernel⟩⟩

/-- An entry whose timeout ran out in the cc that ends, waiting and sent, and a loss in that cc. -/
theorem test_hypotheses_met_as_the_cc_ends :
    (([ranOutHub .waiting, ranOutHub .sent, lossHub].all readyHub = true) ∧
     (∀ st ∈ [ArbSt.waiting, ArbSt.sent], ((ranOutHub st).port 2).io.arb = [ranOut st] ∧ (ranOut st).runOut = true ∧ (ranOut st).st = st
       ∧ ((ranOutHub st).port 2).io.rdt = [] ∧ ((ranOutHub st).port 2).io.fences = []) ∧
     (lossHub.port 2).io.lossNow = true) := by
  decide +kernel

end ArbourEntriesResolve

namespace ReadsTakeTrackerEntries

/-- A read behind a Fence that waits. -/
def fencedIo : State := ioOff.modIo 2 fun io => { io with fences := [{ num := 0, tid := 5, pa := 0, at_ := 0 }], nextNum := 1 }

/-- The hypotheses of each clause of `Obligations.ReadsTakeTrackerEntries` are met by a state above. -/
theorem test_hypotheses_met :
    ([ioHub, ioOff, quietHub, fencedIo].all readyHub = true) ∧
    (∃ tg k, ioHub.ioTarget 2 readMsg.hdr.pa = some tg ∧ freeSlot (List.map (fun x => x.slot) (ioHub.port 2).io.rdt) 16 = some k ∧ readMsg.hdr.size ≠ 7
      ∧ readMsg.hdr.offset.toNat % 2 ^ readMsg.hdr.size.toNat = 0 ∧ ioHub.glb.hold = false ∧ (ioHub.port 2).io.ingress = [] ∧ (ioHub.port 2).io.qst = QState.none
      ∧ (ioHub.port 2).io.fences = []) ∧
    ((readMsg.hdr.size ≠ 7 ∧ readMsg.hdr.offset.toNat % 2 ^ readMsg.hdr.size.toNat = 0 ∧ ioOff.glb.hold = false ∧ (ioOff.port 2).io.ingress = [] ∧ (ioOff.port 2).io.qst = QState.none
       ∧ ioOff.ioTarget 2 readMsg.hdr.pa = none ∧ (ioOff.port 2).io.fences = [] ∧ (ioOff.port 2).link.keeps = true) ∧
     (readMsg.hdr.size ≠ 7 ∧ readMsg.hdr.offset.toNat % 2 ^ readMsg.hdr.size.toNat = 0 ∧ quietHub.glb.hold = false ∧ (quietHub.port 2).io.ingress = [] ∧ (quietHub.port 2).io.qst ≠ QState.none
       ∧ (quietHub.port 2).io.fences = [] ∧ (quietHub.port 2).link.keeps = true) ∧
     (readMsg.hdr.size ≠ 7 ∧ readMsg.hdr.offset.toNat % 2 ^ readMsg.hdr.size.toNat = 0 ∧ fencedIo.glb.hold = false ∧ (fencedIo.port 2).io.ingress = [] ∧ ((fencedIo.port 2).io.qst ≠ QState.none ∨ fencedIo.ioTarget 2 readMsg.hdr.pa = none)
       ∧ (∃ f ∈ (fencedIo.port 2).io.fences, f.num < (fencedIo.port 2).io.nextNum))) :=
  ⟨by decide +kernel,
   ⟨_, _, rfl, rfl, by decide +kernel⟩,
   by decide +kernel⟩

end ReadsTakeTrackerEntries

namespace ReadsDispatchedAndAnswered

def asked (t : IoTgt) (sent : Bool) : RdEntry := { slot := 15, num := 0, msg := readMsg, target := t, use := 1, sent := sent, elig := some 0 }
def askedHub (t : IoTgt) (sent : Bool) : State := { ioHub.modIo 2 fun io => { io with rdt := [asked t sent] } with now := 30000000000 }
/-- The timeout of the only read has run out in this cc. -/
def ranOut : RdEntry := { asked (.port 3) true with runOut := true }
def ranOutHub : State := { ioHub.modIo 2 fun io => { io with rdt := [ranOut] } with now := 30000000000 }
def datMsg : Msg := { hdr := { opcode := Op.ioDat, tid := 1, htid := 8192 + 2 * 64 + 15 } }

/-- The hypotheses of each clause of `Obligations.ReadsDispatchedAndAnswered` are met by a state above. -/
theorem test_hypotheses_met :
    ([(askedHub (.port 3) false), (askedHub .svc false), (askedHub (.port 3) true), ranOutHub].all readyHub = true) ∧
    (∃ x, (askedHub (IoTgt.port 3) false).rdNext 2 = some x ∧ x.target = IoTgt.port 3 ∧ 3 ≠ 2) ∧
    (∃ x, (askedHub IoTgt.svc false).rdNext 2 = some x ∧ x.target = IoTgt.svc) ∧
    (∃ x, List.find? (fun y => y.sent && decide (y.slot = ioSlot datMsg) && decide (datMsg.hdr.tid = BitVec.setWidth 10 y.use)) ((askedHub (IoTgt.port 3) true).port 2).io.rdt = some x
      ∧ portOf? (ioSource datMsg) = some 2 ∧ ioIsRead datMsg = true ∧ 2 ≠ 3 ∧ ((askedHub (IoTgt.port 3) true).port 2).link.keeps = true) ∧
    (∃ d, (asked (IoTgt.port 3) false).elig = some d ∧ asked (IoTgt.port 3) false ∈ ((askedHub (IoTgt.port 3) false).port 2).io.rdt ∧ (asked (IoTgt.port 3) false).slot = 15
      ∧ d + (askedHub (IoTgt.port 3) false).ioTmo ≤ (askedHub (IoTgt.port 3) false).now) :=
  ⟨by decide +kernel,
   ⟨_, rfl, by decide +kernel⟩,
   ⟨_, rfl, by decide +kernel⟩,
   ⟨_, rfl, by decide +kernel⟩,
   ⟨_, rfl, by decide +kernel⟩⟩

/-- A read whose timeout ran out in the cc that ends. -/
theorem test_hypotheses_met_as_the_cc_ends :
    (readyHub ranOutHub = true ∧ (ranOutHub.port 2).io.rdt = [ranOut] ∧ ranOut.runOut = true ∧ (ranOutHub.port 2).io.arb = []
      ∧ (ranOutHub.port 2).io.fences = [] ∧ (ranOutHub.port 2).link.keeps = true) := by
  decide +kernel

end ReadsDispatchedAndAnswered

namespace MissReadsAndFills

def missed : MissReg := { base := 0, gsize := 8, want := 0xFF, crit := 7 }
def missHub : State := (memHub.modPav 0 fun v => { v with miss := [(0, missed)], place := .sectored }).modChan 0 fun ch => { ch with com := { ch.com with st := .inService } }
def fillRet : MemRet := { src := .miss 0 0 0, pa := 0, data := 7, poison := false }
def readReg : MissReg := { base := 0, gsize := 1, want := 1, issued := 1, way := 3 }
def wroteReg : MissReg := { readReg with written := 1, buf := [(0, 5, false)] }
def fillHub (x : MissReg) : State := (memHub.modPav 0 fun v => { v with miss := [(0, x)], place := .sectored }).modChan 0 fun ch => { ch with rets := [fillRet] }
/-- The read queue has no place. -/
def fullHub : State := missHub.modChan 0 fun ch => { ch with rq := List.replicate 64 { ll := 0, pa := 0, plot := none, at_ := 0, src := .patrol } }
def passedHub : State := (fillHub readReg).modPav 0 fun v => { v with tags := [(3, { tag := 0, st := .valid, present := 1 })] }

/-- The hypotheses of each clause of `Obligations.MissReadsAndFills` are met by a state above. -/
theorem test_hypotheses_met :
    ([missHub, (fillHub readReg), (fillHub wroteReg), fullHub, passedHub].all readyHub = true) ∧
    (∃ i la c, missed.nextRead = some i ∧ la = missed.base + BitVec.ofNat 46 i ∧ c = missHub.chanFor la ∧ List.Pairwise (fun a b => a.1 < b.1) (missHub.pav 0).miss
      ∧ (missHub.pav 0).miss.find? 0 = some missed ∧ missed.waitEv = 0 ∧ missHub.rqTakes c missed.plot false = true ∧ (∀ (y : PlotId × PavId × ℕ), missHub.nextWaiter c missed.plot = some y → y = (missed.plot, 0, 0))) ∧
    (∃ i la c, missed.nextRead = some i ∧ la = missed.base + BitVec.ofNat 46 i ∧ c = fullHub.chanFor la ∧ List.Pairwise (fun a b => a.1 < b.1) (fullHub.pav 0).miss
      ∧ (fullHub.pav 0).miss.find? 0 = some missed ∧ missed.waitEv = 0 ∧ fullHub.rqTakes c missed.plot false = false) ∧
    (∃ i la c, i = 0 - subOf readReg.base ∧ la = readReg.base + BitVec.ofNat 46 i ∧ c = (fillHub readReg).chanFor la ∧ List.Pairwise (fun a b => a.1 < b.1) ((fillHub readReg).pav 0).miss
      ∧ ((fillHub readReg).pav 0).miss.find? 0 = some readReg ∧ readReg.preload = false ∧ List.find? (fun y => decide (y.src = RdSrc.miss 0 0 0) && decide (y.pa = la)) ((fillHub readReg).chan c).rets = some fillRet
      ∧ readReg.written.getLsbD i = false ∧ (fillHub readReg).overtaken 0 readReg la = false) ∧
    (∃ i la c, i = 0 - subOf readReg.base ∧ la = readReg.base + BitVec.ofNat 46 i ∧ c = passedHub.chanFor la ∧ List.Pairwise (fun a b => a.1 < b.1) (passedHub.pav 0).miss
      ∧ (passedHub.pav 0).miss.find? 0 = some readReg ∧ readReg.preload = false ∧ List.find? (fun y => decide (y.src = RdSrc.miss 0 0 0) && decide (y.pa = la)) (passedHub.chan c).rets = some fillRet
      ∧ readReg.written.getLsbD i = false ∧ passedHub.overtaken 0 readReg la = true) ∧
    (∃ i la c, i = 0 - subOf wroteReg.base ∧ la = wroteReg.base + BitVec.ofNat 46 i ∧ c = (fillHub wroteReg).chanFor la ∧ List.Pairwise (fun a b => a.1 < b.1) ((fillHub wroteReg).pav 0).miss
      ∧ ((fillHub wroteReg).pav 0).miss.find? 0 = some wroteReg ∧ wroteReg.preload = false ∧ List.find? (fun y => decide (y.src = RdSrc.miss 0 0 0) && decide (y.pa = la)) ((fillHub wroteReg).chan c).rets = some fillRet
      ∧ wroteReg.written.getLsbD i = true) :=
  ⟨by decide +kernel,
   ⟨_, _, _, rfl, rfl, rfl, by decide +kernel⟩,
   ⟨_, _, _, rfl, rfl, rfl, by decide +kernel⟩,
   ⟨_, _, _, rfl, rfl, rfl, by decide +kernel⟩,
   ⟨_, _, _, rfl, rfl, rfl, by decide +kernel⟩,
   ⟨_, _, _, rfl, rfl, rfl, by decide +kernel⟩⟩

end MissReadsAndFills

namespace StackCommandsAndReads

def stkHub (f : Pav → Pav) : State := (homeHub.modStk 0 fun k => { k with com := { k.com with st := .inService } }).modPav 0 fun v => f { v with place := .sectored }
def stkCmd (op : StackOp) : StackCmd := { set := 5, way := 2, sub := 1, pa := 9, op := op, at_ := 0 }
def stkRet (op : StackOp) : StackRet := { cmd := stkCmd op, st := stackEncode 0x1234 }
def reading : Txn := { kind := .req Op.rdOnce, port := 2, tid := 5, pa := 9, active := true, phase := .data, fetch := .busy }
def cmdHub (op : StackOp) : State := stkHub fun v => { v with stackq := [stkCmd op] }
def retHub (op : StackOp) : State := stkHub fun v => { v with stackRet := [stkRet op], tt := [(3, reading)], orRsv := 2 }

/-- The hypotheses of each clause of `Obligations.StackCommandsAndReads` are met by a state above. -/
theorem test_hypotheses_met :
    (([(cmdHub (.write (stackEncode 7))), (cmdHub (.demand 3)), (retHub (.demand 3)), (retHub .evict)].all readyHub = true) ∧
     (((cmdHub (StackOp.write (stackEncode 7))).stk (stackOfPav 0)).com.st = MemSt.inService ∧ (∀ (d : Bool), (cmdHub (StackOp.write (stackEncode 7))).refBars (MemUnit.stack (stackOfPav 0)) 4 d = false)
       ∧ ((cmdHub (StackOp.write (stackEncode 7))).pav 0).nextStack 0 4 = some (stkCmd (StackOp.write (stackEncode 7))) ∧ (stkCmd (StackOp.write (stackEncode 7))).op = StackOp.write (stackEncode 7)) ∧
     (((cmdHub (StackOp.demand 3)).stk (stackOfPav 0)).com.st = MemSt.inService ∧ (∀ (d : Bool), (cmdHub (StackOp.demand 3)).refBars (MemUnit.stack (stackOfPav 0)) 4 d = false)
       ∧ ((cmdHub (StackOp.demand 3)).pav 0).nextStack 0 4 = some (stkCmd (StackOp.demand 3)) ∧ (stkCmd (StackOp.demand 3)).op = StackOp.demand 3)) ∧
    (∃ t0, ((retHub (StackOp.demand 3)).pav 0).tt.find? 3 = some t0 ∧ (stkRet (StackOp.demand 3)).failed = false ∧ (stackDecode (stkRet (StackOp.demand 3)).st).cls = Cls.good
      ∧ List.find? (fun y => decide (y.cmd.op ≠ StackOp.evict)) ((retHub (StackOp.demand 3)).pav 0).stackRet = some (stkRet (StackOp.demand 3)) ∧ (stkRet (StackOp.demand 3)).cmd.op = StackOp.demand 3
      ∧ t0.fetch = Fetch.busy ∧ t0.pa = (stkRet (StackOp.demand 3)).cmd.pa) ∧
    ((stkRet StackOp.evict).failed = false ∧ (stackDecode (stkRet StackOp.evict).st).cls = Cls.good ∧ List.find? (fun y => decide (y.cmd.op = StackOp.evict)) ((retHub StackOp.evict).pav 0).stackRet = some (stkRet StackOp.evict)) :=
  ⟨by decide +kernel,
   ⟨_, rfl, by decide +kernel⟩,
   by decide +kernel⟩

end StackCommandsAndReads

namespace OrangeryDrainsToMemory

def orLine : OrLine := { pa := 0, line := {} }
def inService (c : ChanId) (s : State) : State := s.modChan c fun ch => { ch with com := { ch.com with st := .inService } }
def orHub : State := inService 0 (memHub.modPav 0 fun v => { v with orang := [orLine], place := .sectored })
def pushed : Push := { pa := 0, data := 3, poison := false }
def pushHub : State := inService 0 (memHub.modPav 0 fun v => { v with pushq := [pushed], place := .sectored })
def fixHub : State := memHub.modPav 0 fun v => { v with sramFix := [(none, 32767, sramEncode 1)] }

/-- The hypotheses of each clause of `Obligations.OrangeryDrainsToMemory` are met by a state above. -/
theorem test_hypotheses_met :
    ([orHub, pushHub, fixHub].all readyHub = true) ∧
    (∃ o rest ll c, (orHub.pav 0).orang = o :: rest ∧ orHub.llOf o.pa = some ll ∧ c = orHub.chanFor o.pa ∧ (∀ y ∈ rest, y.pa ≠ o.pa) ∧ o.poison = false
      ∧ (sramDecode false o.line).cls = Cls.good ∧ (orHub.chan c).com.st = MemSt.inService ∧ orHub.wqTakes c = true ∧ (orHub.chan c).wq.length < 96 ∧ (∀ j ∈ (orHub.pav 0).pushq, j.pa ≠ o.pa
      ∧ j.poisons = false)) ∧
    (∃ j ll c, (pushHub.pav 0).pushq = [j] ∧ pushHub.llOf j.pa = some ll ∧ c = pushHub.chanFor j.pa ∧ j.for_ = PushFor.nothing ∧ (pushHub.chan c).com.st = MemSt.inService
      ∧ pushHub.wqTakes c = true ∧ (pushHub.chan (chanOf 0)).rawWait = none ∧ (pushHub.chan (chanOf 0)).fixq = []) ∧
    (∃ i l rest, (fixHub.pav 0).sramFix = (none, i, l) :: rest) :=
  ⟨by decide +kernel,
   ⟨orLine, [], 0, 0, by decide +kernel⟩,
   ⟨pushed, 0, 0, by decide +kernel⟩,
   ⟨_, _, _, rfl⟩⟩



end OrangeryDrainsToMemory

namespace WritesReachDramInOrder

def writeOf (ll : Nat) (d : Line) (t : Nat) : WqEnt := { ll := ll, st := memEncode .d5 d, at_ := t, plot := none }
def writeHub : State := chanHub fun ch => { ch with wq := [writeOf 5 1 0, writeOf 9 2 1, writeOf 5 3 2], init := [0] }
def sparseHub : State := chanHub fun ch => { ch with wq := [writeOf 40000 1 0], drain := true }

/-- The hypotheses of each clause of `Obligations.WritesReachDramInOrder` are met by a state above. -/
theorem test_hypotheses_met :
    ([writeHub, sparseHub, base].all readyHub = true) ∧
    ((writeHub.chan 0).com.st = MemSt.inService ∧ (((writeHub.chan 0).before writeHub.now).drain = true ∨ ((writeHub.chan 0).before writeHub.now).readyReads (writeHub.usable 0 (List.range 1024)) = [])
      ∧ ((writeHub.chan 0).before writeHub.now).urgentFill (writeHub.usable 0 (List.range 1024)) = none ∧ (((writeHub.chan 0).before writeHub.now).openFill (writeHub.usable 0 (List.range 1024)) = none ∨ ((writeHub.chan 0).before writeHub.now).openRow (writeOf 5 1 0).ll = true)
      ∧ ((writeHub.chan 0).before writeHub.now).selectWrite (writeHub.usable 0 (List.range 1024)) = some (writeOf 5 1 0)) := by
  decide +kernel

end WritesReachDramInOrder

namespace UninitializedReadsAreZero

def readHub : State := chanHub fun ch => { ch with rq := [reqOf 5 (.miss 0 0 5), reqOf 40000 .patrol] }

/-- The hypotheses of each clause of `Obligations.UninitializedReadsAreZero` are met by a state above. -/
theorem test_hypotheses_met :
    ([readHub].all readyHub = true) ∧
    ((readHub.chan 0).com.st = MemSt.inService ∧ (((readHub.chan 0).before readHub.now).drain = false ∨ ((readHub.chan 0).before readHub.now).readyWrites (readHub.usable 0 []) = []
      ∧ ((readHub.chan 0).before readHub.now).anyFill (readHub.usable 0 []) = false) ∧ readHub.selectReadFloor 0 (((readHub.chan 0).before readHub.now).readyReads (readHub.usable 0 [])) = some (reqOf 5 (RdSrc.miss 0 0 5))
      ∧ ((readHub.chan 0).before readHub.now).lost = none ∧ ((readHub.chan 0).before readHub.now).written (reqOf 5 (RdSrc.miss 0 0 5)).ll = false ∧ ((readHub.chan 0).before readHub.now).queued (reqOf 5 (RdSrc.miss 0 0 5)).ll = none) := by
  decide +kernel

end UninitializedReadsAreZero

namespace WrittenReadsAndZeroFills

def storedHub : State := chanHub fun ch => { ch with rq := [reqOf 5 (.miss 0 0 5)], init := [0], dram := [(5, memEncode .d5 0xABCD)] }
def filling (k : Nat) : FillSlot := { region := 1, start := 100, issued := k, background := false }
def fillHub (k : Nat) : State := chanHub fun ch => { ch with fills := [none, some (filling k), none, none] }
/-- The line that the fill writes next has a write in the queue. -/
def fillQueued : State := chanHub fun ch => { ch with fills := [none, some (filling 0), none, none], wq := [{ ll := 32868, st := memEncode .d5 7, plot := none, at_ := 0 }] }
def dimmHub : State := chanHub fun ch => { ch with slot0 := some ⟨.d5, 16, 0, 1, 12, 7, true⟩, init := [0, 1], bgPos := 0 }

/-- The hypotheses of each clause of `Obligations.WrittenReadsAndZeroFills` are met by a state above. -/
theorem test_hypotheses_met :
    (([storedHub, (fillHub 0), (fillHub 32767), fillQueued, dimmHub].all readyHub = true) ∧
     ((storedHub.chan 0).com.st = MemSt.inService ∧ (((storedHub.chan 0).before storedHub.now).drain = false ∨ ((storedHub.chan 0).before storedHub.now).readyWrites (storedHub.usable 0 (List.range 1024)) = []
       ∧ ((storedHub.chan 0).before storedHub.now).anyFill (storedHub.usable 0 (List.range 1024)) = false) ∧ storedHub.selectReadFloor 0 (((storedHub.chan 0).before storedHub.now).readyReads (storedHub.usable 0 (List.range 1024))) = some (reqOf 5 (RdSrc.miss 0 0 5))
       ∧ (reqOf 5 (RdSrc.miss 0 0 5)).src = RdSrc.miss 0 0 5 ∧ ((storedHub.chan 0).before storedHub.now).written (reqOf 5 (RdSrc.miss 0 0 5)).ll = true
       ∧ ((storedHub.chan 0).before storedHub.now).queued (reqOf 5 (RdSrc.miss 0 0 5)).ll = none ∧ (memDecode (storedHub.chan 0).memGen ((storedHub.chan 0).dramGet (reqOf 5 (RdSrc.miss 0 0 5)).ll)).cls = Cls.good)) ∧
    (∃ ll, ll = (filling 0).region * 32768 + ((filling 0).start + (filling 0).issued) % 32768 ∧ ((fillHub 0).chan 0).com.st = MemSt.inService ∧ (((fillHub 0).chan 0).before (fillHub 0).now).fills.getD (↑({ slot := 1, ready := List.range 1024 } : FillIssue).slot) none = some (filling 0)
      ∧ (((fillHub 0).chan 0).before (fillHub 0).now).fillMay (filling 0) ((fillHub 0).usable 0 ({ slot := 1, ready := List.range 1024 } : FillIssue).ready) = true) ∧
    ((dimmHub.chan 0).com.st = MemSt.inService ∧ 2 ≤ (dimmHub.chan 0).freeSlots ∧ dimmHub.glb.hold = false ∧ (∀ (g : FillSlot), some g ∈ (dimmHub.chan 0).fills → g.background = false)
      ∧ (dimmHub.chan 0).bgNext ((dimmHub.chan 0).init.length + 5) (dimmHub.chan 0).bgPos = some 2) :=
  ⟨by decide +kernel,
   ⟨_, rfl, by decide +kernel⟩,
   ⟨by decide +kernel, by decide +kernel, by decide +kernel, fun g h => by rw [(by decide +kernel : (dimmHub.chan 0).fills = [none, none, none, none])] at h; simp at h, by decide +kernel⟩⟩



end WrittenReadsAndZeroFills

namespace RefreshAndTemperature

def hotHub : State := memLive (.chan 0) fun x => { x with temps := [(0, some 95), (1, some 100)], ref2xNext := true }

/-- The hypotheses of each clause of `Obligations.RefreshAndTemperature` are met by a state above. -/
theorem test_hypotheses_met :
    ([(memLive (.chan 0) id), (memLive (.stack 0) id), hotHub].all readyHub = true) ∧
    (∃ iv, iv = (if ((memLive (MemUnit.chan 0) id).chan 0).memGen = MemGen.d4 then 23400 else 11700) / (if ((memLive (MemUnit.chan 0) id).chan 0).com.ref2xNext = true then 2 else 1)
      ∧ ((memLive (MemUnit.chan 0) id).chan 0).com.st = MemSt.inService ∧ 100 = (((memLive (MemUnit.chan 0) id).chan 0).com.postponed.find? 0).getD (memLive (MemUnit.chan 0) id).now
      ∧ 100 ≤ (memLive (MemUnit.chan 0) id).now) ∧
    (∃ iv, iv = (if ((memLive (MemUnit.stack 0) id).stk 0).com.ref2xNext = true then 5850 else 11700) ∧ ((memLive (MemUnit.stack 0) id).stk 0).com.st = MemSt.inService
      ∧ 100 = (((memLive (MemUnit.stack 0) id).stk 0).com.postponed.find? 0).getD (memLive (MemUnit.stack 0) id).now ∧ 100 ≤ (memLive (MemUnit.stack 0) id).now) ∧
    (((memLive (MemUnit.stack 0) id).com (MemUnit.stack 0)).st ≠ MemSt.off ∧ ((memLive (MemUnit.stack 0) id).com (MemUnit.stack 0)).st ≠ MemSt.selfRefresh
      ∧ 0 ∈ ((memLive (MemUnit.stack 0) id).tempSources (MemUnit.stack 0)).1 ∧ (∀ (d : ℕ), ((memLive (MemUnit.stack 0) id).com (MemUnit.stack 0)).tempAt.find? 0 = some d → d + ((memLive (MemUnit.stack 0) id).tempSources (MemUnit.stack 0)).2 ≤ (memLive (MemUnit.stack 0) id).now)) :=
  ⟨by decide +kernel,
   ⟨_, rfl, by decide +kernel⟩,
   ⟨_, rfl, by decide +kernel⟩,
   by decide +kernel⟩



end RefreshAndTemperature

namespace TrainingOutcomes

def trainChan (f : Chan → Chan) : State := homeHub.modChan 0 fun ch => f { ch with com := { ch.com with st := .training }, init := [0], dram := [(5, memEncode .d5 0xABCD)], slot0 := some ⟨.d5, 16, 0, 1, 12, 7, true⟩, freq := 12 }
def freshChan : State := trainChan id
def knownChan : State := (trainChan fun ch => { ch with com := { ch.com with recs := [trainRec 12 7 0 0] } }).rfSet (R.chanCfg 0) 30 30 0
def freshStk : State := homeHub.modStk 0 fun k => { k with com := { k.com with st := .training } }
def knownStk : State := homeHub.modStk 0 fun k => { k with com := { k.com with st := .training, recs := [trainRec 0 0 0 0] } }

/-- The hypotheses of each clause of `Obligations.TrainingOutcomes` are met by a state above. -/
theorem test_hypotheses_met :
    (([freshChan, knownChan, freshStk, knownStk].all readyHub = true) ∧
     ((freshChan.chan 0).com.st = MemSt.training ∧ (freshChan.chan 0).trained = false ∧ (freshChan.chan 0).com.recal = false ∧ (freshChan.chan 0).com.calib = false
       ∧ freshChan.needsFull (MemUnit.chan 0) = true)) ∧
    ((knownChan.chan 0).com.st = MemSt.training ∧ (knownChan.chan 0).trained = false ∧ (knownChan.chan 0).com.recal = false ∧ (knownChan.chan 0).com.calib = false
      ∧ knownChan.needsFull (MemUnit.chan 0) = false) ∧
    ((freshStk.stk 0).com.st = MemSt.training ∧ (freshStk.stk 0).com.recal = false ∧ (freshStk.stk 0).com.calib = false ∧ freshStk.needsFull (MemUnit.stack 0) = true
      ∧ (freshStk.stk 0).tested = false) ∧
    ((knownStk.stk 0).com.st = MemSt.training ∧ (knownStk.stk 0).com.recal = false ∧ (knownStk.stk 0).com.calib = false ∧ knownStk.needsFull (MemUnit.stack 0) = false) :=
  ⟨by decide +kernel,
   ⟨by decide +kernel, by decide +kernel, by decide +kernel, by decide +kernel, chanNoFull (a := 12) (b := 7) (c := 0) (d := 0) rfl (by decide +kernel) (by decide +kernel) (by decide +kernel) (by decide +kernel) (by decide +kernel)⟩,
   by decide +kernel,
   ⟨by decide +kernel, by decide +kernel, by decide +kernel, stkNoFull (a := 0) (b := 0) (c := 0) (d := 0) rfl (by decide +kernel)⟩⟩



end TrainingOutcomes

namespace WalksAndFrequencyChanges

def dayHub (m : MemUnit) : State := { (memLive m id).rfSet (R.chanCfg 0) 23 16 1 with now := 1000000000000000 }
def walkHub (m : MemUnit) : State := memLive m fun x => { x with walk := true, lastRefresh := some 0 }
def held : FreqChg := { code := 12, at_ := 0, running := false, aborted := false }
def changing : FreqChg := { code := 12, at_ := 0, running := true, aborted := false }
def goingBack : FreqChg := { changing with back := true }
def freqHub (walk : Bool) : State := { (memLive (.chan 0) fun x => { x with walk := walk, recs := [trainRec 12 7 0 0] }).modChan 0 fun ch => { ch with freqChg := some held, freq := 11, slot0 := some ⟨.d5, 16, 0, 1, 12, 7, true⟩ , rows := [(0, 5)]} with now := 150000000 }
/-- The time of a frequency change, or of the way back, is over. -/
def changeHub (f : FreqChg) : State := ((freqHub false).modChan 0 fun ch => { ch with freqChg := some f, wq := [], com := { ch.com with st := .freqChange }, dram := [(4, { data := 1 })] })

/-- The hypotheses of each clause of `Obligations.WalksAndFrequencyChanges` are met by a state above. -/
theorem test_hypotheses_met :
    ([(dayHub (.chan 0)), (dayHub (.stack 0)), (walkHub (.chan 0)), (walkHub (.stack 0)), (freqHub false), (freqHub true), (changeHub changing), (changeHub { changing with newOk := false }), (changeHub goingBack), (changeHub { goingBack with oldOk := false })].all readyHub = true) ∧
    (((dayHub (MemUnit.chan 0)).com (MemUnit.chan 0)).st = MemSt.inService ∧ (dayHub (MemUnit.chan 0)).fits Service.train 0 ∧ ((dayHub (MemUnit.chan 0)).com (MemUnit.chan 0)).walk = false
      ∧ ((dayHub (MemUnit.chan 0)).com (MemUnit.chan 0)).restart = false ∧ (dayHub (MemUnit.chan 0)).walkHours (MemUnit.chan 0) ≠ 0 ∧ ((dayHub (MemUnit.chan 0)).com (MemUnit.chan 0)).walkStart + (dayHub (MemUnit.chan 0)).walkHours (MemUnit.chan 0) * (3600 * 1000000 * 3000) ≤ (dayHub (MemUnit.chan 0)).now
      ∧ (dayHub (MemUnit.chan 0)).glb.hold = false) ∧
    (((walkHub (MemUnit.chan 0)).com (MemUnit.chan 0)).st = MemSt.inService ∧ (walkHub (MemUnit.chan 0)).fits Service.train 0 ∧ ((walkHub (MemUnit.chan 0)).com (MemUnit.chan 0)).walk = true) ∧
    (((walkHub (MemUnit.chan 0)).com (MemUnit.chan 0)).st = MemSt.inService ∧ (walkHub (MemUnit.chan 0)).fits Service.train 0 ∧ ((walkHub (MemUnit.chan 0)).com (MemUnit.chan 0)).walk = true
      ∧ ((walkHub (MemUnit.chan 0)).com (MemUnit.chan 0)).inWindow (walkHub (MemUnit.chan 0)).now = true) ∧
    (((freqHub false).chan 0).freqChg = some held ∧ ((freqHub false).chan 0).com.st = MemSt.inService ∧ ((freqHub false).chan 0).com.walk = false ∧ ((freqHub false).chan 0).com.survey = none
      ∧ held.running = false) ∧
    (((freqHub true).chan 0).freqChg = some held ∧ ((freqHub true).chan 0).com.walk = true ∧ held.at_ + 50000 * 3000 ≤ (freqHub true).now) := by
  decide +kernel

def badVerify : FreqChg := { changing with newOk := false }
def lost : FreqChg := { goingBack with oldOk := false }
/-- A change and a way back whose time is over, with each result of the verify. -/
theorem test_hypotheses_met_as_the_clock_runs :
    ([changing, badVerify, goingBack, lost].all fun f => readyHub (changeHub f) && decide (((changeHub f).chan 0).freqChg = some f) && f.running
      && decide (f.since + 230 * ccPerUs ≤ (changeHub f).now) && decide (((changeHub f).chan 0).com.st ≠ .failed)) = true ∧
    (changing.back = false ∧ changing.newOk = true) ∧ (badVerify.back = false ∧ badVerify.newOk = false) ∧
    (goingBack.back = true ∧ goingBack.oldOk = true) ∧ (lost.back = true ∧ lost.oldOk = false) := by
  decide +kernel

end WalksAndFrequencyChanges

namespace MemoryCommandsStart

def cmdHub : State := ((memLive (.chan 0) fun x => { x with recs := [trainRec 12 7 0 0] }).modChan 0 fun ch => { ch with gen := some .d5, freq := 11, slot0 := some dimm, init := [0] }).rset (R.chanSurveySize 0) 1
def ledgerHub : State := cmdHub.modChan 0 fun ch => { ch with ledger := ch.ledger.set 63 { valid := true } }
def ghHub : State := ((homeHub.modStk 0 fun k => { k with com := { k.com with st := .inService } }).modPav 0 fun v => { v with place := .ghCache }).modPav 1 fun v => { v with place := .ghCache }

/-- The hypotheses of each clause of `Obligations.MemoryCommandsStart` are met by a state above. -/
theorem test_hypotheses_met :
    ([cmdHub, ledgerHub, ghHub, secHub].all readyHub = true) ∧
    ((genOfCode (bitsOf (12#32) 3 0)).isSome = true ∧ genOfCode (bitsOf (12#32) 3 0) = (cmdHub.chan 0).gen ∧ bitsOf (12#32) 3 0 ≤ min ((cmdHub.chan 0).slot0.elim 0 fun x => x.maxCode) ((cmdHub.chan 0).slot1.elim 15 fun x => x.maxCode)
      ∧ (∃ r ∈ (cmdHub.chan 0).com.recs, r.code = bitsOf (12#32) 3 0 ∧ r.good = true) ∧ (cmdHub.chan 0).com.st = MemSt.inService ∧ (cmdHub.chan 0).freqChg = none
      ∧ cmdHub.clocksRun = true) ∧
    ((genOfCode (bitsOf (0#32) 3 0) = none ∧ cmdHub.clocksRun = true) ∧
     (ghHub.clocksRun = true ∧ (ghHub.pav (pavOf (2 * 0))).place = Place.ghCache ∧ (ghHub.pav (pavOf (2 * 0 + 1))).place = Place.ghCache ∧ ((ghHub.stk 0).com.st = MemSt.inService ∨ (ghHub.stk 0).com.st = MemSt.failed)
       ∧ (ghHub.stk 0).com.survey = none) ∧
     (secHub.clocksRun = true ∧ (secHub.pav (pavOf (2 * 0))).place = Place.sectored ∧ secHub.isFenced (pavOf (2 * 0)) = false)) ∧
    (∃ b n, b = cmdHub.rf (R.chanSurveyBase 0) 26 0 * 64 ∧ n = cmdHub.rf (R.chanSurveySize 0) 27 0 * 64 ∧ (cmdHub.chan 0).com.st = MemSt.inService ∧ cmdHub.clocksRun = true
      ∧ (cmdHub.chan 0).com.survey = none ∧ 0 < n ∧ b + n ≤ (cmdHub.chan 0).lines) ∧
    ((ledgerHub.chan 0).com.st = MemSt.inService ∧ ledgerHub.clocksRun = true ∧ 63 = bitsOf (63#32) 5 0 ∧ (ledgerHub.chan 0).pprRun = none ∧ (ledgerHub.chan 0).ledger[63].valid = true
      ∧ (ledgerHub.chan 0).repairs.length < 8) :=
  ⟨by decide +kernel,
   ⟨by decide +kernel, by decide +kernel, by decide +kernel, ⟨trainRec 12 7 0 0, List.mem_singleton.2 rfl, by decide +kernel, good_trainRec _ _ _ _⟩, by decide +kernel⟩,
   by decide +kernel,
   ⟨_, _, rfl, rfl, by decide +kernel⟩,
   by decide +kernel⟩



end MemoryCommandsStart

namespace StacksAndChannelsEnterService

def testStk (st : MemSt) : State := homeHub.modStk 0 fun k => { k with com := { k.com with st := st }, tested := true }
def upHub : State := homeHub.modGlb fun g => { g with stackUp := true }
def memReadyHub : State := homeHub.modGlb fun g => { g with memReady := true }
/-- Channel 0 is too small for the map and channel 1 is not. -/
def dueHub : State := (((homeHub.modGlb fun g => { g with memGoDue := true, memReady := true, ranges := [(0, 0, 1024)] }).modChan 0 fun ch => { ch with trained := true, slot0 := some dimm }).modChan 1 fun ch =>
  { ch with trained := true, slot0 := some { dimm with densityGbit := 64, ranks := 2 }, init := [3] })

/-- The hypotheses of each clause of `Obligations.StacksAndChannelsEnterService` are met by a state above. -/
theorem test_hypotheses_met :
    ([(testStk .test), (testStk .training), upHub, memReadyHub, dueHub].all readyHub = true) ∧
    (((testStk MemSt.test).stk 0).com.st = MemSt.test) ∧
    (((testStk MemSt.training).stk 0).com.st = MemSt.training ∧ ((testStk MemSt.training).stk 0).tested = true) ∧
    (upHub.glb.stackUp = true) ∧
    (memReadyHub.glb.memReady = true ∧ memReadyHub.glb.memGo = false ∧ memReadyHub.glb.memGoPend = false ∧ memReadyHub.glb.memGoDue = false) ∧
    (dueHub.glb.memGoDue = true ∧ 4 ≤ (choosePivots dueHub.fold).length) := by
  decide +kernel

end StacksAndChannelsEnterService

namespace ScrubSurveyAndLedger

def scrubHub (pos : Nat) (f : Chan → Chan) : State := homeHub.modChan 0 fun ch => f { ch with com := { ch.com with st := .inService, patrolCredit := 2, patrolPos := pos }, slot0 := some dimm, init := [0] }
def targetHub : State := scrubHub 9 fun ch => { ch with targets := [3] }
def stkScrub : State := (homeHub.modStk 0 fun k => { k with com := { k.com with st := .inService, patrolCredit := 1, patrolPos := 16777215 } }).modPav 0 fun v => { v with place := .sectored }
def surveyEnd : Survey := { pos := 64, stop := 64 }
def surveyed (m : MemUnit) : State := homeHub.modCom m fun x => { x with st := .inService, survey := some surveyEnd }
def ppr : PprRun := { entry := 63, held := true, next := 128 }
def ledgerHub : State := (scrubHub 0 fun ch => { ch with ledger := ch.ledger.set 63 { valid := true, ll := 5 }, pprRun := some ppr }).modBand fun b => { b with sec := 86400 }

/-- The hypotheses of each clause of `Obligations.ScrubSurveyAndLedger` are met by a state above. -/
theorem test_hypotheses_met :
    (([(scrubHub 0 id), (scrubHub 536870911 id), targetHub, stkScrub, (surveyed (.chan 0)), (surveyed (.stack 0)), ledgerHub].all readyHub = true) ∧
     (((scrubHub 0 id).chan 0).com.st = MemSt.inService ∧ ((scrubHub 0 id).chan 0).com.survey = none ∧ 0 < ((scrubHub 0 id).chan 0).com.patrolCredit ∧ ((scrubHub 0 id).chan 0).rq.length < 48
       ∧ 0 < ((scrubHub 0 id).chan 0).lines ∧ (scrubHub 0 id).engineRoom 0 = true ∧ ((scrubHub 0 id).chan 0).targets = [])) ∧
    (∃ ll rest, (targetHub.chan 0).targets = ll :: rest ∧ (targetHub.chan 0).com.st = MemSt.inService ∧ (targetHub.chan 0).com.survey = none ∧ 0 < (targetHub.chan 0).com.patrolCredit
      ∧ (targetHub.chan 0).rq.length < 48 ∧ 0 < (targetHub.chan 0).lines ∧ targetHub.engineRoom 0 = true ∧ targetHub.fits Service.scrub 0) ∧
    ((stkScrub.stk 0).com.st = MemSt.inService ∧ (stkScrub.stk 0).com.survey = none ∧ 0 < (stkScrub.stk 0).com.patrolCredit ∧ (stkScrub.pav (pavOf (2 * 0))).place = Place.sectored
      ∧ (stkScrub.pav (pavOf (2 * 0))).halted = false ∧ (stkScrub.stk 0).com.patrolPos < 2 ^ 24 ∧ stkScrub.glb.hold = false ∧ (∀ (q : PavId) (set w : ℕ), ((stkScrub.pav q).tag set w).parOk = true)) ∧
    ((((surveyed (MemUnit.chan 0)).com (MemUnit.chan 0)).survey = some surveyEnd ∧ ((surveyed (MemUnit.chan 0)).com (MemUnit.chan 0)).st = MemSt.inService
       ∧ surveyEnd.stop ≤ surveyEnd.pos ∧ ((surveyed (MemUnit.chan 0)).com (MemUnit.chan 0)).surveyOut = 0) ∧
     ((ledgerHub.chan 0).ledger[63].valid = true ∧ (ledgerHub.chan 0).ledger[63].hard = false ∧ (ledgerHub.chan 0).ledger[63].tLast + 86400 ≤ ledgerHub.band.sec
       ∧ ledgerHub.fits Service.scrub 0) ∧
     ((ledgerHub.chan 0).pprRun = some ppr ∧ (ledgerHub.chan 0).com.st = MemSt.inService ∧ ppr.held = true ∧ 128 ≤ ppr.next ∧ (∀ x ∈ (ledgerHub.chan 0).rq, x.src ≠ RdSrc.repair)
       ∧ ledgerHub.fits Service.scrub 0)) :=
  ⟨by decide +kernel,
   ⟨_, _, rfl, by decide +kernel⟩,
   ⟨by decide +kernel, by decide +kernel, by decide +kernel, by decide +kernel, by decide +kernel, by decide +kernel, by decide +kernel, fun q set w => by have h : ∀ q : PavId, (stkScrub.pav q).tags = [] := (by decide +kernel); simp only [Pav.tag, h q]; exact (by decide +kernel : ({} : TagEntry).parOk = true)⟩,
   by decide +kernel⟩



end ScrubSurveyAndLedger

namespace RawAccesses

def rawHub (st : MemSt) (init : List Nat) : State := homeHub.modChan 0 fun ch => { ch with com := { ch.com with st := st }, slot0 := some dimm, init := init }
def rawEnd : State := homeHub.modGlb fun g => { g with rawBusy := true, rawDone := some (3, 1, 0x7F) }

/-- The hypotheses of each clause of `Obligations.RawAccesses` are met by a state above. -/
theorem test_hypotheses_met :
    ([(rawHub .inService [0]), (rawHub .inService []), (rawHub .off [0]), homeHub, rawEnd].all readyHub = true) ∧
    (∃ ll, ll = ((rawHub MemSt.inService [0]).rf R.rawRawAddrHi 19 0 * 2 ^ 32 + (rawHub MemSt.inService [0]).rf R.rawRawAddrLo 31 6 * 64) / 64 ∧ (rawHub MemSt.inService [0]).glb.rawBusy = false
      ∧ bitsOf (0#32) 27 26 = 0 ∧ bitsOf (0#32) 19 16 = 0 ∧ ll < ((rawHub MemSt.inService [0]).chan 0).lines ∧ ((rawHub MemSt.inService [0]).chan 0).written ll = true
      ∧ ((rawHub MemSt.inService [0]).chan 0).com.st = MemSt.inService ∧ (rawHub MemSt.inService [0]).engineRoom 0 = true ∧ (Instr.readRaw host 0 = Instr.readRaw host 0#32 ∨ Instr.readRaw host 0 = Instr.readDec host 0#32)) ∧
    (∃ ll, ll = ((rawHub MemSt.inService [0]).rf R.rawRawAddrHi 19 0 * 2 ^ 32 + (rawHub MemSt.inService [0]).rf R.rawRawAddrLo 31 6 * 64) / 64 ∧ (rawHub MemSt.inService [0]).glb.rawBusy = false
      ∧ bitsOf (0#32) 27 26 = 0 ∧ bitsOf (0#32) 19 16 = 0 ∧ ll < ((rawHub MemSt.inService [0]).chan 0).lines ∧ ((rawHub MemSt.inService [0]).chan 0).written ll = true
      ∧ ((rawHub MemSt.inService [0]).chan 0).com.st = MemSt.inService ∧ (rawHub MemSt.inService [0]).wqTakes 0 = true ∧ (rawHub MemSt.inService [0]).glb.hold = false) ∧
    (∃ ll, ll = ((rawHub MemSt.inService []).rf R.rawRawAddrHi 19 0 * 2 ^ 32 + (rawHub MemSt.inService []).rf R.rawRawAddrLo 31 6 * 64) / 64 ∧ (rawHub MemSt.inService []).glb.rawBusy = false
      ∧ bitsOf (0#32) 27 26 = 0 ∧ bitsOf (0#32) 19 16 = 0 ∧ (Instr.readRaw host 0 = Instr.readRaw host 0#32 ∨ Instr.readRaw host 0 = Instr.readDec host 0#32 ∨ Instr.readRaw host 0 = Instr.writeRaw host 0#32 ∨ Instr.readRaw host 0 = Instr.writeEnc host 0#32)
      ∧ (2 = 1 ∧ ((rawHub MemSt.inService []).chan 0).lines ≤ ll ∨ 2 = 2 ∧ ll < ((rawHub MemSt.inService []).chan 0).lines ∧ ((rawHub MemSt.inService []).chan 0).written ll = false ∨ 2 = 3
      ∧ ll < ((rawHub MemSt.inService []).chan 0).lines ∧ ((rawHub MemSt.inService []).chan 0).written ll = true ∧ ((rawHub MemSt.inService []).chan 0).com.st ≠ MemSt.inService)) ∧
    (rawEnd.glb.rawBusy = true ∧ rawEnd.glb.rawDone = some (3, 1, 127)) :=
  ⟨by decide +kernel,
   ⟨_, rfl, by decide +kernel⟩,
   ⟨_, rfl, by decide +kernel⟩,
   ⟨_, rfl, by decide +kernel⟩,
   by decide +kernel⟩

end RawAccesses

namespace GlasshouseDebugWindow

def ghHub : State := homeHub.modPav 0 fun v => { v with place := .ghCache }

/-- The hypotheses of each clause of `Obligations.GlasshouseDebugWindow` are met by a state above. -/
theorem test_hypotheses_met :
    ([homeHub, secHub, ghHub].all readyHub = true) ∧
    (homeHub.glb.pwr ≠ Pwr.hibernate ∧ 0 < 524288 ∧ (homeHub.pav 0).place = Place.window ∧ (sramDecode true ((homeHub.pav 0).ghLineAt (0 / 16))).cls = Cls.good) ∧
    (ghHub.glb.pwr ≠ Pwr.hibernate ∧ 0 < 524288 ∧ (ghHub.pav 0).place = Place.ghCache) ∧
    (secHub.glb.pwr ≠ Pwr.hibernate ∧ 0 < 524288 ∧ (secHub.pav 0).place = Place.sectored) ∧
    (secHub.glb.pwr ≠ Pwr.hibernate ∧ 0 < 524288 ∧ (secHub.pav 0).place ≠ Place.window) := by
  decide +kernel

end GlasshouseDebugWindow

namespace PavilionFences

def fencing (st tick : Nat) : State := homeHub.modGlb fun g => { g with fence := { running := true, pav := 3, target := 5, stage := st, tick := tick }, tickNum := 1 }

/-- The hypotheses of each clause of `Obligations.PavilionFences` are met by a state above. -/
theorem test_hypotheses_met :
    ([homeHub, (fencing 4 0), (fencing 4 1)].all readyHub = true) ∧
    (homeHub.glb.fence.running = false ∧ homeHub.isFenced (pavOf (bitsOf (1283#32) 3 0)) = false ∧ homeHub.isFenced (pavOf (bitsOf (1283#32) 11 8)) = false
      ∧ pavOf (bitsOf (1283#32) 11 8) ≠ pavOf (bitsOf (1283#32) 3 0)) ∧
    (homeHub.glb.fence.running = false ∧ homeHub.isFenced (pavOf (bitsOf (1283#32) 3 0)) = false ∧ homeHub.isFenced (pavOf (bitsOf (1283#32) 11 8)) = false
      ∧ pavOf (bitsOf (1283#32) 11 8) ≠ pavOf (bitsOf (1283#32) 3 0) ∧ (homeHub.pav (pavOf (bitsOf (1283#32) 3 0))).tagsReadable = true) ∧
    (((fencing 4 0).glb.fence.running = true ∨ (fencing 4 0).isFenced (pavOf (bitsOf (1283#32) 3 0)) = true ∨ (fencing 4 0).isFenced (pavOf (bitsOf (1283#32) 11 8)) = true ∨ pavOf (bitsOf (1283#32) 11 8) = pavOf (bitsOf (1283#32) 3 0))
      ∧ (Instr.pavilionFenceOrderly host 1283 = Instr.pavilionFenceOrderly host 1283#32 ∨ Instr.pavilionFenceOrderly host 1283 = Instr.pavilionFenceFailed host (1283#32) false ∨ Instr.pavilionFenceOrderly host 1283 = Instr.pavilionFenceFailed host (1283#32) true)) ∧
    ((fencing 4 0).glb.fence.running = true ∧ (fencing 4 0).glb.fence.stage = 4 ∧ (fencing 4 0).glb.fence.pav < 16 ∧ (fencing 4 0).glb.fence.tick < (fencing 4 0).glb.tickNum) ∧
    ((fencing 4 1).glb.fence.running = true ∧ (fencing 4 1).glb.fence.stage = 4 ∧ (fencing 4 1).glb.fence.pav < 16 ∧ (fencing 4 1).glb.tickNum ≤ (fencing 4 1).glb.fence.tick) := by
  decide +kernel

end PavilionFences

namespace PlacementChanges

def placed (pl : Place) : State := { (homeHub.modStk 0 fun k => { k with com := { k.com with st := .inService } }).modChan 0 fun ch => { ch with com := { ch.com with st := .inService } } with pavs := homeHub.pavs.map fun v => { v with place := pl } }
def allReady : State := { placed .window with chans := homeHub.chans.map fun ch => { ch with com := { ch.com with st := .inService } } }
def walking (f : Pav → Pav) : State := homeHub.modPav 0 fun v => f { v with place := .transition, from_ := .window }
def ending (k : Nat) : State := (walking fun v => { v with walkEnd := some 0 }).modGlb fun g => { g with tickNum := k, placeEng := { running := true, started := true, mode := .ghCache, mask := 0xFFFF } }
def ending2 : State := (ending 1).modPav 1 fun v => { v with place := .transition }
def fencedPav : State := homeHub.modGlb fun g => { g with fenced := 1 }
def moved0 : State := walking fun v => { v with moved := [0] }
def walked0 : State := walking fun v => { v with walkPos := 16384 }
def mapped (s : State) : State :=
  (s.modGlb fun g => { g with mapValid := true, mapRanges := [(0, 0, 1024)], pivots := [0, 1, 2, 3] }).modChan 0 fun ch => { ch with com := { ch.com with st := .inService } }
/-- The walk reaches the window line of index 0, and the channel's write queue is free or full. -/
def pushHub (full : Bool) : State := (mapped (walking fun v => v)).modChan 0 fun ch =>
  if full then { ch with wq := List.replicate 128 { ll := 9, st := {}, plot := none, at_ := 0 } } else ch
def ghWalk (pos : Nat) (f : Pav → Pav) : State := mapped (homeHub.modPav 0 fun v => f { v with place := .transition, from_ := .ghCache, walkPos := pos })
/-- Set 5 holds a dirty line in way 3. -/
def ghDirty : State := ghWalk 5 fun v => v.setGhe 5 3 { tag := 0, valid := true, dirtyA := true, dirtyB := true }
def secWalk : State := mapped (homeHub.modPav 0 fun v => { (v.setTag 5 3 { tag := 0, st := .valid, present := 3, dirty := 2 }) with place := .transition, from_ := .sectored, walkPos := 5 })

/-- The hypotheses of each clause of `Obligations.PlacementChanges` are met by a state above. -/
theorem test_hypotheses_met :
    (([(pushHub false), (pushHub true), (ghWalk 2048 id), (ghWalk 5 id), ghDirty, secWalk, allReady, (placed .ghCache), (placed .sectored), moved0, walked0, (ending 1), ending2, fencedPav, (ending 0)].all readyHub = true) ∧
     (allReady.glb.placeEng.running = false ∧ allReady.glb.mop.busy = false ∧ (∃ p : PavId, (65535#32).getLsbD ↑p = true) ∧ (∀ (p : PavId), (65535#32).getLsbD ↑p = true → allReady.isFenced p = false)
       ∧ (∀ (p : PavId), allReady.isFenced p = false → (65535#32).getLsbD ↑p = true) ∧ (∀ (p : PavId), (65535#32).getLsbD ↑p = true → (allReady.pav p).place = Place.window
       ∧ (allReady.chan p).com.st = MemSt.inService)) ∧
     ((placed Place.sectored).glb.placeEng.running = false ∧ (placed Place.sectored).glb.mop.busy = false ∧ (∃ p : PavId, (65535#32).getLsbD ↑p = true)
       ∧ (∀ (p : PavId), (65535#32).getLsbD ↑p = true → (placed Place.sectored).isFenced p = false) ∧ (∀ (p : PavId), (65535#32).getLsbD ↑p = true → ((placed Place.sectored).pav p).place = Place.sectored)) ∧
     ((placed Place.ghCache).glb.placeEng.running = false ∧ (placed Place.ghCache).glb.mop.busy = false ∧ (∃ p : PavId, (1#32).getLsbD ↑p = true) ∧ (∀ (p : PavId), (1#32).getLsbD ↑p = true → (placed Place.ghCache).isFenced p = false)
       ∧ (∀ (p : PavId), (1#32).getLsbD ↑p = true → ((placed Place.ghCache).pav p).place = Place.ghCache ∧ ((placed Place.ghCache).stk (stackOfPav p)).com.st = MemSt.inService))) ∧
    (((pushHub false).glb.placeEng.running = false ∧ (pushHub false).glb.mop.busy = false ∧ (∃ p : PavId, (65535#32).getLsbD ↑p = true) ∧ (∀ (p : PavId), (65535#32).getLsbD ↑p = true → (pushHub false).isFenced p = false)
       ∧ (∃ p : PavId, (65535#32).getLsbD ↑p = true ∧ ((pushHub false).pav p).place = Place.transition) ∧ (Instr.sectoredToGhCache host 65535 = Instr.windowToGhCache host 65535#32 ∨ Instr.sectoredToGhCache host 65535 = Instr.sectoredToGhCache host 65535#32 ∨ Instr.sectoredToGhCache host 65535 = Instr.ghCacheToSectored host 65535#32)) ∧
     ((moved0.pav 0).place = Place.transition ∧ moved0.isFenced 0 = false ∧ (moved0.pav 0).from_ = Place.window ∧ (moved0.pav 0).walkEnd = none ∧ (moved0.pav 0).halted = false
       ∧ (moved0.pav 0).walkPos < 16384 ∧ moved0.glb.noWindow = false ∧ (moved0.pav 0).walkPos ∈ (moved0.pav 0).moved)) ∧
    (∃ la ll d c, (pushHub false).windowLine 0 ((pushHub false).pav 0).walkPos = some la ∧ (pushHub false).llOf la = some ll ∧ d = sramDecode true (((pushHub false).pav 0).ghLineAt (windowIdx la))
      ∧ c = (pushHub false).chanFor la ∧ ((pushHub false).pav 0).place = Place.transition ∧ (pushHub false).isFenced 0 = false ∧ ((pushHub false).pav 0).from_ = Place.window
      ∧ ((pushHub false).pav 0).walkEnd = none ∧ ((pushHub false).pav 0).halted = false ∧ ((pushHub false).pav 0).walkPos < 16384 ∧ (pushHub false).glb.noWindow = false
      ∧ ((pushHub false).pav 0).walkPos ∉ ((pushHub false).pav 0).moved ∧ ((pushHub false).pav 0).pushq = [] ∧ d.cls = Cls.good ∧ ((pushHub false).chan c).com.st = MemSt.inService) ∧
    (((walked0.pav 0).place = Place.transition ∧ walked0.isFenced 0 = false ∧ (walked0.pav 0).from_ = Place.window ∧ (walked0.pav 0).walkEnd = none ∧ (walked0.pav 0).halted = false
       ∧ 16384 ≤ (walked0.pav 0).walkPos ∧ (walked0.pav 0).walkQuiet = true) ∧
     (((ghWalk 2048 id).pav 0).place = Place.transition ∧ (ghWalk 2048 id).isFenced 0 = false ∧ ((ghWalk 2048 id).pav 0).walkEnd = none ∧ ((ghWalk 2048 id).pav 0).halted = false
       ∧ ((ghWalk 2048 id).pav 0).from_ ≠ Place.window ∧ ((ghWalk 2048 id).pav 0).holds.sets ≤ ((ghWalk 2048 id).pav 0).walkPos ∧ ((ghWalk 2048 id).pav 0).emptied = true) ∧
     (((ghWalk 5 id).pav 0).place = Place.transition ∧ (ghWalk 5 id).isFenced 0 = false ∧ ((ghWalk 5 id).pav 0).walkEnd = none ∧ ((ghWalk 5 id).pav 0).halted = false
       ∧ ((ghWalk 5 id).pav 0).from_ = Place.ghCache ∧ ((ghWalk 5 id).pav 0).walkPos < 2048 ∧ (∀ w < 16, (((ghWalk 5 id).pav 0).ghe ((ghWalk 5 id).pav 0).walkPos w).parOk = true)
       ∧ ((ghWalk 5 id).pav 0).miss = [] ∧ ((ghWalk 5 id).pav 0).pushq = [] ∧ (∀ w < 16, (((ghWalk 5 id).pav 0).ghe ((ghWalk 5 id).pav 0).walkPos w).dirtyA = false
       ∧ (((ghWalk 5 id).pav 0).ghe ((ghWalk 5 id).pav 0).walkPos w).dirtyB = false))) ∧
    (∃ d la ll c, d = sramDecode false ((ghDirty.pav 0).ghLineAt (ghKey (ghDirty.pav 0).walkPos 3)) ∧ la = ghLine ((ghDirty.pav 0).ghe (ghDirty.pav 0).walkPos 3).tag (ghDirty.pav 0).walkPos
      ∧ ghDirty.llOf la = some ll ∧ c = ghDirty.chanFor la ∧ (ghDirty.pav 0).place = Place.transition ∧ ghDirty.isFenced 0 = false ∧ (ghDirty.pav 0).walkEnd = none
      ∧ (ghDirty.pav 0).halted = false ∧ (ghDirty.pav 0).from_ = Place.ghCache ∧ (ghDirty.pav 0).walkPos < 2048 ∧ (∀ w < 16, ((ghDirty.pav 0).ghe (ghDirty.pav 0).walkPos w).parOk = true)
      ∧ (ghDirty.pav 0).miss = [] ∧ (ghDirty.pav 0).pushq = [] ∧ 3 < 16 ∧ ((ghDirty.pav 0).ghe (ghDirty.pav 0).walkPos 3).valid = true ∧ ((ghDirty.pav 0).ghe (ghDirty.pav 0).walkPos 3).dirtyA = true
      ∧ ((ghDirty.pav 0).ghe (ghDirty.pav 0).walkPos 3).poison = false ∧ (∀ w < 16, w ≠ 3 → ((ghDirty.pav 0).ghe (ghDirty.pav 0).walkPos w).dirtyA = false
      ∧ ((ghDirty.pav 0).ghe (ghDirty.pav 0).walkPos w).dirtyB = false) ∧ d.cls = Cls.good ∧ (ghDirty.chan c).com.st = MemSt.inService ∧ ghDirty.wqTakes c = true) ∧
    (((secWalk.pav 0).place = Place.transition ∧ secWalk.isFenced 0 = false ∧ (secWalk.pav 0).walkEnd = none ∧ (secWalk.pav 0).halted = false ∧ (secWalk.pav 0).from_ = Place.sectored
       ∧ (secWalk.pav 0).walkPos < 16384 ∧ (secWalk.pav 0).still ∧ (secWalk.pav 0).stackq = [] ∧ (secWalk.pav 0).merging = [] ∧ (∀ w < 16, ((secWalk.pav 0).tag (secWalk.pav 0).walkPos w).parOk = true
       ∧ (((secWalk.pav 0).tag (secWalk.pav 0).walkPos w).st = TagSt.valid ∨ ((secWalk.pav 0).tag (secWalk.pav 0).walkPos w).st = TagSt.invalid))) ∧
     (((ending 1).pav 0).place = Place.transition ∧ ((ending 1).pav 0).walkEnd = some 0 ∧ (ending 1).isFenced 0 = false ∧ 0 < (ending 1).glb.tickNum) ∧
     (((ending 0).pav 0).place = Place.transition ∧ ((ending 0).pav 0).walkEnd = some 0 ∧ (ending 0).isFenced 0 = false ∧ (ending 0).glb.tickNum ≤ 0) ∧
     (fencedPav.isFenced 0 = true)) :=
  ⟨by decide +kernel,
   by decide +kernel,
   ⟨_, _, _, _, rfl, rfl, rfl, rfl, by decide +kernel⟩,
   by decide +kernel,
   ⟨_, _, _, _, rfl, rfl, rfl, rfl, by decide +kernel⟩,
   by decide +kernel⟩

end PlacementChanges

namespace MaintenanceOperations

def placed (pl : Place) : State := { homeHub with pavs := homeHub.pavs.map fun v => { v with place := pl } }
def mopBusy (st op : Nat) : State := (placed .sectored).modGlb fun g => { g with mop := { busy := true, op := op, scope := 3, stage := st } }
def mopEnd : State := (placed .sectored).modGlb fun g => { g with opnum := 7, mop := { busy := true, op := 2, scope := 3, stage := 1, pos := List.replicate 16 16384, errs := 1 } }
def loadHub : State := ((placed .sectored).rset R.glbHcMopSizeLo 4096).rset R.glbHcMopWays 1

/-- The hypotheses of each clause of `Obligations.MaintenanceOperations` are met by a state above. -/
theorem test_hypotheses_met :
    (([loadHub, (mopBusy 1 1), mopEnd].all readyHub = true) ∧
     (loadHub.glb.mop.busy = false ∧ loadHub.glb.placeEng.running = false ∧ (∀ (p : PavId), (loadHub.pav p).place = Place.sectored) ∧ bitsOf (201326592#32) 27 26 = 3
       ∧ (1 = 1 ∧ Instr.mopClean host 201326592 = Instr.mopClean host 201326592#32 ∨ 1 = 2 ∧ Instr.mopClean host 201326592 = Instr.mopInv host 201326592#32 ∨ 1 = 3
       ∧ Instr.mopClean host 201326592 = Instr.mopCleanInv host 201326592#32)) ∧
     (loadHub.glb.mop.busy = false ∧ loadHub.glb.placeEng.running = false ∧ (∀ (p : PavId), (loadHub.pav p).place = Place.sectored) ∧ bitsOf (201326592#32) 27 26 = 3
       ∧ loadHub.glb.hcEn = true)) ∧
    (∃ size base, size = loadHub.rf R.glbHcMopSizeHi 20 0 * 2 ^ 32 + loadHub.rf R.glbHcMopSizeLo 31 6 * 64 ∧ base = loadHub.rf R.glbHcMopBaseHi 19 0 * 2 ^ 32 + loadHub.rf R.glbHcMopBaseLo 31 6 * 64
      ∧ loadHub.glb.mop.busy = false ∧ loadHub.glb.placeEng.running = false ∧ (∀ (p : PavId), (loadHub.pav p).place = Place.sectored) ∧ bitsOf (134217728#32) 27 26 = 2
      ∧ 0 < size ∧ size % 4096 = 0 ∧ base % 4096 = 0 ∧ size ≤ 12 * 2 ^ 30 ∧ base + size ≤ 2 ^ 52 ∧ loadHub.rf R.glbHcMopWays 15 0 ≠ 0) ∧
    (((mopBusy 1 1).glb.mop.busy = true ∧ (Instr.mopClean host 201326592 = Instr.mopClean host 201326592#32 ∨ Instr.mopClean host 201326592 = Instr.mopInv host 201326592#32 ∨ Instr.mopClean host 201326592 = Instr.mopCleanInv host 201326592#32 ∨ Instr.mopClean host 201326592 = Instr.mopPreload host 201326592#32 ∨ Instr.mopClean host 201326592 = Instr.mopDisableClean host 201326592#32)) ∧
     (loadHub.glb.pwr ≠ Pwr.hibernate ∧ popcount (201326592#32 &&& 65535) ≤ 12) ∧
     ((mopBusy 1 1).glb.mop.busy = true ∧ (mopBusy 1 1).glb.mop.stage = 1 ∧ (mopBusy 1 1).isFenced 0 = false ∧ ((mopBusy 1 1).pav 0).halted = false ∧ (mopBusy 1 1).glb.mop.op = 1
       ∧ (mopBusy 1 1).glb.mop.scope = 3 ∧ (mopBusy 1 1).glb.mop.pos.length = 16 ∧ ((mopBusy 1 1).pav 0).place = Place.sectored ∧ (mopBusy 1 1).glb.mop.posOf 0 < 16384
       ∧ (∀ w < 16, ((mopBusy 1 1).pav 0).tag ((mopBusy 1 1).glb.mop.posOf 0) w = { })) ∧
     (mopEnd.glb.mop.busy = true ∧ mopEnd.glb.mop.stage = 1 ∧ (mopEnd.glb.mop.op = 1 ∨ mopEnd.glb.mop.op = 2 ∨ mopEnd.glb.mop.op = 3) ∧ mopEnd.glb.mop.disabled = false
       ∧ (∀ (p : PavId), mopEnd.isFenced p = false → (mopEnd.pav p).halted = false → mopEnd.mopWalked p = true ∧ (mopEnd.pav p).walkQuiet = true ∧ mopEnd.mopOrang p = false))) :=
  ⟨by decide +kernel,
   ⟨_, _, rfl, rfl, by decide +kernel⟩,
   by decide +kernel⟩

end MaintenanceOperations

namespace RegulationWritesWaitForTick

def fullHub : State := (homeHub.modGlb fun g => { g with deliv := 100 })

/-- The hypotheses of each clause of `Obligations.RegulationWritesWaitForTick` are met by a state above. -/
theorem test_hypotheses_met :
    ([homeHub, fullHub].all readyHub = true) ∧
    (homeHub.glb.pwr ≠ Pwr.hibernate ∧ homeHub.gbwAdmit 0 (bitsOf (0#32) 15 0) = true) ∧
    (fullHub.glb.pwr ≠ Pwr.hibernate ∧ fullHub.gbwAdmit 0 (bitsOf (91#32) 15 0) = false) ∧
    (homeHub.glb.pwr ≠ Pwr.hibernate ∧ bitsOf (0#32) 10 0 ≤ 1024 ∧ bitsOf (0#32) 26 16 ≤ bitsOf (0#32) 10 0 ∧ homeHub.minSum (0#6).toNat (bitsOf (0#32) 26 16) ≤ 1024) ∧
    (homeHub.glb.pwr ≠ Pwr.hibernate ∧ bitsOf (0#32) 18 16 ≤ 4) ∧
    (homeHub.glb.pwr ≠ Pwr.hibernate ∧ bitsOf (67109888#32) 15 8 ≤ 64 ∧ bitsOf (67109888#32) 31 24 ≤ 128 ∧ bitsOf (67109888#32) 7 0 < bitsOf (67109888#32) 15 8
      ∧ bitsOf (67109888#32) 23 16 < bitsOf (67109888#32) 31 24) := by
  decide +kernel



end RegulationWritesWaitForTick

namespace PowerEntriesAndExit

def offHub : State := inPwr .active
/-- Channel 0 and stack 0 in service, link 2 active, in a power state. -/
def pwrHub (p : Pwr) (f : Glb → Glb) : State :=
  (((homeHub.modChan 0 fun ch => { ch with com := { ch.com with st := .inService }, init := [3] }).modStk 0 fun k => { k with com := { k.com with st := .inService } }).modPav 1 fun v => { v with stale := true, place := .ghCache }).modGlb
    fun g => f { g with pwr := p }
def busyHub : State := (pwrHub .standbyEntry id).modIo 2 fun io => { io with fences := [{ num := 0, tid := 5, pa := 0, at_ := 0 }] }
def lateHub (now : Nat) : State := { pwrHub .standbyEntry id with now := now }
def cleanHub : State := (pwrHub .hibernateEntry fun g => { g with hibClean := true }).modPav 1 fun v => { v with stale := false }
def sleepHub (p : Pwr) : State := ((((pwrHub p fun g => { g with hold := true }).modChan 0 fun ch => { ch with com := { ch.com with st := .selfRefresh } }).modLink 2 fun l => { l with st := .lowpower }).rset (R.chanCfg 0) 0x80000000)
/-- Every link has been asked into LOWPOWER, or has reached it. -/
def lowAsked (st : LinkSt) : State := (pwrHub .standbyEntry fun g => { g with lowAsk := true }).modLink 2 fun l => { l with st := st }
def leaving (hib : Bool) (k : Nat) : State := { (sleepHub .exit).modGlb fun g => { g with exiting := some ({}, hib, k) } with now := 300000000000 }
def early : State := { leaving false 0 with now := 0 }
/-- Channel 0 is calibrated at the exit. -/
def calibHub (r : CalibResult) : State :=
  ((leaving false 2).modGlb fun g => { g with exiting := some (r, false, 2) }).modChan 0 fun ch => { ch with com := { ch.com with st := .training, calib := true } }

/-- The hypotheses of each clause of `Obligations.PowerEntriesAndExit` are met by a state above. -/
theorem test_hypotheses_met :
    (([base, (pwrHub .active id), (pwrHub .standbyEntry id), (pwrHub .hibernateEntry id), busyHub, (lateHub 30000000000), cleanHub, (sleepHub .standby), (sleepHub .hibernate), (lowAsked .active), (lowAsked .lowpower), (leaving false 0), (leaving false 1), (leaving true 1), (leaving false 3), (leaving true 3), (calibHub {}), (calibHub { chanOk := 0xFFFE }), early].all readyHub = true) ∧
     (base.glb.pwr = Pwr.active ∧ base.pwrBusy = false) ∧
     (base.glb.pwr = Pwr.active ∧ base.pwrBusy = false ∧ (∀ (n : PortId), (base.port n).io.enabled = false)) ∧
     ((pwrHub Pwr.standbyEntry id).glb.pwr ≠ Pwr.active ∧ (Instr.standby host = Instr.standby host ∨ Instr.standby host = Instr.hibernate host)) ∧
     ((pwrHub Pwr.standbyEntry id).drained = true ∧ (pwrHub Pwr.standbyEntry id).glb.pwr = Pwr.standbyEntry) ∧
     ((pwrHub Pwr.hibernateEntry id).drained = true ∧ (pwrHub Pwr.hibernateEntry id).glb.pwr = Pwr.hibernateEntry ∧ (pwrHub Pwr.hibernateEntry id).glb.hibClean = false) ∧
     (busyHub.drained = false) ∧
     (((lateHub 30000000000).glb.pwr = Pwr.standbyEntry ∨ (lateHub 30000000000).glb.pwr = Pwr.hibernateEntry) ∧ (lateHub 30000000000).glb.hibClean = false
       ∧ (lateHub 30000000000).glb.lowAsk = false ∧ (lateHub 30000000000).glb.pwrAt + (lateHub 30000000000).rf R.glbPwrCfg 9 0 * 1000 * ccPerUs ≤ (lateHub 30000000000).now) ∧
     (((pwrHub Pwr.standbyEntry id).glb.pwr = Pwr.standbyEntry ∨ (pwrHub Pwr.standbyEntry id).glb.pwr = Pwr.hibernateEntry) ∧ (pwrHub Pwr.standbyEntry id).glb.hibClean = false
       ∧ (pwrHub Pwr.standbyEntry id).glb.lowAsk = false ∧ (pwrHub Pwr.standbyEntry id).now < (pwrHub Pwr.standbyEntry id).glb.pwrAt + (pwrHub Pwr.standbyEntry id).rf R.glbPwrCfg 9 0 * 1000 * ccPerUs)) ∧
    ((cleanHub.glb.hibClean = true ∧ (∀ (p : PavId), cleanHub.isFenced p = false → (cleanHub.pav p).drained = true ∧ (cleanHub.pav p).orang = [] ∧ ((cleanHub.pav p).place = Place.window ∨ (cleanHub.pav p).emptied = true))
       ∧ (∀ (c : ChanId), (cleanHub.chan c).drained = true)) ∧
     (((sleepHub Pwr.standby).glb.pwr = Pwr.standby ∨ (sleepHub Pwr.standby).glb.pwr = Pwr.hibernate) ∧ (∀ (c : ChanId), ((sleepHub Pwr.standby).chan c).com.st = MemSt.selfRefresh → (sleepHub Pwr.standby).rbit (R.chanCfg ↑c) 31 = true)) ∧
     (base.glb.pwr = Pwr.active)) :=
  ⟨by decide +kernel,
   by decide +kernel⟩

/-- An entry that waits for a link and one that waits for none, and an exit before and at each of its limits. -/
theorem test_hypotheses_met_as_the_clock_runs :
    (([lowAsked .active, lowAsked .lowpower].all fun s => readyHub s && s.glb.lowAsk) = true ∧
     ((lowAsked .active).port 2).link.st = .active ∧ ((lowAsked .active).port 2).link.ctlReq = none ∧
     (∀ n : PortId, ((lowAsked .lowpower).port n).link.st ≠ .active ∧ ((lowAsked .lowpower).port n).link.st ≠ .recovery)) ∧
    (([(false, 0), (false, 1), (true, 1), (false, 3)].all fun x => readyHub (leaving x.1 x.2) && decide ((leaving x.1 x.2).glb.exiting = some ({}, x))
       && decide ((leaving x.1 x.2).glb.pwrAt + exitUs.getD x.2 0 * ccPerUs ≤ (leaving x.1 x.2).now)) = true ∧
     early.glb.exiting = some ({}, false, 0) ∧ early.now < early.glb.pwrAt + exitUs.getD 0 0 * ccPerUs ∧
     ((leaving false 0).chan 0).com.st = .selfRefresh ∧ ((leaving false 0).chan 1).com.st ≠ .selfRefresh ∧
     (leaving false 1).rbit (R.portLinkCtl (2 : PortId)) 30 = false ∧ ((leaving false 1).port 2).link.st = .lowpower ∧
     (leaving true 1).isFenced 0 = false ∧ (∀ n : PortId, ((leaving false 3).port n).io.svcLate = [])) ∧
    (([{}, { chanOk := 0xFFFE }] : List CalibResult).all fun r => readyHub (calibHub r) && decide ((calibHub r).glb.exiting = some (r, false, 2))
       && ((calibHub r).chan 0).com.calib && !((calibHub r).chan 1).com.calib && (calibHub r).rbit (R.chanCfg (0 : ChanId)) 31) = true := by
  refine ⟨?_, ?_, ?_⟩ <;> decide +kernel

end PowerEntriesAndExit

namespace ClockStopAndJunction

def gateHub : State := homeHub.rset R.glbPavGate 0x8001
/-- A gated pavilion has work. -/
def wakeHub : State := gateHub.modPav 0 fun v => { v with gated := true, orang := [{ pa := 0, line := sramEncode 1, poison := false }] }

/-- The hypotheses of each clause of `Obligations.ClockStopAndJunction` are met by a state above. -/
theorem test_hypotheses_met :
    ([homeHub, gateHub, wakeHub].all readyHub = true) ∧
    (gateHub.rbit R.glbPavGate 0 = true ∧ (gateHub.pav 0).idle = true) ∧
    ((homeHub.rbit R.glbPavGate 0 = false ∨ (homeHub.pav 0).idle = false)) := by
  decide +kernel

/-- A gated pavilion has work. -/
theorem test_hypotheses_met_as_the_clock_runs : readyHub wakeHub = true ∧ (wakeHub.pav 0).gated = true ∧ (wakeHub.pav 0).idle = false := by
  decide +kernel

end ClockStopAndJunction

namespace PortServiceCommands

def svcHub (st : LinkSt) (q : QState) (en : Bool) : State := homeHub.modPort 2 fun p => { p with link := { p.link with st := st, retry := [(3, 0)] }, io := { p.io with qst := q, enabled := en } }
def sweptHub : State := (svcHub .active .sweeping true).modIo 2 fun io => { io with swept := true }
def busyHub : State := (svcHub .active .refusing true).modPav 0 fun v => { v with tt := [(0, txn0)] }
def disabledHub : State := (svcHub .disabled .none false).rset (R.portLinkCtl 2) (setBits (homeHub.rget (R.portLinkCtl 2)) 30 30 1)

/-- The hypotheses of each clause of `Obligations.PortServiceCommands` are met by a state above. -/
theorem test_hypotheses_met :
    (([(svcHub .active .none false), (svcHub .active .none true), (svcHub .active .refusing true), sweptHub, busyHub, (svcHub .down .down false), (svcHub .detect .none false), (svcHub .disabled .none false), disabledHub].all readyHub = true) ∧
     ((svcHub LinkSt.active QState.none false).glb.pwr = Pwr.active ∧ (((svcHub LinkSt.active QState.none false).port 2).link.st = LinkSt.active ∨ ((svcHub LinkSt.active QState.none false).port 2).link.st = LinkSt.lowpower)
       ∧ ((svcHub LinkSt.active QState.none false).port 2).io.enabled = false ∧ ((svcHub LinkSt.active QState.none false).port 2).io.qst = QState.none ∧ ((svcHub LinkSt.active QState.none false).port 2).link.credRet.length = 6) ∧
     ((svcHub LinkSt.active QState.none true).glb.pwr = Pwr.active ∧ (((svcHub LinkSt.active QState.none true).port 2).io.enabled = true ∨ ((svcHub LinkSt.active QState.none true).port 2).io.qst ≠ QState.none ∨ ((svcHub LinkSt.active QState.none true).port 2).link.st = LinkSt.detect)) ∧
     ((svcHub LinkSt.active QState.none false).glb.pwr = Pwr.active ∧ ((svcHub LinkSt.active QState.none false).port 2).io.qst = QState.none) ∧
     ((svcHub LinkSt.active QState.refusing true).glb.pwr = Pwr.active ∧ ((svcHub LinkSt.active QState.refusing true).port 2).io.qst ≠ QState.none) ∧
     ((svcHub LinkSt.down QState.down false).glb.pwr = Pwr.active ∧ ((svcHub LinkSt.down QState.down false).port 2).io.qst = QState.down ∧ ((svcHub LinkSt.down QState.down false).port 2).link.st = LinkSt.down
       ∧ ((svcHub LinkSt.down QState.down false).port 2).io.sweeping = false) ∧
     ((svcHub LinkSt.active QState.none false).glb.pwr = Pwr.active ∧ ((svcHub LinkSt.active QState.none false).port 2).io.qst ≠ QState.down)) ∧
    (((svcHub LinkSt.active QState.refusing true).glb.pwr = Pwr.active ∧ ((svcHub LinkSt.active QState.refusing true).port 2).io.qst = QState.refusing ∧ (svcHub LinkSt.active QState.refusing true).portBusy 2 = false) ∧
     (busyHub.glb.pwr = Pwr.active ∧ (busyHub.port 2).io.qst = QState.refusing ∧ busyHub.portBusy 2 = true) ∧
     (sweptHub.glb.pwr = Pwr.active ∧ (sweptHub.port 2).io.qst = QState.sweeping ∧ (sweptHub.port 2).io.sweeping = false ∧ (sweptHub.port 2).io.swept = true
       ∧ (sweptHub.port 2).io.arb = [] ∧ (sweptHub.port 2).io.rdt = []) ∧
     ((svcHub LinkSt.active QState.none false).glb.pwr = Pwr.active ∧ 10 ≤ bitsOf ((svcHub LinkSt.active QState.none false).view (R.portLinkCtl 2)) 15 8
       ∧ bitsOf ((svcHub LinkSt.active QState.none false).view (R.portLinkCtl 2)) 15 8 ≤ 100 ∧ bitsOf ((svcHub LinkSt.active QState.none false).view (R.portLinkCtl 2)) 23 16 ≠ 0
       ∧ bitsOf ((svcHub LinkSt.active QState.none false).view (R.portLinkCtl 2)) 27 26 ≠ 0 ∧ bitsOf ((svcHub LinkSt.active QState.none false).view (R.portLinkCtl 2)) 29 28 ≠ 3
       ∧ ((svcHub LinkSt.active QState.none false).port 2).link.st = LinkSt.active ∧ BitVec.getLsbD ((svcHub LinkSt.active QState.none false).view (R.portLinkCtl 2)) 30 = false)) ∧
    (((svcHub LinkSt.down QState.down false).glb.pwr = Pwr.active ∧ 10 ≤ bitsOf ((svcHub LinkSt.down QState.down false).view (R.portLinkCtl 2)) 15 8 ∧ bitsOf ((svcHub LinkSt.down QState.down false).view (R.portLinkCtl 2)) 15 8 ≤ 100
       ∧ bitsOf ((svcHub LinkSt.down QState.down false).view (R.portLinkCtl 2)) 23 16 ≠ 0 ∧ bitsOf ((svcHub LinkSt.down QState.down false).view (R.portLinkCtl 2)) 27 26 ≠ 0
       ∧ bitsOf ((svcHub LinkSt.down QState.down false).view (R.portLinkCtl 2)) 29 28 ≠ 3 ∧ (((svcHub LinkSt.down QState.down false).port 2).link.st ≠ LinkSt.active
       ∧ ((svcHub LinkSt.down QState.down false).port 2).link.st ≠ LinkSt.disabled ∧ BitVec.getLsbD ((svcHub LinkSt.down QState.down false).view (R.portLinkCtl 2)) 30 = false ∨ ((svcHub LinkSt.down QState.down false).port 2).link.st = LinkSt.disabled
       ∧ BitVec.getLsbD ((svcHub LinkSt.down QState.down false).view (R.portLinkCtl 2)) 30 = true)) ∧
     ((svcHub LinkSt.detect QState.none false).glb.pwr = Pwr.active ∧ 10 ≤ bitsOf ((svcHub LinkSt.detect QState.none false).view (R.portLinkCtl 2)) 15 8
       ∧ bitsOf ((svcHub LinkSt.detect QState.none false).view (R.portLinkCtl 2)) 15 8 ≤ 100 ∧ bitsOf ((svcHub LinkSt.detect QState.none false).view (R.portLinkCtl 2)) 23 16 ≠ 0
       ∧ bitsOf ((svcHub LinkSt.detect QState.none false).view (R.portLinkCtl 2)) 27 26 ≠ 0 ∧ bitsOf ((svcHub LinkSt.detect QState.none false).view (R.portLinkCtl 2)) 29 28 ≠ 3
       ∧ ((svcHub LinkSt.detect QState.none false).port 2).link.st = LinkSt.detect)) ∧
    ((svcHub LinkSt.disabled QState.none false).glb.pwr = Pwr.active ∧ 10 ≤ bitsOf ((svcHub LinkSt.disabled QState.none false).view (R.portLinkCtl 2)) 15 8
      ∧ bitsOf ((svcHub LinkSt.disabled QState.none false).view (R.portLinkCtl 2)) 15 8 ≤ 100 ∧ bitsOf ((svcHub LinkSt.disabled QState.none false).view (R.portLinkCtl 2)) 23 16 ≠ 0
      ∧ bitsOf ((svcHub LinkSt.disabled QState.none false).view (R.portLinkCtl 2)) 27 26 ≠ 0 ∧ bitsOf ((svcHub LinkSt.disabled QState.none false).view (R.portLinkCtl 2)) 29 28 ≠ 3
      ∧ ((svcHub LinkSt.disabled QState.none false).port 2).link.st = LinkSt.disabled) :=
  ⟨by decide +kernel,
   by decide +kernel,
   by decide +kernel,
   by decide +kernel⟩

end PortServiceCommands

namespace TimeSourcesAndSetting

def bandHub (now : Nat) (f : Band → Band) : State := { homeHub.modBand f with now := now }
def lockingHub : State := bandHub t1 fun b => { b with src := 1, st := .locking, good := 3, trefOk := true }
def lostHub : State := bandHub t1 fun b => { b with src := 1, st := .holdover }
def ppsHub : State := bandHub t1 fun b => { b with src := 2, st := .locking, good := 7, ppsOk := true }
def ppsLocked : State := bandHub t1 fun b => { b with src := 2, st := .locked, ns := 999999990, ptpAt := some t1, ppsOk := true }
def ppsFar : State := bandHub t1 fun b => { b with src := 2, st := .locking, ns := 300000000, sec := 5 }
def slewHub : State := bandHub 0 fun b => { b with slewing := true, stepPend := some (1, 2) }

/-- The hypotheses of each clause of `Obligations.TimeSourcesAndSetting` are met by a state above. -/
theorem test_hypotheses_met :
    ([homeHub, lockingHub, lostHub, ppsHub, ppsLocked, ppsFar, slewHub].all readyHub = true) ∧
    (∃ (e : Int) (g : Nat), e = 10000000000 - (↑(0 * if lockingHub.rbit R.bandTimeCtl 29 = true then 400 else 1000) + 10000000000) ∧ g = (if e.natAbs ≤ 10 then lockingHub.band.good + 1 else 0)
      ∧ lockingHub.band.src = 1 ∧ e.natAbs ≤ 1000000 ∧ lockingHub.rbit R.bandTimeCtl 29 = lockingHub.band.trefFit25 ∧ (lockingHub.band.st = TimeSt.locking ∨ lockingHub.band.st = TimeSt.locked)) ∧
    ((Instr.trefLoss = Instr.trefLoss ∧ false = lockingHub.band.trefSeen ∧ 0 = lockingHub.band.err ∨ (∃ (edges : Nat) (rest : Nat), (0 : Int) = 10000000000 - (↑(edges * if lockingHub.rbit R.bandTimeCtl 29 = true then 400 else 1000) + rest)
      ∧ (1000000 < Int.natAbs 0 ∨ lockingHub.rbit R.bandTimeCtl 29 ≠ lockingHub.band.trefFit25) ∧ Instr.trefLoss = Instr.trefWindow edges rest) ∧ false = true)
      ∧ lockingHub.band.src = 1 ∧ (lockingHub.band.st = TimeSt.locking ∨ lockingHub.band.st = TimeSt.locked)) ∧
    ((lostHub.band.trefOk = false ∧ lostHub.rbit R.bandTimeCtl 29 = lostHub.band.trefFit25 ∧ lostHub.band.trefBad + 10000000 * ccPerUs ≤ lostHub.now) ∧
     ((homeHub.band.trefOk = true ∨ homeHub.rbit R.bandTimeCtl 29 ≠ homeHub.band.trefFit25 ∨ homeHub.now < homeHub.band.trefBad + 10000000 * ccPerUs)) ∧
     (homeHub.band.src ≠ 2) ∧
     (ppsHub.band.src = 2 ∧ (let t := ↑(ppsHub.band.t100 + 0) - (BitVec.ofNat 16 (ppsHub.rf R.bandPpsCfg 15 0)).toInt; t - ((t - if ppsHub.band.ptpAt.isSome = true then ppsHub.band.offset * 10 else 0) + 5000000000) / 10000000000 * 10000000000).natAbs ≤ if ppsHub.band.st = TimeSt.locked then 1000000 else 10000) ∧
     (ppsFar.band.src = 2 ∧ (if ppsFar.band.st = TimeSt.locked then 1000000 else 10000) < (let t := ↑(ppsFar.band.t100 + 0) - (BitVec.ofNat 16 (ppsFar.rf R.bandPpsCfg 15 0)).toInt; t - ((t - if ppsFar.band.ptpAt.isSome = true then ppsFar.band.offset * 10 else 0) + 5000000000) / 10000000000 * 10000000000).natAbs) ∧
     (ppsHub.band.src = 2 ∧ (ppsHub.band.st = TimeSt.locking ∨ ppsHub.band.st = TimeSt.locked) ∧ ppsHub.band.ppsAt + 1500000 * ccPerUs ≤ ppsHub.now) ∧
     (homeHub.now < homeHub.band.ppsAt + 1500000 * ccPerUs) ∧
     (homeHub.rf R.bandTimeCtl 31 30 ≠ 2 ∧ homeHub.rf R.bandTimeSetNs 29 0 ≤ 999999999 ∧ homeHub.band.stepPend = none) ∧
     (¬(slewHub.rf R.bandTimeCtl 31 30 ≠ 2 ∧ slewHub.rf R.bandTimeSetNs 29 0 ≤ 999999999 ∧ slewHub.band.stepPend = none) ∧ (Instr.step host = Instr.step host ∨ Instr.step host = Instr.slew host)) ∧
     (slewHub.band.slewing = true ∧ slewHub.band.slew = 0) ∧
     ((homeHub.band.slewing = false ∨ homeHub.band.slew ≠ 0))) :=
  ⟨by decide +kernel,
   ⟨_, _, rfl, rfl, by decide +kernel⟩,
   ⟨.inl (by decide +kernel), by decide +kernel⟩,
   by decide +kernel⟩



end TimeSourcesAndSetting

namespace PpsOutAndIeee1588

/-- A hub that runs 1588 in domain 7. -/
def ptpHub (now : Nat) (f : Band → Band) : State := { ((homeHub.modBand f).modLodge fun l => { l with plca := 3 }).rset R.bandTimeCtl 0x10070000 with now := now }
def gmHub : State := ptpHub t1 fun b => { b with src := 1, sec := 9, ns := 17 }
def follower : State := ptpHub t1 fun b => { b with src := 2, gm := some 1, gmAt := t1, ptpAt := some 0, st := .locked1588 }
def newFollower : State := ptpHub t1 fun b => { b with src := 2 }
def freshFollower : State := ptpHub t1 fun b => { b with src := 2, gm := some 1, ptpAt := some t1, delayReqDue := t1 + 1 }
def ppsOutHub (on : Bool) (now : Nat) : State := { (homeHub.modBand fun b => { b with sec := 5, ns := 1 }).modGlb (fun g => { g with ppsOut := on }) with now := now }.rset R.bandPpsCfg 0x80000000
def syncOf (c : BitVec 64) : SyncMsg := { clockId := c, domain := 7, valid := true, originNs := 100 }

/-- The hypotheses of each clause of `Obligations.PpsOutAndIeee1588` are met by a state above. -/
theorem test_hypotheses_met :
    ([homeHub, gmHub, follower, newFollower, freshFollower, (ppsOutHub false 0), (ppsOutHub true 0), (ppsOutHub true 300000000)].all readyHub = true) ∧
    (∃ k x, (k, x) = (ppsOutHub false 0).ppsScale ∧ (ppsOutHub false 0).rbit R.bandPpsCfg 31 = true ∧ (ppsOutHub false 0).glb.ppsOut = false ∧ k ≠ (ppsOutHub false 0).band.ppsSec
      ∧ x ≤ 10) ∧
    (((homeHub.rbit R.bandPpsCfg 31 = false ∨ homeHub.glb.ppsOut = true ∨ homeHub.ppsScale.1 = homeHub.band.ppsSec)) ∧
     ((ppsOutHub true 300000000).glb.ppsOut = true ∧ (ppsOutHub true 300000000).band.ppsOutAt + 100000 * ccPerUs ≤ (ppsOutHub true 300000000).now) ∧
     (homeHub.now < homeHub.band.ppsOutAt + 100000 * ccPerUs)) ∧
    (¬(homeHub.rbit R.bandTimeCtl 28 = true ∧ homeHub.lodge.plca ≠ 0) ∧ (Instr.syncSend = Instr.syncSend ∨ (∃ m, Instr.syncSend = Instr.syncReceive m) ∨ Instr.syncSend = Instr.delayReqSend ∨ (∃ r, Instr.syncSend = Instr.delayReqReceive r) ∨ ∃ c x, Instr.syncSend = Instr.delayRespReceive c x)) ∧
    ((gmHub.rbit R.bandTimeCtl 28 = true ∧ gmHub.lodge.plca ≠ 0 ∧ gmHub.band.src ≠ 2 ∧ gmHub.band.syncDue ≤ gmHub.now) ∧
     (gmHub.rbit R.bandTimeCtl 28 = true ∧ gmHub.lodge.plca ≠ 0 ∧ gmHub.band.src ≠ 2) ∧
     (follower.rbit R.bandTimeCtl 28 = true ∧ follower.lodge.plca ≠ 0 ∧ follower.band.src = 2 ∧ follower.band.delayReqDue ≤ follower.now) ∧
     (follower.rbit R.bandTimeCtl 28 = true ∧ follower.lodge.plca ≠ 0 ∧ follower.band.src = 2 ∧ follower.band.gm = some 1#64) ∧
     (follower.rbit R.bandTimeCtl 28 = true ∧ follower.lodge.plca ≠ 0 ∧ follower.band.src = 2 ∧ follower.band.gm ≠ some 2#64) ∧
     (follower.rbit R.bandTimeCtl 28 = true ∧ follower.lodge.plca ≠ 0 ∧ follower.band.src = 2 ∧ ((let __src := syncOf 1; { __src with dstMac := 0 }).dstMac ≠ 1215895175168 ∨ (let __src := syncOf 1; { __src with dstMac := 0 }).etherType ≠ 35063))) ∧
    (∃ c, follower.band.gm = some c ∧ follower.rbit R.bandTimeCtl 28 = true ∧ follower.lodge.plca ≠ 0 ∧ follower.band.src = 2 ∧ (syncOf 2).dstMac = 1215895175168
      ∧ (syncOf 2).etherType = 35063 ∧ (syncOf 2).domain = follower.rf R.bandTimeCtl 23 16 ∧ (syncOf 2).clockId ∉ follower.band.ignored ∧ c ≠ (syncOf 2).clockId
      ∧ follower.now ≤ follower.band.gmAt + 3000000 * ccPerUs) ∧
    (newFollower.rbit R.bandTimeCtl 28 = true ∧ newFollower.lodge.plca ≠ 0 ∧ newFollower.band.src = 2 ∧ (syncOf 1).dstMac = 1215895175168 ∧ (syncOf 1).etherType = 35063
      ∧ (syncOf 1).domain = newFollower.rf R.bandTimeCtl 23 16 ∧ (syncOf 1).clockId ∉ newFollower.band.ignored ∧ (newFollower.band.gm = none ∨ newFollower.band.gm = some (syncOf 1).clockId)
      ∧ (syncOf 1).valid = true ∧ newFollower.band.st ≠ TimeSt.locked1588 ∧ newFollower.band.st ≠ TimeSt.holdover) ∧
    (∃ x, follower.band.ptpAt = some x ∧ x + 3000000 * ccPerUs ≤ follower.now) ∧
    (∃ x, freshFollower.band.ptpAt = some x ∧ freshFollower.now < x + 3000000 * ccPerUs) :=
  ⟨by decide +kernel,
   ⟨_, _, rfl, by decide +kernel⟩,
   by decide +kernel,
   ⟨by decide +kernel, .inl rfl⟩,
   by decide +kernel,
   ⟨_, rfl, by decide +kernel⟩,
   by decide +kernel,
   ⟨_, rfl, by decide +kernel⟩,
   ⟨_, rfl, by decide +kernel⟩⟩



end PpsOutAndIeee1588

namespace AgeingMeasurementsAndRecords

def dayHub : State := { homeHub.modGlb fun g => { g with fenced := 8 } with now := 300000000000000 }
def eyeHub : State := dayHub.modLodge fun l => { l with nextEye := 2, dayStart := 300000000000000, ledgerPos := 32767 }
def eyeDown : State := dayHub.modLodge fun l => { l with nextEye := 95 }
def sleepHub : State := dayHub.modGlb fun g => { g with pwr := .standby }
def armedRo : State := (dayHub.modLodge fun l => { l with roArm := true }).modGlb fun g => { g with scaled := [8, 8, 8, 8] }
/-- The ICE budget of the tick holds no record. -/
def noBudget : State := dayHub.modGlb fun g => { g with scaled := [0, 0, 0, 0] }
def armedEye (st : LinkSt) : State := (armedRo.modLodge fun l => { l with roArm := false, eyeArm := true, nextEye := 2 }).modLink 2 fun l => { l with st := st }
def dueRo : State := armedRo.modLodge fun l => { l with roArm := false }
def dueEye (st : LinkSt) : State := (dueRo.modLodge fun l => { l with roAt := 400000000000000, nextEye := 2, dayStart := 300000000000000 }).modLink 2 fun l => { l with st := st }
def changed (h x : Nat) : State := { (homeHub.modIo 2 fun io => { io with eqChg := some (7, 1, h, x), eqArm := some 100 }).modGlb (fun g => { g with scaled := [8, 8, 8, 8] }) with now := 3000000100 }
/-- A change waits to be measured. -/
def waiting : State := (changed 9 0).modIo 2 fun io => { io with eqArm := none }

/-- The hypotheses of each clause of `Obligations.AgeingMeasurementsAndRecords` are met by a state above. -/
theorem test_hypotheses_met :
    (([dayHub, eyeHub, eyeDown, sleepHub, armedRo, noBudget, (armedEye .active), (armedEye .detect), dueRo, (dueEye .active), (dueEye .detect), (changed 10 200), (changed 9 200), (changed 10 0), waiting].all readyHub = true) ∧
     (List.Pairwise (fun a b => a.1 < b.1) armedRo.lodge.roD ∧ List.Pairwise (fun a b => a.1 < b.1) armedRo.lodge.roSum ∧ armedRo.clocksRun = true ∧ armedRo.fits Service.train 0
       ∧ armedRo.lodge.roArm = true ∧ armedRo.lodge.roArmAt + 65536 ≤ armedRo.now) ∧
     (¬dayHub.fits Service.train 63) ∧
     ((dayHub.clocksRun = false ∨ dayHub.lodge.roArm = false ∨ dayHub.now < dayHub.lodge.roArmAt + 65536)) ∧
     ((armedEye LinkSt.active).clocksRun = true ∧ (armedEye LinkSt.active).fits Service.train 0 ∧ (armedEye LinkSt.active).lodge.eyeArm = true ∧ (armedEye LinkSt.active).lodge.nextEye = 2
       ∧ ((armedEye LinkSt.active).port 2).link.st = LinkSt.active ∧ (armedEye LinkSt.active).marginOver 2 (armedEye LinkSt.active).lodge.eyeArmAt = true) ∧
     ((armedEye LinkSt.detect).clocksRun = true ∧ (armedEye LinkSt.detect).fits Service.train 0 ∧ (armedEye LinkSt.detect).lodge.eyeArm = true ∧ (armedEye LinkSt.detect).lodge.nextEye = 2
       ∧ ((armedEye LinkSt.detect).port 2).link.st ≠ LinkSt.active)) ∧
    (∃ n, waiting.eqDue = some n ∧ waiting.clocksRun = true ∧ waiting.fits Service.train 0) ∧
    ((dayHub.clocksRun = true ∧ dayHub.fits Service.train 0 ∧ dayHub.eqDue = none ∧ dayHub.lodge.roAt ≤ dayHub.now ∧ dayHub.lodge.roArm = false ∧ (∀ (p : PavId), dayHub.isFenced p = false → dayHub.blv.slot.find? ↑p = none
       ∧ ∀ (x : ℕ), (dayHub.pav p).lent = some x → x + 256 ≤ dayHub.now)) ∧
     ((dueEye LinkSt.active).clocksRun = true ∧ (dueEye LinkSt.active).fits Service.train 0 ∧ (dueEye LinkSt.active).eqDue = none ∧ (dueEye LinkSt.active).now < (dueEye LinkSt.active).lodge.roAt
       ∧ (dueEye LinkSt.active).lodge.eyeAt ≤ (dueEye LinkSt.active).now ∧ (dueEye LinkSt.active).lodge.eyeArm = false ∧ (dueEye LinkSt.active).lodge.nextEye = 2
       ∧ ((dueEye LinkSt.active).port 2).link.st = LinkSt.active ∧ ((dueEye LinkSt.active).port 2).link.ctlReq = none ∧ ((dueEye LinkSt.active).port 2).link.marginIn = 0) ∧
     ((dueEye LinkSt.detect).clocksRun = true ∧ (dueEye LinkSt.detect).fits Service.train 0 ∧ (dueEye LinkSt.detect).eqDue = none ∧ (dueEye LinkSt.detect).now < (dueEye LinkSt.detect).lodge.roAt
       ∧ (dueEye LinkSt.detect).lodge.eyeAt ≤ (dueEye LinkSt.detect).now ∧ (dueEye LinkSt.detect).lodge.eyeArm = false ∧ (dueEye LinkSt.detect).lodge.nextEye = 2
       ∧ ((dueEye LinkSt.detect).port 2).link.st ≠ LinkSt.active) ∧
     (dayHub.fits Service.ice 4 ∧ dayHub.lodge.dayStart + 24 * hourCc ≤ dayHub.now) ∧
     (¬noBudget.fits Service.ice 4) ∧
     (eyeHub.now < eyeHub.lodge.dayStart + 24 * hourCc) ∧
     (dayHub.fits Service.train 0 ∧ ((dayHub.port 2).io.eqChg = none ∨ (dayHub.port 2).io.eqArm = none ∨ (dayHub.port 2).link.st ≠ LinkSt.active ∨ dayHub.clocksRun = false))) ∧
    (∃ old dir h x y, ((changed 10 0).port 2).io.eqChg = some (old, dir, h, x) ∧ ((changed 10 0).port 2).io.eqArm = some y ∧ (changed 10 0).fits Service.train 0
      ∧ (changed 10 0).clocksRun = true ∧ ((changed 10 0).port 2).link.st = LinkSt.active ∧ (changed 10 0).marginOver 2 y = true ∧ x + 1000000 * ccPerUs < (changed 10 0).now) ∧
    (∃ old dir h x y, ((changed 10 200).port 2).io.eqChg = some (old, dir, h, x) ∧ ((changed 10 200).port 2).io.eqArm = some y ∧ (changed 10 200).fits Service.train 0
      ∧ (changed 10 200).clocksRun = true ∧ ((changed 10 200).port 2).link.st = LinkSt.active ∧ (changed 10 200).marginOver 2 y = true ∧ (changed 10 200).now ≤ x + 1000000 * ccPerUs) :=
  ⟨by decide +kernel,
   ⟨_, rfl, by decide +kernel⟩,
   by decide +kernel,
   ⟨_, _, _, _, _, rfl, rfl, by decide +kernel⟩,
   ⟨_, _, _, _, _, rfl, rfl, by decide +kernel⟩⟩

end AgeingMeasurementsAndRecords

namespace CountersAndGroupReads

def heldHub (i : Nat) : State := { homeHub with pairs := [(0, { hold := some (R.blvImgHi i, 0x80001234, true) })] }
/-- The increments of this cc have moved the counter. -/
def oldHub : State := homeHub.modBlv fun b => { b with cntOld := [(551, (0x1FFFFFFFF, false))] }
def grpHub (i : Nat) : State := homeHub.rset (R.blvGrpSel 0) (BitVec.ofNat 32 i)
def grpBusyHub : State := homeHub.modBlv fun b => { b with grpBusy := true, grpDue := [(5, 0, 1)] }
def grpEndHub : State := homeHub.modBlv fun b => { b with grpBusy := true }

/-- The hypotheses of each clause of `Obligations.CountersAndGroupReads` are met by a state above. -/
theorem test_hypotheses_met :
    ([homeHub, (heldHub 551), oldHub, (grpHub 551), (grpHub 552), grpBusyHub, grpEndHub].all readyHub = true) ∧
    (∃ u, u = homeHub.cntGlob 3 ∧ homeHub.glb.pwr ≠ Pwr.hibernate) ∧
    (∃ u x, u = (heldHub 551).cntGlob 3 ∧ ((heldHub 551).pairOf host.master).hold = some (R.blvImgHi 551, x, true) ∧ (heldHub 551).glb.pwr ≠ Pwr.hibernate) ∧
    (∃ u, u = homeHub.cntGlob 3 ∧ homeHub.glb.pwr ≠ Pwr.hibernate ∧ (∀ (x : W32), (homeHub.pairOf host.master).hold ≠ some (R.blvImgHi 0, x, true))) ∧
    (∃ u is, u = homeHub.cntGlob 3 ∧ is = homeHub.grpIndices (bitsOf (0#32) 2 0 + 1) ∧ homeHub.glb.pwr ≠ Pwr.hibernate ∧ homeHub.blv.grpBusy = false ∧ (∀ i ∈ is, i ≤ 551)) ∧
    (∃ u is, u = (grpHub 552).cntGlob 3 ∧ is = (grpHub 552).grpIndices (bitsOf (0#32) 2 0 + 1) ∧ (grpHub 552).glb.pwr ≠ Pwr.hibernate ∧ ((grpHub 552).blv.grpBusy = true ∨ ∃ i ∈ is, 551 < i)) ∧
    ((grpEndHub.glb.pwr ≠ Pwr.hibernate ∧ grpEndHub.blv.grpBusy = true ∧ grpEndHub.blv.grpDue = []) ∧
     (homeHub.glb.pwr ≠ Pwr.hibernate ∧ (homeHub.blv.grpBusy = false ∨ homeHub.blv.grpDue ≠ []))) :=
  ⟨by decide +kernel,
   ⟨_, rfl, by decide +kernel⟩,
   ⟨_, _, rfl, rfl, by decide +kernel⟩,
   ⟨_, rfl, by decide +kernel, fun x h => by rw [(by decide +kernel : (homeHub.pairOf host.master).hold = none)] at h; cases h⟩,
   ⟨_, _, rfl, rfl, by decide +kernel⟩,
   ⟨_, _, rfl, rfl, by decide +kernel⟩,
   by decide +kernel⟩



end CountersAndGroupReads

namespace TraceBufferCommands

def passAll (s : State) : State := s.rset R.blvTrcFilt 0xFFFF0000
def frame0 (n : Nat) (closed : Bool) : TrcFrame := { first := 0, count := n, closed := closed, sec := 0 }
def trcHub (f : Blv → Blv) : State := { (homeHub.rset R.blvTrcCtl 0x80000000).modBlv f with now := 3000000000 }.rset R.blvTrcCfg 5
def openHub : State := passAll (trcHub id)
def filled (closed : Bool) : State := trcHub fun b => { b with buf := [(0, 5), (1, 6)], wr := 2, rd := 0, frames := [frame0 2 closed] }
def poppedHub : State := (filled true).modBlv fun b => { b with pop := some (5, 0), mark := some 0 }
def stagedHub : State := passAll <| trcHub fun b => { b with staging := List.replicate 64 (0, 1) }
def dmaHub : State := (((filled true).rset R.blvTrcCfg 0x10000005).rset R.blvTrcDmaCfg 0).rset R.blvTrcDmaTail 2048
def closedHub : State := homeHub.rset R.blvTrcCtl 0

/-- The hypotheses of each clause of `Obligations.TraceBufferCommands` are met by a state above. -/
theorem test_hypotheses_met :
    (([closedHub, openHub, (filled true), (filled false), poppedHub, stagedHub, dmaHub].all readyHub = true) ∧
     (closedHub.glb.pwr ≠ Pwr.hibernate ∧ (closedHub.rbit R.blvTrcCtl 31 = false ∨ closedHub.trcPass 0 0 0 0 (1#48).toNat = false)) ∧
     (openHub.glb.pwr ≠ Pwr.hibernate ∧ openHub.rbit R.blvTrcCtl 31 = true ∧ openHub.trcPass 16 0 0 0 (1#48).toNat = true ∧ openHub.rf R.blvTrcCfg 27 24 = 0
       ∧ openHub.blv.staging.length + openHub.blv.stPop.at_ openHub.now < 64) ∧
     (stagedHub.glb.pwr ≠ Pwr.hibernate ∧ stagedHub.rbit R.blvTrcCtl 31 = true ∧ stagedHub.trcPass 16 0 0 0 (1#48).toNat = true ∧ stagedHub.rf R.blvTrcCfg 27 24 = 0
       ∧ 64 ≤ stagedHub.blv.staging.length + stagedHub.blv.stPop.at_ stagedHub.now)) ∧
    (∃ k, k = (filled true).rf R.blvTrcCfg 15 0 ∧ (filled true).glb.pwr ≠ Pwr.hibernate ∧ k ≠ 0 ∧ (filled true).blv.rd < (filled true).blv.wr ∧ (filled true).blv.idleAt + k * ccPerUs ≤ (filled true).now) ∧
    (∃ k, k = closedHub.rf R.blvTrcCfg 15 0 ∧ closedHub.glb.pwr ≠ Pwr.hibernate ∧ (k = 0 ∨ closedHub.blv.wr ≤ closedHub.blv.rd ∨ closedHub.now < closedHub.blv.idleAt + k * ccPerUs)) ∧
    (∃ u, u = (filled true).cntGlob 3 ∧ (filled true).glb.pwr ≠ Pwr.hibernate ∧ (filled true).trcDma = false ∧ (filled true).trcAvail ≠ 0) ∧
    (∃ u r, u = poppedHub.cntGlob 3 ∧ poppedHub.blv.pop = some (r, poppedHub.blv.rd) ∧ poppedHub.glb.pwr ≠ Pwr.hibernate ∧ poppedHub.trcDma = false) ∧
    (∃ u f, u = (filled true).cntGlob 3 ∧ List.find? (fun x => decide (x.first ≤ (filled true).blv.rd) && decide ((filled true).blv.rd < x.first + x.count)) (filled true).blv.frames = some f
      ∧ (filled true).glb.pwr ≠ Pwr.hibernate ∧ (filled true).trcDma = false) ∧
    (∃ u k, u = poppedHub.cntGlob 3 ∧ poppedHub.blv.mark = some k ∧ poppedHub.glb.pwr ≠ Pwr.hibernate ∧ poppedHub.trcDma = false) ∧
    (∃ u, u = closedHub.cntGlob 3 ∧ closedHub.glb.pwr ≠ Pwr.hibernate ∧ closedHub.trcDma = false ∧ closedHub.blv.mark = none) ∧
    (∃ u, u = closedHub.cntGlob 3 ∧ closedHub.glb.pwr ≠ Pwr.hibernate) ∧
    (∃ ring head free n, ring = 4096 * 2 ^ closedHub.rf R.blvTrcDmaCfg 4 0 ∧ head = closedHub.blv.head % ring ∧ free = (BitVec.toNat (closedHub.rget R.blvTrcDmaTail) % ring + 2 * ring - head - 16) % ring / 16
      ∧ n = min (min closedHub.trcAvail 16) (min ((ring - head) / 16) free) ∧ closedHub.glb.pwr ≠ Pwr.hibernate ∧ (closedHub.trcDma = false ∨ n = 0)) ∧
    (∃ ring head free n, ring = 4096 * 2 ^ dmaHub.rf R.blvTrcDmaCfg 4 0 ∧ head = dmaHub.blv.head % ring ∧ free = (BitVec.toNat (dmaHub.rget R.blvTrcDmaTail) % ring + 2 * ring - head - 16) % ring / 16
      ∧ n = min (min dmaHub.trcAvail 16) (min ((ring - head) / 16) free) ∧ dmaHub.glb.pwr ≠ Pwr.hibernate ∧ dmaHub.trcDma = true ∧ n ≠ 0) :=
  ⟨by decide +kernel,
   ⟨_, rfl, by decide +kernel⟩,
   ⟨_, rfl, by decide +kernel⟩,
   ⟨_, rfl, by decide +kernel⟩,
   ⟨_, _, rfl, rfl, by decide +kernel⟩,
   ⟨_, _, rfl, rfl, by decide +kernel⟩,
   ⟨_, _, rfl, rfl, by decide +kernel⟩,
   ⟨_, rfl, by decide +kernel⟩,
   ⟨_, rfl, by decide +kernel⟩,
   ⟨_, _, _, _, rfl, rfl, rfl, rfl, by decide +kernel⟩,
   ⟨_, _, _, _, rfl, rfl, rfl, rfl, by decide +kernel⟩⟩

end TraceBufferCommands

namespace MailboxAndCommit

def mbxDom : DomWrite := { index := 0x1F10, sub := 1, bytes := [], last := 0 }
def netDom : DomWrite := { mbxDom with bytes := [1] }
def waitHub : State := lodgeHub fun l => { l with mbxReq := some (0x00100000, 0) }
/-- A dictionary read of 0x1F10 subindex 1 waits. -/
def readWait : State := lodgeHub fun l => { l with mbxReq := some (0x001F1001, 4) }
def done3 : Commit := { bank := 0, body := [], flags := 0, seq := 1, stage := 3, pos := 64 }
def again2 : Commit := { bank := 0, body := [], flags := 0, seq := 1, stage := 2, pos := 1000000, again := true }
def first2 : Commit := { again2 with again := false }
def open1 : Commit := { again2 with pos := 0 }
def commitHub (c : Commit) : State := lodgeHub fun l => { l with commit := some c }
def justBegun : State := (commitHub { open1 with stage := 1, again := false }).modGlb fun g => { g with scaled := [8, 8, 8, 8] }
def idleHub : State := homeHub.modGlb fun g => { g with scaled := [8, 8, 8, 8] }
def idleMbx : State := (lodgeHub fun l => { l with keyFac := some 7, mbxChal := some 9 }).modGlb fun g => { g with scaled := [8, 8, 8, 8] }
def readNow : State := readWait.modGlb fun g => { g with scaled := [8, 8, 8, 8] }
def chalHub : State := lodgeHub fun l => { l with keyFac := some 7, mbxChal := some 9 }
def sessHub (now : Nat) : State := { lodgeHub fun l => { l with netLevel := 2, netSess := 5, mbxLevel := 3, dom := [(.mailbox, mbxDom), (.network, netDom)] } with now := now }
def goodImg : List Byte := let body : List Byte := []; let h : List Byte := leBytes 0x45434849 4 ++ leBytes 1 2 ++ leBytes 0 2 ++ leBytes 9 4 ++ leBytes 0 4 ++ leBytes (crc32c body).toNat 4 ++ List.replicate 40 0; h ++ leBytes (crc32c h).toNat 4
/-- A tick has passed since the commit, and the ICE service has time. -/
def writing : State := (commitHub { open1 with stage := 1, again := false }).modGlb fun g => { g with tickNum := 1, scaled := [8, 8, 8, 8] }
/-- A frame waits beside nothing, of an earlier tick or of this one. -/
def marked : State := writing.modLodge fun l => { l with ice := iceWrite l.ice (markBase 0) [1] }
def tight (s : State) : State := s.modGlb fun g => { g with scaled := [8, 8, 8, 3] }

/-- The hypotheses of each clause of `Obligations.MailboxAndCommit` are met by a state above. -/
theorem test_hypotheses_met :
    (([homeHub, waitHub, readWait, (commitHub done3), (commitHub again2), (commitHub first2), (commitHub open1), chalHub, writing, justBegun, marked, (tight (commitHub again2)), (tight idleHub), idleMbx, idleHub, readNow, (sessHub 0), (sessHub 1000000000000)].all readyHub = true) ∧
     (homeHub.lodge.mbxReq = none)) ∧
    (∃ x, waitHub.lodge.mbxReq = some x) ∧
    (∃ i w, i = Service.num Service.scrub ∧ w = homeHub.glb.used.getD i 0 + 1129138516 ∧ homeHub.glb.scaled.getD i 0 < w) ∧
    (∃ i w, i = Service.num Service.scrub ∧ w = homeHub.glb.used.getD i 0 + 0 ∧ w ≤ homeHub.glb.scaled.getD i 0 ∧ (Service.scrub = Service.scrub ∨ Service.scrub = Service.ice
      ∧ homeHub.lodge.commit = none ∨ Service.scrub = Service.dict ∧ homeHub.lodge.mbxReq = none ∧ ∀ (x : ℕ × ℕ × Frame) (rest : List (ℕ × ℕ × Frame)), homeHub.lodge.netq = x :: rest → x.1 = homeHub.glb.tickNum)) ∧
    (∃ i w cmd arg, i = Service.num Service.dict ∧ w = waitHub.glb.used.getD i 0 + 0 ∧ waitHub.lodge.mbxReq = some (cmd, arg) ∧ w ≤ waitHub.glb.scaled.getD i 0
      ∧ Service.dict = Service.dict ∧ (∀ (x : ℕ × ℕ × Frame) (rest : List (ℕ × ℕ × Frame)), waitHub.lodge.netq = x :: rest → waitHub.lodge.mbxTick ≤ x.1)
      ∧ BitVec.getLsbD cmd 30 = false ∧ bitsOf arg 8 0 ≤ 256) ∧
    (∃ i w c, i = Service.num Service.ice ∧ w = (commitHub done3).glb.used.getD i 0 + 0 ∧ (commitHub done3).lodge.commit = some c ∧ w ≤ (commitHub done3).glb.scaled.getD i 0
      ∧ Service.ice = Service.ice ∧ c.since = (commitHub done3).glb.tickNum) ∧
    (∃ i w c, i = Service.num Service.ice ∧ w = marked.glb.used.getD i 0 + 4 ∧ marked.lodge.commit = some c ∧ w ≤ marked.glb.scaled.getD i 0 ∧ Service.ice = Service.ice
      ∧ c.since ≠ marked.glb.tickNum ∧ c.stage = 1 ∧ c.pos = 0 ∧ iceRead marked.lodge.ice (markBase c.bank) 64 ≠ zeros 64 ∧ 4 ≤ 4) ∧
    (∃ i w c, i = Service.num Service.ice ∧ w = writing.glb.used.getD i 0 + 0 ∧ writing.lodge.commit = some c ∧ w ≤ writing.glb.scaled.getD i 0 ∧ Service.ice = Service.ice
      ∧ c.since ≠ writing.glb.tickNum ∧ c.stage = 1 ∧ c.pos < c.total ∧ (c.pos = 0 → iceRead writing.lodge.ice (markBase c.bank) 64 = zeros 64)) ∧
    (((Master.host = Master.lodge ∨ homeHub.privileged { master := Master.host, priv := true } = true ∧ homeHub.lodge.mbxReq = none) ∧ ¬homeHub.fits Service.dict 1129138516) ∧
     ((Master.host = Master.lodge ∨ homeHub.privileged { master := Master.host, priv := true } = true ∧ homeHub.lodge.mbxReq = none) ∧ homeHub.fits Service.dict 0
       ∧ homeHub.lodge.commit = none ∧ 1129138516 % 2 ^ 32 = 1129138516) ∧
     ((Master.host = Master.lodge ∨ homeHub.privileged { master := Master.host, priv := true } = true ∧ homeHub.lodge.mbxReq = none) ∧ homeHub.fits Service.dict 0
       ∧ (homeHub.lodge.commit ≠ none ∨ 0 % 2 ^ 32 ≠ 1129138516))) ∧
    (∃ hdr body, hdr = List.take 64 goodImg ∧ body = List.take (headerLen hdr) (List.drop 64 goodImg) ∧ homeHub.fits Service.dict 0 ∧ goodImg.length ≤ 2097152
      ∧ homeHub.lodge.commit = none ∧ 64 ≤ goodImg.length ∧ headerOk hdr = true ∧ body.length = headerLen hdr ∧ bodyOk hdr body = true) ∧
    (∃ hdr body, hdr = List.take 64 ([] : List Byte) ∧ body = List.take (headerLen hdr) (List.drop 64 ([] : List Byte)) ∧ homeHub.fits Service.dict 0 ∧ ([] : List Byte).length ≤ 2097152
      ∧ (homeHub.lodge.commit ≠ none ∨ ([] : List Byte).length < 64 ∨ headerOk hdr = false ∨ body.length ≠ headerLen hdr ∨ bodyOk hdr body = false)) ∧
    ((homeHub.lodge.commit = none ∨ ∃ c, homeHub.lodge.commit = some c ∧ c.checked = false)) ∧
    (∃ c, (commitHub done3).lodge.commit = some c ∧ c.checked = true ∧ c.stage = 3) ∧
    (∃ c, (tight (commitHub again2)).lodge.commit = some c ∧ c.checked = true ∧ c.again = true ∧ ¬(tight (commitHub again2)).fits Service.ice 4) ∧
    (∃ c, (commitHub again2).lodge.commit = some c ∧ c.checked = true ∧ c.again = true ∧ (commitHub again2).fits Service.ice 4) ∧
    (∃ c, (commitHub done3).lodge.commit = some c ∧ c.checked = true ∧ c.again = false) ∧
    (∃ k c, chalHub.lodge.keyFac = some k ∧ chalHub.lodge.mbxChal = some c ∧ chalHub.fits Service.dict 0 ∧ chalHub.lodge.mbxReq = none) ∧
    (∃ k c, ∃ bs : List Byte, chalHub.lodge.keyFac = some k ∧ chalHub.lodge.mbxChal = some c ∧ chalHub.fits Service.dict 0 ∧ chalHub.lodge.mbxReq = none
      ∧ bs.length = 16 ∧ bs ≠ leBytes (proofOf k c 3 0).toNat 16) ∧
    (((sessHub 1000000000000).lodge.netLevel ≠ 0 ∧ (sessHub 1000000000000).lodge.netLast + sessCc ≤ (sessHub 1000000000000).now) ∧
     ((sessHub 1000000000000).lodge.mbxLevel ≠ 0 ∧ (sessHub 1000000000000).lodge.mbxLast + sessCc ≤ (sessHub 1000000000000).now) ∧
     (homeHub.now < homeHub.lodge.netLast + sessCc) ∧
     (homeHub.now < homeHub.lodge.mbxLast + sessCc)) ∧
    (∃ p, p = (if false = true then Party.network else Party.mailbox) ∧ (sessHub 1000000000000).domOf p = some mbxDom ∧ mbxDom.stale = false ∧ mbxDom.last + 1000000 * ccPerUs < (sessHub 1000000000000).now) ∧
    (∃ p, p = (if false = true then Party.network else Party.mailbox) ∧ (sessHub 0).domOf p = some mbxDom ∧ mbxDom.stale = false ∧ (sessHub 0).now ≤ mbxDom.last + 1000000 * ccPerUs) :=
  ⟨by decide +kernel,
   ⟨_, rfl⟩,
   ⟨_, _, rfl, rfl, by decide +kernel⟩,
   ⟨_, _, rfl, rfl, by decide +kernel, .inl rfl⟩,
   ⟨_, _, 0x00100000, 0, rfl, rfl, by decide +kernel, by decide +kernel, rfl, fun x rest h => (by rw [(by decide +kernel : waitHub.lodge.netq = [])] at h; cases h), by decide +kernel⟩,
   ⟨_, _, _, rfl, rfl, rfl, by decide +kernel⟩,
   ⟨_, _, _, rfl, rfl, rfl, by decide +kernel⟩,
   ⟨_, _, _, rfl, rfl, rfl, by decide +kernel⟩,
   by decide +kernel,
   ⟨_, _, rfl, rfl, by decide +kernel⟩,
   ⟨_, _, rfl, rfl, by decide +kernel⟩,
   by decide +kernel,
   ⟨_, rfl, by decide +kernel⟩,
   ⟨_, rfl, by decide +kernel⟩,
   ⟨_, rfl, by decide +kernel⟩,
   ⟨_, rfl, by decide +kernel⟩,
   ⟨_, _, rfl, rfl, by decide +kernel⟩,
   (other_bytes _).elim fun bs h => ⟨_, _, bs, rfl, rfl, by decide +kernel, by decide +kernel, h⟩,
   by decide +kernel,
   ⟨_, rfl, by decide +kernel⟩,
   ⟨_, rfl, by decide +kernel⟩⟩



end MailboxAndCommit

namespace ManagementNetwork

def netHub : State := lodgeHub fun l => { l with node := 4, plca := 2, keyEng := some 7, lastXid := some 6, lastResp := [1, 2] }
def newHub : State := homeHub.modGlb fun g => { g with chainIn := true }
def chalNet (k : Nat) : State := lodgeHub fun l => { l with node := 4, plca := 2, keyEng := some 7, netChal := some (2, 5, 9), fails := k }
def openNet : State := lodgeHub fun l => { l with node := 4, plca := 2, netLevel := 2, netSess := 5, netKey := 3 }
def ackHub : State := lodgeHub fun l => { l with assign := some (4, 2, 6) }
def lockHub (now : Nat) : State := { lodgeHub fun l => { l with lockedAt := some 0, fails := 3 } with now := now }
def recHub : State := lodgeHub fun l => { l with histPos := 32767, rseq := 4294967295, evq := [{ sec := 1, ns := 2, kind := 1, inst := 3, addr := 64 }] }
def recNow : State := recHub.modGlb fun g => { g with scaled := [8, 8, 8, 8] }
/-- The oldest record came in this cc. -/
def recSame : State := recNow.modLodge fun l => { l with evq := l.evq.map fun r => { r with at_ := 100 } }
def timeHub : State := homeHub.modGlb fun g => { g with scaled := [8, 8, 8, 8] }
def noTime : State := recHub.modGlb fun g => { g with scaled := [0, 0, 0, 0] }
def evHub (t : Option Nat) : State := lodgeHub fun l => { l with plca := 2, evNew := some [1, 2, 3], evTick := t }
def fcsd (ty : Nat) (f : Frame) : Frame := { f with fcs := goodFcs f ty }
def readFrame (x : BitVec 16) : Frame := fcsd 1 { xid := x, payload := leBytes 0x1000 2 ++ [0] ++ [0] ++ leBytes 0 4 ++ leBytes 4 2 }
def writeFrame : Frame := fcsd 2 { xid := 7, payload := leBytes 0x1000 2 ++ [0] ++ [0] ++ leBytes 0 4 ++ leBytes 1 2 ++ [5] }
/-- A frame waits for the dictionary service, which has time. -/
def served (x : Nat) (f : Frame) : State := (netHub.modLodge fun l => { l with netq := [(0, x, f)] }).modGlb fun g => { g with scaled := [8, 8, 8, 8], tickNum := 3 }
def elsewhere : Frame := { dst := 9 }
def assignFrame : Frame := fcsd 0x10 { xid := 6, payload := [4, 2] }
def openFrame2 : Frame := fcsd 0x20 { xid := 6, payload := [2] }
def proveFrame (b : List Byte) : Frame := fcsd 0x22 { xid := 6, payload := b }
def zeroTag : Frame := fcsd 0x23 { sess := 5 }
def badTag : Frame := fcsd 0x23 { sess := 5, tag := 1 }
/-- A frame that closes session 5 under its TAG. -/
def goodTag : Frame := fcsd 0x23 { sess := 5, tag := BitVec.ofNat 64 (Config.cmac 3 (pduBytes 0x23 0xFE 0xFF 0 5 [])).toNat }

/-- The hypotheses of each clause of `Obligations.ManagementNetwork` are met by a state above. -/
theorem test_hypotheses_met :
    (([netHub, newHub, (chalNet 0), (chalNet 2), openNet, ackHub, (served 1 (readFrame 6)), (served 1 (readFrame 7)), (served 2 writeFrame), recNow, noTime, timeHub, (lockHub 0), (lockHub 1000000000000), recHub, recSame, (evHub none), (evHub (some 0))].all readyHub = true) ∧
     (netHub.netTakes (1, Instr.read elsewhere).1 elsewhere = false) ∧
     (netHub.netTakes 1 (readFrame 6) = true) ∧
     (netHub.netTakes 2 writeFrame = true)) ∧
    (∃ f x ty rest, (served 1 (readFrame 6)).lodge.netq = (x, ty, f) :: rest ∧ ((served 1 (readFrame 6)).lodge.mbxReq = none ∨ x < (served 1 (readFrame 6)).lodge.mbxTick)
      ∧ x ≠ (served 1 (readFrame 6)).glb.tickNum ∧ (served 1 (readFrame 6)).netTakes ty f = true ∧ f.sess = 0 ∧ (served 1 (readFrame 6)).fits Service.dict 0
      ∧ (served 1 (readFrame 6)).lodge.lastXid = some f.xid) ∧
    (∃ f x ty rest, (served 1 (readFrame 7)).lodge.netq = (x, ty, f) :: rest ∧ ((served 1 (readFrame 7)).lodge.mbxReq = none ∨ x < (served 1 (readFrame 7)).lodge.mbxTick)
      ∧ x ≠ (served 1 (readFrame 7)).glb.tickNum ∧ (served 1 (readFrame 7)).netTakes ty f = true ∧ f.sess = 0 ∧ (served 1 (readFrame 7)).fits Service.dict 0
      ∧ (served 1 (readFrame 7)).lodge.lastXid ≠ some f.xid ∧ ty = 1 ∧ f.payload.length = 10 ∧ field f.payload 8 2 ≤ 1024) ∧
    (∃ f x ty rest, (served 2 writeFrame).lodge.netq = (x, ty, f) :: rest ∧ ((served 2 writeFrame).lodge.mbxReq = none ∨ x < (served 2 writeFrame).lodge.mbxTick)
      ∧ x ≠ (served 2 writeFrame).glb.tickNum ∧ (served 2 writeFrame).netTakes ty f = true ∧ f.sess = 0 ∧ (served 2 writeFrame).fits Service.dict 0 ∧ (served 2 writeFrame).lodge.lastXid ≠ some f.xid
      ∧ ty = 2 ∧ f.payload.length = 10 + field f.payload 8 2 ∧ field f.payload 8 2 ≤ 1024) ∧
    (assignFrame.sess = 0 ∧ newHub.netTakes 16 assignFrame = true ∧ assignFrame.payload.length = 2 ∧ newHub.lodge.node = 255 ∧ newHub.lodge.assign = none
      ∧ newHub.glb.chainIn = true ∧ field assignFrame.payload 0 1 ≤ 253 ∧ 1 ≤ field assignFrame.payload 1 1 ∧ field assignFrame.payload 1 1 ≤ 16) ∧
    (∃ lv c n, openFrame2.payload = [lv] ∧ c = Config.random netHub.freeCtr ∧ n = 1 + (Config.random (netHub.freeCtr + 1)).toNat % 65535 ∧ openFrame2.sess = 0
      ∧ netHub.netTakes 32 openFrame2 = true ∧ (lv = 2 ∨ lv = 3) ∧ netHub.lodge.lockedAt = none ∧ (netHub.lodge.keyOf (BitVec.toNat lv)).isSome = true ∧ netHub.lodge.plca ≠ 0) ∧
    (∃ lv n c k, ∃ b : List Byte, (chalNet 0).lodge.netChal = some (lv, n, c) ∧ (chalNet 0).lodge.keyOf lv = some k ∧ (proveFrame b).sess = 0 ∧ (chalNet 0).netTakes 34 (proveFrame b) = true
      ∧ (proveFrame b).payload.length = 16 ∧ leBytes (proofOf k c lv n).toNat 16 = (proveFrame b).payload) ∧
    (∃ lv n c k, ∃ b : List Byte, (chalNet 0).lodge.netChal = some (lv, n, c) ∧ (chalNet 0).lodge.keyOf lv = some k ∧ (proveFrame b).sess = 0 ∧ (chalNet 0).netTakes 34 (proveFrame b) = true
      ∧ (proveFrame b).payload.length = 16 ∧ leBytes (proofOf k c lv n).toNat 16 ≠ (proveFrame b).payload) ∧
    (openNet.netTakes 35 goodTag = true ∧ goodTag.sess ≠ 0 ∧ openNet.lodge.netLevel ≠ 0 ∧ goodTag.sess.toNat = openNet.lodge.netSess ∧ leBytes goodTag.tag.toNat 8 = tagOfPdu openNet.lodge.netKey (pduBytes 35 (BitVec.toNat goodTag.src) (BitVec.toNat goodTag.dst) goodTag.xid.toNat goodTag.sess.toNat goodTag.payload)) ∧
    (netHub.netTakes 35 zeroTag = true ∧ zeroTag.sess ≠ 0 ∧ ¬(netHub.lodge.netLevel ≠ 0 ∧ zeroTag.sess.toNat = netHub.lodge.netSess ∧ leBytes zeroTag.tag.toNat 8 = tagOfPdu netHub.lodge.netKey (pduBytes 35 (BitVec.toNat zeroTag.src) (BitVec.toNat zeroTag.dst) zeroTag.xid.toNat zeroTag.sess.toNat zeroTag.payload))) ∧
    (∃ node plca xid, ackHub.lodge.assign = some (node, plca, xid) ∧ plca ≠ 0) ∧
    (∃ node plca xid, ackHub.lodge.assign = some (node, plca, xid)) ∧
    (∃ x, (lockHub 1000000000000).lodge.lockedAt = some x ∧ x + sessCc ≤ (lockHub 1000000000000).now) ∧
    (∃ x, (lockHub 0).lodge.lockedAt = some x ∧ (lockHub 0).now < x + sessCc) ∧
    ((¬noTime.fits Service.ice 4) ∧
     (netHub.fits Service.ice 4 ∧ netHub.lodge.evq = [])) ∧
    (∃ r rest, recSame.lodge.evq = r :: rest ∧ recSame.fits Service.ice 4 ∧ recSame.now ≤ r.at_) ∧
    (∃ r rest, recNow.lodge.evq = r :: rest ∧ recNow.fits Service.ice 4 ∧ r.at_ < recNow.now) ∧
    ((netHub.lodge.evNew = none) ∧
     ((evHub (some 0)).lodge.evNew ≠ none ∧ ((evHub (some 0)).lodge.evTick = some (evHub (some 0)).glb.tickNum ∨ (evHub (some 0)).lodge.plca = 0))) ∧
    (∃ bs, (evHub none).lodge.evNew = some bs ∧ (evHub none).lodge.evTick ≠ some (evHub none).glb.tickNum ∧ (evHub none).lodge.plca ≠ 0) :=
  ⟨by decide +kernel,
   ⟨_, _, _, _, rfl, by decide +kernel⟩,
   ⟨_, _, _, _, rfl, by decide +kernel⟩,
   ⟨_, _, _, _, rfl, by decide +kernel⟩,
   by decide +kernel,
   ⟨_, _, _, rfl, rfl, rfl, by decide +kernel⟩,
   ⟨2, 5, 9, 7, _, rfl, rfl, rfl, all_takes rfl rfl rfl rfl rfl (by show (leBytes _ 16).length ≤ 1040; rw [leBytes_length]; decide), leBytes_length _ 16, rfl⟩,
   (other_bytes _).elim fun b h => ⟨2, 5, 9, 7, b, rfl, rfl, rfl, all_takes rfl rfl rfl rfl rfl (by show b.length ≤ 1040; omega), h.1, h.2.symm⟩,
   ⟨all_takes (by have k : ∀ ty f, (fcsd ty f).fcs = goodFcs (fcsd ty f) ty := (fun _ _ => rfl); unfold goodTag; rw [k]) rfl rfl rfl rfl (by decide), by decide +kernel, by decide +kernel, by decide +kernel, tag_bytes _⟩,
   by decide +kernel,
   ⟨_, _, _, rfl, by decide +kernel⟩,
   ⟨_, _, _, rfl⟩,
   ⟨_, rfl, by decide +kernel⟩,
   ⟨_, rfl, by decide +kernel⟩,
   by decide +kernel,
   ⟨_, _, rfl, by decide +kernel⟩,
   ⟨_, _, rfl, by decide +kernel⟩,
   by decide +kernel,
   ⟨_, rfl, by decide +kernel⟩⟩



end ManagementNetwork

namespace RegisterAccesses

def statHub : State := (homeHub.rset R.glbAccessEvt 0xF05).rset (R.portLinkEvt 2) 0x2003
/-- The host has latched a pair's high word, and vector 5 is pending. -/
def pairHub : State := { homeHub with pairs := [(0, { latch := some (R.glbHcMopSizeHi, 77) })] }
def msixHub (now : Nat) : State := { homeHub.modGlb fun g => { g with msixEn := true, msixPend := 32, msixTable := [(23, 0)], msixLast := [(5, 0)] } with now := now }
def msixHeld : State := (msixHub 0).rset (R.glbIntRoute 0) 0
def msixNew : State := homeHub.modGlb fun g => { g with msixEn := true, msixPend := 32, msixTable := [(23, 0)] }

/-- The hypotheses of each clause of `Obligations.RegisterAccesses` are met by a state above. -/
theorem test_hypotheses_met :
    (([statHub, pairHub, (msixHub 0), (msixHub 3000000), msixNew, msixHeld].all readyHub = true) ∧
     ((0 = 0 ∨ 4 < 0 % 4 + 0) ∧ ¬(0 = 8 ∧ 0 % 8 = 0)) ∧
     (1 ≤ 1 ∧ 1 < 4 ∧ 0 % 4 + 1 ≤ 4) ∧
     (1 ≤ 5 ∧ 5 ≤ 8 ∧ 4 < 0 % 4 + 5 ∧ ¬(5 = 8 ∧ 0 % 8 = 0)) ∧
     (statHub.glb.pwr ≠ Pwr.hibernate)) ∧
    (∃ u, u = statHub.cntGlob 3 ∧ 1816 % 8 = 0 ∧ pairHalf 1816 = some Half.lo) ∧
    (∃ u v, u = pairHub.cntGlob 3 ∧ (pairHub.pairOf host.master).latch = some (1820, v) ∧ 1820 % 8 = 4 ∧ pairHalf 1820 = some Half.hi) ∧
    (∃ u, u = statHub.cntGlob 3 ∧ 1820 % 8 = 4 ∧ pairHalf 1820 = some Half.hi ∧ (∀ (v : W32), (statHub.pairOf host.master).latch ≠ some (1820, v))) ∧
    ((pairHalf 1820 = some Half.hi ∧ statHub.glb.pwr ≠ Pwr.hibernate) ∧
     ((msixHub 3000000).glb.msixPend.getLsbD 5 = true ∧ (msixHub 3000000).glb.msixEn = true ∧ (msixHub 3000000).glb.msixMask = false ∧ BitVec.getLsbD ((msixHub 3000000).msixWord (8204 + 16 * 5)) 0 = false
       ∧ (∀ (x : ℕ), (msixHub 3000000).glb.msixLast.find? 5 = some x → x + (msixHub 3000000).rf R.glbIntCtl 9 0 * ccPerUs ≤ (msixHub 3000000).now)) ∧
     (¬(statHub.glb.msixPend.getLsbD 0 = true ∧ statHub.glb.msixEn = true ∧ statHub.glb.msixMask = false ∧ BitVec.getLsbD (statHub.msixWord (8204 + 16 * 0)) 0 = false))) ∧
    (∃ x, msixHeld.glb.msixLast.find? 5 = some x ∧ msixHeld.now < x + msixHeld.rf R.glbIntCtl 9 0 * ccPerUs ∧ msixHeld.rbit (R.glbIntRoute 0) 31 = false) :=
  ⟨by decide +kernel,
   ⟨_, rfl, by decide +kernel⟩,
   ⟨_, _, rfl, rfl, by decide +kernel⟩,
   ⟨_, rfl, by decide +kernel, by decide +kernel, fun x h => by rw [(by decide +kernel : (statHub.pairOf host.master).latch = none)] at h; cases h⟩,
   by decide +kernel,
   ⟨_, rfl, by decide +kernel⟩⟩



end RegisterAccesses

namespace UnoccupiedOffsets


/-- The hypotheses of each clause of `Obligations.UnoccupiedOffsets` are met by a state above. -/
theorem test_hypotheses_met :
    ([homeHub].all readyHub = true) ∧
    (regAt 4080 = none ∧ isMsix 4080 = false ∧ isDebug 4080 = false ∧ 4080 % 4 = 0) := by
  decide +kernel

end UnoccupiedOffsets

namespace PrivilegeGuardsRegisters

def agent : Access := { master := .port 1, priv := false }

/-- The hypotheses of each clause of `Obligations.PrivilegeGuardsRegisters` are met by a state above. -/
theorem test_hypotheses_met :
    ([homeHub].all readyHub = true) ∧
    (∃ b i j r, regAt R.glbPrivCtl = some (b, i, j, r) ∧ homeHub.privileged agent = false ∧ homeHub.glb.pwr ≠ Pwr.hibernate ∧ R.glbPrivCtl % 4 = 0 ∧ (∀ f ∈ r.fields, isWritable f = true → f.priv = true)
      ∧ (∃ f ∈ r.fields, isWritable f = true) ∧ pairHalf R.glbPrivCtl ≠ some Half.hi ∧ R.glbPrivCtl ∉ [R.glbAccessEvt, R.glbAccessInfo, R.glbCfgRejectEvt, R.glbCfgRejectInfo, R.blvEvt, R.lodgeEvqStat, R.regEvt]) :=
  ⟨by decide +kernel,
   ⟨_, _, _, _, rfl, by decide +kernel⟩⟩

/-- A write of a PRIV register that runs, by a master that is not privileged. -/
theorem test_hypotheses_met_by_write :
    accessOf homeHub (.registerWrite agent R.glbPrivCtl 4 0) = some agent ∧ homeHub.privileged agent = false ∧ readyHub homeHub = true ∧
    ∃ t, exec (.registerWrite agent R.glbPrivCtl 4 0) homeHub = .next t :=
  ⟨rfl, by decide +kernel, by decide +kernel, _, rfl⟩

end PrivilegeGuardsRegisters

namespace SupplyAndReset

def trippedHub : State := homeHub.modGlb fun g => { g with tripped := true }
def lateHub : State := { homeHub.modBand fun b => { b with trefSeen := false } with now := 30000000 }
def lowHub : State := State.reset.modGlb fun g => { g with railLow := true }
def okHub : State := State.reset.modGlb fun g => { g with pwrok := true }

/-- The hypotheses of each clause of `Obligations.SupplyAndReset` are met by a state above. -/
theorem test_hypotheses_met :
    (([homeHub, lateHub].all readyHub = true) ∧
     (okHub.glb.on = false ∧ okHub.glb.tripped = false ∧ (Instr.railRecovery { chans := [] } = Instr.powerOn { chans := [] } ∧ okHub.glb.railLow = false ∨ Instr.railRecovery { chans := [] } = Instr.railRecovery { chans := [] }
       ∧ okHub.glb.pwrok = true)) ∧
     ((homeHub.glb.on = true ∨ homeHub.glb.railLow = true ∨ homeHub.glb.tripped = true)) ∧
     ((State.reset.glb.on = true ∨ State.reset.glb.pwrok = false ∨ State.reset.glb.tripped = true)) ∧
     ((false = false ∨ State.reset.glb.pwrok = false))) ∧
    (∃ u, u = (if okHub.glb.on = true then okHub else okHub.ringScan) ∧ true = true ∧ okHub.glb.pwrok = true ∧ u.lodge.evq = [] ∧ 0 < u.recordsPerMs) ∧
    ((lateHub.band.trefSeen = false ∧ 10000 * ccPerUs ≤ lateHub.now) ∧
     ((homeHub.band.trefSeen = true ∨ homeHub.now < 10000 * ccPerUs))) ∧
    (State.reset.alive = false ∧ (∀ (e : PowerEnv), Instr.applyWindow ≠ Instr.powerOn e ∧ Instr.applyWindow ≠ Instr.railRecovery e) ∧ Instr.applyWindow ≠ Instr.powerFail
      ∧ (∀ (r : Rail) (h : Bool), Instr.applyWindow ≠ Instr.undervoltage r h)) :=
  ⟨by decide +kernel,
   ⟨_, rfl, by decide +kernel⟩,
   by decide +kernel,
   ⟨by decide +kernel, fun _ => ⟨nofun, nofun⟩, nofun, fun _ _ => nofun⟩⟩



end SupplyAndReset

namespace ApplyWindowAtTheTick

def tickHub : State := { ((homeHub.modBlv fun b => { b with armed := true }).modBand fun b => { b with stepPend := some (5, 6) }).modPav 3 fun v => { v with gated := true } with pend := [(R.regPlotGbw 0, 7), (R.regPlotGbw 63, 9)] }.rset (R.portTimeCtl 2) 0x80000000

/-- The hypotheses of each clause of `Obligations.ApplyWindowAtTheTick` are met by a state above. -/
theorem test_hypotheses_met :
    ([homeHub, tickHub].all readyHub = true) := by
  decide +kernel

end ApplyWindowAtTheTick

namespace DefaultHashFoldsNibbles

/-- The first and the last mask are in range. -/
theorem test_hypotheses_met : (0 < 16 ∧ regReset (R.glbIlFold 0) = 0x3FF) ∧ (15 < 16 ∧ regReset (R.glbIlFold 15) = 0x3FF) := by decide +kernel

end DefaultHashFoldsNibbles

namespace CommandsRunFromTheFront

/-- Nothing waits in the hub out of reset. -/
theorem test_hypotheses_met : base.pending = [] := rfl

end CommandsRunFromTheFront

namespace CommandsTouchOnlyTheirParts

/-- Commands of several families run. -/
theorem test_hypotheses_met :
    (∃ t, exec (.receiverDetect 2 3) base = .next t) ∧ (∃ t, exec (.mark { master := .host, priv := true }) base = .next t) ∧
    ∃ t, exec .applyWindow base = .next t :=
  ⟨⟨_, rfl⟩, ⟨_, rfl⟩, _, rfl⟩

end CommandsTouchOnlyTheirParts

namespace EveryStepKeepsCanonicalStores

def busyHub : State :=
  (((homeHub.modPav 0 fun v => { v with tags := [(3, { st := .valid, tag := 5 })], tt := [(0, txn0), (9, txn0)] }).rset 0x20 7).modChan 3 fun c =>
    { c with dram := [(4, { data := 1 })] })
/-- A state whose stores hold something, and which no run need reach, is canonical and has a legal timebase. -/
theorem test_hypotheses_met : busyHub.canon ∧ busyHub.band.legal :=
  have h : readyHub busyHub = true := by decide +kernel
  ⟨(readyHub_sound h).2.2.2.1, (readyHub_sound h).2.2.2.2⟩

end EveryStepKeepsCanonicalStores

/-! ## Well-formedness -/

/-- A frame longer than a length field allows. -/
def longFrame : Frame := { payload := List.replicate 1501 0 }
def shortEye : EyeResult := { h := [], v := [] }
/-- One ill-formed command for each check, which the check refuses. -/
theorem test_ill_formed_refused :
    ([.powerOn { chans := [] }, .railRecovery { chans := [] }, .lodgeServiceStep .train 0, .registerWrite host 0x4000000 1 0, 
      .registerWrite host 0 9 0, .registerWrite host 0 0 0, .statusClear host 2 0, .pairLoRead host ⟨0x4000000, 4⟩, 
      .pairHiRead host ⟨4, 0⟩, .pairHiWrite host 3 0, .glasshouseDebugRead host ⟨0x3FFFFFE, 3⟩, 
      .glasshouseDebugWrite host 0x4000000 0, .rds 2 (msg 0 5 0), .rdo 2 (msg 0 5 0), .upg 2 (msg 0 5 0), 
      .rdonce 2 (msg 0 5 0), .wrline 2 (msg 0 5 0), .wrpart 2 (msg 0 5 0), .wrstash 2 (msg 0 5 0), .cclean 2 (msg 0 5 0), 
      .cinv 2 (msg 0 5 0), .ccleaninv 2 (msg 0 5 0), .fence 2 (msg 0 5 0), .done 2 (msg 0 5 0), .invack 2 (msg 0 5 0), 
      .fwdack 2 (msg 0 5 0), .rspcrossed 2 (msg 0 5 0), .stashacc 2 (msg 0 5 0), .stashdecl 2 (msg 0 5 0), 
      .ioack 2 (msg 0 5 0), .datas 2 (msg 0 5 0), .datam 2 (msg 0 5 0), .wbd 2 (msg 0 5 0), .evc 2 (msg 0 5 0), 
      .recalld 2 (msg 0 5 0), .fwdackd 2 (msg 0 5 0), .iodat 2 (msg 0 5 0), .iowr 2 (msg 0 5 0), .iord 2 (msg 0 5 0), 
      .read longFrame, .write longFrame, .assign longFrame, .sessOpen longFrame, .sessProve longFrame, .sessClose longFrame, 
      .ppsInEdge 4, .parkedRetry 0 4096, .commit .host ⟨2 ^ 32, 1⟩, .ringOscillatorMeasure ⟨[], 1⟩, 
      .portMarginMeasure 2 ⟨shortEye, 1⟩, .eqChangeCheck 2 ⟨shortEye, 1⟩, .traceRecord 96 0 0 0 0 0, 
      .traceRecord 0 0 128 0 0 0, .traceRecord 0 0 0 64 0 0] : List Instr).all (fun i => !i.wf) = true := by
  decide +kernel
/-- Commands with operands in place pass. -/
theorem test_well_formed_passes :
    ([.rds 2 (msg 1 5 0), .registerWrite host 0x3FFFFF8 8 0, .ppsInEdge 3, .lodgeServiceStep .dict 1, .standby host] : List Instr).all
      Instr.wf = true := by decide +kernel

/-! ## Worked examples of the spec -/

/-- R29: PA 0x0003_7A2C_5A40 has h = 5, home pavilion 5 in stack 2, channel 5, set 0x22C5, tag 0xDE and sub-block 41. -/
theorem test_interleave_example :
    let la : LineAddr := 0x00037A2C5A40 / 64
    base.hash la = 5 ∧ base.home la = 5 ∧ stackOfPav 5 = 2 ∧ base.chanFor la = 5 ∧ setOf la = 0x22C5 ∧ tagOf la = 0xDE ∧ subOf la = 41 := by
  decide +kernel
/-- R235: PA 0x0000_0034_5A80 has its home in pavilion 2 and the Glasshouse index 0x0D2A, which BAR0 shows at 0x0243_4A80. -/
theorem test_window_example :
    let la : LineAddr := 0x345A80 / 64
    base.home la = 2 ∧ windowIdx la = 0x0D2A ∧ 0x2000000 + 0x200000 * 2 + windowIdx la * 64 = 0x2434A80 := by
  decide +kernel
/-- R69: the CRC of the ASCII bytes 123456789. -/
theorem test_crc_example : crc32c [0x31, 0x32, 0x33, 0x34, 0x35, 0x36, 0x37, 0x38, 0x39] = 0xE3069283 := by decide +kernel
/-- R523: LINK_EVT of port 71 is at 0x0031_C00C and its group is 60. -/
theorem test_port_71 : R.portLinkEvt 71 = 0x31C00C ∧ 52 + 71 / 8 = 60 := by decide +kernel
/-- LINK_EVT of port 71 as the example's step 6 reads it. -/
def buttonHub : State := homeHub.rset (R.portLinkEvt 71) 0x1418
/-- What a command leaves in a register. -/
def after (i : Instr) (off : Nat) (s : State) : Option W32 :=
  match exec i s with
  | .next t => some (t.rget off)
  | _ => none
/-- R523, steps 4 and 7: a write with an older sequence clears nothing, one that matches clears the bits it names. -/
theorem test_status_clear_example :
    after (.statusClear host (R.portLinkEvt 71) 0x1017) (R.portLinkEvt 71) buttonHub = some 0x1418
      ∧ after (.statusClear host (R.portLinkEvt 71) 0x1418) (R.portLinkEvt 71) buttonHub = some 0x18 := by
  decide +kernel

end Sys2Proof.Tests
end

/-!
SUPPORT. The hub as reset leaves it: what its parts read as, and that its stores are canonical and its timebase legal.
-/

namespace Sys2Proof.Machine

/-! ## The parts of the reset state -/

@[simp] theorem State.reset_port (n : PortId) : State.reset.port n = {} := Vector.getElem_replicate n.isLt
@[simp] theorem State.reset_pav (p : PavId) : State.reset.pav p = {} := Vector.getElem_replicate p.isLt
@[simp] theorem State.reset_chan (c : ChanId) : State.reset.chan c = {} := Vector.getElem_replicate c.isLt

/-- With no register listed, each reads as its reset value (R15). -/
@[simp] theorem State.reset_rget (off : Nat) : State.reset.rget off = regReset off := by
  have unlisted : FMap.find? State.reset.csr off = none := FMap.find_nil off
  simp only [State.rget, FMap.get, unlisted, Option.getD_none]

/-! ## Canonical stores and a legal timebase -/

theorem rising_nil {α : Type} : rising ([] : FMap α) := List.Pairwise.nil

theorem Pav.canon_default : ({} : Pav).canon :=
  ⟨FMap.wf_nil, FMap.wf_nil, FMap.wf_nil, FMap.wf_nil, FMap.wf_nil, FMap.wf_nil, FMap.wf_nil, rising_nil, rising_nil⟩

theorem Chan.canon_default : ({} : Chan).canon := FMap.wf_nil

theorem State.reset_canon : State.reset.canon :=
  ⟨FMap.wf_nil, rising_nil, FMap.wf_nil, fun p => State.reset_pav p ▸ Pav.canon_default,
    fun c => State.reset_chan c ▸ Chan.canon_default, FMap.wf_nil, FMap.wf_nil⟩

/-- The timebase stands at a whole second (R477), and no STEP is pending (R484). -/
theorem State.reset_band_legal : State.reset.band.legal := by
  have noStep : State.reset.band.stepPend = none := rfl
  exact ⟨by decide, by decide, by simp [noStep]⟩

/-- Settles O58. Which value a register holds before PWROK, and that the Icehouse is blank, are log entries 3, 150 and 189. -/
theorem resetHoldsResetValues : Obligations.ResetHoldsResetValues := by
  have chansEmpty (c : ChanId) : (State.reset.chan c).dram = [] ∧ (State.reset.chan c).com.st = .off := by
    rw [State.reset_chan]; exact ⟨rfl, rfl⟩
  have portsOff (n : PortId) : (State.reset.port n).io.enabled = false := by
    rw [State.reset_port]
  have hostPrivileged : regReset R.glbPrivCtl = 1 := by decide
  exact ⟨rfl, rfl, State.reset_canon, State.reset_band_legal, State.reset_rget, rfl, rfl, chansEmpty, portsOff, hostPrivileged⟩

end Sys2Proof.Machine

namespace Sys2Proof.Machine

/-! ## Bit fields -/

/-- Bit i of a word after a field has been written. -/
theorem getLsbD_setBits {w : Nat} (x : BitVec w) (hi lo v i : Nat) (hw : i < w) (le : lo ≤ hi) :
    (setBits x hi lo v).getLsbD i = if lo ≤ i ∧ i ≤ hi then v.testBit (i - lo) else x.getLsbD i := by
  simp only [setBits, BitVec.getLsbD_or, BitVec.getLsbD_and, BitVec.getLsbD_not, BitVec.getLsbD_ofNat, Nat.testBit_shiftLeft,
    Nat.testBit_two_pow_sub_one, hw, decide_true, Bool.true_and]
  by_cases a : lo ≤ i <;> by_cases b : i ≤ hi
  · have : i - lo < hi + 1 - lo := by omega
    simp [a, b, this]
  · have : ¬ (i - lo < hi + 1 - lo) := by omega
    simp [a, b, this]
  · simp [a]
  · simp [a]

/-- Bit i of a field read out of a word. -/
theorem testBit_bitsOf {w : Nat} (x : BitVec w) (hi lo i : Nat) :
    (bitsOf x hi lo).testBit i = (decide (i < hi + 1 - lo) && x.getLsbD (lo + i)) := by
  simp [bitsOf, natBits, Nat.testBit_mod_two_pow, Nat.testBit_shiftRight, BitVec.getLsbD]

/-- A field that has been written reads as the value, modulo its width. -/
theorem bitsOf_setBits_same {w : Nat} (x : BitVec w) (hi lo v : Nat) (le : lo ≤ hi) (hw : hi < w) :
    bitsOf (setBits x hi lo v) hi lo = v % 2 ^ (hi + 1 - lo) := by
  refine Nat.eq_of_testBit_eq fun i => ?_
  rw [testBit_bitsOf, Nat.testBit_mod_two_pow]
  by_cases h : i < hi + 1 - lo
  · rw [getLsbD_setBits x hi lo v _ (by omega) le, if_pos ⟨by omega, by omega⟩, Nat.add_sub_cancel_left]
  · simp [h]

/-- An event sets its bit (R515). -/
theorem getLsbD_eventWord (v : W32) (bit : Nat) (lo : 8 ≤ bit) (hi : bit < 32) : (eventWord v bit).getLsbD bit = true := by
  rw [eventWord, getLsbD_setBits _ _ _ _ _ hi (by omega), if_neg (by omega), getLsbD_setBits _ _ _ _ _ hi (by omega), if_pos (by omega)]
  simp

/-- An event clears no other event's bit (R515). -/
theorem getLsbD_eventWord_mono (v : W32) (bit i : Nat) (lo : 8 ≤ i) (hi : i < 32) (h : v.getLsbD i = true) : (eventWord v bit).getLsbD i = true := by
  rw [eventWord, getLsbD_setBits _ _ _ _ _ hi (by omega), if_neg (by omega), getLsbD_setBits _ _ _ _ _ hi (by omega)]
  split
  · simp [show i = bit by omega]
  · exact h
end Sys2Proof.Machine

namespace Sys2Proof.Machine

/-! ## What a frame says of each part -/

section
variable {ps : List Part} {s t : State}

theorem OnlyParts.trans {u : State} (h : OnlyParts ps s t) (k : OnlyParts ps t u) : OnlyParts ps s u := fun p hp => Part.same_trans (h p hp) (k p hp)
theorem OnlyParts.refl (s : State) : OnlyParts ps s s := fun p _ => p.same_refl s
theorem OnlyParts.mono {qs : List Part} (h : OnlyParts ps s t) (le : ps ⊆ qs) : OnlyParts qs s t := fun p hp => h p fun hq => hp (le hq)
theorem OnlyParts.now_eq (h : OnlyParts ps s t) (hp : Part.now ∉ ps := by decide) : t.now = s.now := h .now hp
theorem OnlyParts.glb_eq (h : OnlyParts ps s t) (hp : Part.glb ∉ ps := by decide) : t.glb = s.glb := h .glb hp
theorem OnlyParts.lodge_eq (h : OnlyParts ps s t) (hp : Part.lodge ∉ ps := by decide) : t.lodge = s.lodge := h .lodge hp
theorem OnlyParts.band_eq (h : OnlyParts ps s t) (hp : Part.band ∉ ps := by decide) : t.band = s.band := h .band hp
theorem OnlyParts.blv_eq (h : OnlyParts ps s t) (hp : Part.blv ∉ ps := by decide) : t.blv = s.blv := h .blv hp
theorem OnlyParts.outs_eq (h : OnlyParts ps s t) (hp : Part.outs ∉ ps := by decide) : t.outs = s.outs := h .outs hp
theorem OnlyParts.port_eq (h : OnlyParts ps s t) (n : PortId) (hp : Part.ports ∉ ps := by decide) : t.port n = s.port n := congrArg (·[n]) (h .ports hp)
theorem OnlyParts.pav_eq (h : OnlyParts ps s t) (p : PavId) (hp : Part.pavs ∉ ps := by decide) : t.pav p = s.pav p := congrArg (·[p]) (h .pavs hp)
theorem OnlyParts.chan_eq (h : OnlyParts ps s t) (c : ChanId) (hp : Part.chans ∉ ps := by decide) : t.chan c = s.chan c := congrArg (·[c]) (h .chans hp)
theorem OnlyParts.stk_eq (h : OnlyParts ps s t) (k : StackId) (hp : Part.stks ∉ ps := by decide) : t.stk k = s.stk k := congrArg (·[k]) (h .stks hp)
theorem OnlyParts.rget_eq (h : OnlyParts ps s t) (o : Nat) (hp : Part.csr ∉ ps := by decide) : t.rget o = s.rget o := congrArg (FMap.get regReset · o) (h .csr hp).1
end

/-! ## Operations that only report

Counting, tracing, events and their records change registers, what is pending as an interrupt, and the parts they are kept in. -/

/-- An operation that reports: it changes the listed parts, of the registers only the listed ones, of the global state only what
is pending as an interrupt, and takes no bit as written by software. -/
structure Logs (ps : List Part) (offs : List Nat) (s t : State) : Prop where
  tame : Tame ps s t
  regs : s.regsOk → OnlyRegs offs s t
  glb : t.glb = { s.glb with msixPend := t.glb.msixPend, fatalNew := t.glb.fatalNew }
  swBits : t.swBits = s.swBits

section
variable {ps qs : List Part} {os us : List Nat} {s t u : State}

theorem Logs.refl : Logs ps os s s := ⟨.refl, fun _ _ _ => rfl, rfl, rfl⟩
theorem Logs.trans (h : Logs ps os s t) (k : Logs ps os t u) : Logs ps os s u :=
  ⟨h.tame.trans k.tame, fun ok o ho => (k.regs (h.tame.regs ok) o ho).trans (h.regs ok o ho), by rw [k.glb, h.glb], k.swBits.trans h.swBits⟩
theorem Logs.mono (h : Logs ps os s t) (lp : ps ⊆ qs) (lo : os ⊆ us) : Logs qs us s t :=
  ⟨h.tame.mono lp, fun ok o ho => h.regs ok o fun x => ho (lo x), h.glb, h.swBits⟩
theorem Logs.ite {c : Prop} [Decidable c] (h : c → Logs ps os s t) (k : ¬c → Logs ps os s u) : Logs ps os s (if c then t else u) := by
  by_cases x : c
  · rw [if_pos x]; exact h x
  · rw [if_neg x]; exact k x
theorem Logs.foldl {β : Type} (f : State → β → State) (h : ∀ s x, Logs ps os s (f s x)) (xs : List β) : Logs ps os s (xs.foldl f s) := by
  induction xs generalizing s with
  | nil => exact .refl
  | cons x _ ih => exact (h s x).trans ih
theorem Logs.rget (h : Logs ps os s t) (ok : s.regsOk) {o : Nat} (ho : o ∉ os) : t.rget o = s.rget o := h.regs ok o ho
theorem Logs.regsOk (h : Logs ps os s t) (ok : s.regsOk) : t.regsOk := h.tame.regs ok
theorem Logs.only (h : Logs ps os s t) : OnlyParts ps s t := h.tame.only
/-- A change that reaches neither the registers nor the global state. -/
theorem Logs.of_tame (h : Tame ps s t) (hc : Part.csr ∉ ps := by decide) (hg : Part.glb ∉ ps := by decide) : Logs ps os s t :=
  have same : t.glb = s.glb := h.only.glb_eq hg
  ⟨h, fun _ o _ => h.only.rget_eq o hc, by rw [same], (h.only .csr hc).2.2.1⟩

variable (s)

theorem rset_logs (off : Nat) (v : W32) : Logs [.csr] [off] s (s.rset off v) :=
  ⟨rset_tame s off v, fun ok o ho => State.rget_rset_other v ok (by simpa using ho), rfl, rfl⟩
theorem hwSet_logs (off : Nat) (v : W32) : Logs [.csr] [off] s (s.hwSet off v) := by
  refine ⟨hwSet_tame s off v, fun ok o ho => ?_, ?_, ?_⟩
  · unfold State.rget; rw [hwSet_csr]; exact FMap.get_put_other v ok (by simpa using ho)
  all_goals unfold State.hwSet; dsimp only; split <;> rfl
theorem groupEvent_logs (g : Nat) : Logs [.glb] os s (s.groupEvent g) := by
  refine ⟨groupEvent_tame s g, fun _ o _ => by unfold State.rget; rw [groupEvent_csr], ?_, ?_⟩ <;> unfold State.groupEvent <;> split <;> rfl
theorem raise_logs (off bit : Nat) : Logs [.csr, .glb] [off] s (s.raise off bit) := by
  have h := (hwSet_logs s off (eventWord (s.uncleared off) bit)).mono (qs := [.csr, .glb]) (us := [off]) (by simp) (by simp)
  unfold State.raise
  split
  · exact h
  · exact h.trans ((groupEvent_logs _ _).mono (by simp) (List.Subset.refl _))
theorem rcount_logs (off hi lo n : Nat) : Logs [.csr] [off] s (s.rcount off hi lo n) := .ite (fun _ => .refl) fun _ => rset_logs s off _
theorem modBlv_logs (f : Blv → Blv) : Logs [.blv] os s (s.modBlv f) := .of_tame (modBlv_tame s f)
theorem modLodge_logs (f : Lodge → Lodge) : Logs [.lodge] os s (s.modLodge f) := .of_tame (modLodge_tame s f)

theorem emit_tame (o : Out) : Tame [.outs] s (s.emit o) := ⟨fun p hp => by cases p <;> simp_all [Part.same], id⟩
theorem modPairs_tame (f : FMap PairRegs → FMap PairRegs) : Tame [.pairs] s (s.modPairs f) := ⟨fun p hp => by cases p <;> simp_all [Part.same], id⟩

/-! ### Counters (R535 to R540) and traced occurrences (R550) -/

theorem cntRaw_logs (i n : Nat) : Logs [.csr, .glb, .blv] [R.blvEvt] s (s.cntRaw i n) := by
  have h (f : Blv → Blv) : Logs [.csr, .glb, .blv] [R.blvEvt] s (s.modBlv f) := (modBlv_logs s f).mono (us := [R.blvEvt]) (by simp) (List.Subset.refl _)
  unfold State.cntRaw
  split
  · exact .refl
  split
  · exact .ite (fun _ => (h _).trans ((raise_logs _ _ _).mono (by simp) (by simp))) fun _ => h _
  · exact .refl

theorem cntAdd_logs (i n : Nat) : Logs [.csr, .glb, .blv] [R.blvEvt] s (s.cntAdd i n) := by
  have h := cntRaw_logs s i n
  unfold State.cntAdd
  split
  · exact .refl
  split
  · exact .ite (fun _ => h) fun _ => h.trans (.foldl _ (fun s _ => .ite (fun _ => cntRaw_logs s _ _) fun _ => .refl) _)
  · exact h

theorem cntEv_logs (sel base k code : Nat) (plot : Option PlotId) (n : Nat) : Logs [.csr, .glb, .blv] [R.blvEvt] s (s.cntEv sel base k code plot n) :=
  .ite (fun _ => .refl) fun _ => .foldl _ (fun s _ => .ite (fun _ => cntAdd_logs s _ _) fun _ => .refl) _
theorem cntPort_logs (p : PortId) (code : Nat) (plot : Option PlotId) (n : Nat) : Logs [.csr, .glb, .blv] [R.blvEvt] s (s.cntPort p code plot n) :=
  .ite (fun _ => .refl) fun _ => .foldl _ (fun s _ => .ite (fun _ => cntAdd_logs s _ _) fun _ => .refl) _
theorem cntPav_logs (p : PavId) (code : Nat) (plot : Option PlotId) (n : Nat) : Logs [.csr, .glb, .blv] [R.blvEvt] s (s.cntPav p code plot n) :=
  cntEv_logs s _ _ _ _ _ _
theorem cntChan_logs (c : ChanId) (code : Nat) (plot : Option PlotId) (n : Nat) : Logs [.csr, .glb, .blv] [R.blvEvt] s (s.cntChan c code plot n) :=
  cntEv_logs s _ _ _ _ _ _
theorem cntGlob_logs (code n : Nat) (plot : Option PlotId) : Logs [.csr, .glb, .blv] [R.blvEvt] s (s.cntGlob code n plot) :=
  .ite (fun _ => .refl) fun _ => cntEv_logs s _ _ _ _ _ _
theorem occur_logs (o : TrcOcc) : Logs [.blv] os s (s.occur o) := .of_tame (occur_tame s o)

/-! ### Event records, rejections and guard events (R471, R518, R528) -/

theorem evPush_logs (r : EvRec) : Logs [.csr, .glb, .blv, .lodge] [R.blvEvt, R.lodgeEvqStat] s (s.evPush r) :=
  ((cntGlob_logs s 5 1 none).mono (by simp) (by simp)).trans
    (.ite (fun _ => ((modLodge_logs _ _).mono (by simp) (List.Subset.refl _)).trans ((occur_logs _ _).mono (by simp) (List.Subset.refl _)))
      fun _ => ((hwSet_logs _ _ _).mono (by simp) (by simp)).trans
        (((rcount_logs _ _ _ _ _).mono (by simp) (by simp)).trans ((groupEvent_logs _ _).mono (by simp) (List.Subset.refl _))))
theorem event_logs (k : EvKind) (inst addr cls dev detail : Nat) (st : Store) :
    Logs [.csr, .glb, .blv, .lodge] [R.blvEvt, R.lodgeEvqStat] s (s.event k inst addr cls dev detail st) := evPush_logs s _
theorem fatal_logs (bit : Nat) : Logs [.csr, .glb, .blv, .lodge] [R.blvEvt, R.lodgeEvqStat, R.glbFatalStat] s (s.fatal bit) := by
  have flag (s : State) : Logs [.csr, .glb, .blv, .lodge] [R.blvEvt, R.lodgeEvqStat, R.glbFatalStat] s (s.modGlb fun g => { g with fatalNew := true }) :=
    ⟨(modGlb_tame s _).mono (by simp), fun _ _ _ => rfl, rfl, rfl⟩
  exact ((raise_logs s _ _).mono (by simp) (by simp)).trans ((flag _).trans ((event_logs _ _ _ _ _ _ _ _).mono (by simp) (by simp)))
theorem cfgReject_logs (off bit : Nat) (r : Reason) :
    Logs [.csr, .glb, .blv, .lodge] [R.blvEvt, R.lodgeEvqStat, R.glbCfgRejectEvt, R.glbCfgRejectInfo] s (s.cfgReject off bit r) :=
  ((rset_logs s _ _).mono (by simp) (by simp)).trans (((raise_logs _ _ _).mono (by simp) (by simp)).trans ((event_logs _ _ _ _ _ _ _ _).mono (by simp) (by simp)))
end

/-! ### The bits that reports leave -/

section
variable {ps : List Part} {os : List Nat} {s t : State}

theorem raise_bit (off bit : Nat) (ok : s.regsOk) (lo : 8 ≤ bit) (hi : bit < 32) : ((s.raise off bit).rget off).getLsbD bit = true := by
  rw [raise_raised off bit ok]; exact getLsbD_eventWord _ _ lo hi

/-- A rejection is reported in CFG_REJECT_EVT (R518, R529). -/
theorem cfgReject_bit (off bit : Nat) (r : Reason) (ok : s.regsOk) : ((s.cfgReject off bit r).rget R.glbCfgRejectEvt).getLsbD 8 = true := by
  let u := (s.rset R.glbCfgRejectInfo (BitVec.ofNat 32 (((off / 4) % 2 ^ 24) * 256 + bit * 8 + r.code)))
  have kept : ((u.raise R.glbCfgRejectEvt 8).event .cfgReject 0 off (detail := bit)).rget R.glbCfgRejectEvt = (u.raise R.glbCfgRejectEvt 8).rget R.glbCfgRejectEvt :=
    (event_logs _ _ _ _ _ _ _ _).rget ((raise_logs u _ _).regsOk ((rset_logs s _ _).regsOk ok)) (by decide)
  exact (congrArg (BitVec.getLsbD · 8) kept).trans (raise_bit _ _ ((rset_logs s _ _).regsOk ok) (by decide) (by decide))

/-- A register that an event may have written has at least the bits above its sequence that it had. -/
theorem rset_bit (off : Nat) (v : W32) (ok : s.regsOk) : (s.rset off v).rget off = v := State.rget_rset_same off v ok

/-- A count that software has not written in this cc advances and saturates (R102, R519). -/
theorem rcount_field (off hi lo n : Nat) (ok : s.regsOk) (free : s.softFree off) (le : lo ≤ hi) (hw : hi < 32) :
    (s.rcount off hi lo n).rf off hi lo = satAdd (s.rf off hi lo) n (2 ^ (hi + 1 - lo) - 1) := by
  have unwritten : bitsOf (s.swWrote off) hi lo = 0 := by
    simp [State.swWrote, free, bitsOf, natBits]
  have small : satAdd (s.rf off hi lo) n (2 ^ (hi + 1 - lo) - 1) < 2 ^ (hi + 1 - lo) := by
    have := Nat.two_pow_pos (hi + 1 - lo); unfold satAdd; omega
  rw [State.rcount, if_neg (by simp [unwritten]), State.rf, State.rfSet, State.rget_rset_same _ _ ok, bitsOf_setBits_same _ _ _ _ le hw, Nat.mod_eq_of_lt small]
end

end Sys2Proof.Machine

namespace Sys2Proof.Machine

/-! ## The interleave hash under the default fold masks -/

/-- The number whose bits below `n` a test gives. -/
def bitSum (f : Nat → Bool) (n : Nat) : Nat := (List.range n).foldl (fun a g => a + if f g then 2 ^ g else 0) 0

theorem bitSum_succ (f : Nat → Bool) (n : Nat) : bitSum f (n + 1) = bitSum f n + if f n then 2 ^ n else 0 := by
  simp [bitSum, List.range_succ]

theorem bitSum_lt (f : Nat → Bool) (n : Nat) : bitSum f n < 2 ^ n := by
  induction n with
  | zero => simp [bitSum]
  | succ n ih => rw [bitSum_succ, Nat.pow_succ]; split <;> omega

theorem testBit_bitSum (f : Nat → Bool) (n i : Nat) : (bitSum f n).testBit i = (decide (i < n) && f i) := by
  induction n with
  | zero => simp [bitSum]
  | succ n ih =>
    have low := bitSum_lt f n
    rw [bitSum_succ]
    by_cases h : f n
    · rw [if_pos h, Nat.add_comm]
      rcases Nat.lt_trichotomy i n with lt | rfl | gt
      · simp [Nat.testBit_two_pow_add_gt lt, ih, lt, Nat.lt_succ_of_lt lt]
      · simp [Nat.testBit_two_pow_add_eq, Nat.testBit_lt_two_pow low, h]
      · rw [Nat.testBit_lt_two_pow (by have := Nat.pow_le_pow_right (n := 2) (by decide) gt; rw [Nat.pow_succ] at this; omega)]
        simp; omega
    · rw [if_neg h, Nat.add_zero, ih]
      by_cases e : i = n
      · simp [e, h]
      · have : i < n + 1 ↔ i < n := by omega
        simp [this]

theorem popBits_odd (x n : Nat) : (popBits x n % 2 == 1) = (List.range n).foldl (fun a g => xor a (x.testBit g)) false := by
  induction n with
  | zero => rfl
  | succ n ih =>
    rw [List.range_succ, List.foldl_append, ← ih]
    rcases Nat.mod_two_eq_zero_or_one (popBits x n) with h | h <;> cases k : x.testBit n <;> simp [popBits, k, h] <;> omega

theorem testBit_foldl_xor (f : Nat → Nat) (gs : List Nat) (x : Nat) (a : Bool) (b : Nat) (h : x.testBit b = a) :
    (gs.foldl (fun h g => h ^^^ f g) x).testBit b = gs.foldl (fun a g => xor a ((f g).testBit b)) a := by
  induction gs generalizing x a with
  | nil => exact h
  | cons g gs ih => exact ih _ _ (by rw [Nat.testBit_xor, h])

theorem foldMask_reset (j : Nat) (h : j < 16) : regReset (R.glbIlFold j) = if j % 5 = 0 then 0x3FF else 0 := by
  interval_cases j <;> decide

/-- Bit b of the hash is the parity of bit b of the ten nibbles: mask 4b + k is all ones for k = b and zero for the others. -/
theorem hashBit_default (sec b : Nat) (h : b < 4) :
    hashBit (fun j => bitsOf (regReset (R.glbIlFold j)) 9 0) sec b
      = (List.range 10).foldl (fun a g => xor a (sec.testBit (4 * g + b))) false := by
  have mask (k : Nat) (hk : k < 4) : bitsOf (regReset (R.glbIlFold (4 * b + k))) 9 0 = if k = b then 2 ^ 10 - 1 else 0 := by
    rw [foldMask_reset _ (by omega)]
    by_cases e : k = b
    · rw [if_pos (by omega), if_pos e]; decide
    · rw [if_neg (by omega), if_neg e]; decide
  have nibble (k i : Nat) (hi : i < 10) : (nibbleBits sec k).testBit i = sec.testBit (4 * i + k) := by
    exact (testBit_bitSum (fun g => sec.testBit (4 * g + k)) 10 i).trans (by simp [hi])
  have parity (k : Nat) (hk : k < 4) :
      (popBits (bitsOf (regReset (R.glbIlFold (4 * b + k))) 9 0 &&& nibbleBits sec k) 10 % 2 == 1)
        = if k = b then (List.range 10).foldl (fun a g => xor a (sec.testBit (4 * g + b))) false else false := by
    rw [mask k hk]
    by_cases e : k = b
    · subst e
      rw [if_pos rfl, if_pos rfl, popBits_odd]
      exact List.foldl_ext _ _ _ fun a g hg => by
        rw [Nat.testBit_and, Nat.testBit_two_pow_sub_one, nibble k g (List.mem_range.mp hg)]; simp [List.mem_range.mp hg]
    · rw [if_neg e, if_neg e, Nat.zero_and]; decide
  unfold hashBit
  simp only [List.range_succ (n := 3), List.range_succ (n := 2), List.range_succ (n := 1), List.range_succ (n := 0), List.range_zero, List.nil_append,
    List.foldl_append, List.foldl_cons, List.foldl_nil]
  rw [parity 0 (by omega), parity 1 (by omega), parity 2 (by omega), parity 3 (by omega)]
  interval_cases b <;> simp

/-- Settles O56: bit by bit, each side is the parity of that bit over the ten nibbles. -/
theorem defaultHashFoldsNibbles : Obligations.DefaultHashFoldsNibbles := by
  refine ⟨foldMask_reset, fun la => Nat.eq_of_testBit_eq fun b => ?_⟩
  have left := testBit_bitSum (hashBit (fun j => bitsOf (regReset (R.glbIlFold j)) 9 0) (sectorOf la)) 4 b
  have nibble (g : Nat) : (sectorOf la / 16 ^ g % 16).testBit b = (decide (b < 4) && (sectorOf la).testBit (4 * g + b)) := by
    rw [show (16 : Nat) = 2 ^ 4 from rfl, Nat.testBit_mod_two_pow, ← Nat.pow_mul, Nat.testBit_div_two_pow, Nat.add_comm b]
  refine left.trans (Eq.trans ?_ (testBit_foldl_xor (fun g => sectorOf la / 16 ^ g % 16) (List.range 10) 0 false b (Nat.zero_testBit b)).symm)
  by_cases h : b < 4
  · simp only [h, decide_true, Bool.true_and, hashBit_default _ b h, nibble]
  · simp only [h, decide_false, Bool.false_and, nibble, Bool.xor_false]
    simp
end Sys2Proof.Machine

namespace Sys2Proof.Machine

/-! ## Posted writes (R176) -/

section
variable {s t : State}

theorem OnlyPort.refl (n : PortId) (s : State) : OnlyPort n s s := fun _ _ => rfl
theorem OnlyPort.trans {n : PortId} {u : State} (h : OnlyPort n s t) (k : OnlyPort n t u) : OnlyPort n s u := fun j hj => (k j hj).trans (h j hj)
theorem OnlyPort.of_only {n : PortId} {ps : List Part} (h : OnlyParts ps s t) (hp : Part.ports ∉ ps := by decide) : OnlyPort n s t := fun k _ => h.port_eq k hp
theorem modIo_onlyPort (s : State) (n : PortId) (f : PortIo → PortIo) : OnlyPort n s (s.modIo n f) := fun _ hk => s.modIo_port_other f hk
theorem modLink_onlyPort (s : State) (n : PortId) (f : Link → Link) : OnlyPort n s (s.modLink n f) := fun _ hk => s.modLink_port_other f hk
theorem modIo_tame (s : State) (n : PortId) (f : PortIo → PortIo) : Tame [.ports] s (s.modIo n f) := modPort_tame s n _
theorem modLink_tame (s : State) (n : PortId) (f : Link → Link) : Tame [.ports] s (s.modLink n f) := modPort_tame s n _

theorem countIn_logs (s : State) (n : PortId) (m : Msg) : Logs [.csr, .glb, .blv] [R.blvEvt] s (s.countIn n m) :=
  ((occur_logs s _).mono (by simp) (List.Subset.refl _)).trans
    (.ite (fun _ => cntPort_logs _ _ _ _ _) fun _ => .ite (fun _ => cntPort_logs _ _ _ _ _) fun _ => .ite (fun _ => cntPort_logs _ _ _ _ _) fun _ =>
      .ite (fun _ => cntPort_logs _ _ _ _ _) fun _ => .refl)

/-- A message that a port takes changes what has been counted and, of the ports, that port's receive queue only. -/
theorem takeMsg_logs (s : State) (n : PortId) (m : Msg) : Logs [.ports, .csr, .glb, .blv] [R.blvEvt] s (s.takeMsg n m) :=
  .ite (fun _ => (Logs.of_tame (modLink_tame s n _)).mono (by simp) (List.Subset.refl _)) fun _ => (countIn_logs s n m).mono (by simp) (List.Subset.refl _)

theorem takeMsg_port (s : State) (n : PortId) (m : Msg) :
    OnlyPort n s (s.takeMsg n m) ∧ ((s.takeMsg n m).port n).io = (s.port n).io ∧ ((s.takeMsg n m).port n).link.credRet = (s.port n).link.credRet := by
  have counted := (countIn_logs s n m).only
  unfold State.takeMsg
  split
  · exact ⟨modLink_onlyPort s n _, by simp, by simp⟩
  · exact ⟨.of_only counted, by rw [counted.port_eq], by rw [counted.port_eq]⟩

/-- Where a request goes is read from the windows' registers alone (R173, R505). -/
theorem ioTarget_congr (h : ∀ o, o < 0x10000 → t.rget o = s.rget o) (n : PortId) (la : LineAddr) : t.ioTarget n la = s.ioTarget n la := by
  have base (i : Nat) (hi : i ∈ List.range 32) : t.rget (R.glbIowinBase i) = s.rget (R.glbIowinBase i) :=
    h _ (by have := List.mem_range.mp hi; unfold R.glbIowinBase; omega)
  have ctl (i : Nat) (hi : i ∈ List.range 32) : t.rget (R.glbIowinCtl i) = s.rget (R.glbIowinCtl i) :=
    h _ (by have := List.mem_range.mp hi; unfold R.glbIowinCtl; omega)
  have win : t.csrOffset la = s.csrOffset la := by unfold State.csrOffset; rw [h _ (by decide)]
  have sameHit := List.find?_congr (l := List.range 32)
    (p₁ := fun i => t.rbit (R.glbIowinCtl i) 31 && !t.winBad i && decide ((t.rget (R.glbIowinBase i)).toNat ≤ la.toNat / 2 ^ 14)
      && decide (la.toNat / 2 ^ 14 < (t.rget (R.glbIowinBase i)).toNat + t.rf (R.glbIowinCtl i) 20 0))
    (p₂ := fun i => s.rbit (R.glbIowinCtl i) 31 && !s.winBad i && decide ((s.rget (R.glbIowinBase i)).toNat ≤ la.toNat / 2 ^ 14)
      && decide (la.toNat / 2 ^ 14 < (s.rget (R.glbIowinBase i)).toNat + s.rf (R.glbIowinCtl i) 20 0))
    fun i hi => by unfold State.rbit State.rf State.winBad; rw [base i hi, ctl i hi]
  unfold State.ioTarget
  rw [win]
  dsimp only
  rw [sameHit]
  split
  · rfl
  split
  · rfl
  next i found =>
    rw [State.rf, State.rf, ctl i (List.mem_of_find?_eq_some found)]

/-- An agent's message keeps its address and its opcode when ingress gives it a Plot (R383). -/
theorem ingressPlot_pa (s : State) (n : PortId) (m : Msg) : (s.ingressPlot n m).hdr.pa = m.hdr.pa := by unfold State.ingressPlot; split <;> rfl
theorem ingressPlot_opcode (s : State) (n : PortId) (m : Msg) : (s.ingressPlot n m).hdr.opcode = m.hdr.opcode := by unfold State.ingressPlot; split <;> rfl

/-- Starting timers marks entries and changes nothing else of them (R178, R180). -/
theorem ioElig_port (s : State) (n : PortId) :
    ∃ r, ((s.ioElig n).port n).io = { (s.port n).io with
        arb := (s.port n).io.arb.map fun x => if x.elig.isNone && (s.port n).io.arbFree x then { x with elig := some s.now } else x
        rdt := r } := by
  unfold State.ioElig
  dsimp only
  split
  next h =>
    have none : (s.port n).io.arb = [] := by simpa using (Bool.and_eq_true_iff.mp h).1
    exact ⟨(s.port n).io.rdt, by rw [none, List.map_nil, ← none]⟩
  · exact ⟨_, by rw [State.modIo_io_same]⟩
theorem ioElig_tame (s : State) (n : PortId) : Tame [.ports] s (s.ioElig n) := .ite (fun _ => .refl) fun _ => modIo_tame s n _
theorem ioElig_onlyPort (s : State) (n : PortId) : OnlyPort n s (s.ioElig n) := by
  unfold State.ioElig; dsimp only; split
  · exact .refl n s
  · exact modIo_onlyPort s n _

/-- A posted write that finds room takes the lowest free entry (R48, R176). -/
theorem arbPush_port (s : State) (n : PortId) (x : InMsg) (tg : IoTgt) (k : Nat)
    (room : (s.port n).io.arb.length + (s.port n).io.arbPop.at_ s.now < 64) (slot : freeSlot ((s.port n).io.arb.map (·.slot)) 64 = some k) :
    ∃ e use, (e.slot = k ∧ e.num = x.num ∧ e.msg = x.msg ∧ e.target = tg ∧ e.st = .waiting ∧ e.wasSent = false)
      ∧ ((s.arbPush n x tg).port n).io = { (s.port n).io with
          ingress := (s.port n).io.ingress.filter (fun y => y.num ≠ x.num), arbUse := use, arb := (s.port n).io.arb ++ [e] } := by
  rw [State.arbPush, if_neg (Nat.not_le.mpr room), slot]
  simp only [State.modIo_io_same]
  exact ⟨_, _, by refine ⟨?_, rfl⟩; exact ⟨rfl, rfl, rfl, rfl, rfl, rfl⟩⟩
theorem arbPush_tame (s : State) (n : PortId) (x : InMsg) (tg : IoTgt) : Tame [.ports] s (s.arbPush n x tg) := by
  unfold State.arbPush
  split
  · exact .refl
  · split
    · exact .refl
    · exact modIo_tame s n _
theorem arbPush_onlyPort (s : State) (n : PortId) (x : InMsg) (tg : IoTgt) : OnlyPort n s (s.arbPush n x tg) := by
  unfold State.arbPush
  split
  · exact .refl n s
  · split
    · exact .refl n s
    · exact modIo_onlyPort s n _

/-- A posted write alone in ingress takes the lowest free Arbour entry (R48, R176). -/
theorem ioQueue_write (s : State) (n : PortId) (m : Msg) (tg : IoTgt) (k : Nat) (op : m.hdr.opcode = Op.ioWr) (run : s.glb.hold = false)
    (empty : (s.port n).io.ingress = []) (room : (s.port n).io.arb.length + (s.port n).io.arbPop.at_ s.now < 64)
    (slot : freeSlot ((s.port n).io.arb.map (·.slot)) 64 = some k) :
    let t := s.ioQueue n m tg
    (∃ y ∈ (t.port n).io.arb, y.slot = k ∧ y.num = (s.port n).io.nextNum ∧ y.msg = m ∧ y.target = tg ∧ y.st = .waiting ∧ y.wasSent = false)
      ∧ (t.port n).io.nextNum = (s.port n).io.nextNum + 1 ∧ (t.port n).io.ingress = []
      ∧ (t.port n).io.arb.length = (s.port n).io.arb.length + 1 ∧ OnlyPort n s t ∧ Tame [.ports] s t := by
  let x : InMsg := { num := (s.port n).io.nextNum, msg := m, at_ := s.now, tgt := some tg }
  let v := s.modIo n fun io => { io with nextNum := io.nextNum + 1, ingress := io.ingress ++ [{ num := io.nextNum, msg := m, at_ := s.now, tgt := some tg }] }
  have vio : (v.port n).io = { (s.port n).io with nextNum := (s.port n).io.nextNum + 1, ingress := [x] } := by
    rw [State.modIo_io_same, empty]; rfl
  obtain ⟨e, use, fields, wio⟩ := arbPush_port v n x tg k (by rw [vio]; exact room) (by rw [vio]; exact slot)
  have admitted : s.ioQueue n m tg = (v.arbPush n x tg).ioElig n := by
    rw [State.ioQueue, State.ioAdmit, if_neg (by simp [run])]
    have : (v.port n).io.ingress = [x] := by rw [vio]
    rw [this, List.foldl_cons, List.foldl_nil]
    simp only [x, op, if_true]
    rfl
  obtain ⟨r, tio⟩ := ioElig_port (v.arbPush n x tg) n
  rw [admitted]
  refine ⟨⟨_, by rw [tio]; exact List.mem_map_of_mem (by rw [wio]; simp : e ∈ _), ?_⟩, ?_, ?_, ?_, ?_, ?_⟩
  · split <;> exact fields
  · rw [tio, wio, vio]
  · rw [tio, wio, vio]; simp
  · rw [tio, wio, vio]; simp
  · exact ((modIo_onlyPort s n _).trans (arbPush_onlyPort _ n _ _)).trans (ioElig_onlyPort _ n)
  · exact ((modIo_tame s n _).trans (arbPush_tame _ n _ _)).trans (ioElig_tame _ n)

theorem credBack_tame (s : State) (n : PortId) (cls : Nat) : Tame [.ports] s (s.credBack n cls) := modLink_tame s n _

/-- Settles O19. That a write takes the lowest free entry is the model's choice (log entry 59). -/
theorem postedWritesEnterArbour : Obligations.PostedWritesEnterArbour := by
  intro n m s alive ok
  have run : exec (.iowr n m) s = .next (s.ioWrIn n (withOp m Op.ioWr)) := live_alive (fun s => s.ioWrIn n (withOp m Op.ioWr)) alive
  let w := withOp m Op.ioWr
  let u := s.takeMsg n w
  have logs : Logs [.ports, .csr, .glb, .blv] [R.blvEvt] s u := takeMsg_logs s n w
  obtain ⟨others, uio, ucred⟩ := takeMsg_port s n w
  have above (o : Nat) (h : o ≠ R.blvEvt) : u.rget o = s.rget o := logs.rget ok (by simpa using h)
  have plot : u.ingressPlot n w = s.ingressPlot n w := by
    unfold State.ingressPlot State.rbit State.rf; rw [above _ (by unfold R.portPlotCtl R.blvEvt; omega)]
  have target : u.ioTarget n w.hdr.pa = s.ioTarget n m.hdr.pa := ioTarget_congr (fun o h => above o (by unfold R.blvEvt; omega)) n _
  have within {t : State} (h : Tame [.ports] u t) : OnlyParts [.ports, .csr, .glb, .blv] s t := logs.only.trans (h.mono (by simp)).only
  refine ⟨fun tg k quiet tgt go empty room slot => ⟨_, run, ?_⟩, fun quiet tgt => ⟨_, run, ?_⟩, fun quiet => ⟨_, run, ?_⟩⟩
  · have eq : s.ioWrIn n w = u.ioQueue n (s.ingressPlot n w) tg := by
      simp only [State.ioWrIn]
      rw [if_neg (by simp [u, uio, quiet] : ¬ (u.port n).io.qst ≠ .none), plot, ingressPlot_pa, target, tgt]
    obtain ⟨entry, next, gone, more, only, tame⟩ := ioQueue_write u n (s.ingressPlot n w) tg k (ingressPlot_opcode s n w) (by rw [logs.glb]; exact go)
      (by rw [uio]; exact empty) (by rw [uio, logs.only.now_eq]; exact room) (by rw [uio]; exact slot)
    rw [eq]
    rw [uio] at entry next more
    exact ⟨entry, next, gone, more, others.trans only, within tame⟩
  · let v := (u.credBack n 4).modIo n fun io => { io with lossNow := true }
    have eq : s.ioWrIn n w = v.raise (R.portIoEvt n) 10 := by
      simp only [State.ioWrIn]
      rw [if_neg (by simp [u, uio, quiet] : ¬ (u.port n).io.qst ≠ .none), plot, ingressPlot_pa, target, tgt]
    have vt : Tame [.ports] u v := (credBack_tame u n 4).trans (modIo_tame _ n _)
    have raised := raise_logs v (R.portIoEvt n) 10
    rw [eq]
    refine ⟨?_, ?_, raise_bit _ _ (vt.regs (logs.regsOk ok)) (by decide) (by decide), ?_, ?_⟩
    · rw [raised.only.port_eq]; simp [v, State.credBack, u, uio]
    · rw [raised.only.port_eq]; simp [v, State.credBack, u, ucred]
    · exact ((others.trans (modLink_onlyPort u n _)).trans (modIo_onlyPort _ n _)).trans (.of_only raised.only)
    · exact (within vt).trans (raised.mono (by simp) (List.Subset.refl _)).only
  · have eq : s.ioWrIn n w = (u.credBack n 4).rcount (R.portSvcStat n) 26 16 1 := by
      simp only [State.ioWrIn]
      rw [if_pos (by simpa [u, uio] using quiet : (u.port n).io.qst ≠ .none)]
    have counted := rcount_logs (u.credBack n 4) (R.portSvcStat n) 26 16 1
    have same : (u.credBack n 4).rget (R.portSvcStat n) = s.rget (R.portSvcStat n) := above _ (by unfold R.portSvcStat R.blvEvt; omega)
    rw [eq]
    refine ⟨?_, ?_, fun free => ?_, ?_, ?_⟩
    · rw [counted.only.port_eq]; simp [State.credBack, u, uio]
    · rw [counted.only.port_eq]; simp [State.credBack, u, ucred]
    · rw [rcount_field (s := u.credBack n 4) _ _ _ _ (logs.regsOk ok) ((congrArg (FMap.find? · _) logs.swBits).trans free) (by decide) (by decide), State.rf, same]; rfl
    · exact (others.trans (modLink_onlyPort u n _)).trans (.of_only counted.only)
    · exact (within (credBack_tame u n 4)).trans (counted.mono (by simp) (List.Subset.refl _)).only
end
end Sys2Proof.Machine

namespace Sys2Proof.Machine

/-! ## A register whose bits hardware has cleared in this cc

A write of software sets no bit that hardware clears in the same cc (R520, R557). The model notes such bits in `State.hwNow`, which the
statements on fences and on the mailbox leave free: where it names the command's own register, the fields that the command writes are
lost, and the command does not start what its operand asks for. -/

/-- A hub out of reset in which hardware has cleared every bit of a register in this cc. -/
def clearedHub (off : Nat) : State := { State.reset with glb := { State.reset.glb with on := true }, hwNow := [(off, 0xFFFFFFFF)] }

def hostAccess : Access := { master := .host, priv := true }

theorem clearedHub_canon (off : Nat) : (clearedHub off).canon := State.reset_canon
theorem clearedHub_privileged (off : Nat) : (clearedHub off).privileged hostAccess = true := by
  have : (clearedHub off).rget R.glbPrivCtl = regReset R.glbPrivCtl := State.reset_rget _
  simp only [State.privileged, hostAccess, State.rbit, this]
  decide

/-- What a command leaves of a part of the hub; none where it does not complete. -/
def leaves {α : Type} (i : Instr) (s : State) (f : State → α) : Option α :=
  match exec i s with
  | .next t => some (f t)
  | _ => none

theorem leaves_next {α : Type} {i : Instr} {s t : State} (f : State → α) (h : exec i s = .next t) : leaves i s f = some (f t) := by
  unfold leaves; rw [h]

/-- Refutes O37: in a cc in which hardware has cleared the bits of PAV_FENCE, a fence of pavilion 1 to pavilion 2 stores no field; it
then names pavilion 0 as both, is rejected, and does not run. -/
theorem not_pavilionFences : ¬ Obligations.PavilionFences := by
  intro h
  let s := clearedHub R.glbPavFence
  obtain ⟨accepted, -⟩ := h.1 hostAccess 0x201 s (by decide) (clearedHub_canon _) (clearedHub_privileged _)
  obtain ⟨⟨t, run, fence, -⟩, -⟩ := accepted (by decide) (by decide) (by decide) (by decide)
  have idle : leaves (.pavilionFenceOrderly hostAccess 0x201) s (·.glb.fence.running) = some false := by decide +kernel
  rw [leaves_next _ run, fence] at idle
  exact absurd idle (by decide)

/-- Refutes O49: in a cc in which hardware has cleared the bits of MBX_CMD, a request for index 2 waits as one for index 0. -/
theorem not_mailboxAndCommit : ¬ Obligations.MailboxAndCommit := by
  intro h
  let s := clearedHub R.lodgeMbxCmd
  obtain ⟨requests, -⟩ := h s (by decide) (clearedHub_canon _)
  obtain ⟨t, run, w, waits, word, -⟩ := (requests hostAccess 0x201 (clearedHub_privileged _)).1 (by decide)
  have zero : leaves (.mailboxRequest hostAccess 0x201) s (·.lodge.mbxReq.map (·.1)) = some (some 0) := by decide +kernel
  rw [leaves_next _ run, waits] at zero
  have : w = 0 := by simpa using zero
  rw [this] at word
  exact absurd word (by decide)

/-! ## A STEP and a follower's correction in one window

A window applies both (R485), the STEP first. The statement on the window says what time a correction leaves where no STEP is pending,
but what time a STEP leaves whether or not a correction is. -/

/-- A hub out of reset that has a STEP to 2 s pending, and a correction that takes a second back. -/
def twoSteps : State :=
  { State.reset with glb := { State.reset.glb with on := true }, band := { State.reset.band with stepPend := some (2, 0), stepBack := some 10000000000 } }

theorem twoSteps_canon : twoSteps.canon := State.reset_canon

/-- Refutes O55: where a follower's correction of a second is pending beside a STEP to 2 s, the window leaves 1 s. -/
theorem not_applyWindowAtTheTick : ¬ Obligations.ApplyWindowAtTheTick := by
  intro h
  obtain ⟨t, run, -, -, -, -, -, -, -, -, -, clocked, -⟩ := h twoSteps (by decide) twoSteps_canon
  obtain ⟨-, -, steps, -⟩ := clocked (by decide)
  have one : leaves .applyWindow twoSteps (·.band.sec) = some 1 := by decide +kernel
  rw [leaves_next _ run, (steps (2, 0) rfl).1] at one
  exact absurd one (by decide)
end Sys2Proof.Machine

namespace Sys2Proof.Machine

/-! ## What counting leaves of the Belvedere (R535 to R540) -/

/-- Nothing of the Belvedere but counters has changed. -/
def Blv.Counted (b c : Blv) : Prop := c = { b with cnt := c.cnt, ovf := c.ovf, cntOld := c.cntOld }

section
variable {b c d : Blv} {s t : State}

theorem Blv.Counted.eq (h : b.Counted c) : c = { b with cnt := c.cnt, ovf := c.ovf, cntOld := c.cntOld } := h
theorem Blv.Counted.refl : b.Counted b := rfl
theorem Blv.Counted.trans (h : b.Counted c) (k : c.Counted d) : b.Counted d := by unfold Blv.Counted at *; rw [k, h]
theorem Blv.Counted.foldl {β : Type} (f : State → β → State) (h : ∀ (s : State) x, s.blv.Counted (f s x).blv) (xs : List β) : s.blv.Counted (xs.foldl f s).blv := by
  induction xs generalizing s with
  | nil => exact .refl
  | cons x _ ih => exact (h s x).trans ih
theorem Blv.Counted.ite {p : Prop} [Decidable p] {u : State} (h : p → b.Counted t.blv) (k : ¬p → b.Counted u.blv) : b.Counted (if p then t else u).blv := by
  by_cases x : p
  · rw [if_pos x]; exact h x
  · rw [if_neg x]; exact k x

@[simp] theorem raise_blv (s : State) (off bit : Nat) : (s.raise off bit).blv = s.blv := (raise_logs s off bit).only.blv_eq

theorem cntRaw_counted (s : State) (i n : Nat) : s.blv.Counted (s.cntRaw i n).blv := by
  unfold State.cntRaw
  split
  · rfl
  split
  · dsimp only
    split
    · rw [raise_blv]; rfl
    · rfl
  · rfl
theorem cntAdd_counted (s : State) (i n : Nat) : s.blv.Counted (s.cntAdd i n).blv := by
  have h := cntRaw_counted s i n
  unfold State.cntAdd
  split
  · rfl
  split
  · exact .ite (fun _ => h) fun _ => h.trans (.foldl _ (fun s _ => .ite (fun _ => cntRaw_counted s _ _) fun _ => .refl) _)
  · exact h
theorem cntEv_counted (s : State) (sel base k code : Nat) (plot : Option PlotId) (n : Nat) : s.blv.Counted (s.cntEv sel base k code plot n).blv :=
  .ite (fun _ => .refl) fun _ => .foldl _ (fun s _ => .ite (fun _ => cntAdd_counted s _ _) fun _ => .refl) _
theorem cntGlob_counted (s : State) (code n : Nat) (plot : Option PlotId) : s.blv.Counted (s.cntGlob code n plot).blv :=
  .ite (fun _ => .refl) fun _ => cntEv_counted s _ _ _ _ _ _
end

/-! ## Reads and writes of the trace buffer's registers -/

theorem setBits_whole (v : W32) (x : Nat) : setBits v 31 0 x = BitVec.ofNat 32 x := by
  refine BitVec.eq_of_getLsbD_eq fun i hi => ?_
  rw [getLsbD_setBits _ _ _ _ _ hi (by decide), if_pos (by omega), BitVec.getLsbD_ofNat]
  simp [hi]

section
variable (s : State)

/-- Which accesses are privileged is read from the registers of GLB alone (R512). -/
theorem privileged_congr {t : State} (h : ∀ o, o < 0x100 → t.rget o = s.rget o) (a : Access) : t.privileged a = s.privileged a := by
  unfold State.privileged
  split
  · unfold State.rbit; rw [h _ (by decide)]
  · rfl
  next n _ => unfold State.rbit; rw [h _ (by have := n.isLt; unfold R.glbPrivPorts; omega)]

/-- The state in which an access is judged: it has been counted (R537). -/
theorem counted_privileged (ok : s.regsOk) (a : Access) : (s.cntGlob 3).privileged a = s.privileged a :=
  privileged_congr s (fun o ho => (cntGlob_logs s 3 1 none).rget ok (by unfold R.blvEvt; simp; omega)) a

/-- A privileged read of one aligned word outside the pairs and the timebase reads the word and answers it (R504, R508). -/
theorem readOut_word (a : Access) (off : Nat) (al : off % 4 = 0) (plain : pairHalf off = none)
    (time : off ≠ R.bandTimeNs ∧ off ≠ R.bandTimeSecLo ∧ off ≠ R.bandTimeSecHi) :
    s.readOut a off 4 = ((s.cntGlob 3).read32 a off).1.emit (.read a.master off (BitVec.ofNat 64 (((s.cntGlob 3).read32 a off).2.toNat % 2 ^ 32))) := by
  have word : off / 4 * 4 = off := by omega
  have read (u : State) : u.pairRead a off = u.read32 a off := by
    simp only [State.pairRead, time, plain, if_false, Bool.or_eq_true, decide_eq_true_eq, or_self]
  simp only [State.readOut, State.accRead, al, word, read]
  simp

theorem view_trcPop (k : Nat) (hk : k = 0 ∨ k = 3) : s.view (R.blvTrcPop k) = s.trcPopWord k := by
  rcases hk with rfl | rfl
  · have at_ : regAt (R.blvTrcPop 0) = some (.blv, 0, 0, ⟨0x130, 4, 4, [⟨31, 0, .ro, 0, false, .now, true⟩]⟩) := by decide
    have comp : s.compOf (R.blvTrcPop 0) .blv 0 0 0x130 = [(31, 0, (s.trcPopWord 0).toNat)] := rfl
    simp only [State.view, at_, comp, compWord, setBits_whole, BitVec.ofNat_toNat, BitVec.setWidth_eq]
  · have at_ : regAt (R.blvTrcPop 3) = some (.blv, 0, 3, ⟨0x130, 4, 4, [⟨31, 0, .ro, 0, false, .now, true⟩]⟩) := by decide
    have comp : s.compOf (R.blvTrcPop 3) .blv 0 3 0x130 = [(31, 0, (s.trcPopWord 3).toNat)] := rfl
    simp only [State.view, at_, comp, compWord, setBits_whole, BitVec.ofNat_toNat, BitVec.setWidth_eq]

variable {s}

/-- A privileged master reads a register as it is, without a guard event (R512, R513). -/
theorem guarded_privileged (a : Access) (off : Nat) (at_ : (regAt off).isSome = true) (priv : s.privileged a = true) : s.guarded a off = (s.view off, false) := by
  obtain ⟨x, hx⟩ := Option.isSome_iff_exists.mp at_
  simp only [State.guarded, State.guardOf, hx, priv, if_true]

theorem read32_trcPop_latch (a : Access) (priv : s.privileged a = true) : s.read32 a (R.blvTrcPop 0) = (s.trcLatch, s.trcLatch.trcPopWord 0) := by
  have latched : s.trcLatch.privileged a = true := (privileged_congr s (fun o _ => by unfold State.trcLatch; split <;> rfl) a).trans priv
  have first : (if R.blvTrcPop 0 = R.blvTrcPop 0 && s.privileged a then s.trcLatch else s) = s.trcLatch := by simp [priv]
  have last (u : State) : (if R.blvTrcPop 0 = R.blvTrcPop 3 && s.trcLatch.privileged a then u.trcRemove else u) = u := by simp
  unfold State.read32
  rw [if_neg (by decide), if_neg (by decide), first]
  dsimp only
  rw [last, guarded_privileged a _ (by decide) latched, view_trcPop _ 0 (.inl rfl)]
  rfl
theorem read32_trcPop_remove (a : Access) (priv : s.privileged a = true) : s.read32 a (R.blvTrcPop 3) = (s.trcRemove, s.trcPopWord 3) := by
  have first : (if R.blvTrcPop 3 = R.blvTrcPop 0 && s.privileged a then s.trcLatch else s) = s := by simp
  have last : (if R.blvTrcPop 3 = R.blvTrcPop 3 && s.privileged a then s.trcRemove else s) = s.trcRemove := by simp [priv]
  unfold State.read32
  rw [if_neg (by decide), if_neg (by decide), first]
  dsimp only
  rw [last, guarded_privileged a _ (by decide) priv, view_trcPop _ 3 (.inr rfl)]
  rfl

end
end Sys2Proof.Machine

namespace Sys2Proof.Machine

section
variable (s : State)

/-! ## The trace commands (R556) -/

theorem FMap.erase_of_find_none {α : Type} (m : FMap α) (k : Nat) (h : FMap.find? m k = none) : FMap.erase m k = m := by
  fun_induction FMap.erase m k <;> simp_all [FMap.find?]
theorem FMap.insert_of_find_some {α : Type} (m : FMap α) (k : Nat) (v : α) (h : FMap.find? m k = some v) : FMap.insert m k v = m := by
  fun_induction FMap.insert m k v <;> simp_all [FMap.find?]
/-- Undoing a write that left a store as it was leaves it so (R516). -/
theorem FMap.back_self {α : Type} (m : FMap α) (k : Nat) : FMap.back m m k = m := by
  unfold FMap.back
  split
  next h => exact FMap.erase_of_find_none m k h
  next v h => exact FMap.insert_of_find_some m k v h

/-- A rejected write of a register without pending values puts back that register and nothing else (R516). -/
theorem undoWrite_tame {u : State} (off : Nat) (h : u.pend = s.pend) : Tame [.csr] u (s.undoWrite u off) := by
  refine ⟨fun p hp => ?_, (rset_tame u off (s.rget off)).regs⟩
  cases p <;> simp_all [Part.same, State.undoWrite, FMap.back_self]
theorem undoWrite_rget_other {u : State} (off o : Nat) (ok : u.regsOk) (ho : o ≠ off) : (s.undoWrite u off).rget o = u.rget o :=
  State.rget_rset_other _ ok ho

theorem merge32_zero (old x : W32) : merge32 old x 0 = old :=
  BitVec.eq_of_getLsbD_eq fun i hi => by
    simp only [merge32, BitVec.getLsbD_or, BitVec.getLsbD_and, BitVec.getLsbD_not, hi]
    simp

/-- TRC_CMD, whose fields are commands and RO. -/
def trcCmdDesc : RegDesc :=
  ⟨0x12C, 1, 0, [⟨31, 31, .wo, 0, false, .now, true⟩, ⟨30, 30, .wo, 0, false, .now, true⟩, ⟨29, 29, .wo, 0, false, .now, true⟩, ⟨13, 0, .ro, 0, false, .now, false⟩]⟩

/-- A privileged write of TRC_CMD stores nothing; what it carries is carried out in a state in which the access has been counted and
the master's holding register is empty (R509, R537, R556). -/
theorem trcCmd_write (a : Access) (v : W32) (ok : s.regsOk) (priv : s.privileged a = true) (on : s.glb.pwr ≠ .hibernate) :
    ∃ r : State, r.blv = (s.cntGlob 3).blv ∧ OnlyParts [.csr, .glb, .blv, .pairs] s r ∧ r.regsOk
      ∧ (∀ o, o ≠ R.blvEvt → r.rget o = s.rget o)
      ∧ ∀ t, t = r.trcCmd (v &&& 0xE0000000) → t.pend = s.pend → t.regsOk →
        ∃ u, s.cmdWrite a R.blvTrcCmd v = u ∧ Tame [.csr] t u ∧ ∀ o, o ≠ R.blvTrcCmd → u.rget o = t.rget o := by
  let c := (s.cntGlob 3).dropHold a.master
  let m : W32 := 0xE0000000
  let r := c.regPut R.blvTrcCmd trcCmdDesc m v
  have counted := cntGlob_logs s 3 1 none
  have at_ : regAt R.blvTrcCmd = some (.blv, 0, 0, trcCmdDesc) := by decide
  have mask : maskOf trcCmdDesc.fields (fun f => isWritable f && (true || !f.priv)) = m := by decide
  have cOk : c.regsOk := counted.regsOk ok
  have powered : c.unpowered .blv = false := by
    have : c.glb.pwr = s.glb.pwr := (congrArg Glb.pwr counted.glb :)
    simp [State.unpowered, this, on]
  have judged : c.regJudge R.blvTrcCmd .blv 0 0 trcCmdDesc m v = none := by
    have range (old new : W32) : c.regRule .blv 0 0 trcCmdDesc.off old new = [] := rfl
    have idle (old new : W32) : (trcCmdDesc.fields.filter fun f => f.app = .idle && isStored f && bitsOf old f.hi f.lo ≠ bitsOf new f.hi f.lo) = [] := rfl
    simp only [State.regJudge, range, idle, List.map_nil, ite_self]
    rfl
  have stored : r = { c with
      swNow := if (FMap.find? c.swNow R.blvTrcCmd).isSome then c.swNow else FMap.insert c.swNow R.blvTrcCmd (c.rget R.blvTrcCmd)
      swBits := FMap.insert c.swBits R.blvTrcCmd (c.swWrote R.blvTrcCmd ||| 0 ||| 0) : State }.rset R.blvTrcCmd (c.rget R.blvTrcCmd) := by
    have tick : maskOf trcCmdDesc.fields (fun f => isStored f && isTick f) &&& m = 0 := by decide
    have now : maskOf trcCmdDesc.fields (fun f => isStored f && !isTick f) &&& m = 0 := by decide
    have seq : maskOf trcCmdDesc.fields (·.acc = .rsq) &&& m = 0 := by decide
    simp only [r, State.regPut, tick, now, clearSeq, seq, merge32_zero, if_true, ne_eq, not_true_eq_false, if_false]
    rw [if_neg (by decide : ¬ m = 0)]
  have same (o : Nat) : r.rget o = (s.cntGlob 3).rget o := by
    rw [stored]
    by_cases h : o = R.blvTrcCmd
    · subst h; exact State.rget_rset_same _ _ cOk
    · exact State.rget_rset_other _ cOk h
  refine ⟨r, by rw [stored]; rfl, ?_, by rw [stored]; exact FMap.wf_put _ _ cOk, fun o ho => (same o).trans (counted.rget ok (by simpa using ho)), ?_⟩
  · have pairs : OnlyParts [.csr, .glb, .blv, .pairs] (s.cntGlob 3) r := by
      rw [stored]; intro p hp; cases p <;> simp_all [Part.same, c, State.dropHold, State.modPair]
    exact (counted.only.mono (by simp)).trans pairs
  · intro t ht pend tOk
    have eq : s.cmdWrite a R.blvTrcCmd v = if rejectedSince r t then c.undoWrite t R.blvTrcCmd else t := by
      have half : pairHalf R.blvTrcCmd = none := by decide
      have judgedTrue : c.privileged a = true := (counted_privileged s ok a).trans priv
      have guard : c.guardWrite a R.blvTrcCmd trcCmdDesc = c := by simp [State.guardWrite, judgedTrue]
      have bits : v &&& m = v &&& 0xE0000000 := rfl
      have write : c.write32 a R.blvTrcCmd v none {} = c.regWrite true R.blvTrcCmd .blv 0 0 trcCmdDesc v {} := by
        simp only [State.write32, at_, powered, guard, judgedTrue]; rfl
      have act : r.regAct R.blvTrcCmd .blv 0 trcCmdDesc.off (v &&& m) {} = t := ht ▸ rfl
      calc s.cmdWrite a R.blvTrcCmd v = c.write32 a R.blvTrcCmd v none {} := by simp only [State.cmdWrite, State.pairWrite, half]; rfl
        _ = c.regWrite true R.blvTrcCmd .blv 0 0 trcCmdDesc v {} := write
        _ = _ := by simp only [State.regWrite, mask, judged, act, r]
    have pend' : t.pend = c.pend := pend.trans (counted.only .pend (by decide)).symm
    refine ⟨_, eq, .ite (fun _ => undoWrite_tame c _ pend') fun _ => .refl, fun o ho => ?_⟩
    split
    · exact undoWrite_rget_other c _ _ tOk ho
    · rfl

/-! ## Capture and its end (R550, R551, R555) -/

/-- Making room in wrap mode counts what is lost and leaves the record number (R552). -/
theorem trcRoom_logs : Logs [.csr, .glb, .blv] [R.blvTrcLost, R.blvTrcStat, R.blvEvt] s s.trcRoom := by
  have moved (f : Blv → Blv) : Logs [.csr, .glb, .blv] [R.blvTrcLost, R.blvTrcStat, R.blvEvt] s ((s.modBlv f).rcount R.blvTrcLost 31 16 1) :=
    ((modBlv_logs s f).mono (by simp) (List.Subset.refl _)).trans ((rcount_logs _ _ _ _ _).mono (by simp) (by simp))
  unfold State.trcRoom
  split
  · exact .refl
  split
  · exact .refl
  split
  · exact .refl
  · exact .ite (fun _ => (moved _).trans ((raise_logs _ _ _).mono (by simp) (by simp))) fun _ => moved _
theorem trcRoom_wr : s.trcRoom.blv.wr = s.blv.wr := by
  have counted (t : State) : (t.rcount R.blvTrcLost 31 16 1).blv = t.blv := (rcount_logs t _ _ _ _).only.blv_eq
  unfold State.trcRoom
  split
  · rfl
  split
  · rfl
  split
  · rfl
  · dsimp only
    split
    · rw [raise_blv, counted]; rfl
    · rw [counted]; rfl

theorem trcPut_logs (x : BitVec 128) : Logs [.csr, .glb, .blv] [R.blvTrcLost, R.blvTrcStat, R.blvEvt] s (s.trcPut x) :=
  (trcRoom_logs s).trans (((modBlv_logs _ _).mono (by simp) (List.Subset.refl _)).trans ((cntGlob_logs _ _ _ _).mono (by simp) (by simp)))
theorem trcPut_wr (x : BitVec 128) : (s.trcPut x).blv.wr = s.blv.wr + 1 :=
  (congrArg Blv.wr (cntGlob_counted _ 6 1 none)).trans (congrArg (· + 1) (trcRoom_wr s))

theorem getLast?_mapAt {α : Type} (f : α → α) (xs : List α) : (mapAt f (xs.length - 1) xs).getLast? = xs.getLast?.map f := by
  induction xs with
  | nil => rfl
  | cons x xs ih =>
    cases xs with
    | nil => rfl
    | cons y ys =>
      have more : (mapAt f ys.length (y :: ys)).getLast? = (y :: ys).getLast?.map f := by simpa using ih
      have some_ : ∃ z zs, mapAt f ys.length (y :: ys) = z :: zs := by cases ys <;> exact ⟨_, _, rfl⟩
      obtain ⟨z, zs, eq⟩ := some_
      simp only [List.length_cons, Nat.add_sub_cancel, mapAt]
      rw [eq] at more ⊢
      rw [List.getLast?_cons_cons, more, List.getLast?_cons_cons]

/-- Closing the open frame writes one record, and no frame is open then (R551). -/
theorem trcClose_open (reason : Nat) (f : TrcFrame) (h : s.blv.openFrame = some f) :
    (s.trcClose reason).blv.openFrame = none ∧ (s.trcClose reason).blv.wr = s.blv.wr + 1
      ∧ Logs [.csr, .glb, .blv] [R.blvTrcLost, R.blvTrcStat, R.blvEvt] s (s.trcClose reason) := by
  unfold State.trcClose
  rw [h]
  refine ⟨?_, trcPut_wr s _, (trcPut_logs s _).trans ((modBlv_logs _ _).mono (by simp) (List.Subset.refl _))⟩
  simp [Blv.openFrame, getLast?_mapAt, State.modBlv]

/-- The filters read registers alone, so an occurrence that has left the waiting ones passes as before (R550). -/
theorem trcPass_modBlv (f : Blv → Blv) (kind src port plot addr : Nat) :
    (s.modBlv f).trcPass kind src port plot addr = s.trcPass kind src port plot addr := rfl

theorem trcLose_logs : Logs [.csr, .glb, .blv] [R.blvTrcLost, R.blvTrcStat, R.blvEvt] s s.trcLose :=
  ((rcount_logs s _ _ _ _).mono (by simp) (by simp)).trans (((raise_logs _ _ _).mono (by simp) (by simp)).trans ((cntGlob_logs _ _ _ _).mono (by simp) (by simp)))
end

section
variable {s : State}

/-- A lost record is counted and reported, and the Belvedere keeps all but counters (R550, R552). -/
theorem trcLose_lost (ok : s.regsOk) :
    s.blv.Counted s.trcLose.blv ∧ (s.trcLose.rget R.blvTrcStat).getLsbD 13 = true
      ∧ (s.softFree R.blvTrcLost → s.trcLose.rf R.blvTrcLost 15 0 = satAdd (s.rf R.blvTrcLost 15 0) 1 (2 ^ 16 - 1)) := by
  let c := s.rcount R.blvTrcLost 15 0 1
  have counted := rcount_logs s R.blvTrcLost 15 0 1
  have cOk : c.regsOk := counted.regsOk ok
  have raised := raise_logs c R.blvTrcStat 13
  have last := cntGlob_logs (c.raise R.blvTrcStat 13) 7 1 none
  refine ⟨?_, ?_, fun free => ?_⟩
  · have := cntGlob_counted (c.raise R.blvTrcStat 13) 7 1 none
    rwa [raise_blv, counted.only.blv_eq] at this
  · exact (congrArg (BitVec.getLsbD · 13) (last.rget (raised.regsOk cOk) (by decide))).trans (raise_bit _ _ cOk (by decide) (by decide))
  · have kept : s.trcLose.rget R.blvTrcLost = c.rget R.blvTrcLost :=
      (last.rget (raised.regsOk cOk) (by decide)).trans (raised.rget cOk (by decide))
    exact (congrArg (bitsOf · 15 0) kept).trans (rcount_field _ 15 0 1 ok free (by decide) (by decide))

/-- TRACE_RECORD (R550). -/
theorem traceRecord_outcomes (alive : s.alive = true) (ok : s.regsOk) (src kind port plot : Nat) (addr : BitVec 48) (det : BitVec 16) :
    let b := s.blv
    let rec_ := (s.band.sec, trcRec s.band.ns kind src port plot addr.toNat det.toNat)
    let occ := b.occ.erase { src := src, kind := kind, port := port, plot := plot, addr := addr, detail := det }
    (s.rbit R.blvTrcCtl 31 = false ∨ s.trcPass kind src port plot addr.toNat = false → Completes (.traceRecord src kind port plot addr det) s fun t =>
        t.blv = { b with occ := occ } ∧ OnlyParts [.blv] s t)
      ∧ (s.rbit R.blvTrcCtl 31 = true → s.trcPass kind src port plot addr.toNat = true → s.rf R.blvTrcCfg 27 24 = 0 →
        (b.staging.length + b.stPop.at_ s.now < 64 → Completes (.traceRecord src kind port plot addr det) s fun t =>
          t.blv = { b with occ := occ, sampleCtr := b.sampleCtr + 1, staging := b.staging ++ [rec_] } ∧ OnlyParts [.blv] s t)
        ∧ (64 ≤ b.staging.length + b.stPop.at_ s.now → Completes (.traceRecord src kind port plot addr det) s fun t =>
          t.blv.staging = b.staging ∧ t.blv.buf = b.buf ∧ (t.rget R.blvTrcStat).getLsbD 13 = true
            ∧ (s.softFree R.blvTrcLost → t.rf R.blvTrcLost 15 0 = satAdd (s.rf R.blvTrcLost 15 0) 1 (2 ^ 16 - 1)) ∧ OnlyParts [.blv, .csr, .glb] s t)) := by
  intro b rec_ occ
  let o : TrcOcc := { src := src, kind := kind, port := port, plot := plot, addr := addr, detail := det }
  let u := s.modBlv fun b => { b with occ := b.occ.erase o }
  have run : exec (.traceRecord src kind port plot addr det) s = .next (u.trcCapture src kind port plot addr.toNat det.toNat) :=
    live_alive (fun s => (s.modBlv fun b => { b with occ := b.occ.erase o }).trcTake o) alive
  have only := (modBlv_tame s fun b => { b with occ := b.occ.erase o }).only
  refine ⟨fun out => ⟨_, run, ?_⟩, fun en pass all => ⟨fun room => ⟨_, run, ?_⟩, fun full => ⟨_, run, ?_⟩⟩⟩
  · have eq : u.trcCapture src kind port plot addr.toNat det.toNat = u :=
      if_pos (by rcases out with h | h <;> simp [u, h, trcPass_modBlv, State.rbit] ; exact .inl h)
    rw [eq]; exact ⟨rfl, only⟩
  all_goals
    let v := u.modBlv fun b => { b with sampleCtr := s.blv.sampleCtr + 1 }
    have taken : u.trcCapture src kind port plot addr.toNat det.toNat
        = if 64 ≤ s.blv.staging.length + s.blv.stPop.at_ s.now then v.trcLose
          else v.modBlv fun b => { b with staging := b.staging ++ [rec_] } := by
      have sampled (k : Nat) : ¬ (k + Config.samplePhase) % 2 ^ s.rf R.blvTrcCfg 27 24 ≠ 0 := by simp [all, Nat.mod_one]
      refine (if_neg ?_).trans (if_neg (sampled _))
      simp [u, trcPass_modBlv, pass, State.rbit]; exact en
    have within : OnlyParts [.blv] s v := only.trans (modBlv_tame u _).only
  · rw [taken, if_neg (Nat.not_le.mpr room)]
    exact ⟨rfl, within.trans (modBlv_tame v _).only⟩
  · rw [taken, if_pos full]
    obtain ⟨kept, bit, count⟩ := trcLose_lost (s := v) ok
    exact ⟨(congrArg Blv.staging kept.eq :), (congrArg Blv.buf kept.eq :), bit, count, (within.mono (by simp)).trans ((trcLose_logs v).mono (by simp) (List.Subset.refl _)).only⟩

/-- The state after the idle timeout has closed a frame that holds a record besides its HEADER (R555). -/
def State.idleClosed (s : State) : State := if s.blv.openFrame.elim false (fun f => decide (2 ≤ f.count)) then s.trcClose 1 else s

theorem idleClosed_closes (f : TrcFrame) (h : s.blv.openFrame = some f) (two : 2 ≤ f.count) : s.idleClosed = s.trcClose 1 := if_pos (by simpa [h] using two)
theorem idleClosed_keeps (h : ∀ f, s.blv.openFrame = some f → f.count < 2) : s.idleClosed = s := by
  refine if_neg ?_
  cases k : s.blv.openFrame with
  | none => simp
  | some f => simpa using h f k
theorem idleClosed_logs (s : State) : Logs [.csr, .glb, .blv] [R.blvTrcLost, R.blvTrcStat, R.blvEvt] s s.idleClosed := by
  by_cases h : ∃ f, s.blv.openFrame = some f ∧ 2 ≤ f.count
  · obtain ⟨f, open_, two⟩ := h
    rw [idleClosed_closes f open_ two]; exact (trcClose_open s 1 f open_).2.2
  · rw [idleClosed_keeps fun f open_ => Nat.not_le.mp fun two => h ⟨f, open_, two⟩]; exact .refl

/-- TRACE_IDLE_TIMEOUT (R555). -/
theorem traceIdleTimeout_outcomes (alive : s.alive = true) (ok : s.regsOk) (k : Nat) (hk : k = s.rf R.blvTrcCfg 15 0) :
    let b := s.blv
    (k ≠ 0 → b.rd < b.wr → b.idleAt + k * ccPerUs ≤ s.now → Completes .traceIdleTimeout s fun t =>
        t.blv.idleAt = s.now ∧ (t.rget R.blvTrcStat).getLsbD 12 = true
          ∧ (b.openFrame = none → t.blv = { b with idleAt := s.now }) ∧ (∀ f, b.openFrame = some f → f.count < 2 → t.blv = { b with idleAt := s.now })
          ∧ (∀ f, b.openFrame = some f → 2 ≤ f.count → t.blv.openFrame = none ∧ t.blv.wr = b.wr + 1) ∧ OnlyParts [.blv, .csr, .glb] s t)
      ∧ (k = 0 ∨ b.wr ≤ b.rd ∨ s.now < b.idleAt + k * ccPerUs → exec .traceIdleTimeout s = .next s) := by
  intro b
  have run : exec .traceIdleTimeout s = .next s.trcIdle := live_alive State.trcIdle alive
  have closed := idleClosed_logs s
  refine ⟨fun pos wait due => ⟨_, run, ?_⟩, fun early => run.trans (congrArg _ ?_)⟩
  · have eq : s.trcIdle = (s.idleClosed.modBlv fun b => { b with idleAt := s.now }).raise R.blvTrcStat 12 := by
      rw [← closed.only.now_eq]
      unfold State.trcIdle
      dsimp only
      rw [if_neg]
      · rfl
      · simp only [Bool.or_eq_true, decide_eq_true_eq, not_or]
        exact ⟨⟨hk ▸ pos, Nat.not_le.mpr wait⟩, Nat.not_lt.mpr (hk ▸ due)⟩
    have kept (h : ∀ f, s.blv.openFrame = some f → f.count < 2) : s.trcIdle.blv = { b with idleAt := s.now } := by
      rw [eq, raise_blv, idleClosed_keeps h]; rfl
    refine ⟨by rw [eq, raise_blv]; rfl, by rw [eq]; exact raise_bit _ _ (closed.regsOk ok) (by decide) (by decide), fun h => kept fun f open_ => ?_,
      fun f h one => kept fun g open_ => ?_, fun f h two => ?_, ?_⟩
    · exact absurd (h.symm.trans open_) (by simp)
    · exact (Option.some.inj (h.symm.trans open_)) ▸ one
    · rw [eq, raise_blv, idleClosed_closes f h two]
      exact ⟨(trcClose_open s 1 f h).1, (trcClose_open s 1 f h).2.1⟩
    · rw [eq]
      exact ((closed.only.mono (by simp)).trans ((modBlv_tame _ _).mono (by simp)).only).trans ((raise_logs _ _ _).mono (by simp) (List.Subset.refl _)).only
  · unfold State.trcIdle
    dsimp only
    rw [if_pos]
    simp only [Bool.or_eq_true, decide_eq_true_eq, ← hk]
    tauto

/-- TRACE_DMA_WRITE (R554). -/
theorem traceDmaWrite_outcomes (alive : s.alive = true) (ring head free n : Nat) (hr : ring = 4096 * 2 ^ s.rf R.blvTrcDmaCfg 4 0)
    (hh : head = s.blv.head % ring) (hf : free = ((s.rget R.blvTrcDmaTail).toNat % ring + 2 * ring - head - 16) % ring / 16)
    (hn : n = min (min s.trcAvail 16) (min ((ring - head) / 16) free)) :
    (s.trcDma = false ∨ n = 0 → exec .traceDmaWrite s = .next s)
      ∧ (s.trcDma = true → n ≠ 0 → Completes .traceDmaWrite s fun t =>
        t.outs = .dma ((s.rget R.blvTrcDmaBaseLo).toNat + (s.rget R.blvTrcDmaBaseHi).toNat * 2 ^ 32 + head)
            ((List.range n).map fun i => s.trcAt (s.blv.rd + i)) :: s.outs
          ∧ t.blv = { s.blv with head := (head + 16 * n) % ring, rd := s.blv.rd + n, idleAt := s.now } ∧ OnlyParts [.blv, .outs] s t) := by
  have run : exec .traceDmaWrite s = .next s.trcDmaWrite := live_alive State.trcDmaWrite alive
  refine ⟨fun none_ => run.trans (congrArg _ ?_), fun dma some_ => ⟨_, run, ?_⟩⟩
  · subst hr hh hf hn
    exact if_pos (by simpa using none_)
  · have eq : s.trcDmaWrite = (s.modBlv fun b => { b with head := (head + 16 * n) % ring, rd := b.rd + n, idleAt := s.now }).emit
        (.dma ((s.rget R.blvTrcDmaBaseLo).toNat + (s.rget R.blvTrcDmaBaseHi).toNat * 2 ^ 32 + head) ((List.range n).map fun i => s.trcAt (s.blv.rd + i))) := by
      subst hr hh hf hn
      exact if_neg (by simpa [dma] using some_)
    rw [eq]
    exact ⟨rfl, rfl, (((modBlv_tame s _).mono (by simp)).trans ((emit_tame _ _).mono (by simp))).only⟩

/-- Counting an access changes nothing that the readers of the trace look at (R553, R554). -/
theorem counted_trace (s : State) (ok : s.regsOk) :
    (s.cntGlob 3).trcDma = s.trcDma ∧ (s.cntGlob 3).trcAvail = s.trcAvail ∧ (∀ i, (s.cntGlob 3).trcAt i = s.trcAt i)
      ∧ (s.cntGlob 3).blv.rd = s.blv.rd := by
  have cfg : (s.cntGlob 3).rget R.blvTrcCfg = s.rget R.blvTrcCfg := (cntGlob_logs s 3 1 none).rget ok (by decide)
  have kept := (cntGlob_counted s 3 1 none).eq
  have rd : (s.cntGlob 3).blv.rd = s.blv.rd := (congrArg Blv.rd kept :)
  have open_ : (s.cntGlob 3).blv.openFrame = s.blv.openFrame := (congrArg Blv.openFrame kept :)
  refine ⟨by unfold State.trcDma State.rbit; rw [cfg], ?_, fun i => ?_, rd⟩
  · unfold State.trcAvail State.trcAvailEnd State.rf
    rw [cfg, open_, rd, (congrArg Blv.wr kept :)]
  · exact congrArg (fun b => FMap.get (fun _ => 0) b (i % 16384)) (congrArg Blv.buf kept :)

/-- A privileged read of TRC_POP[0] latches the next record, counts as an access, and answers the record's first word (R537, R554). -/
theorem tracePopLatch_outcome (alive : s.alive = true) (ok : s.regsOk) (a : Access) (priv : s.privileged a = true) (off : s.trcDma = false)
    (some_ : s.trcAvail ≠ 0) :
    Completes (.tracePopLatch a) s fun t =>
      t.blv = { (s.cntGlob 3).blv with pop := some (s.trcAt s.blv.rd, s.blv.rd) } ∧ OnlyParts [.blv, .csr, .glb, .outs] s t
        ∧ t.outs = .read a.master (R.blvTrcPop 0) (BitVec.ofNat 64 ((s.trcAt s.blv.rd).toNat % 2 ^ 32)) :: s.outs := by
  have run : exec (.tracePopLatch a) s = .next (s.readOut a (R.blvTrcPop 0) 4) := live_alive (fun s => s.readOut a (R.blvTrcPop 0) 4) alive
  have counted := cntGlob_logs s 3 1 none
  have priv' := (counted_privileged s ok a).trans priv
  obtain ⟨dma, avail, next, rd⟩ := counted_trace s ok
  have latch : (s.cntGlob 3).trcLatch = (s.cntGlob 3).modBlv fun b => { b with pop := some (s.trcAt b.rd, b.rd) } := by
    rw [State.trcLatch, if_neg (by rw [dma, avail]; simp [off, some_])]; simp only [next]
  have word : (s.cntGlob 3).trcLatch.trcPopWord 0 = BitVec.ofNat 32 (s.trcAt s.blv.rd).toNat := by
    rw [latch, ← rd]
    refine if_neg ?_
    simp only [Bool.or_eq_true, Bool.and_eq_true, decide_eq_true_eq, not_or, not_and]
    exact ⟨fun h => absurd (dma.symm.trans h) (by simp [off]), fun _ h => some_ (avail.symm.trans h)⟩
  refine ⟨_, run, ?_⟩
  rw [readOut_word s a _ (by decide) (by decide) (by decide), read32_trcPop_latch a priv', word, latch]
  refine ⟨by rw [← rd]; rfl, ?_, ?_⟩
  · exact (counted.only.mono (by simp)).trans (((modBlv_tame _ _).mono (by simp)).trans ((emit_tame _ _).mono (by simp))).only
  · rw [← counted.only.outs_eq]; simp [State.emit]

/-- A privileged read of TRC_POP[3] answers the latched record's last word and removes the record (R537, R554, R555). -/
theorem tracePopRemove_outcome (alive : s.alive = true) (ok : s.regsOk) (a : Access) (priv : s.privileged a = true) (off : s.trcDma = false)
    (r : BitVec 128) (latched : s.blv.pop = some (r, s.blv.rd)) :
    Completes (.tracePopRemove a) s fun t =>
      t.blv = { (s.cntGlob 3).blv with pop := none, rd := s.blv.rd + 1, idleAt := s.now } ∧ OnlyParts [.blv, .csr, .glb, .outs] s t
        ∧ t.outs = .read a.master (R.blvTrcPop 3) (BitVec.ofNat 64 (r.toNat / 2 ^ 96 % 2 ^ 32)) :: s.outs := by
  have run : exec (.tracePopRemove a) s = .next (s.readOut a (R.blvTrcPop 3) 4) := live_alive (fun s => s.readOut a (R.blvTrcPop 3) 4) alive
  have counted := cntGlob_logs s 3 1 none
  have priv' := (counted_privileged s ok a).trans priv
  obtain ⟨dma, -, -, rd⟩ := counted_trace s ok
  have pop : (s.cntGlob 3).blv.pop = some (r, s.blv.rd) := (congrArg Blv.pop (cntGlob_counted s 3 1 none).eq :).trans latched
  have word : (s.cntGlob 3).trcPopWord 3 = BitVec.ofNat 32 (r.toNat >>> 96) := by
    rw [State.trcPopWord, if_neg (by rw [dma]; simp [off]), pop]; rfl
  have remove : (s.cntGlob 3).trcRemove = (s.cntGlob 3).modBlv fun b => { b with pop := none, rd := s.blv.rd + 1, idleAt := s.now } := by
    rw [State.trcRemove, if_neg (by rw [dma]; simp [off]), pop, ← counted.only.now_eq]
    simp only [State.modBlv, rd, if_true]
  refine ⟨_, run, ?_⟩
  rw [readOut_word s a _ (by decide) (by decide) (by decide), read32_trcPop_remove a priv', word, remove]
  refine ⟨rfl, ?_, ?_⟩
  · exact (counted.only.mono (by simp)).trans (((modBlv_tame _ _).mono (by simp)).trans ((emit_tame _ _).mono (by simp))).only
  · rw [← counted.only.outs_eq]; simp [State.emit, Nat.shiftRight_eq_div_pow]

/-- A command of TRC_CMD completes: what it claims follows from what TRC_CMD does in the state in which it is carried out. -/
theorem trcCmd_completes (ok : s.regsOk) (a : Access) (priv : s.privileged a = true) (on : s.glb.pwr ≠ .hibernate) (v : W32) {i : Instr} {claim : State → Prop}
    (run : exec i s = .next (s.cmdWrite a R.blvTrcCmd v))
    (h : ∀ r : State, r.blv = (s.cntGlob 3).blv → OnlyParts [.csr, .glb, .blv, .pairs] s r → r.regsOk → (∀ o, o ≠ R.blvEvt → r.rget o = s.rget o) →
      ∃ t, t = r.trcCmd (v &&& 0xE0000000) ∧ t.pend = s.pend ∧ t.regsOk ∧ ∀ u, Tame [.csr] t u → (∀ o, o ≠ R.blvTrcCmd → u.rget o = t.rget o) → claim u) :
    Completes i s claim := by
  obtain ⟨r, blv, only, rOk, regs, out⟩ := trcCmd_write s a v ok priv on
  obtain ⟨t, ht, pend, tOk, done⟩ := h r blv only rOk regs
  obtain ⟨u, hu, tame, same⟩ := out t ht pend tOk
  exact ⟨u, hu ▸ run, done u tame same⟩

theorem trcCmd_mark {r : State} (off : r.trcDma = false) (f : TrcFrame)
    (h : (r.blv.frames.find? fun x => decide (x.first ≤ r.blv.rd) && decide (r.blv.rd < x.first + x.count)) = some f) :
    r.trcCmd 0x80000000 = r.modBlv fun b => { b with mark := some f.first } := by
  simp [State.trcCmd, State.modBlv, off, h]
theorem trcCmd_rewind {r : State} (off : r.trcDma = false) (k : Nat) (h : r.blv.mark = some k) :
    r.trcCmd 0x40000000 = r.modBlv fun b => { b with rd := k, idleAt := if b.rd = b.wr then r.now else b.idleAt } := by
  simp [State.trcCmd, off, h]
theorem trcCmd_rewind_unmarked {r : State} (h : r.blv.mark = none) : r.trcCmd 0x40000000 = r.trcReject 30 .busy := by
  simp [State.trcCmd, h]
theorem trcCmd_markClr (r : State) : r.trcCmd 0x20000000 = r.modBlv fun b => { b with mark := none } := by
  simp [State.trcCmd]

/-- A record for the event queue joins the occurrences and the counters, and leaves the rest of the Belvedere (R355, R550). -/
theorem evPush_blv (r : State) (x : EvRec) :
    let c := (r.evPush x).blv
    c = { r.blv with cnt := c.cnt, ovf := c.ovf, cntOld := c.cntOld, occ := c.occ } := by
  have counted := (cntGlob_counted r 5 1 none).eq
  have joined (u : State) (o : TrcOcc) : (u.occur o).blv = { u.blv with occ := (u.occur o).blv.occ } := by
    unfold State.occur; split <;> rfl
  intro c
  unfold c State.evPush
  dsimp only
  split
  · rw [joined, State.modLodge_blv, counted]
  · rw [(groupEvent_logs (os := []) _ 9).only.blv_eq, (rcount_logs _ _ _ _ _).only.blv_eq, (hwSet_logs _ _ _).only.blv_eq, counted]

/-- A rejected MARK or REWIND is reported and moves nothing (R518, R556). -/
theorem trcReject_outcome (r : State) (ok : r.regsOk) (bit : Nat) (why : Reason) :
    (r.trcReject bit why).blv.rd = r.blv.rd ∧ (r.trcReject bit why).blv.mark = r.blv.mark
      ∧ ((r.trcReject bit why).rget R.blvTrcStat).getLsbD 11 = true ∧ ((r.trcReject bit why).rget R.glbCfgRejectEvt).getLsbD 8 = true
      ∧ Tame [.csr, .glb, .blv, .lodge] r (r.trcReject bit why) := by
  have rejected := cfgReject_logs r R.blvTrcCmd bit why
  have raised := raise_logs (r.cfgReject R.blvTrcCmd bit why) R.blvTrcStat 11
  have blv : (r.trcReject bit why).blv = (r.cfgReject R.blvTrcCmd bit why).blv := raise_blv _ _ _
  let u := (r.rset R.glbCfgRejectInfo (BitVec.ofNat 32 (((R.blvTrcCmd / 4) % 2 ^ 24) * 256 + bit * 8 + why.code))).raise R.glbCfgRejectEvt 8
  have before : u.blv = r.blv := raise_blv _ _ _
  have pushed := evPush_blv u { sec := u.band.sec, ns := u.band.ns, kind := EvKind.cfgReject.num, inst := 0, addr := R.blvTrcCmd, cls := 0, dev := 0x7F, detail := bit, store := .none }
  have rd : (r.cfgReject R.blvTrcCmd bit why).blv.rd = u.blv.rd := (congrArg Blv.rd pushed :)
  have mark : (r.cfgReject R.blvTrcCmd bit why).blv.mark = u.blv.mark := (congrArg Blv.mark pushed :)
  refine ⟨(congrArg Blv.rd blv).trans (rd.trans (congrArg Blv.rd before)), (congrArg Blv.mark blv).trans (mark.trans (congrArg Blv.mark before)), ?_, ?_, ?_⟩
  · exact raise_bit _ _ (rejected.regsOk ok) (by decide) (by decide)
  · exact (congrArg (BitVec.getLsbD · 8) (raised.rget (rejected.regsOk ok) (by decide))).trans (cfgReject_bit _ _ _ ok)
  · exact (rejected.tame).trans (raised.tame.mono (by simp))

/-- Settles O48. That TRACE_RECORD makes the record itself where no occurrence waits is log entry 242; HEAD and TAIL modulo the ring 252. -/
theorem traceBufferCommands : Obligations.TraceBufferCommands := by
  intro s alive canon on b
  have ok : s.regsOk := canon.1
  have kept := (cntGlob_counted s 3 1 none).eq
  refine ⟨traceRecord_outcomes alive ok, traceIdleTimeout_outcomes alive ok, fun a priv u hu => ⟨fun off some_ => ?_, fun r off latched => ?_, fun off => ⟨?_, ?_, ?_⟩, ?_⟩,
    traceDmaWrite_outcomes alive⟩
  · exact hu ▸ tracePopLatch_outcome alive ok a priv off some_
  · exact hu ▸ tracePopRemove_outcome alive ok a priv off r latched
  all_goals subst hu
  · intro f found
    refine trcCmd_completes ok a priv on _ (live_alive (fun s => s.cmdWrite a R.blvTrcCmd 0x80000000) alive) fun r blv only rOk regs => ?_
    have dma : r.trcDma = false := by rw [← off]; unfold State.trcDma State.rbit; rw [regs _ (by decide)]
    have open_ : (r.blv.frames.find? fun x => decide (x.first ≤ r.blv.rd) && decide (r.blv.rd < x.first + x.count)) = some f := by
      rw [blv, kept]; exact found
    refine ⟨_, (trcCmd_mark dma f open_).symm, only .pend (by decide), rOk, fun u tame _ => ⟨?_, ?_⟩⟩
    · rw [tame.only.blv_eq, ← blv]; rfl
    · exact (only.mono (by simp)).trans (((modBlv_tame r _).mono (by simp)).trans (tame.mono (by simp))).only
  · intro k marked
    refine trcCmd_completes ok a priv on _ (live_alive (fun s => s.cmdWrite a R.blvTrcCmd 0x40000000) alive) fun r blv only rOk regs => ?_
    have dma : r.trcDma = false := by rw [← off]; unfold State.trcDma State.rbit; rw [regs _ (by decide)]
    have mark : r.blv.mark = some k := by rw [blv, kept]; exact marked
    refine ⟨_, (trcCmd_rewind dma k mark).symm, only .pend (by decide), rOk, fun u tame _ => ?_⟩
    have moved : u.blv = _ := tame.only.blv_eq
    rw [moved]
    refine ⟨rfl, mark, ?_, ?_, ?_⟩
    · exact (congrArg Blv.wr (blv.trans kept) :)
    · exact (congrArg Blv.buf (blv.trans kept) :)
    · exact (only.mono (by simp)).trans (((modBlv_tame r _).mono (by simp)).trans (tame.mono (by simp))).only
  · intro unmarked
    refine trcCmd_completes ok a priv on _ (live_alive (fun s => s.cmdWrite a R.blvTrcCmd 0x40000000) alive) fun r blv only rOk regs => ?_
    have mark : r.blv.mark = none := by rw [blv, kept]; exact unmarked
    obtain ⟨rd, same, stat, evt, tame⟩ := trcReject_outcome r rOk 30 .busy
    refine ⟨_, (trcCmd_rewind_unmarked mark).symm, (tame.only .pend (by decide)).trans (only .pend (by decide)), tame.regs rOk, fun u after regs' => ?_⟩
    rw [after.only.blv_eq, regs' _ (by decide), regs' _ (by decide)]
    exact ⟨rd.trans (congrArg Blv.rd (blv.trans kept) :), same.trans mark, stat, evt,
      (only.mono (by simp)).trans ((tame.mono (by simp)).trans (after.mono (by simp))).only⟩
  · refine trcCmd_completes ok a priv on _ (live_alive (fun s => s.cmdWrite a R.blvTrcCmd 0x20000000) alive) fun r blv only rOk regs => ?_
    refine ⟨_, (trcCmd_markClr r).symm, only .pend (by decide), rOk, fun u tame _ => ⟨?_, ?_⟩⟩
    · rw [tame.only.blv_eq, ← blv]; rfl
    · exact (only.mono (by simp)).trans (((modBlv_tame r _).mono (by simp)).trans (tame.mono (by simp))).only
end
end Sys2Proof.Machine

namespace Sys2Proof.Machine

/-! ## A Lodge service's time and the part that channels and stacks share -/

/-- The state in which a step of a Lodge service acts: its time counts against the budget of the tick (R45). -/
def State.spent (s : State) (svc : Service) (units : Nat) : State :=
  s.modGlb fun g => { g with used := g.used.set (Machine.Service.num svc) (g.used.getD (Machine.Service.num svc) 0 + units) }

section
variable (s : State)

theorem spent_tame (svc : Service) (units : Nat) : Tame [.glb] s (s.spent svc units) := modGlb_tame s _
theorem spent_com (svc : Service) (units : Nat) (m : MemUnit) : (s.spent svc units).com m = s.com m := by cases m <;> rfl
theorem modCom_tame (m : MemUnit) (f : MemCom → MemCom) : Tame [.chans, .stks] s (s.modCom m f) := by
  cases m with
  | chan c => exact (modChan_tame s c fun ch => { ch with com := f ch.com }).mono (by simp)
  | stack k => exact (modStk_tame s k fun x => { x with com := f x.com }).mono (by simp)
theorem modCom_com (m : MemUnit) (f : MemCom → MemCom) : (s.modCom m f).com m = f (s.com m) := by
  cases m with
  | chan c => exact congrArg Chan.com (State.modChan_chan_same s c _)
  | stack k => exact congrArg Stk.com (State.modStk_stk_same s k _)
theorem modChan_onlyChan (c : ChanId) (f : Chan → Chan) : OnlyChan c s (s.modChan c f) := fun _ hk => State.modChan_chan_other s f hk

variable {s}

/-- A step that fits its budget acts. -/
theorem inBudget_fits {svc : Service} {units : Nat} (act : State → State) (fits : s.fits svc units) : s.inBudget svc units act = act (s.spent svc units) :=
  if_neg (Nat.not_lt.mpr fits)

/-- A step that does not fit its budget does nothing. -/
theorem inBudget_full {svc : Service} {units : Nat} (act : State → State) (full : ¬s.fits svc units) : s.inBudget svc units act = s :=
  if_pos (Nat.lt_of_not_le full)

/-- A command completes in the state that its effect is shown to be. -/
theorem Completes.of_eq {i : Instr} {claim : State → Prop} {t u : State} (run : exec i s = .next u) (effect : u = t) (h : claim t) : Completes i s claim :=
  ⟨t, effect ▸ run, h⟩

/-- An operation on the shared part of a unit, then an event in a register: the unit is as the operation left it. -/
theorem raise_com (m : MemUnit) (off bit : Nat) : (s.raise off bit).com m = s.com m := by
  cases m with
  | chan c => exact congrArg Chan.com ((raise_tame s off bit).only.chan_eq c)
  | stack k => exact congrArg Stk.com ((raise_tame s off bit).only.stk_eq k)

theorem OnlyChan.trans {c : ChanId} {t u : State} (h : OnlyChan c s t) (k : OnlyChan c t u) : OnlyChan c s u := fun j hj => (k j hj).trans (h j hj)
theorem OnlyChan.of_only {c : ChanId} {t : State} {ps : List Part} (h : OnlyParts ps s t) (hp : Part.chans ∉ ps := by decide) : OnlyChan c s t :=
  fun j _ => h.chan_eq j hp
end

end Sys2Proof.Machine

namespace Sys2Proof.Machine

/-! ## Margin walks (R311) -/

section
variable {s : State}

theorem walkStart_due {m : MemUnit} (serves : (s.com m).st = .inService) (idle : (s.com m).walk = false) (first : (s.com m).restart = false)
    (on : s.walkHours m ≠ 0) (due : (s.com m).walkStart + s.walkHours m * hourCc ≤ s.now) (free : s.glb.hold = false) :
    s.walkStart m = s.modCom m fun x => { x with walk := true, walkStart := s.now } :=
  if_pos (by simp [serves, idle, first, on, due, free])

theorem walkStep_not_last (m : MemUnit) (r : WalkResult) : s.walkStep m false r = s := if_pos (by simp)

/-- The bit WALK_DONE of a unit's event register (R311). -/
def walkBit (m : MemUnit) : Nat :=
  match m with
  | .chan _ => 16
  | .stack _ => 10
/-- The shared part of a unit after a walk has ended with a result made at a frequency code (R311). -/
def MemCom.walked (r : WalkResult) (code : Nat) (x : MemCom) : MemCom := { x with walk := false, walkRes := some (r, code), walkNew := true }

/-- The last step of a walk ends it with its result (R311). -/
theorem walkStep_last {m : MemUnit} (r : WalkResult) (runs : (s.com m).walk = true) (serves : (s.com m).st = .inService)
    (open_ : (s.com m).inWindow s.now = true) :
    ∃ code, s.walkStep m true r = (s.modCom m (MemCom.walked r code)).raise (evtOf m) (walkBit m) := by
  unfold State.walkStep
  rw [if_neg (by simp [runs, serves, open_])]
  cases m with
  | chan c => exact ⟨(s.chan c).freq, rfl⟩
  | stack k => exact ⟨0, rfl⟩

/-! ## Frequency changes (R312, R313) -/

variable {c : ChanId} {f : FreqChg}

theorem freqRun_starts (held : (s.chan c).freqChg = some f) (serves : (s.chan c).com.st = .inService) (noWalk : (s.chan c).com.walk = false)
    (noSurvey : (s.chan c).com.survey = none) (waits : f.running = false) (new old : Bool) :
    s.freqRun c new old = s.modChan c fun ch =>
      { ch with rows := [], com := { ch.com with st := .freqChange }, freqChg := some { f with running := true, since := s.now, back := false, newOk := new, oldOk := old } } := by
  have none_ : s.surveyAbort (.chan c) = s := if_neg (by simp [State.com, noSurvey])
  unfold State.freqRun
  rw [held]
  dsimp only
  rw [if_neg (by simp [serves, noWalk, waits]), none_]

/-- A channel that is back in service has the new code, keeps what its DIMMs hold, and no other channel has changed. -/
theorem freqDone_chan (s : State) (c : ChanId) (f : FreqChg) (code : Nat) :
    ((s.freqDone c f code).chan c).freq = code ∧ ((s.freqDone c f code).chan c).com.st = .inService ∧ ((s.freqDone c f code).chan c).freqChg = none
      ∧ ((s.freqDone c f code).chan c).dram = (s.chan c).dram ∧ ((s.freqDone c f code).chan c).init = (s.chan c).init := by
  simp only [State.freqDone, State.refStart, State.modCom, State.modChan_chan_same, and_self]
theorem freqDone_tame (s : State) (c : ChanId) (f : FreqChg) (code : Nat) : Tame [.chans] s (s.freqDone c f code) := by
  unfold State.freqDone State.refStart State.modCom
  exact (modChan_tame s c _).trans (modChan_tame _ c _)
theorem freqDone_onlyChan (s : State) (c : ChanId) (f : FreqChg) (code : Nat) : OnlyChan c s (s.freqDone c f code) := by
  unfold State.freqDone State.refStart State.modCom
  exact (modChan_onlyChan s c _).trans (modChan_onlyChan _ c _)

/-- A channel that fails holds no write any more (R352). -/
theorem chanFail_chan (s : State) (c : ChanId) (well : (s.chan c).com.st ≠ .failed) :
    ((s.chanFail c).chan c).com.st = .failed ∧ ((s.chanFail c).chan c).wq = [] := by
  unfold State.chanFail
  rw [if_neg well]
  dsimp only
  have reports (u : State) : (((u.raise (R.chanErrEvt c) 14).event .failed c.val 0 (store := .memory)).fatal 13).chan c = u.chan c :=
    ((fatal_tame _ 13).only.chan_eq c).trans (((event_tame _ _ _ _ _ _ _ _).only.chan_eq c).trans ((raise_tame u _ _).only.chan_eq c))
  have flagged (b : Bool) (u : State) (g : Glb → Glb) : (if b then u.modGlb g else u).chan c = u.chan c := by cases b <;> rfl
  rw [reports, flagged, State.modChan_chan_same]
  exact ⟨rfl, rfl⟩

theorem raise_onlyChan (s : State) (c : ChanId) (off bit : Nat) : OnlyChan c s (s.raise off bit) := .of_only (raise_tame s off bit).only

section
variable (held : (s.chan c).freqChg = some f) (runs : f.running = true) (ended : f.since + 230 * ccPerUs ≤ s.now)
include held runs ended

theorem freqStep_new (first : f.back = false) (good : f.newOk = true) : s.freqStep c = (s.freqDone c f f.code).raise (R.chanEvt c) 12 := by
  unfold State.freqStep; rw [held]; dsimp only; rw [if_neg (by simpa [runs] using ended)]; simp [first, good]
theorem freqStep_turns (first : f.back = false) (bad : f.newOk = false) :
    s.freqStep c = s.modChan c fun ch => { ch with freqChg := some { f with back := true, since := s.now } } := by
  unfold State.freqStep; rw [held]; dsimp only; rw [if_neg (by simpa [runs] using ended)]; simp [first, bad]
theorem freqStep_old (back : f.back = true) (good : f.oldOk = true) :
    s.freqStep c = (s.raise (R.chanEvt c) 10).freqDone c f ((s.raise (R.chanEvt c) 10).chan c).freq := by
  unfold State.freqStep; rw [held]; dsimp only; rw [if_neg (by simpa [runs] using ended)]; simp [back, good]
theorem freqStep_fails (back : f.back = true) (bad : f.oldOk = false) : s.freqStep c = (s.raise (R.chanEvt c) 10).chanFail c := by
  unfold State.freqStep; rw [held]; dsimp only; rw [if_neg (by simpa [runs] using ended)]; simp [back, bad]
end

theorem freqHold_late (held : (s.chan c).freqChg = some f) (walks : (s.chan c).com.walk = true) (late : f.at_ + 50000 * 3000 ≤ s.now) :
    s.freqHold c = (s.modChan c fun ch => { ch with freqChg := some { f with aborted := true }, com := { ch.com with walk := false } }).raise (R.chanEvt c) 11 := by
  unfold State.freqHold; rw [held]; dsimp only; rw [if_pos (by simp [walks, ccPerUs, late])]

end

/-! ## The commands -/

section
variable {s : State} (alive : s.alive = true)
include alive

section
variable {m : MemUnit} {units : Nat} (serves : (s.com m).st = .inService) (fits : s.fits .train units)
include serves fits

theorem marginWalkStart_completes (idle : (s.com m).walk = false) (first : (s.com m).restart = false) (on : s.walkHours m ≠ 0)
    (due : (s.com m).walkStart + s.walkHours m * hourCc ≤ s.now) (free : s.glb.hold = false) :
    Completes (.marginWalkStart ⟨m, units⟩) s fun t =>
      t.com m = { s.com m with walk := true, walkStart := s.now } ∧ OnlyParts [.chans, .stks, .glb] s t := by
  have run : exec (.marginWalkStart ⟨m, units⟩) s = .next (s.inBudget .train units fun s => s.walkStart m) :=
    live_alive (fun s => s.inBudget .train units fun s => s.walkStart m) alive
  have unit := spent_com s .train units m
  have hours : (s.spent .train units).walkHours m = s.walkHours m := by cases m <;> rfl
  have effect := walkStart_due (s := s.spent .train units) (m := m) (by rw [unit]; exact serves) (by rw [unit]; exact idle)
    (by rw [unit]; exact first) (by rw [hours]; exact on) (by rw [unit, hours]; exact due) free
  refine .of_eq run ((inBudget_fits _ fits).trans effect) ?_
  rw [modCom_com, unit]
  exact ⟨rfl, ((spent_tame s _ _).only.mono (by simp)).trans ((modCom_tame _ m _).only.mono (by simp))⟩

omit serves in
theorem marginWalkStep_not_last (r : WalkResult) : Completes (.marginWalkStep m false ⟨r, units⟩) s fun t => OnlyParts [.glb] s t := by
  have run : exec (.marginWalkStep m false ⟨r, units⟩) s = .next (s.inBudget .train units fun s => s.walkStep m false r) :=
    live_alive (fun s => s.inBudget .train units fun s => s.walkStep m false r) alive
  exact .of_eq run ((inBudget_fits _ fits).trans (walkStep_not_last m r)) (spent_tame s _ _).only

theorem marginWalkStep_last (ok : s.regsOk) (walks : (s.com m).walk = true) (r : WalkResult) (open_ : (s.com m).inWindow s.now = true) :
    Completes (.marginWalkStep m true ⟨r, units⟩) s fun t =>
      (t.com m).walk = false ∧ (∃ code, (t.com m).walkRes = some (r, code)) ∧ (t.com m).walkStart = (s.com m).walkStart
        ∧ Raised (evtOf m) (walkBit m) s t ∧ OnlyParts [.chans, .stks, .csr, .glb] s t := by
  have run : exec (.marginWalkStep m true ⟨r, units⟩) s = .next (s.inBudget .train units fun s => s.walkStep m true r) :=
    live_alive (fun s => s.inBudget .train units fun s => s.walkStep m true r) alive
  have unit := spent_com s .train units m
  obtain ⟨code, effect⟩ := walkStep_last (s := s.spent .train units) (m := m) r (by rw [unit]; exact walks) (by rw [unit]; exact serves)
    (by rw [unit]; exact open_)
  have walked := modCom_tame (s.spent .train units) m (MemCom.walked r code)
  have raised := raise_raised (evtOf m) (walkBit m) (walked.regs ok)
  refine .of_eq run ((inBudget_fits _ fits).trans effect) ?_
  rw [raise_com, modCom_com, unit]
  exact ⟨rfl, ⟨code, rfl⟩, rfl, by cases m <;> exact raised,
    ((spent_tame s _ _).only.mono (by simp)).trans ((walked.only.mono (by simp)).trans ((raise_tame _ _ _).only.mono (by simp)))⟩
end

variable {c : ChanId} {f : FreqChg} (held : (s.chan c).freqChg = some f)
include held

theorem freqChangeStart_completes (serves : (s.chan c).com.st = .inService) (noWalk : (s.chan c).com.walk = false)
    (noSurvey : (s.chan c).com.survey = none) (waits : f.running = false) (new old : Bool) :
    Completes (.freqChangeStart c new old) s fun t =>
      (t.chan c).com.st = .freqChange ∧ (t.chan c).freq = (s.chan c).freq ∧ (t.chan c).rows = [] ∧ (t.chan c).dram = (s.chan c).dram
        ∧ (t.chan c).freqChg = some { f with running := true, since := s.now, back := false, newOk := new, oldOk := old }
        ∧ (t.chan c).rq = (s.chan c).rq ∧ (t.chan c).wq = (s.chan c).wq ∧ OnlyChan c s t ∧ OnlyParts [.chans] s t := by
  have run : exec (.freqChangeStart c new old) s = .next (s.freqRun c new old) := live_alive (fun s => s.freqRun c new old) alive
  refine .of_eq run (freqRun_starts held serves noWalk noSurvey waits new old) ?_
  rw [State.modChan_chan_same]
  exact ⟨rfl, rfl, rfl, rfl, rfl, rfl, rfl, modChan_onlyChan s c _, (modChan_tame s c _).only⟩

theorem freqHoldTimeout_completes (ok : s.regsOk) (walks : (s.chan c).com.walk = true) (late : f.at_ + 50000 * 3000 ≤ s.now) :
    Completes (.freqHoldTimeout c) s fun t =>
      t.chan c = { s.chan c with freqChg := some { f with aborted := true }, com := { (s.chan c).com with walk := false } }
        ∧ Raised (R.chanEvt c) 11 s t ∧ OnlyChan c s t ∧ OnlyParts [.chans, .csr, .glb] s t := by
  have run : exec (.freqHoldTimeout c) s = .next (s.freqHold c) := live_alive (fun s => s.freqHold c) alive
  refine .of_eq run (freqHold_late held walks late) ?_
  rw [(raise_tame _ _ _).only.chan_eq, State.modChan_chan_same]
  exact ⟨rfl, raise_raised _ _ ok, (modChan_onlyChan s c _).trans (raise_onlyChan _ c _ _),
    ((modChan_tame s c _).only.mono (by simp)).trans ((raise_tame _ _ _).only.mono (by simp))⟩
end

/-! ## A running change goes on with the clock -/

section
variable {s : State} {c : ChanId} {f : FreqChg} (held : (s.chan c).freqChg = some f) (runs : f.running = true)
  (ended : f.since + 230 * ccPerUs ≤ s.now)
include held runs ended

theorem freqStep_new_code (ok : s.regsOk) (first : f.back = false) (good : f.newOk = true) :
    ((s.freqStep c).chan c).freq = f.code ∧ ((s.freqStep c).chan c).com.st = .inService ∧ ((s.freqStep c).chan c).freqChg = none
      ∧ ((s.freqStep c).chan c).dram = (s.chan c).dram ∧ ((s.freqStep c).chan c).init = (s.chan c).init
      ∧ Raised (R.chanEvt c) 12 s (s.freqStep c) ∧ OnlyChan c s (s.freqStep c) ∧ OnlyParts [.chans, .csr, .glb] s (s.freqStep c) := by
  rw [freqStep_new held runs ended first good, (raise_tame _ _ _).only.chan_eq]
  obtain ⟨code, serves, none_, dram, init⟩ := freqDone_chan s c f f.code
  have done := freqDone_tame s c f f.code
  have raised : Raised (R.chanEvt c) 12 s ((s.freqDone c f f.code).raise (R.chanEvt c) 12) := raise_raised _ _ (done.regs ok)
  exact ⟨code, serves, none_, dram, init, raised, (freqDone_onlyChan s c f _).trans (raise_onlyChan _ c _ _),
    (done.only.mono (by simp)).trans ((raise_tame _ _ _).only.mono (by simp))⟩

theorem freqStep_turns_back (first : f.back = false) (bad : f.newOk = false) :
    (s.freqStep c).chan c = { s.chan c with freqChg := some { f with back := true, since := s.now } }
      ∧ OnlyChan c s (s.freqStep c) ∧ OnlyParts [.chans] s (s.freqStep c) := by
  rw [freqStep_turns held runs ended first bad, State.modChan_chan_same]
  exact ⟨rfl, modChan_onlyChan s c _, (modChan_tame s c _).only⟩

theorem freqStep_old_code (ok : s.regsOk) (back : f.back = true) (good : f.oldOk = true) :
    ((s.freqStep c).chan c).freq = (s.chan c).freq ∧ ((s.freqStep c).chan c).com.st = .inService
      ∧ ((s.freqStep c).chan c).dram = (s.chan c).dram ∧ ((s.freqStep c).chan c).freqChg = none
      ∧ Raised (R.chanEvt c) 10 s (s.freqStep c) ∧ OnlyChan c s (s.freqStep c) ∧ OnlyParts [.chans, .csr, .glb] s (s.freqStep c) := by
  rw [freqStep_old held runs ended back good]
  have raised := raise_raised (s := s) (R.chanEvt c) 10 ok
  have chan : (s.raise (R.chanEvt c) 10).chan c = s.chan c := (raise_tame s _ _).only.chan_eq c
  obtain ⟨code, serves, none_, dram, -⟩ := freqDone_chan (s.raise (R.chanEvt c) 10) c f ((s.raise (R.chanEvt c) 10).chan c).freq
  have done := freqDone_tame (s.raise (R.chanEvt c) 10) c f ((s.raise (R.chanEvt c) 10).chan c).freq
  exact ⟨code.trans (by rw [chan]), serves, dram.trans (by rw [chan]), none_, (done.only.rget_eq _).trans raised,
    (raise_onlyChan s c _ _).trans (freqDone_onlyChan _ c f _), ((raise_tame s _ _).only.mono (by simp)).trans (done.only.mono (by simp))⟩

theorem freqStep_second_failure (back : f.back = true) (bad : f.oldOk = false) (well : (s.chan c).com.st ≠ .failed) :
    ((s.freqStep c).chan c).com.st = .failed ∧ ((s.freqStep c).chan c).wq = [] := by
  rw [freqStep_fails held runs ended back bad]
  exact chanFail_chan _ c (by rw [(raise_tame s _ _).only.chan_eq]; exact well)
end

/-- Settles O31: each step is its one change of the unit, and what is raised or charged reaches neither channels nor stacks. -/
theorem walksAndFrequencyChanges : Obligations.WalksAndFrequencyChanges :=
  ⟨fun _ _ _ alive ok serves fits =>
    ⟨marginWalkStart_completes alive serves fits,
      fun walks r => ⟨marginWalkStep_not_last alive fits r, marginWalkStep_last alive serves fits ok walks r⟩⟩,
    fun _ _ _ alive ok held =>
    ⟨freqChangeStart_completes alive held,
      fun runs ended => ⟨freqStep_new_code held runs ended ok, freqStep_turns_back held runs ended, freqStep_old_code held runs ended ok,
        freqStep_second_failure held runs ended⟩,
      freqHoldTimeout_completes alive held ok⟩⟩

end Sys2Proof.Machine

namespace Sys2Proof.Machine

/-! ## Fields beside an event's bit (R515, R519) -/

section
variable {s : State} {off i : Nat}

theorem bitsOf_eq_zero {w : Nat} (x : BitVec w) (hi lo : Nat) (h : ∀ i, lo ≤ i → i ≤ hi → x.getLsbD i = false) : bitsOf x hi lo = 0 := by
  refine Nat.eq_of_testBit_eq fun i => ?_
  rw [testBit_bitsOf, Nat.zero_testBit]
  by_cases k : i < hi + 1 - lo
  · rw [h (lo + i) (by omega) (by omega), Bool.and_false]
  · simp [k]

/-- An event's register keeps a bit that it had, whatever software has cleared in this cc. -/
theorem uncleared_bit (lo : 8 ≤ i) (hi : i < 32) (h : (s.rget off).getLsbD i = true) : (s.uncleared off).getLsbD i = true := by
  unfold State.uncleared
  split
  · exact h
  · rw [getLsbD_setBits _ _ _ _ _ hi (by omega), if_neg (by omega), BitVec.getLsbD_or, h, Bool.true_or]
/-- A bit that is no event is as the register has it. -/
theorem uncleared_field_bit (lo : 8 ≤ i) (hi : i < 32) (plain : (BitVec.ofNat 32 (rsqBits off)).getLsbD i = false) :
    (s.uncleared off).getLsbD i = (s.rget off).getLsbD i := by
  unfold State.uncleared
  split
  · rfl
  · rw [getLsbD_setBits _ _ _ _ _ hi (by omega), if_neg (by omega), BitVec.getLsbD_or, BitVec.getLsbD_and, plain, Bool.and_false, Bool.or_false]

theorem raise_keeps_bit (bit : Nat) (ok : s.regsOk) (lo : 8 ≤ i) (hi : i < 32) (h : (s.rget off).getLsbD i = true) :
    ((s.raise off bit).rget off).getLsbD i = true := by
  rw [raise_raised off bit ok]; exact getLsbD_eventWord_mono _ _ _ lo hi (uncleared_bit lo hi h)

/-- A survey's status after its end: RESULT in bits 11:10 and DONE (R360). -/
theorem surveyStat_done (ok : s.regsOk) (plain : ∀ i, i = 10 ∨ i = 11 → (BitVec.ofNat 32 (rsqBits off)).getLsbD i = false) :
    ((s.rfSet off 11 10 0).raise off 8).rf off 11 10 = 0 ∧ (((s.rfSet off 11 10 0).raise off 8).rget off).getLsbD 8 = true := by
  have ok' : (s.rfSet off 11 10 0).regsOk := (rset_tame s _ _).regs ok
  refine ⟨bitsOf_eq_zero _ _ _ fun i lo hi => ?_, raise_bit _ _ ok' (by decide) (by decide)⟩
  have written : ((s.rfSet off 11 10 0).rget off).getLsbD i = false := by
    rw [State.rfSet, rset_bit _ _ ok, getLsbD_setBits _ _ _ _ _ (by omega) (by decide), if_pos ⟨lo, hi⟩, Nat.zero_testBit]
  rw [raise_raised off 8 ok', eventWord, getLsbD_setBits _ _ _ _ _ (by omega) (by decide), if_neg (by omega),
    getLsbD_setBits _ _ _ _ _ (by omega) (by decide), if_neg (by omega), uncleared_field_bit (by omega) (by omega) (plain i (by omega)), written]

theorem chanSurveyStat_plain : ∀ (c : ChanId) (i : Nat), i = 10 ∨ i = 11 → (BitVec.ofNat 32 (rsqBits (R.chanSurveyStat c))).getLsbD i = false := by
  rintro c i (rfl | rfl) <;> revert c <;> decide
theorem stackSurveyStat_plain : ∀ (k : StackId) (i : Nat), i = 10 ∨ i = 11 → (BitVec.ofNat 32 (rsqBits (R.stackSurveyStat k))).getLsbD i = false := by
  rintro k i (rfl | rfl) <;> revert k <;> decide
end

/-! ## Operations within one channel -/

/-- Nothing but this channel has changed. -/
structure WithinChan (c : ChanId) (s t : State) : Prop where
  tame : Tame [.chans] s t
  only : OnlyChan c s t

section
variable {c : ChanId} {s t u : State}

theorem WithinChan.refl : WithinChan c s s := ⟨.refl, fun _ _ => rfl⟩
theorem WithinChan.trans (h : WithinChan c s t) (k : WithinChan c t u) : WithinChan c s u := ⟨h.tame.trans k.tame, h.only.trans k.only⟩
theorem WithinChan.ite {p : Prop} [Decidable p] (h : p → WithinChan c s t) (k : ¬p → WithinChan c s u) : WithinChan c s (if p then t else u) := by
  by_cases x : p
  · rw [if_pos x]; exact h x
  · rw [if_neg x]; exact k x
theorem WithinChan.foldl {β : Type} (f : State → β → State) (h : ∀ s x, WithinChan c s (f s x)) (xs : List β) : WithinChan c s (xs.foldl f s) := by
  induction xs generalizing s with
  | nil => exact .refl
  | cons x _ ih => exact (h s x).trans ih

variable (c s)

theorem modChan_within (f : Chan → Chan) : WithinChan c s (s.modChan c f) := ⟨modChan_tame s c f, modChan_onlyChan s c f⟩
theorem modLedger_within (i : Fin 64) (f : Ledger → Ledger) : WithinChan c s (s.modLedger c i f) := modChan_within c s _
theorem updDrain_within : WithinChan c s (s.updDrain c) := by
  unfold State.updDrain; exact modChan_within c s _
theorem charge_within (plot : Option PlotId) : WithinChan c s (s.charge c plot) := by
  cases plot with
  | none => exact .refl
  | some k => exact modChan_within c s fun ch => { ch with budget := ch.budget.set k.toNat (ch.budget[k.toNat]'(k.isLt) - 1) (k.isLt) }
theorem wqPush_within (ll : Nat) (st : Stored) (plot : Option PlotId) (raw : Bool) : WithinChan c s (s.wqPush c ll st plot raw) :=
  .ite (fun _ => .refl) fun _ => (modChan_within c s _).trans ((charge_within c _ plot).trans (updDrain_within c _))
theorem rewrite_within (ll : Nat) (st : Stored) : WithinChan c s (s.rewrite c ll st) :=
  .ite (fun _ => wqPush_within c s ll st none false) fun _ => modChan_within c s _
end

/-! ## Patrol and targeted reads (R358, R363) -/

/-- A channel's read queue once its patrol has asked for a line: one that is not written needs no read (R318, R358). -/
def State.readNext (s : State) (c : ChanId) (ll : Nat) (src : RdSrc) : List RqEnt :=
  if (s.chan c).written ll then (s.chan c).rq ++ [{ ll := ll, pa := s.paOfLl c.val ll, plot := none, at_ := s.now, src := src }] else (s.chan c).rq

section
variable {s : State} {c : ChanId} (serves : (s.chan c).com.st = .inService) (noSurvey : (s.chan c).com.survey = none)
  (credit : 0 < (s.chan c).com.patrolCredit) (room : (s.chan c).rq.length < 48) (lines : 0 < (s.chan c).lines) (engine : s.engineRoom c = true)
include serves noSurvey credit room lines engine

theorem patrol_next (none_ : (s.chan c).targets = []) :
    ((s.patrol c).chan c).com.patrolCredit = (s.chan c).com.patrolCredit - 1
      ∧ ((s.patrol c).chan c).rq = s.readNext c (s.chan c).com.patrolPos .patrol
      ∧ ((s.patrol c).chan c).com.patrolPos = (if (s.chan c).lines ≤ (s.chan c).com.patrolPos + 1 then 0 else (s.chan c).com.patrolPos + 1)
      ∧ ((s.patrol c).chan c).com.passes = (if (s.chan c).lines ≤ (s.chan c).com.patrolPos + 1 then ((s.chan c).com.passes + 1) % 32 else (s.chan c).com.passes)
      ∧ WithinChan c s (s.patrol c) := by
  have goes : ¬((s.chan c).com.st ≠ .inService || (s.chan c).com.survey.isSome || (s.chan c).com.patrolCredit = 0 || 48 ≤ (s.chan c).rq.length
      || (s.chan c).lines = 0 || !s.engineRoom c) = true := by
    simp [serves, noSurvey, engine]; omega
  unfold State.patrol
  dsimp only
  rw [if_neg goes]
  split
  · next eq => rw [none_] at eq; cases eq
  by_cases written : (s.chan c).written (s.chan c).com.patrolPos = true
  · rw [if_pos written]
    simp only [State.modCom, State.rqPush, State.modChan_chan_same, State.readNext, written, if_true]
    exact ⟨trivial, rfl, by simp, by simp, (modChan_within c s _).trans ((modChan_within c _ _).trans (modChan_within c _ _))⟩
  · rw [if_neg written]
    simp only [State.modCom, State.modChan_chan_same, State.readNext, written]
    exact ⟨trivial, rfl, by simp, by simp, (modChan_within c s _).trans (modChan_within c _ _)⟩

theorem targeted_first {ll : Nat} {rest : List Nat} (due : (s.chan c).targets = ll :: rest) :
    ((s.targeted c).chan c).targets = rest ∧ ((s.targeted c).chan c).rq = s.readNext c ll .targeted
      ∧ ((s.targeted c).chan c).com.patrolPos = (s.chan c).com.patrolPos
      ∧ ((s.targeted c).chan c).com.patrolCredit = (s.chan c).com.patrolCredit - 1 ∧ WithinChan c s (s.targeted c) := by
  have goes : ¬((s.chan c).com.st ≠ .inService || (s.chan c).com.survey.isSome || (s.chan c).com.patrolCredit = 0 || 48 ≤ (s.chan c).rq.length
      || (s.chan c).lines = 0 || !s.engineRoom c) = true := by
    simp [serves, noSurvey, engine]; omega
  unfold State.targeted
  rw [if_neg (by simp [due])]
  unfold State.patrol
  dsimp only
  rw [if_neg goes]
  split
  swap
  · next eq => rw [due] at eq; cases eq
  next l r eq =>
  obtain ⟨rfl, rfl⟩ : ll = l ∧ rest = r := by rw [due] at eq; injection eq with a b; exact ⟨a, b⟩
  by_cases written : (s.chan c).written ll = true
  · rw [if_pos written]
    simp only [State.modCom, State.rqPush, State.modChan_chan_same, State.readNext, written, if_true]
    exact ⟨trivial, rfl, trivial, trivial, (modChan_within c s _).trans ((modChan_within c _ _).trans (modChan_within c _ _))⟩
  · rw [if_neg written]
    simp only [State.modCom, State.modChan_chan_same, State.readNext, written]
    exact ⟨trivial, rfl, trivial, trivial, (modChan_within c s _).trans (modChan_within c _ _)⟩
end

/-! ## A stack's patrol (R359) -/

section
variable {s : State}

theorem checkTags_sound (p : PavId) (set : Nat) (sound : ∀ w, ((s.pav p).tag set w).parOk = true) : s.checkTags p set = s := by
  have fold (ws : List Nat) : ws.foldl (fun s w => if ((s.pav p).tag set w).parOk || (s.pav p).halted || (s.pav p).poisonQ.contains (set, w) then s
      else s.tagFault p set w) s = s := by
    induction ws with
    | nil => rfl
    | cons w rest ih => rw [List.foldl_cons, if_pos (by rw [sound w]; rfl), ih]
  exact fold ways16

theorem slotUse_tame (s : State) (p : PavId) (acct : Nat) : Tame [.blv] s (s.slotUse p acct) := by
  unfold State.slotUse; exact modBlv_tame s _

theorem stackCmd_tame (s : State) (p : PavId) (set way sub : Nat) (pa : LineAddr) (op : StackOp) (plot : Option PlotId) :
    Tame [.pavs] s (s.stackCmd p set way sub pa op plot) := by
  unfold State.stackCmd; exact modPav_tame s p _
theorem stackCmd_stored (s : State) (p q : PavId) (set way sub : Nat) (pa : LineAddr) (op : StackOp) (plot : Option PlotId) :
    ((s.stackCmd p set way sub pa op plot).pav q).stack = (s.pav q).stack ∧ ((s.stackCmd p set way sub pa op plot).pav q).tags = (s.pav q).tags := by
  unfold State.stackCmd
  by_cases h : q = p
  · rw [h, State.modPav_pav_same]; exact ⟨rfl, rfl⟩
  · rw [State.modPav_pav_other _ _ h]; exact ⟨rfl, rfl⟩

/-- What a patrol of sound tags may change: commands join a pavilion's stack queue. -/
theorem stackScrub_sound (sound : ∀ q set w, ((s.pav q).tag set w).parOk = true) (k : StackId) (sl : Nat) (op : StackOp) :
    Tame [.pavs] s (s.stackScrub k sl op).1
      ∧ ∀ p, ((s.stackScrub k sl op).1.pav p).stack = (s.pav p).stack ∧ ((s.stackScrub k sl op).1.pav p).tags = (s.pav p).tags := by
  have same (q : PavId) (set : Nat) : (if (s.pav q).place = .sectored && !(s.pav q).halted then s.checkTags q set else s) = s := by
    rw [checkTags_sound q set (sound q set), ite_self]
  unfold State.stackScrub
  dsimp only
  rw [same]
  split
  · exact ⟨stackCmd_tame s _ _ _ _ _ _ _, fun p => stackCmd_stored s _ p _ _ _ _ _ _⟩
  · exact ⟨.refl, fun _ => ⟨rfl, rfl⟩⟩

theorem stackPatrol_next {k : StackId} (serves : (s.stk k).com.st = .inService) (noSurvey : (s.stk k).com.survey = none)
    (credit : 0 < (s.stk k).com.patrolCredit) (sectored : (s.pav (pavOf (2 * k.val))).place = .sectored)
    (runs : (s.pav (pavOf (2 * k.val))).halted = false) (low : (s.stk k).com.patrolPos < 2 ^ 24) (free : s.glb.hold = false)
    (sound : ∀ q set w, ((s.pav q).tag set w).parOk = true) :
    ((s.stackPatrol k).stk k).com.patrolPos = (s.stk k).com.patrolPos + 1
      ∧ ((s.stackPatrol k).stk k).com.patrolCredit = (s.stk k).com.patrolCredit - 1
      ∧ (∀ p, ((s.stackPatrol k).pav p).stack = (s.pav p).stack ∧ ((s.stackPatrol k).pav p).tags = (s.pav p).tags)
      ∧ OnlyStk k s (s.stackPatrol k) ∧ OnlyParts [.stks, .pavs, .blv] s (s.stackPatrol k) := by
  have half : (s.stk k).com.patrolPos / 2 ^ 24 = 0 := Nat.div_eq_of_lt low
  have next : ((s.stk k).com.patrolPos + 1) % 2 ^ 25 = (s.stk k).com.patrolPos + 1 := Nat.mod_eq_of_lt (by omega)
  obtain ⟨wrap, effect⟩ : ∃ wrap : Bool, s.stackPatrol k
      = (State.stackScrub (s.modStk k fun y => { y with com := { y.com with patrolCredit := y.com.patrolCredit - 1, patrolPos := (s.stk k).com.patrolPos + 1
                                                                            passes := if wrap then (y.com.passes + 1) % 32 else y.com.passes } })
          k (s.stk k).com.patrolPos .patrol).1.slotUse (pavOf (2 * k.val + (s.stk k).com.patrolPos / 2 ^ 24)) 2 := by
    refine ⟨decide ((s.stk k).com.patrolPos < (s.stk k).com.patrolPos) || decide ((s.stk k).com.patrolPos + 1 = 0), ?_⟩
    unfold State.stackPatrol
    dsimp only
    rw [half, if_neg (by simp [serves, noSurvey, sectored, runs, free]; omega), Nat.add_zero, if_pos (by simp [sectored, runs]), next, half]
  rw [effect]
  obtain ⟨scrubbed, kept⟩ := stackScrub_sound (s := s.modStk k fun y =>
    { y with com := { y.com with patrolCredit := y.com.patrolCredit - 1, patrolPos := (s.stk k).com.patrolPos + 1, passes := if wrap then (y.com.passes + 1) % 32 else y.com.passes } })
    sound k (s.stk k).com.patrolPos .patrol
  have rest := (scrubbed.mono (qs := [.pavs, .blv]) (by simp)).trans
    ((slotUse_tame _ (pavOf (2 * k.val + (s.stk k).com.patrolPos / 2 ^ 24)) 2).mono (by simp))
  refine ⟨?_, ?_, fun p => ?_, fun j hj => ?_, ((modStk_tame s k _).only.mono (by simp)).trans (rest.only.mono (by simp))⟩
  · rw [rest.only.stk_eq k, State.modStk_stk_same]
  · rw [rest.only.stk_eq k, State.modStk_stk_same]
  · rw [(slotUse_tame _ _ _).only.pav_eq]; exact kept p
  · rw [rest.only.stk_eq j, State.modStk_stk_other _ _ hj]

/-! ## Surveys end (R360) -/

theorem surveyEnd_com (m : MemUnit) (result : Nat) : ((s.surveyEnd m result).com m).survey = none := by
  cases m with
  | chan c =>
    have filtered (u : State) (f : Chan → Chan) (h : ∀ ch, (f ch).com = ch.com) : (u.modChan c f).com (.chan c) = u.com (.chan c) := by
      unfold State.com; dsimp only; rw [State.modChan_chan_same, h]
    have written (u : State) (o v : Nat) : (u.rfSet o 11 10 v).com (.chan c) = u.com (.chan c) := rfl
    unfold State.surveyEnd
    dsimp only
    rw [raise_com, written, filtered _ (fun ch => { ch with rq := ch.rq.filter fun r => r.src ≠ .survey }) fun _ => rfl, modCom_com]
  | stack k =>
    have drop (u : State) (ps : List Nat) : (ps.foldl (fun s p => s.modPav (pavOf p) fun v =>
        { v with stackq := v.stackq.filter fun x => x.op ≠ .survey, stackRet := v.stackRet.filter fun x => x.cmd.op ≠ .survey }) u).com (.stack k) = u.com (.stack k) := by
      induction ps generalizing u with
      | nil => rfl
      | cons p _ ih => exact ih _
    have written (u : State) (o v : Nat) : (u.rfSet o 11 10 v).com (.stack k) = u.com (.stack k) := rfl
    unfold State.surveyEnd
    dsimp only
    rw [raise_com, written, drop, modCom_com]

theorem surveyEnd_chan_stat (ok : s.regsOk) (c : ChanId) :
    (s.surveyEnd (.chan c) 0).rf (R.chanSurveyStat c) 11 10 = 0 ∧ ((s.surveyEnd (.chan c) 0).rget (R.chanSurveyStat c)).getLsbD 8 = true :=
  surveyStat_done ok (chanSurveyStat_plain c)
theorem surveyEnd_stack_stat (ok : s.regsOk) (k : StackId) :
    (s.surveyEnd (.stack k) 0).rf (R.stackSurveyStat k) 11 10 = 0 ∧ ((s.surveyEnd (.stack k) 0).rget (R.stackSurveyStat k)).getLsbD 8 = true :=
  surveyStat_done ok (stackSurveyStat_plain k)

theorem surveyDone_read {m : MemUnit} {v : Survey} (runs : (s.com m).survey = some v) (serves : (s.com m).st = .inService) (past : v.stop ≤ v.pos)
    (back : (s.com m).surveyOut = 0) : s.surveyDone m = s.surveyEnd m 0 := by
  unfold State.surveyDone
  rw [runs]
  dsimp only
  rw [if_neg (by simp [serves]), if_pos (by simp [past, back])]

/-! ## The ledger and repairs (R362, R364) -/

variable {c : ChanId}

theorem ledgerExpire_quiet {e : Fin 64} (valid : (s.chan c).ledger[e].valid = true) (soft : (s.chan c).ledger[e].hard = false)
    (quiet : (s.chan c).ledger[e].tLast + hours24 ≤ s.band.sec) :
    s.ledgerExpire c e = (s.modLedger c e fun _ => {}).modChan c fun ch => { ch with targets := ch.targets.filter (· ≠ (s.chan c).ledger[e].ll) } :=
  if_pos (by rw [valid, soft, decide_eq_true quiet]; rfl)

/-- What the next repair request leaves (R364). -/
theorem nextRepair_keeps (ok : s.regsOk) :
    ((s.nextRepair c).chan c).pprRun = (s.chan c).pprRun ∧ OnlyChan c s (s.nextRepair c) ∧ OnlyRegs [R.chanErrEvt c] s (s.nextRepair c)
      ∧ ∀ i, 8 ≤ i → i < 32 → (s.rget (R.chanErrEvt c)).getLsbD i = true → ((s.nextRepair c).rget (R.chanErrEvt c)).getLsbD i = true := by
  have same : (s.chan c).pprRun = (s.chan c).pprRun ∧ OnlyChan c s s ∧ OnlyRegs [R.chanErrEvt c] s s
      ∧ ∀ i, 8 ≤ i → i < 32 → (s.rget (R.chanErrEvt c)).getLsbD i = true → (s.rget (R.chanErrEvt c)).getLsbD i = true :=
    ⟨rfl, fun _ _ => rfl, fun _ _ => rfl, fun _ _ _ h => h⟩
  unfold State.nextRepair
  split
  · exact same
  split
  · exact same
  · next i _ =>
    have asked := modChan_within c s fun ch => { ch with pprReq := some i.val }
    refine ⟨?_, asked.only.trans (.of_only (raise_tame _ _ _).only), (raise_logs _ _ _).regs (asked.tame.regs ok),
      fun i lo hi h => raise_keeps_bit 11 (asked.tame.regs ok) lo hi h⟩
    rw [(raise_tame _ _ _).only.chan_eq, State.modChan_chan_same]

theorem pprStat_apart : ∀ c : ChanId, R.chanPprStat c ∉ [R.chanErrEvt c] ∧ R.chanPprStat c ∉ [R.blvEvt, R.lodgeEvqStat]
    ∧ R.chanErrEvt c ∉ [R.blvEvt, R.lodgeEvqStat] := by decide

/-- What a repair that has ended reports (R364 step 5). -/
theorem repair_reported {u : State} (ok : s.regsOk) (within : WithinChan c s u) (ended : (u.chan c).pprRun = none) (spare : Bool) (addr : Nat) :
    let t := (((u.rfSet (R.chanPprStat c) 27 25 (if spare then 1 else 2)).raise (R.chanErrEvt c) (if spare then 12 else 13)).event
      .repair c.val addr (store := .memory)).nextRepair c
    (t.chan c).pprRun = none ∧ t.rf (R.chanPprStat c) 27 25 = (if spare then 1 else 2)
      ∧ (t.rget (R.chanErrEvt c)).getLsbD (if spare then 12 else 13) = true ∧ OnlyChan c s t := by
  intro t
  obtain ⟨apartErr, apartLog, errLog⟩ := pprStat_apart c
  have bit : 8 ≤ (if spare then 12 else 13) ∧ (if spare then 12 else 13) < 32 := by cases spare <;> decide
  have stored := rset_logs u (R.chanPprStat c) (setBits (u.rget (R.chanPprStat c)) 27 25 (if spare then 1 else 2))
  have okSet := stored.regsOk (within.tame.regs ok)
  have raised := raise_logs (u.rfSet (R.chanPprStat c) 27 25 (if spare then 1 else 2)) (R.chanErrEvt c) (if spare then 12 else 13)
  have okRaised := raised.regsOk okSet
  have logged := event_logs ((u.rfSet (R.chanPprStat c) 27 25 (if spare then 1 else 2)).raise (R.chanErrEvt c) (if spare then 12 else 13))
    .repair c.val addr 0 0x7F 0 .memory
  obtain ⟨run, only, regs, keeps⟩ := nextRepair_keeps (c := c) (logged.regsOk okRaised)
  refine ⟨?_, ?_, keeps _ bit.1 bit.2 ?_, ?_⟩
  · rw [run, logged.only.chan_eq, raised.only.chan_eq]; exact ended
  · unfold State.rf
    rw [regs _ apartErr, logged.rget okRaised apartLog, raised.rget okSet apartErr, State.rfSet, rset_bit _ _ (within.tame.regs ok),
      bitsOf_setBits_same _ _ _ _ (by decide) (by decide)]
    cases spare <;> rfl
  · rw [logged.rget okRaised errLog]; exact raise_bit _ _ okSet bit.1 bit.2
  · exact within.only.trans ((OnlyChan.of_only stored.only).trans ((OnlyChan.of_only raised.only).trans ((OnlyChan.of_only logged.only).trans only)))

/-- The end of a repair that has its row in the buffer (R364 steps 4 and 5). -/
theorem repairDone_end (ok : s.regsOk) {r : PprRun} (runs : (s.chan c).pprRun = some r) (serves : (s.chan c).com.st = .inService) (held : r.held = true)
    (whole : 128 ≤ r.next) (back : ∀ x ∈ (s.chan c).rq, x.src ≠ .repair) (spare : Bool) :
    ((s.repairDone c spare).chan c).pprRun = none ∧ (s.repairDone c spare).rf (R.chanPprStat c) 27 25 = (if spare then 1 else 2)
      ∧ ((s.repairDone c spare).rget (R.chanErrEvt c)).getLsbD (if spare then 12 else 13) = true ∧ OnlyChan c s (s.repairDone c spare) := by
  have goes : ¬(((s.chan c).com.st ≠ .inService || !r.held || r.next < 128 || (s.chan c).rq.any (fun r => r.src = .repair)) = true) := by
    simpa [serves, held, whole] using back
  have written := WithinChan.foldl (c := c) (s := s) (fun s x => s.rewrite c x.1 x.2) (fun s x => rewrite_within c s x.1 x.2) r.buf
  unfold State.repairDone
  rw [runs]
  dsimp only
  rw [if_neg goes]
  refine repair_reported ok (written.trans ((modChan_within c _ _).trans (modLedger_within c _ _ _))) ?_ spare _
  unfold State.modLedger
  simp only [State.modChan_chan_same]

end

/-! ## The commands -/

section
variable {s : State} (alive : s.alive = true)
include alive

section
variable {c : ChanId} (serves : (s.chan c).com.st = .inService) (noSurvey : (s.chan c).com.survey = none)
  (credit : 0 < (s.chan c).com.patrolCredit) (room : (s.chan c).rq.length < 48) (lines : 0 < (s.chan c).lines) (engine : s.engineRoom c = true)
include serves noSurvey credit room lines engine

theorem patrolRead_completes (none_ : (s.chan c).targets = []) : Completes (.patrolRead c) s fun t =>
    (t.chan c).com.patrolCredit = (s.chan c).com.patrolCredit - 1 ∧ (t.chan c).rq = s.readNext c (s.chan c).com.patrolPos .patrol
      ∧ (t.chan c).com.patrolPos = (if (s.chan c).lines ≤ (s.chan c).com.patrolPos + 1 then 0 else (s.chan c).com.patrolPos + 1)
      ∧ (t.chan c).com.passes = (if (s.chan c).lines ≤ (s.chan c).com.patrolPos + 1 then ((s.chan c).com.passes + 1) % 32 else (s.chan c).com.passes)
      ∧ OnlyChan c s t ∧ OnlyParts [.chans] s t := by
  have run : exec (.patrolRead c) s = .next (s.patrol c) := live_alive (fun s => s.patrol c) alive
  obtain ⟨spent, queued, moved, passes, within⟩ := patrol_next serves noSurvey credit room lines engine none_
  exact ⟨_, run, spent, queued, moved, passes, within.only, within.tame.only⟩

theorem targetedRewrite_completes (ll : Nat) (rest : List Nat) (units : Nat) (due : (s.chan c).targets = ll :: rest) (fits : s.fits .scrub units) :
    Completes (.targetedRewrite ⟨c, units⟩) s fun t =>
      (t.chan c).targets = rest ∧ (t.chan c).rq = s.readNext c ll .targeted ∧ (t.chan c).com.patrolPos = (s.chan c).com.patrolPos
        ∧ (t.chan c).com.patrolCredit = (s.chan c).com.patrolCredit - 1 ∧ OnlyChan c s t ∧ OnlyParts [.chans, .glb] s t := by
  have run : exec (.targetedRewrite ⟨c, units⟩) s = .next (s.inBudget .scrub units fun s => s.targeted c) :=
    live_alive (fun s => s.inBudget .scrub units fun s => s.targeted c) alive
  obtain ⟨left, queued, stays, spent, within⟩ := targeted_first (s := s.spent .scrub units) serves noSurvey credit room lines engine due
  exact .of_eq run (inBudget_fits _ fits) ⟨left, queued, stays, spent, within.only,
    ((spent_tame s _ _).only.mono (by simp)).trans (within.tame.only.mono (by simp))⟩
end

theorem surveyDone_completes (ok : s.regsOk) {m : MemUnit} {v : Survey} (runs : (s.com m).survey = some v) (serves : (s.com m).st = .inService)
    (past : v.stop ≤ v.pos) (back : (s.com m).surveyOut = 0) : Completes (.surveyDone m) s fun t =>
      (t.com m).survey = none
        ∧ (∀ c, m = .chan c → t.rf (R.chanSurveyStat c) 11 10 = 0 ∧ (t.rget (R.chanSurveyStat c)).getLsbD 8 = true)
        ∧ (∀ k, m = .stack k → t.rf (R.stackSurveyStat k) 11 10 = 0 ∧ (t.rget (R.stackSurveyStat k)).getLsbD 8 = true) := by
  have run : exec (.surveyDone m) s = .next (s.surveyDone m) := live_alive (fun s => s.surveyDone m) alive
  refine .of_eq run (surveyDone_read runs serves past back) ⟨surveyEnd_com m 0, ?_, ?_⟩
  · rintro c rfl; exact surveyEnd_chan_stat ok c
  · rintro k rfl; exact surveyEnd_stack_stat ok k

theorem ledgerEntryExpiry_completes {c : ChanId} {e : Fin 64} {units : Nat} (valid : (s.chan c).ledger[e].valid = true)
    (soft : (s.chan c).ledger[e].hard = false) (quiet : (s.chan c).ledger[e].tLast + hours24 ≤ s.band.sec) (fits : s.fits .scrub units) :
    Completes (.ledgerEntryExpiry c ⟨e, units⟩) s fun t =>
      (t.chan c).ledger[e].valid = false ∧ (∀ j : Fin 64, j ≠ e → (t.chan c).ledger[j] = (s.chan c).ledger[j])
        ∧ (t.chan c).dram = (s.chan c).dram ∧ OnlyChan c s t ∧ OnlyParts [.chans, .glb] s t := by
  have run : exec (.ledgerEntryExpiry c ⟨e, units⟩) s = .next (s.inBudget .scrub units fun s => s.ledgerExpire c e) :=
    live_alive (fun s => s.inBudget .scrub units fun s => s.ledgerExpire c e) alive
  have effect := ledgerExpire_quiet (s := s.spent .scrub units) valid soft quiet
  have within := (modLedger_within c (s.spent .scrub units) e fun _ => {}).trans
    (modChan_within c _ fun ch => { ch with targets := ch.targets.filter (· ≠ (s.chan c).ledger[e].ll) })
  refine .of_eq run ((inBudget_fits _ fits).trans effect) ⟨?_, fun j hj => ?_, ?_, within.only,
    ((spent_tame s _ _).only.mono (by simp)).trans (within.tame.only.mono (by simp))⟩ <;>
    simp only [State.modLedger, State.modChan_chan_same]
  · simp
  · have apart : e.val ≠ j.val := fun h => hj (Fin.ext h.symm)
    simp only [Fin.getElem_fin, Vector.getElem_set_ne _ _ apart]
    rfl
  · rfl

theorem repairDone_completes (ok : s.regsOk) {c : ChanId} {r : PprRun} {units : Nat} (spare : Bool) (runs : (s.chan c).pprRun = some r)
    (serves : (s.chan c).com.st = .inService) (held : r.held = true) (whole : 128 ≤ r.next) (back : ∀ x ∈ (s.chan c).rq, x.src ≠ .repair)
    (fits : s.fits .scrub units) : Completes (.repairDone c ⟨spare, units⟩) s fun t =>
      (t.chan c).pprRun = none ∧ t.rf (R.chanPprStat c) 27 25 = (if spare then 1 else 2)
        ∧ (t.rget (R.chanErrEvt c)).getLsbD (if spare then 12 else 13) = true ∧ OnlyChan c s t := by
  have run : exec (.repairDone c ⟨spare, units⟩) s = .next (s.inBudget .scrub units fun s => s.repairDone c spare) :=
    live_alive (fun s => s.inBudget .scrub units fun s => s.repairDone c spare) alive
  exact .of_eq run (inBudget_fits _ fits) (repairDone_end (s := s.spent .scrub units) ok runs serves held whole back spare)
end

/-- Settles O34: each command is its one step of the unit; the reports that end a survey or a repair keep RESULT and the bits set. -/
theorem scrubSurveyAndLedger : Obligations.ScrubSurveyAndLedger := by
  refine ⟨fun c s alive _ serves noSurvey credit room lines engine =>
      ⟨patrolRead_completes alive serves noSurvey credit room lines engine, targetedRewrite_completes alive serves noSurvey credit room lines engine⟩,
    fun k s alive serves noSurvey credit sectored runs low free sound => ?_, fun m v s alive ok => surveyDone_completes alive ok,
    fun c e units s alive => ledgerEntryExpiry_completes alive, fun c r spare units s alive ok => repairDone_completes alive ok spare⟩
  have run : exec (.stackPatrolRead k) s = .next (s.stackPatrol k) := live_alive (fun s => s.stackPatrol k) alive
  exact ⟨_, run, stackPatrol_next serves noSurvey credit sectored runs low free sound⟩

end Sys2Proof.Machine

namespace Sys2Proof.Machine

/-! ## The ring oscillators (R491) -/

theorem ringD_of_counts (i : Nat) (x : RingCount) (some_ : 0 < x.reference * (Config.ringFuse i).1)
    (slower : x.stressed * (Config.ringFuse i).2 ≤ x.reference * (Config.ringFuse i).1) :
    ringD i x = 10000 * (x.reference * (Config.ringFuse i).1 - x.stressed * (Config.ringFuse i).2) / (x.reference * (Config.ringFuse i).1) := by
  unfold ringD
  dsimp only
  rw [if_neg (by simp only [Bool.or_eq_true, decide_eq_true_eq]; omega)]

/-- The degradation of a pair from the counts that a measurement brings. -/
def ringValue (d : List RingCount) (i : Nat) : Nat := ringD i (d.getD i { stressed := 0, reference := 0 })
/-- A pair is read: its degradation joins the day's sum. -/
def Lodge.ringRead (d : List RingCount) (i : Nat) (l : Lodge) : Lodge :=
  { l with roD := FMap.insert l.roD i (ringValue d i)
           roSum := FMap.insert l.roSum i (((FMap.find? l.roSum i).getD (0, 0)).1 + ringValue d i, ((FMap.find? l.roSum i).getD (0, 0)).2 + 1) }
/-- One pair's part of a measurement. -/
def ringStep (d : List RingCount) (s : State) (i : Nat) : State := if s.isFenced (pavOf (i / 4)) then s else s.modLodge (Lodge.ringRead d i)

section
variable {s : State} {d : List RingCount}

theorem ringMeasure_armed (runs : s.clocksRun = true) (armed : s.lodge.roArm = true) (counted : s.lodge.roArmAt + 65536 ≤ s.now) :
    s.ringMeasure d = (List.range 64).foldl (ringStep d) (s.modLodge fun l => { l with roArm := false, roAt := s.now + hourCc }) := by
  unfold State.ringMeasure
  rw [if_neg (by simp [State.measures, runs, armed, counted])]
  rfl
theorem ringMeasure_idle (idle : s.clocksRun = false ∨ s.lodge.roArm = false ∨ s.now < s.lodge.roArmAt + 65536) : s.ringMeasure d = s :=
  if_pos (by rcases idle with h | h | h <;> simp [State.measures, h])

theorem ringStep_tame (i : Nat) : Tame [.lodge] s (ringStep d s i) := .ite (fun _ => .refl) fun _ => modLodge_tame s _

/-- After the pairs below n have been read, those of pavilions that are not fenced have their new values, and the others are as they
were. -/
theorem ringSteps (n : Nat) :
    let t := (List.range n).foldl (ringStep d) s
    Tame [.lodge] s t ∧ t.lodge = { s.lodge with roD := t.lodge.roD, roSum := t.lodge.roSum }
      ∧ ∀ i, (s.isFenced (pavOf (i / 4)) = true ∨ n ≤ i → FMap.find? t.lodge.roD i = FMap.find? s.lodge.roD i ∧ FMap.find? t.lodge.roSum i = FMap.find? s.lodge.roSum i)
        ∧ (s.isFenced (pavOf (i / 4)) = false → i < n → FMap.find? t.lodge.roD i = some (ringValue d i)
          ∧ FMap.find? t.lodge.roSum i
            = some (((FMap.find? s.lodge.roSum i).getD (0, 0)).1 + ringValue d i, ((FMap.find? s.lodge.roSum i).getD (0, 0)).2 + 1)) := by
  induction n with
  | zero => exact ⟨.refl, rfl, fun i => ⟨fun _ => ⟨rfl, rfl⟩, fun _ h => absurd h (Nat.not_lt_zero i)⟩⟩
  | succ n ih =>
    rw [List.range_succ, List.foldl_append]
    intro t
    obtain ⟨tame, lodge, pairs⟩ := ih
    refine ⟨tame.trans (ringStep_tame n), ?_, ?_⟩
    all_goals
      have fence : State.isFenced ((List.range n).foldl (ringStep d) s) (pavOf (n / 4)) = s.isFenced (pavOf (n / 4)) := by
        unfold State.isFenced; rw [tame.only.glb_eq]
      by_cases fenced : s.isFenced (pavOf (n / 4)) = true
    · rw [show t = (List.range n).foldl (ringStep d) s from if_pos (fence.trans fenced)]; exact lodge
    · rw [show t = State.modLodge ((List.range n).foldl (ringStep d) s) (Lodge.ringRead d n) from if_neg (by rw [fence]; exact fenced)]
      simp only [State.modLodge_lodge, Lodge.ringRead]
      rw [lodge]
    · rw [show t = (List.range n).foldl (ringStep d) s from if_pos (fence.trans fenced)]
      refine fun i => ⟨fun h => (pairs i).1 (h.imp_right fun le => by omega), fun free lt => (pairs i).2 free ?_⟩
      have : i ≠ n := fun eq => by rw [eq, fenced] at free; cases free
      omega
    · rw [show t = State.modLodge ((List.range n).foldl (ringStep d) s) (Lodge.ringRead d n) from if_neg (by rw [fence]; exact fenced)]
      simp only [State.modLodge_lodge, Lodge.ringRead]
      intro i
      by_cases eq : i = n
      · subst eq
        obtain ⟨-, sum⟩ := (pairs i).1 (.inr le_rfl)
        refine ⟨fun h => absurd h (by rintro (f | le) <;> [exact fenced f; omega]), fun _ _ => ⟨FMap.find_insert_same _ _ _, ?_⟩⟩
        rw [FMap.find_insert_same, sum]
      · rw [FMap.find_insert_other _ _ eq, FMap.find_insert_other _ _ eq]
        exact ⟨fun h => (pairs i).1 (h.imp_right fun le => by omega), fun free lt => (pairs i).2 free (by omega)⟩

/-- A pavilion that is not fenced lends its lookup slot (R40). -/
def lendStep (s : State) (p : PavId) : State := if s.isFenced p then s else (s.modPav p fun v => { v with lent := some s.now }).slotUse p 2

theorem lendStep_tame (p : PavId) : Tame [.pavs, .blv] s (lendStep s p) :=
  .ite (fun _ => .refl) fun _ => ((modPav_tame s p _).mono (by simp)).trans ((slotUse_tame _ p 2).mono (by simp))
theorem lendStep_pav (p q : PavId) :
    (lendStep s p).pav q = if q = p ∧ s.isFenced p = false then { s.pav q with lent := some s.now } else s.pav q := by
  unfold lendStep
  by_cases fenced : s.isFenced p = true
  · rw [if_pos fenced, if_neg (by simp [fenced])]
  · rw [if_neg fenced, (slotUse_tame _ p 2).only.pav_eq]
    by_cases eq : q = p
    · rw [eq, State.modPav_pav_same, if_pos ⟨rfl, Bool.eq_false_iff.mpr fenced⟩]
    · rw [State.modPav_pav_other _ _ eq, if_neg (by simp [eq])]

/-- After some pavilions have lent their slots, those that are not fenced have the cc in which they did. -/
theorem lendSteps (ps : List PavId) :
    Tame [.pavs, .blv] s (ps.foldl lendStep s)
      ∧ ∀ p, (ps.foldl lendStep s).pav p = if p ∈ ps ∧ s.isFenced p = false then { s.pav p with lent := some s.now } else s.pav p := by
  induction ps generalizing s with
  | nil => exact ⟨.refl, fun p => by simp⟩
  | cons q rest ih =>
    have step := lendStep_tame (s := s) q
    obtain ⟨tame, pavs⟩ := ih (s := lendStep s q)
    refine ⟨step.trans tame, fun p => ?_⟩
    have fence : (lendStep s q).isFenced p = s.isFenced p := by unfold State.isFenced; rw [step.only.glb_eq]
    rw [List.foldl_cons, pavs p, lendStep_pav, fence, step.only.now_eq]
    by_cases fenced : s.isFenced p = true
    · have : ¬(p = q ∧ s.isFenced q = false) := by rintro ⟨rfl, free⟩; rw [fenced] at free; cases free
      simp [fenced, this]
    · by_cases eq : p = q
      · subst eq; simp [fenced]
      · simp [fenced, eq]

/-- The measurement is armed where every pavilion that is not fenced can lend its slot; nothing else of a pavilion changes (R40). -/
theorem ringArm_lends (lends : ∀ p, s.isFenced p = false → FMap.find? s.blv.slot p.val = none ∧ (∀ x, (s.pav p).lent = some x → x + 256 ≤ s.now)) :
    s.ringArm.lodge = { s.lodge with roArm := true, roArmAt := s.now } ∧ (∀ p, s.isFenced p = false → s.ringArm.pav p = { s.pav p with lent := some s.now })
      ∧ (∀ p, s.isFenced p = true → s.ringArm.pav p = s.pav p) ∧ OnlyParts [.lodge, .pavs, .blv] s s.ringArm := by
  have armed : s.ringArm = allPavs.foldl lendStep (s.modLodge fun l => { l with roArm := true, roArmAt := s.now }) := by
    unfold State.ringArm
    dsimp only
    rw [if_neg]
    · rfl
    · simp only [Bool.not_eq_true', List.all_eq_false, not_exists, not_and, Bool.not_eq_true]
      intro p _
      cases fenced : s.isFenced p with
      | true => simp
      | false =>
        obtain ⟨free, due⟩ := lends p fenced
        rw [free]
        cases at_ : (s.pav p).lent with
        | none => simp
        | some x => simpa using due x at_
  obtain ⟨tame, pavs⟩ := lendSteps (s := s.modLodge fun l => { l with roArm := true, roArmAt := s.now }) allPavs
  rw [armed]
  refine ⟨tame.only.lodge_eq, fun p free => ?_, fun p fenced => ?_, ((modLodge_tame s _).only.mono (by simp)).trans (tame.only.mono (by simp))⟩
  · rw [pavs p, if_pos ⟨List.mem_finRange p, free⟩]; rfl
  · rw [pavs p, if_neg fun h => absurd (h.2.symm.trans fenced) (by decide)]; rfl
end

/-! ## Port margins (R491) and equalisation changes (R495) -/

section
variable {s : State} {n : PortId} {r : EyeResult}

theorem eyeTake_tame : Tame [.ports] s (s.eyeTake n r) := by unfold State.eyeTake; exact modIo_tame s n _
theorem marginEnd_tame : Tame [.ports] s (s.marginEnd n) := modLink_tame s n _
theorem eyeTake_onlyPort : OnlyPort n s (s.eyeTake n r) := by unfold State.eyeTake; exact modIo_onlyPort s n _
theorem marginEnd_onlyPort : OnlyPort n s (s.marginEnd n) := modLink_onlyPort s n _

theorem eyeMeasure_active (runs : s.clocksRun = true) (armed : s.lodge.eyeArm = true) (turn : s.lodge.nextEye = n.val)
    (active : (s.port n).link.st = .active) (flown : s.marginOver n s.lodge.eyeArmAt = true) :
    s.eyeMeasure n r = ((s.modLodge fun l => { l with eyeArm := false, nextEye := (l.nextEye + 1) % 96, eyeAt := s.now + 900000000 * ccPerUs }).eyeTake n r).marginEnd n := by
  unfold State.eyeMeasure
  dsimp only
  rw [if_neg (by simp [State.measures, runs, armed, turn, flown]), if_pos active]
theorem eyeMeasure_skipped (runs : s.clocksRun = true) (armed : s.lodge.eyeArm = true) (turn : s.lodge.nextEye = n.val)
    (down : (s.port n).link.st ≠ .active) :
    s.eyeMeasure n r = s.modLodge fun l => { l with eyeArm := false, nextEye := (l.nextEye + 1) % 96, eyeAt := s.now + 900000000 * ccPerUs } := by
  unfold State.eyeMeasure
  dsimp only
  rw [if_neg (by simp [State.measures, runs, armed, turn, down]), if_neg (by simp [down])]

theorem eyeArm_active (turn : s.lodge.nextEye = n.val) (active : (s.port n).link.st = .active) (quiet : (s.port n).link.ctlReq = none)
    (none_ : (s.port n).link.marginIn = 0) : s.eyeArm = (s.marginAsk n).modLodge fun l => { l with eyeArm := true, eyeArmAt := s.now } := by
  have port : portOf? s.lodge.nextEye = some n := by rw [turn]; exact dif_pos n.isLt
  unfold State.eyeArm
  rw [port]
  dsimp only
  rw [if_neg (by simp [active]), if_neg (by simp [quiet, none_])]
theorem eyeArm_skips (turn : s.lodge.nextEye = n.val) (down : (s.port n).link.st ≠ .active) :
    s.eyeArm = s.modLodge fun l => { l with nextEye := (l.nextEye + 1) % 96 } := by
  have port : portOf? s.lodge.nextEye = some n := by rw [turn]; exact dif_pos n.isLt
  unfold State.eyeArm
  rw [port]
  dsimp only
  rw [if_pos down]

theorem trainArm_change (runs : s.clocksRun = true) (due : s.eqDue = some n) :
    s.trainArm = (s.marginAsk n).modIo n fun io => { io with eqArm := some s.now } := by
  unfold State.trainArm; rw [if_neg (by simp [State.measures, runs]), due]
theorem trainArm_ring (runs : s.clocksRun = true) (none_ : s.eqDue = none) (due : s.lodge.roAt ≤ s.now) (idle : s.lodge.roArm = false) :
    s.trainArm = s.ringArm := by
  unfold State.trainArm; rw [if_neg (by simp [State.measures, runs]), none_]; dsimp only; rw [if_pos (by simp [due, idle])]
theorem trainArm_eye (runs : s.clocksRun = true) (none_ : s.eqDue = none) (early : s.now < s.lodge.roAt) (due : s.lodge.eyeAt ≤ s.now)
    (idle : s.lodge.eyeArm = false) : s.trainArm = s.eyeArm := by
  unfold State.trainArm; rw [if_neg (by simp [State.measures, runs]), none_]; dsimp only
  rw [if_neg (by simp only [Bool.and_eq_true, decide_eq_true_eq]; omega), if_pos (by simp [due, idle])]

/-- No change is judged where none is open, or its measurement cannot be made (R495). -/
theorem eqCheck_idle (idle : (s.port n).io.eqChg = none ∨ (s.port n).io.eqArm = none ∨ (s.port n).link.st ≠ .active ∨ s.clocksRun = false) :
    s.eqCheck n r = s := by
  unfold State.eqCheck
  split
  · next chg arm =>
    rw [chg, arm] at idle
    rw [if_pos]
    rcases idle with h | h | h | h
    · cases h
    · cases h
    · simp [h]
    · simp [State.measures, h]
  · rfl

section
variable {old dir h x y : Nat} (runs : s.clocksRun = true) (chg : (s.port n).io.eqChg = some (old, dir, h, x)) (arm : (s.port n).io.eqArm = some y)
  (active : (s.port n).link.st = .active) (flown : s.marginOver n y = true)
include runs chg arm active flown

theorem eqCheck_late (late : x + 1000000 * ccPerUs < s.now) :
    s.eqCheck n r = (s.marginEnd n).modIo n fun io => { io with eqChg := none, eqArm := none } := by
  unfold State.eqCheck
  rw [chg, arm]
  dsimp only
  rw [if_neg (by simp [State.measures, runs, active, flown]), if_pos]
  exact late
theorem eqCheck_judged (early : s.now ≤ x + 1000000 * ccPerUs) :
    s.eqCheck n r = if worst r.h + 2 ≤ h then
        (((s.marginEnd n).eyeTake n r).modIo n fun io => { io with eqChg := none, eqArm := none }).modIo n fun io =>
          { io with eqPend := some (old, none), eqBlock := (dir, s.lodge.day) :: io.eqBlock }
      else ((s.marginEnd n).eyeTake n r).modIo n fun io => { io with eqChg := none, eqArm := none } := by
  unfold State.eqCheck
  rw [chg, arm]
  dsimp only
  rw [if_neg (by simp [State.measures, runs, active, flown]), if_neg]
  · rfl
  · exact Nat.not_lt.mpr early
end
end

end Sys2Proof.Machine

namespace Sys2Proof.Machine

/-! ## Bytes written to the Icehouse are read back -/

theorem iceRead_iceWrite {ice : FMap Byte} (a : Nat) (bs : List Byte) (h : FMap.wf iceBlank ice = true) :
    iceRead (iceWrite ice a bs) a bs.length = bs := by
  induction bs generalizing ice a with
  | nil => rfl
  | cons b rest ih =>
    have put := FMap.wf_put a b h
    have first : iceByte (iceWrite (FMap.put iceBlank ice a b) (a + 1) rest) a = b :=
      (iceWrite_below rest put (Nat.lt_succ_self a)).trans (FMap.get_put_same a b h)
    have later : iceRead (iceWrite (FMap.put iceBlank ice a b) (a + 1) rest) (a + 1) rest.length = rest := ih (a + 1) put
    rw [List.length_cons, iceRead, List.range_succ_eq_map, List.map_cons, List.map_map, iceWrite, Nat.add_zero a, first]
    refine congrArg (b :: ·) (Eq.trans (List.map_congr_left fun i _ => ?_) later)
    exact congrArg (iceByte _) (by omega)

theorem leBytes_length (n k : Nat) : (leBytes n k).length = k := by
  induction k generalizing n with
  | zero => rfl
  | succ k ih => rw [leBytes, List.length_cons, ih]
theorem sealed_length (bs : List Byte) : (sealed bs).length = 64 := by
  simp [sealed, zeros, leBytes_length]
theorem ledgerBytes_length (s : State) : s.ledgerBytes.length = 64 := sealed_length _

/-! ## The margin plan (R493): what it may change -/

/-- The Lodge's state after a part of the daily plan: the Icehouse, the day's counts and the measurements are as they were. -/
def Lodge.Planned (l m : Lodge) : Prop :=
  m = { l with hist := m.hist, adv := m.adv, vcoreDay := m.vcoreDay, propGen := m.propGen, propCode := m.propCode, propWear := m.propWear }

/-- An operation of the daily plan keeps to the blocks that a plan reaches. -/
structure Plans (s t : State) : Prop where
  tame : Tame [.ports, .pavs, .chans, .stks, .glb, .lodge, .csr] s t
  lodge : s.lodge.Planned t.lodge

theorem Lodge.Planned.eq {l m : Lodge} (h : l.Planned m) :
    m = { l with hist := m.hist, adv := m.adv, vcoreDay := m.vcoreDay, propGen := m.propGen, propCode := m.propCode, propWear := m.propWear } := h

theorem Lodge.Planned.ice_eq {l m : Lodge} (h : l.Planned m) : m.ice = l.ice := by rw [h.eq]
theorem Lodge.Planned.planSeq_eq {l m : Lodge} (h : l.Planned m) : m.planSeq = l.planSeq := by rw [h.eq]

section
variable {s t u : State}

theorem Plans.refl : Plans s s := ⟨.refl, rfl⟩
theorem Plans.trans (h : Plans s t) (k : Plans t u) : Plans s u := ⟨h.tame.trans k.tame, by unfold Lodge.Planned; rw [Lodge.Planned.eq k.lodge, Lodge.Planned.eq h.lodge]⟩
theorem Plans.ite {c : Prop} [Decidable c] (h : c → Plans s t) (k : ¬c → Plans s u) : Plans s (if c then t else u) := by
  by_cases x : c
  · rw [if_pos x]; exact h x
  · rw [if_neg x]; exact k x
theorem Plans.foldl {β : Type} (f : State → β → State) (h : ∀ s x, Plans s (f s x)) (xs : List β) : Plans s (xs.foldl f s) := by
  induction xs generalizing s with
  | nil => exact .refl
  | cons x _ ih => exact (h s x).trans ih
theorem Plans.of_tame {ps : List Part} (h : Tame ps s t) (le : ps ⊆ [.ports, .pavs, .chans, .stks, .glb, .lodge, .csr]) (out : Part.lodge ∉ ps := by decide) :
    Plans s t := ⟨h.mono le, by rw [h.only.lodge_eq out]; rfl⟩
theorem Plans.regsOk (h : Plans s t) (ok : s.regsOk) : t.regsOk := h.tame.regs ok

theorem modPav_plans (p : PavId) (f : Pav → Pav) : Plans s (s.modPav p f) := .of_tame (modPav_tame s p f) (by simp)
theorem modIo_plans (n : PortId) (f : PortIo → PortIo) : Plans s (s.modIo n f) := .of_tame (modIo_tame s n f) (by simp)
theorem modCom_plans (m : MemUnit) (f : MemCom → MemCom) : Plans s (s.modCom m f) := .of_tame (modCom_tame s m f) (by simp)
theorem advise_plans : Plans s s.advise := .of_tame (raise_tame s R.lodgeAgeEvt 10) (by simp)
theorem advSet_plans (bit : Nat) : Plans s (s.advSet bit) := ⟨(modLodge_tame s _).mono (by simp), rfl⟩
theorem histPush_plans (q cond v : Nat) : Plans s (s.histPush q cond v) := ⟨(modLodge_tame s _).mono (by simp), rfl⟩
theorem propose_plans (f : Lodge → Lodge) (bit : Nat) (h : s.lodge.Planned (f s.lodge)) : Plans s ((s.modLodge f).advSet bit).advise :=
  have changed : Plans s (s.modLodge f) := ⟨(modLodge_tame s f).mono (by simp), h⟩
  changed.trans ((advSet_plans bit).trans advise_plans)

theorem planPav_plans (p : PavId) : Plans s (s.planPav p).1 := by
  unfold State.planPav
  split
  · exact .refl
  · exact modPav_plans p fun _ => _
theorem planVcore_plans : Plans s s.planVcore := by
  unfold State.planVcore
  dsimp only
  refine .ite (fun _ => .refl) fun _ => .ite (fun _ => .ite (fun _ => .refl) fun _ => (advSet_plans 30).trans advise_plans) fun _ => ?_
  exact propose_plans (fun l => { l with adv := setBits l.adv 15 8 (bitsOf s.lodge.adv 15 8 + 5), vcoreDay := some l.day }) 31 rfl
theorem proposeGen_plans (n : PortId) (gen : Nat) {c : Prop} [Decidable c] (h : Plans s u) :
    Plans s (if c then ((u.modLodge fun l => { l with propGen := FMap.insert l.propGen n.val gen }).advSet 29).advise else u) :=
  .ite (fun _ => h.trans (propose_plans (fun l => { l with propGen := FMap.insert l.propGen n.val gen }) 29 rfl)) fun _ => h
theorem planPort_plans (n : PortId) : Plans s (s.planPort n) := by
  have cleared : Plans s (s.modIo n fun io => { io with eqPend := none }) := modIo_plans n _
  unfold State.planPort
  dsimp only
  split
  · exact cleared
  split
  · exact proposeGen_plans n _ cleared
  · split
    · exact proposeGen_plans n _ cleared
    · exact proposeGen_plans n _ (cleared.trans (modIo_plans n _))
theorem planChan_plans (c : ChanId) : Plans s (s.planChan c) := by
  have aimed : Plans s (s.modCom (.chan c) fun x => x.retarget) := modCom_plans _ _
  unfold State.planChan
  dsimp only
  refine .ite (fun _ => aimed) fun _ => .ite (fun _ => aimed) fun _ => aimed.trans ?_
  exact propose_plans (fun l => { l with propCode := FMap.insert l.propCode c.val _ }) 28 rfl
theorem planStk_plans (k : StackId) : Plans s (s.planStk k) := by
  have aimed : Plans s (s.modCom (.stack k) fun x => x.retarget) := modCom_plans _ _
  unfold State.planStk
  dsimp only
  refine .ite (fun _ => aimed) fun _ => aimed.trans ?_
  exact propose_plans (fun l => { l with propWear := l.propWear ++ [k.val] }) 27 rfl
theorem histDay_plans : Plans s s.histDay := by
  have pav (s : State) (p : PavId) : Plans s (match s.lodge.dayWorst p with
      | none => s
      | some d => (s.modPav p fun v => { v with ageWorst := d }).histPush p.val 0 d) := by
    split
    · exact .refl
    · exact (modPav_plans p _).trans (histPush_plans _ _ _)
  have port (s : State) (x : Nat × Nat × Nat) : Plans s (match portOf? x.1 with
      | none => s
      | some n => let g := (s.port n).io.eyeGen
        (s.histPush (100 + x.1) g x.2.1).histPush (200 + x.1) g x.2.2) := by
    split
    · exact .refl
    · exact (histPush_plans _ _ _).trans (histPush_plans _ _ _)
  have twice (q q' : Nat → Nat) (cond v v' : Nat × WalkResult × Nat → Nat) (s : State) (x : Nat × WalkResult × Nat) :
      Plans s ((s.histPush (q x.1) (cond x) (v x)).histPush (q' x.1) (cond x) (v' x)) := (histPush_plans _ _ _).trans (histPush_plans _ _ _)
  exact (Plans.foldl _ pav _).trans ((Plans.foldl _ port _).trans ((Plans.foldl _ (twice (300 + ·) (320 + ·) (·.2.2) (·.2.1.timing) (·.2.1.vref)) _).trans
    (Plans.foldl _ (twice (340 + ·) (350 + ·) (fun _ => 0) (·.2.1.timing) (·.2.1.vref)) _)))

/-- Each pavilion's plan in turn, whatever they say of the core supply. -/
theorem planPavs_plans (ps : List PavId) (a : State × Bool) (h : Plans s a.1) :
    Plans s (ps.foldl (fun (a : State × Bool) p => let r := a.1.planPav p; (r.1, a.2 || r.2)) a).1 := by
  induction ps generalizing a with
  | nil => exact h
  | cons p _ ih => exact ih _ (h.trans (planPav_plans p))

/-- The plan leaves all but its own part of the Lodge, counts itself and sets PLAN_NEW (R493). -/
theorem plan_result : ∃ u, Plans s u ∧ s.plan = (u.modLodge fun l => { l with planSeq := (l.planSeq + 1) % 256 }).raise R.lodgeAgeEvt 8 := by
  have pavs := planPavs_plans allPavs (s, false) (Plans.refl (s := s))
  unfold State.plan
  split
  next u up eq =>
  rw [eq] at pavs
  refine ⟨forStks (forChans (forPorts (if up then u.planVcore else u) fun n s => s.planPort n) fun c s => s.planChan c) fun k s => s.planStk k, ?_, rfl⟩
  refine Plans.trans ?_ (.foldl _ (fun s k => planStk_plans k) _)
  refine Plans.trans ?_ (.foldl _ (fun s c => planChan_plans c) _)
  refine Plans.trans ?_ (.foldl _ (fun s n => planPort_plans n) _)
  exact .ite (fun _ => pavs.trans planVcore_plans) fun _ => pavs
end

/-! ## The daily record (R492) -/

/-- The Lodge once the day's record is in the ledger ring. -/
def Lodge.recorded (bytes : List Byte) (l : Lodge) : Lodge :=
  { l with ice := iceWrite l.ice (ledgerBase + 64 * l.ledgerPos) bytes, ledgerPos := (l.ledgerPos + 1) % 32768, lseq := (l.lseq + 1) % 2 ^ 32
           ledgerCnt := min (l.ledgerCnt + 1) 0xFFFF, powered := l.powered + 24, dayStart := l.dayStart + 24 * hourCc, day := l.day + 1 }

theorem Lodge.recorded_planSeq (bytes : List Byte) (l : Lodge) : (l.recorded bytes).planSeq = l.planSeq := rfl

theorem Lodge.recorded_counts {bytes : List Byte} {l m : Lodge} (h : (l.recorded bytes).Planned m) :
    m.ledgerPos = (l.ledgerPos + 1) % 32768 ∧ m.lseq = (l.lseq + 1) % 2 ^ 32 ∧ m.powered = l.powered + 24 ∧ m.day = l.day + 1
      ∧ m.dayStart = l.dayStart + 24 * hourCc := by
  rw [h.eq]; exact ⟨rfl, rfl, rfl, rfl, rfl⟩
theorem Lodge.recorded_ice (bytes : List Byte) (l : Lodge) : (l.recorded bytes).ice = iceWrite l.ice (ledgerBase + 64 * l.ledgerPos) bytes := rfl

section
variable {s : State}

theorem forPorts_io_only (f : PortIo → PortIo) : Tame [.ports] s (forPorts s fun n s => s.modIo n f) := .foldl _ (fun s n => modIo_tame s n f) _
theorem forChans_com_only (f : MemCom → MemCom) : Tame [.chans, .stks] s (forChans s fun c s => s.modCom (.chan c) f) :=
  .foldl _ (fun s c => modCom_tame s (.chan c) f) _
theorem forStks_com_only (f : MemCom → MemCom) : Tame [.chans, .stks] s (forStks s fun k s => s.modCom (.stack k) f) :=
  .foldl _ (fun s k => modCom_tame s (.stack k) f) _

/-- The day's values of ports, channels and stacks have been taken into account. -/
def dayClosed (s : State) : State :=
  forStks (forChans (forPorts s fun n s => s.modIo n fun io => { io with eyeNew := false }) fun c s => s.modCom (.chan c) fun x => { x with walkNew := false })
    fun k s => s.modCom (.stack k) fun x => { x with walkNew := false }
theorem dayClosed_tame (s : State) : Tame [.ports, .chans, .stks] s (dayClosed s) :=
  ((forPorts_io_only _).mono (by simp)).trans (((forChans_com_only _).mono (by simp)).trans ((forStks_com_only _).mono (by simp)))

/-- What a day's record and its plan leave in the Lodge. -/
theorem ageingDay_due (ok : s.regsOk) (due : s.lodge.dayStart + 24 * hourCc ≤ s.now) :
    (∃ m, (s.lodge.recorded s.ledgerBytes).Planned m ∧ s.ageingDay.lodge
        = { m with planSeq := (s.lodge.planSeq + 1) % 256, roSum := [], tjHi := none, tjSum := 0, tjCnt := 0, dayTrims := 0, dayEq := 0, dayRev := 0 })
      ∧ (s.ageingDay.rget R.lodgeAgeEvt).getLsbD 8 = true ∧ OnlyParts [.ports, .pavs, .chans, .stks, .glb, .lodge, .csr] s s.ageingDay := by
  have written := modLodge_tame s (Lodge.recorded s.ledgerBytes)
  have joined := histDay_plans (s := s.modLodge (Lodge.recorded s.ledgerBytes))
  obtain ⟨u, planned, plan⟩ := plan_result (s := (s.modLodge (Lodge.recorded s.ledgerBytes)).histDay)
  have whole := joined.trans planned
  have counted := modLodge_tame u fun l => { l with planSeq := (l.planSeq + 1) % 256 }
  have raised := raise_tame (u.modLodge fun l => { l with planSeq := (l.planSeq + 1) % 256 }) R.lodgeAgeEvt 8
  have zeroed := modLodge_tame ((u.modLodge fun l => { l with planSeq := (l.planSeq + 1) % 256 }).raise R.lodgeAgeEvt 8)
    fun l => { l with roSum := [], tjHi := none, tjSum := 0, tjCnt := 0, dayTrims := 0, dayEq := 0, dayRev := 0 }
  have effect : s.ageingDay = dayClosed (((u.modLodge fun l => { l with planSeq := (l.planSeq + 1) % 256 }).raise R.lodgeAgeEvt 8).modLodge
      fun l => { l with roSum := [], tjHi := none, tjSum := 0, tjCnt := 0, dayTrims := 0, dayEq := 0, dayRev := 0 }) := by
    unfold State.ageingDay
    rw [if_neg (Nat.not_lt.mpr due), ← plan]
    rfl
  rw [effect, (dayClosed_tame _).only.lodge_eq]
  refine ⟨⟨u.lodge, whole.lodge, ?_⟩, ?_, ?_⟩
  · rw [State.modLodge_lodge, raised.only.lodge_eq, State.modLodge_lodge]
    have seq : u.lodge.planSeq = s.lodge.planSeq := by
      rw [whole.lodge.planSeq_eq, State.modLodge_lodge, Lodge.recorded_planSeq]
    dsimp only
    rw [seq]
  · rw [(dayClosed_tame _).only.rget_eq, zeroed.only.rget_eq]
    exact raise_bit _ _ (counted.regs (whole.regsOk (written.regs ok))) (by decide) (by decide)
  · exact (written.only.mono (by simp)).trans (whole.tame.only.trans ((counted.only.mono (by simp)).trans ((raised.only.mono (by simp)).trans
      ((zeroed.only.mono (by simp)).trans ((dayClosed_tame _).only.mono (by simp))))))
end

end Sys2Proof.Machine

namespace Sys2Proof.Machine

/-! ## The commands -/

theorem spent_onlyPort (s : State) (svc : Service) (k : Nat) (n : PortId) : OnlyPort n s (s.spent svc k) := fun _ _ => rfl
theorem spent_ledgerBytes (s : State) (svc : Service) (k : Nat) : (s.spent svc k).ledgerBytes = s.ledgerBytes := rfl

section
variable {s : State} (alive : s.alive = true)
include alive

theorem ringOscillatorMeasure_exec (d : List RingCount) (k : Nat) :
    exec (.ringOscillatorMeasure ⟨d, k⟩) s = .next (s.inBudget .train k fun s => s.ringMeasure d) :=
  live_alive (fun s => s.inBudget .train k fun s => s.ringMeasure d) alive
theorem portMarginMeasure_exec (n : PortId) (r : EyeResult) (k : Nat) :
    exec (.portMarginMeasure n ⟨r, k⟩) s = .next (s.inBudget .train k fun s => s.eyeMeasure n r) :=
  live_alive (fun s => s.inBudget .train k fun s => s.eyeMeasure n r) alive
theorem trainStep_exec (k : Nat) : exec (.lodgeServiceStep .train k) s = .next (s.inBudget .train k fun s => s.trainArm) :=
  live_alive (fun s => s.serviceStep .train k) alive
theorem ageingRecord_exec : exec .ageingRecord s = .next (s.inBudget .ice recordUnits fun s => s.ageingDay) :=
  live_alive (fun s => s.inBudget .ice recordUnits fun s => s.ageingDay) alive
theorem eqChangeCheck_exec (n : PortId) (r : EyeResult) (k : Nat) :
    exec (.eqChangeCheck n ⟨r, k⟩) s = .next (s.inBudget .train k fun s => s.eqCheck n r) :=
  live_alive (fun s => s.inBudget .train k fun s => s.eqCheck n r) alive

/-! ### Ring oscillators -/

theorem ringOscillatorMeasure_armed (d : List RingCount) (k : Nat) (runs : s.clocksRun = true) (fits : s.fits .train k) (armed : s.lodge.roArm = true)
    (counted : s.lodge.roArmAt + 65536 ≤ s.now) : Completes (.ringOscillatorMeasure ⟨d, k⟩) s fun t =>
      t.lodge.roAt = s.now + hourCc ∧ t.lodge.roArm = false ∧ t.glb = { s.glb with used := t.glb.used } ∧ OnlyParts [.lodge, .glb] s t
        ∧ ∀ i, i < 64 → ∀ x, x = ringD i (d.getD i { stressed := 0, reference := 0 }) →
          (s.isFenced (pavOf (i / 4)) = true → FMap.find? t.lodge.roD i = FMap.find? s.lodge.roD i ∧ FMap.find? t.lodge.roSum i = FMap.find? s.lodge.roSum i)
          ∧ (s.isFenced (pavOf (i / 4)) = false → FMap.find? t.lodge.roD i = some x
            ∧ FMap.find? t.lodge.roSum i = some (((FMap.find? s.lodge.roSum i).getD (0, 0)).1 + x, ((FMap.find? s.lodge.roSum i).getD (0, 0)).2 + 1)) := by
  have effect := ringMeasure_armed (s := s.spent .train k) (d := d) runs armed counted
  have ended := modLodge_tame (s.spent .train k) fun l => { l with roArm := false, roAt := (s.spent .train k).now + hourCc }
  obtain ⟨read, lodge, pairs⟩ := ringSteps (s := (s.spent .train k).modLodge fun l => { l with roArm := false, roAt := (s.spent .train k).now + hourCc }) (d := d) 64
  refine .of_eq (ringOscillatorMeasure_exec alive d k) ((inBudget_fits _ fits).trans effect) ⟨?_, ?_, ?_, ?_, ?_⟩
  · exact congrArg Lodge.roAt lodge
  · exact congrArg Lodge.roArm lodge
  · rw [read.only.glb_eq]; rfl
  · exact ((spent_tame s _ _).only.mono (by simp)).trans ((ended.only.mono (by simp)).trans (read.only.mono (by simp)))
  · rintro i below _ rfl
    exact ⟨fun fenced => (pairs i).1 (.inl fenced), fun free => (pairs i).2 free below⟩

theorem ringOscillatorMeasure_idle (d : List RingCount) (k : Nat) (idle : s.clocksRun = false ∨ s.lodge.roArm = false ∨ s.now < s.lodge.roArmAt + 65536) :
    Completes (.ringOscillatorMeasure ⟨d, k⟩) s fun t => OnlyParts [.glb] s t := by
  refine ⟨_, ringOscillatorMeasure_exec alive d k, ?_⟩
  by_cases fits : s.fits .train k
  · rw [inBudget_fits _ fits, ringMeasure_idle (s := s.spent .train k) idle]; exact (spent_tame s _ _).only
  · rw [inBudget_full _ fits]; exact .refl s

/-! ### Port margins -/

section
variable {n : PortId} {k : Nat} (runs : s.clocksRun = true) (fits : s.fits .train k)
include runs fits

theorem portMarginMeasure_active (r : EyeResult) (armed : s.lodge.eyeArm = true) (turn : s.lodge.nextEye = n.val) (active : (s.port n).link.st = .active)
    (flown : s.marginOver n s.lodge.eyeArmAt = true) : Completes (.portMarginMeasure n ⟨r, k⟩) s fun t =>
      t.lodge = { s.lodge with eyeArm := false, nextEye := (n.val + 1) % 96, eyeAt := s.now + 900000000 * ccPerUs }
        ∧ (t.port n).link = { (s.port n).link with marginIn := 0 } ∧ (t.port n).io.eyeEq = (s.port n).link.eqSetting ∧ (t.port n).io.eyeH = r.h ∧ (t.port n).io.eyeV = r.v ∧ (t.port n).io.eyeGen = (s.port n).link.gen ∧ (t.port n).io.eyeNew = true
        ∧ OnlyPort n s t ∧ OnlyParts [.ports, .lodge, .glb] s t := by
  have effect := eyeMeasure_active (s := s.spent .train k) (n := n) (r := r) runs armed turn active flown
  refine .of_eq (portMarginMeasure_exec alive n r k) ((inBudget_fits _ fits).trans effect) ?_
  rw [← turn]
  simp only [State.marginEnd, State.eyeTake, State.modLink_link_same, State.modLink_io_same, State.modIo_io_same, State.modIo_link_same,
    State.modLink_lodge, State.modIo_lodge, State.modLodge_lodge, State.modLodge_port]
  refine ⟨rfl, rfl, rfl, trivial, trivial, rfl, trivial, ?_, ?_⟩
  · exact (spent_onlyPort s _ _ n).trans ((OnlyPort.of_only (modLodge_tame _ _).only).trans ((modIo_onlyPort _ n _).trans (modLink_onlyPort _ n _)))
  · exact ((spent_tame s _ _).only.mono (by simp)).trans (((modLodge_tame _ _).only.mono (by simp)).trans
      (((modIo_tame _ n _).only.mono (by simp)).trans ((modLink_tame _ n _).only.mono (by simp))))

theorem portMarginMeasure_skipped (r : EyeResult) (armed : s.lodge.eyeArm = true) (turn : s.lodge.nextEye = n.val) (down : (s.port n).link.st ≠ .active) :
    Completes (.portMarginMeasure n ⟨r, k⟩) s fun t =>
      t.lodge = { s.lodge with eyeArm := false, nextEye := (n.val + 1) % 96, eyeAt := s.now + 900000000 * ccPerUs } ∧ OnlyParts [.lodge, .glb] s t := by
  have effect := eyeMeasure_skipped (s := s.spent .train k) (n := n) (r := r) runs armed turn down
  refine .of_eq (portMarginMeasure_exec alive n r k) ((inBudget_fits _ fits).trans effect) ?_
  rw [← turn]
  exact ⟨rfl, ((spent_tame s _ _).only.mono (by simp)).trans ((modLodge_tame _ _).only.mono (by simp))⟩

/-! ### What a TRAIN step arms -/

theorem trainStep_change (due : s.eqDue = some n) : Completes (.lodgeServiceStep .train k) s fun t =>
    (t.port n).link = { (s.port n).link with ctlReq := some (2, 255, s.now), ctlOut := (s.port n).link.ctlOut ++ [(2, 0, 255)], marginIn := 255 }
      ∧ (t.port n).io = { (s.port n).io with eqArm := some s.now } ∧ OnlyPort n s t ∧ OnlyParts [.ports, .glb] s t := by
  have effect := trainArm_change (s := s.spent .train k) runs due
  refine .of_eq (trainStep_exec alive k) ((inBudget_fits _ fits).trans effect) ?_
  simp only [State.marginAsk, State.modIo_io_same, State.modIo_link_same, State.modLink_link_same, State.modLink_io_same]
  exact ⟨rfl, rfl, (spent_onlyPort s _ _ n).trans ((modLink_onlyPort _ n _).trans (modIo_onlyPort _ n _)),
    ((spent_tame s _ _).only.mono (by simp)).trans (((modLink_tame _ n _).only.mono (by simp)).trans ((modIo_tame _ n _).only.mono (by simp)))⟩

theorem trainStep_ring (none_ : s.eqDue = none) (due : s.lodge.roAt ≤ s.now) (idle : s.lodge.roArm = false)
    (lends : ∀ p, s.isFenced p = false → FMap.find? s.blv.slot p.val = none ∧ (∀ x, (s.pav p).lent = some x → x + 256 ≤ s.now)) :
    Completes (.lodgeServiceStep .train k) s fun t =>
      t.lodge = { s.lodge with roArm := true, roArmAt := s.now } ∧ (∀ p, s.isFenced p = false → t.pav p = { s.pav p with lent := some s.now })
        ∧ (∀ p, s.isFenced p = true → t.pav p = s.pav p) ∧ OnlyParts [.lodge, .pavs, .blv, .glb] s t := by
  have effect := trainArm_ring (s := s.spent .train k) runs none_ due idle
  obtain ⟨lodge, lent, kept, only⟩ := ringArm_lends (s := s.spent .train k) lends
  exact .of_eq (trainStep_exec alive k) ((inBudget_fits _ fits).trans effect)
    ⟨lodge, lent, kept, ((spent_tame s _ _).only.mono (by simp)).trans (only.mono (by simp))⟩

section
variable (none_ : s.eqDue = none) (early : s.now < s.lodge.roAt) (due : s.lodge.eyeAt ≤ s.now) (idle : s.lodge.eyeArm = false) (turn : s.lodge.nextEye = n.val)
include none_ early due idle turn

theorem trainStep_eye (active : (s.port n).link.st = .active) (quiet : (s.port n).link.ctlReq = none) (flown : (s.port n).link.marginIn = 0) :
    Completes (.lodgeServiceStep .train k) s fun t =>
      t.lodge = { s.lodge with eyeArm := true, eyeArmAt := s.now }
        ∧ (t.port n).link = { (s.port n).link with ctlReq := some (2, 255, s.now), ctlOut := (s.port n).link.ctlOut ++ [(2, 0, 255)], marginIn := 255 }
        ∧ (t.port n).io = (s.port n).io ∧ OnlyPort n s t ∧ OnlyParts [.ports, .lodge, .glb] s t := by
  have effect := (trainArm_eye (s := s.spent .train k) runs none_ early due idle).trans (eyeArm_active (n := n) turn active quiet flown)
  refine .of_eq (trainStep_exec alive k) ((inBudget_fits _ fits).trans effect) ?_
  simp only [State.marginAsk, State.modLodge_lodge, State.modLink_lodge, State.modLodge_port, State.modLink_link_same, State.modLink_io_same]
  exact ⟨rfl, rfl, rfl, (spent_onlyPort s _ _ n).trans ((modLink_onlyPort _ n _).trans (OnlyPort.of_only (modLodge_tame _ _).only)),
    ((spent_tame s _ _).only.mono (by simp)).trans (((modLink_tame _ n _).only.mono (by simp)).trans ((modLodge_tame _ _).only.mono (by simp)))⟩

theorem trainStep_skips (down : (s.port n).link.st ≠ .active) : Completes (.lodgeServiceStep .train k) s fun t =>
    t.lodge = { s.lodge with nextEye := (n.val + 1) % 96 } ∧ OnlyParts [.lodge, .glb] s t := by
  have effect := (trainArm_eye (s := s.spent .train k) runs none_ early due idle).trans (eyeArm_skips (n := n) turn down)
  refine .of_eq (trainStep_exec alive k) ((inBudget_fits _ fits).trans effect) ?_
  rw [← turn]
  exact ⟨rfl, ((spent_tame s _ _).only.mono (by simp)).trans ((modLodge_tame _ _).only.mono (by simp))⟩
end
end

/-! ### The day's record -/

theorem ageingRecord_due (canon : s.canon) (fits : s.fits .ice recordUnits) (due : s.lodge.dayStart + 24 * hourCc ≤ s.now) : Completes .ageingRecord s fun t =>
    iceRead t.lodge.ice (ledgerBase + 64 * s.lodge.ledgerPos) 64 = s.ledgerBytes
      ∧ (∀ a, a < ledgerBase + 64 * s.lodge.ledgerPos ∨ ledgerBase + 64 * s.lodge.ledgerPos + 64 ≤ a → iceByte t.lodge.ice a = iceByte s.lodge.ice a)
      ∧ t.lodge.ledgerPos = (s.lodge.ledgerPos + 1) % 32768 ∧ t.lodge.lseq = (s.lodge.lseq + 1) % 2 ^ 32 ∧ t.lodge.powered = s.lodge.powered + 24
      ∧ t.lodge.day = s.lodge.day + 1 ∧ t.lodge.dayStart = s.lodge.dayStart + 24 * hourCc ∧ t.lodge.roSum = [] ∧ t.lodge.planSeq = (s.lodge.planSeq + 1) % 256
      ∧ (t.rget R.lodgeAgeEvt).getLsbD 8 = true ∧ OnlyParts [.ports, .pavs, .chans, .stks, .glb, .lodge, .csr] s t := by
  obtain ⟨regs, -, -, -, -, ice, -⟩ := canon
  obtain ⟨⟨m, planned, lodge⟩, new, only⟩ := ageingDay_due (s := s.spent .ice recordUnits) regs due
  have bytes : m.ice = iceWrite s.lodge.ice (ledgerBase + 64 * s.lodge.ledgerPos) s.ledgerBytes := by
    rw [planned.ice_eq, Lodge.recorded_ice, spent_ledgerBytes]; rfl
  obtain ⟨pos, seq, powered, day, start⟩ := Lodge.recorded_counts planned
  refine .of_eq (ageingRecord_exec alive) (inBudget_fits _ fits) ?_
  rw [lodge]
  refine ⟨?_, fun a out => ?_, pos, seq, powered, day, start, rfl, rfl, new, ((spent_tame s _ _).only.mono (by simp)).trans only⟩
  · have read := iceRead_iceWrite (ledgerBase + 64 * s.lodge.ledgerPos) s.ledgerBytes ice
    rw [ledgerBytes_length, ← bytes] at read
    exact read
  · dsimp only
    rw [bytes]
    rcases out with below | above
    · exact iceWrite_below _ ice below
    · exact iceWrite_above _ ice (by rw [ledgerBytes_length]; exact above)

theorem ageingRecord_early (early : s.now < s.lodge.dayStart + 24 * hourCc) :
    Completes .ageingRecord s fun t => t.lodge = s.lodge ∧ OnlyParts [.glb] s t := by
  have stays (s : State) (early : s.now < s.lodge.dayStart + 24 * hourCc) : s.ageingDay = s := if_pos early
  refine ⟨_, ageingRecord_exec alive, ?_⟩
  by_cases fits : s.fits .ice recordUnits
  · rw [inBudget_fits _ fits, stays (s.spent .ice recordUnits) early]; exact ⟨rfl, (spent_tame s _ _).only⟩
  · rw [inBudget_full _ fits]; exact ⟨rfl, .refl s⟩

/-! ### Equalisation changes -/

section
variable {n : PortId} {k : Nat} (r : EyeResult) (fits : s.fits .train k)
include fits

theorem eqChangeCheck_idle (idle : (s.port n).io.eqChg = none ∨ (s.port n).io.eqArm = none ∨ (s.port n).link.st ≠ .active ∨ s.clocksRun = false) :
    Completes (.eqChangeCheck n ⟨r, k⟩) s fun t => OnlyParts [.glb] s t :=
  .of_eq (eqChangeCheck_exec alive n r k) ((inBudget_fits _ fits).trans (eqCheck_idle (s := s.spent .train k) idle)) (spent_tame s _ _).only

variable {old dir h x y : Nat} (runs : s.clocksRun = true) (chg : (s.port n).io.eqChg = some (old, dir, h, x)) (arm : (s.port n).io.eqArm = some y)
  (active : (s.port n).link.st = .active) (flown : s.marginOver n y = true)
include runs chg arm active flown

theorem eqChangeCheck_late (late : x + 1000000 * ccPerUs < s.now) : Completes (.eqChangeCheck n ⟨r, k⟩) s fun t =>
    (t.port n).io = { (s.port n).io with eqChg := none, eqArm := none } ∧ OnlyPort n s t ∧ OnlyParts [.ports, .glb] s t := by
  have effect := eqCheck_late (s := s.spent .train k) (r := r) runs chg arm active flown late
  refine .of_eq (eqChangeCheck_exec alive n r k) ((inBudget_fits _ fits).trans effect) ?_
  simp only [State.marginEnd, State.modIo_io_same, State.modLink_io_same]
  exact ⟨rfl, (spent_onlyPort s _ _ n).trans ((modLink_onlyPort _ n _).trans (modIo_onlyPort _ n _)),
    ((spent_tame s _ _).only.mono (by simp)).trans (((modLink_tame _ n _).only.mono (by simp)).trans ((modIo_tame _ n _).only.mono (by simp)))⟩

theorem eqChangeCheck_judged (early : s.now ≤ x + 1000000 * ccPerUs) : Completes (.eqChangeCheck n ⟨r, k⟩) s fun t =>
    (t.port n).io.eqChg = none ∧ (t.port n).io.eqArm = none ∧ (t.port n).io.eyeH = r.h ∧ (t.port n).io.eyeV = r.v
      ∧ (t.port n).link = { (s.port n).link with marginIn := 0 }
      ∧ (worst r.h + 2 ≤ h → (t.port n).io.eqPend = some (old, none) ∧ (t.port n).io.eqBlock = (dir, s.lodge.day) :: (s.port n).io.eqBlock)
      ∧ (h < worst r.h + 2 → (t.port n).io.eqPend = (s.port n).io.eqPend ∧ (t.port n).io.eqBlock = (s.port n).io.eqBlock)
      ∧ OnlyPort n s t ∧ OnlyParts [.ports, .glb] s t := by
  have effect := eqCheck_judged (s := s.spent .train k) (r := r) runs chg arm active flown early
  have begun := (spent_tame s .train k).mono (qs := [.ports, .glb]) (by simp)
  have judged := ((spent_onlyPort s .train k n).trans marginEnd_onlyPort).trans ((eyeTake_onlyPort (r := r)).trans (modIo_onlyPort _ n fun io => { io with eqChg := none, eqArm := none }))
  have ports := (begun.trans ((marginEnd_tame (n := n)).mono (by simp))).trans
    (((eyeTake_tame (n := n) (r := r)).mono (by simp)).trans ((modIo_tame _ n fun io => { io with eqChg := none, eqArm := none }).mono (by simp)))
  refine .of_eq (eqChangeCheck_exec alive n r k) ((inBudget_fits _ fits).trans effect) ?_
  by_cases worse : worst r.h + 2 ≤ h
  · rw [if_pos worse]
    refine ⟨?_, ?_, ?_, ?_, ?_, fun _ => ?_, fun better => absurd worse (by omega), judged.trans (modIo_onlyPort _ n _),
      ports.only.trans ((modIo_tame _ n _).only.mono (by simp))⟩
    all_goals simp only [State.marginEnd, State.eyeTake, State.modIo_io_same, State.modIo_link_same, State.modLink_link_same, State.modLink_io_same]
    · rfl
    · exact ⟨trivial, rfl⟩
  · rw [if_neg worse]
    refine ⟨?_, ?_, ?_, ?_, ?_, fun h => absurd h worse, fun _ => ?_, judged, ports.only⟩
    all_goals simp only [State.marginEnd, State.eyeTake, State.modIo_io_same, State.modIo_link_same, State.modLink_link_same, State.modLink_io_same]
    · rfl
    · exact ⟨rfl, rfl⟩
end
end

/-- Settles O46: a measurement is its one change of the Lodge or the port, and a record is the ring's next slot and the plan after it. -/
theorem ageingMeasurementsAndRecords : Obligations.AgeingMeasurementsAndRecords := by
  intro s alive canon l
  refine ⟨ringD_of_counts, fun d k _ _ runs fits armed counted => ringOscillatorMeasure_armed alive d k runs fits armed counted,
    fun d k full => (ringOscillatorMeasure_exec alive d k).trans (congrArg _ (inBudget_full _ full)), ringOscillatorMeasure_idle alive,
    fun n r k runs fits armed turn => ⟨portMarginMeasure_active alive runs fits r armed turn, portMarginMeasure_skipped alive runs fits r armed turn⟩,
    fun runs k fits => ⟨fun n => trainStep_change alive runs fits, trainStep_ring alive runs fits, fun none_ early due idle n turn =>
      ⟨trainStep_eye alive runs fits none_ early due idle turn, trainStep_skips alive runs fits none_ early due idle turn⟩⟩,
    ageingRecord_due alive canon, fun full => (ageingRecord_exec alive).trans (congrArg _ (inBudget_full _ full)), ageingRecord_early alive, fun n r k =>
    ⟨fun full => (eqChangeCheck_exec alive n r k).trans (congrArg _ (inBudget_full _ full)), eqChangeCheck_idle alive r,
      fun old dir h x y fits runs chg arm active flown =>
        ⟨eqChangeCheck_late alive r fits runs chg arm active flown, eqChangeCheck_judged alive r fits runs chg arm active flown⟩⟩⟩

end Sys2Proof.Machine

namespace Sys2Proof.Machine

/-! ## Pushes to a write queue (R47, R293) -/

section
variable {s : State} {p : PavId} {c : ChanId}

theorem modPav_onlyPav (s : State) (p : PavId) (f : Pav → Pav) : OnlyPav p s (s.modPav p f) := fun _ hk => State.modPav_pav_other s f hk
theorem OnlyPav.trans {t u : State} (h : OnlyPav p s t) (k : OnlyPav p t u) : OnlyPav p s u := fun q hq => (k q hq).trans (h q hq)
theorem OnlyPav.of_only {t : State} {ps : List Part} (h : OnlyParts ps s t) (hp : Part.pavs ∉ ps := by decide) : OnlyPav p s t :=
  fun q _ => h.pav_eq q hp

/-- What the write queue of a channel in service holds after a push, and what of the channel the push leaves. -/
theorem wqPush_chan (ll : Nat) (st : Stored) (plot : Option PlotId) (raw : Bool) (well : (s.chan c).com.st ≠ .failed) :
    ((s.wqPush c ll st plot raw).chan c).wq = (s.chan c).wq ++ [{ ll := ll, st := st, at_ := s.now, plot := plot, raw := raw }]
      ∧ ((s.wqPush c ll st plot raw).chan c).rawWait = (s.chan c).rawWait
      ∧ ((s.wqPush c ll st plot raw).chan c).fixq = (s.chan c).fixq.filter fun x => x.ll ≠ ll || x.raw := by
  unfold State.wqPush State.updDrain State.charge
  rw [if_neg well]
  cases plot <;> simp only [State.modChan_chan_same, and_self]

/-- The write queue takes a line whose acceptance completes nothing else (R47). -/
theorem tryPush_taken {j : Push} {ll : Nat} (plain : j.for_ = .nothing) (takes : s.wqTakes (s.chanFor j.pa) = true) (home : s.llOf j.pa = some ll) :
    s.tryPush p j = some ((s.wqPush (s.chanFor j.pa) ll ((s.chan (s.chanFor j.pa)).encode j.data j.poison) j.plot).cntPav p 9 j.plot) := by
  unfold State.tryPush
  simp only [takes, home, plain, State.pushDone, Bool.not_true, Bool.false_eq_true, if_false]
theorem pushes_tame (ll : Nat) (st : Stored) (plot : Option PlotId) :
    Tame [.chans, .csr, .glb, .blv] s ((s.wqPush c ll st plot).cntPav p 9 plot) :=
  ((wqPush_within c s ll st plot false).tame.mono (by simp)).trans ((cntPav_tame _ p 9 plot 1).mono (by simp))
theorem pushes_onlyChan (ll : Nat) (st : Stored) (plot : Option PlotId) : OnlyChan c s ((s.wqPush c ll st plot).cntPav p 9 plot) :=
  (wqPush_within c s ll st plot false).only.trans (.of_only (cntPav_tame _ p 9 plot 1).only)
theorem pushes_chan (ll : Nat) (st : Stored) (plot : Option PlotId) (k : ChanId) :
    ((s.wqPush c ll st plot).cntPav p 9 plot).chan k = (s.wqPush c ll st plot).chan k := (cntPav_tame _ p 9 plot 1).only.chan_eq k

/-! ## The Orangery (R219) -/

theorem orDrain_oldest {o : OrLine} {rest : List OrLine} {ll : Nat} (oldest : (s.pav p).orang = o :: rest) (clean : o.poison = false)
    (good : (sramDecode false o.line).cls = .good) (home : s.llOf o.pa = some ll) (takes : s.wqTakes (s.chanFor o.pa) = true)
    (room : (s.chan (s.chanFor o.pa)).wq.length < 96) (free : ∀ j ∈ (s.pav p).pushq, j.pa ≠ o.pa ∧ j.poisons = false) :
    s.orDrain p = ((s.orDrop p o.pa).wqPush (s.chanFor o.pa) ll (memEncode (s.chan (s.chanFor o.pa)).memGen (sramDecode false o.line).data) o.plot).cntPav p 9 o.plot := by
  have read : s.orRead p o = (s, (sramDecode false o.line).data, false) := by
    unfold State.orRead; rw [if_neg (by simp [clean])]; dsimp only; rw [good]
  have alone : (s.pav p).pushq.any (fun j => j.poisons || j.pa = o.pa) = false := by
    rw [List.any_eq_false]; exact fun j hj => by simp [free j hj]
  have aloneNow : ((s.orDrop p o.pa).pav p).pushq.any (fun j => j.poisons || j.pa = o.pa) = false := by
    rw [show ((s.orDrop p o.pa).pav p).pushq = (s.pav p).pushq by unfold State.orDrop; rw [State.modPav_pav_same]]; exact alone
  have taken := tryPush_taken (s := s.orDrop p o.pa) (p := p) (j := { pa := o.pa, data := (sramDecode false o.line).data, poison := false, plot := o.plot })
    rfl takes home
  unfold State.orDrain
  rw [oldest]
  dsimp only
  rw [if_neg (by simp; omega), if_neg (by rw [takes, alone]; decide), read]
  unfold State.pushLine
  dsimp only
  rw [if_neg (by simp [Push.poisons]), if_neg (by rw [aloneNow]; decide), taken]
  rfl

theorem pushRetry_one {j : Push} {ll : Nat} (waits : (s.pav p).pushq = [j]) (plain : j.for_ = .nothing) (home : s.llOf j.pa = some ll)
    (well : (s.chan (s.chanFor j.pa)).com.st = .inService) (takes : s.wqTakes (s.chanFor j.pa) = true) (noRaw : (s.chan (chanOf p.val)).rawWait = none)
    (noFix : (s.chan (chanOf p.val)).fixq = []) :
    s.pushRetry p = ((s.wqPush (s.chanFor j.pa) ll ((s.chan (s.chanFor j.pa)).encode j.data j.poison) j.plot).cntPav p 9 j.plot).modPav p fun v =>
      { v with pushq := v.pushq.erase j } := by
  have taken := tryPush_taken (p := p) plain takes home
  have rest (k : ChanId) (raw : (s.chan k).rawWait = none) (fix : (s.chan k).fixq = []) :
      ((s.wqPush (s.chanFor j.pa) ll ((s.chan (s.chanFor j.pa)).encode j.data j.poison) j.plot).chan k).rawWait = none
        ∧ ((s.wqPush (s.chanFor j.pa) ll ((s.chan (s.chanFor j.pa)).encode j.data j.poison) j.plot).chan k).fixq = [] := by
    by_cases eq : k = s.chanFor j.pa
    · obtain ⟨-, wait, queue⟩ := wqPush_chan (s := s) (c := s.chanFor j.pa) ll ((s.chan (s.chanFor j.pa)).encode j.data j.poison) j.plot false (by rw [well]; decide)
      rw [eq, wait, queue, ← eq, raw, fix]
      exact ⟨rfl, rfl⟩
    · rw [(wqPush_within _ s ll _ j.plot false).only k eq]; exact ⟨raw, fix⟩
  obtain ⟨noRaw', noFix'⟩ := rest _ noRaw noFix
  unfold State.pushRetry
  rw [waits, List.foldl_cons, List.foldl_nil, waits, if_neg (by simp), taken]
  dsimp only
  rw [show ∀ (u : State) (f : Pav → Pav), (u.modPav p f).chan (chanOf p.val) = u.chan (chanOf p.val) from fun _ _ => rfl, pushes_chan, noRaw']
  dsimp only
  rw [show ∀ (u : State) (f : Pav → Pav), (u.modPav p f).chan (chanOf p.val) = u.chan (chanOf p.val) from fun _ _ => rfl, pushes_chan, noFix', List.foldl_nil]

end

/-! ## The commands -/

section
variable {s : State} (alive : s.alive = true) {p : PavId}
include alive

theorem orangeryDrain_completes {o : OrLine} {rest : List OrLine} {ll : Nat} {c : ChanId} (oldest : (s.pav p).orang = o :: rest)
    (apart : ∀ y ∈ rest, y.pa ≠ o.pa) (clean : o.poison = false) (good : (sramDecode false o.line).cls = .good) (home : s.llOf o.pa = some ll)
    (chan : c = s.chanFor o.pa) (serves : (s.chan c).com.st = .inService) (takes : s.wqTakes c = true) (room : (s.chan c).wq.length < 96)
    (free : ∀ j ∈ (s.pav p).pushq, j.pa ≠ o.pa ∧ j.poisons = false) :
    Completes (.orangeryDrain p) s fun t =>
      ∃ v : State, t = v.pump p ∧ (v.pav p).orang = rest
        ∧ (v.chan c).wq = (s.chan c).wq ++ [{ ll := ll, st := memEncode (s.chan c).memGen (sramDecode false o.line).data, at_ := s.now, plot := o.plot }]
        ∧ OnlyPav p s v ∧ OnlyChan c s v ∧ OnlyParts [.pavs, .chans, .csr, .glb, .blv] s v := by
  subst chan
  have run : exec (.orangeryDrain p) s = .next ((s.orDrain p).pump p) := live_alive (fun s => (s.orDrain p).pump p) alive
  have effect := orDrain_oldest oldest clean good home takes room free
  have dropped := modPav_tame s p fun v => { v with orang := v.orang.filter fun x => x.pa ≠ o.pa, sramFix := v.sramFix.filter fun x => x.1 ≠ some o.pa }
  have pushed := pushes_tame (s := s.orDrop p o.pa) (p := p) (c := s.chanFor o.pa) ll
    (memEncode (s.chan (s.chanFor o.pa)).memGen (sramDecode false o.line).data) o.plot
  refine ⟨_, run, _, rfl, ?_⟩
  rw [effect]
  refine ⟨?_, ?_, (modPav_onlyPav s p _).trans (.of_only pushed.only), OnlyChan.trans (.of_only dropped.only) (pushes_onlyChan _ _ _),
    (dropped.only.mono (by simp)).trans (pushed.only.mono (by simp))⟩
  · rw [pushed.only.pav_eq, State.orDrop, State.modPav_pav_same]
    dsimp only
    rw [oldest, List.filter_cons_of_neg (by simp), List.filter_eq_self.mpr fun y hy => by simpa using apart y hy]
  · rw [pushes_chan]
    exact (wqPush_chan (s := s.orDrop p o.pa) _ _ _ _ (by
      rw [show (s.orDrop p o.pa).chan (s.chanFor o.pa) = s.chan (s.chanFor o.pa) from rfl, serves]; decide)).1

theorem queuePushRetry_completes {j : Push} {ll : Nat} {c : ChanId} (waits : (s.pav p).pushq = [j]) (plain : j.for_ = .nothing)
    (home : s.llOf j.pa = some ll) (chan : c = s.chanFor j.pa) (serves : (s.chan c).com.st = .inService) (takes : s.wqTakes c = true)
    (noRaw : (s.chan (chanOf p.val)).rawWait = none) (noFix : (s.chan (chanOf p.val)).fixq = []) :
    Completes (.queuePushRetry p) s fun t =>
      ∃ v : State, t = v.pump p ∧ (v.pav p).pushq = []
        ∧ (v.chan c).wq = (s.chan c).wq ++ [{ ll := ll, st := (s.chan c).encode j.data j.poison, at_ := s.now, plot := j.plot }]
        ∧ OnlyPav p s v ∧ OnlyChan c s v ∧ OnlyParts [.pavs, .chans, .csr, .glb, .blv] s v := by
  subst chan
  have run : exec (.queuePushRetry p) s = .next ((s.pushRetry p).pump p) := live_alive (fun s => (s.pushRetry p).pump p) alive
  have pushed := pushes_tame (s := s) (p := p) (c := s.chanFor j.pa) ll ((s.chan (s.chanFor j.pa)).encode j.data j.poison) j.plot
  have left := modPav_tame ((s.wqPush (s.chanFor j.pa) ll ((s.chan (s.chanFor j.pa)).encode j.data j.poison) j.plot).cntPav p 9 j.plot) p
    fun v => { v with pushq := v.pushq.erase j }
  refine ⟨_, run, _, rfl, ?_⟩
  rw [pushRetry_one waits plain home serves takes noRaw noFix]
  refine ⟨?_, ?_, OnlyPav.trans (.of_only pushed.only) (modPav_onlyPav _ p _), (pushes_onlyChan _ _ _).trans (.of_only left.only),
    (pushed.only.mono (by simp)).trans (left.only.mono (by simp))⟩
  · rw [State.modPav_pav_same, pushed.only.pav_eq]
    dsimp only
    rw [waits]; simp
  · rw [left.only.chan_eq, pushes_chan]
    exact (wqPush_chan _ _ _ _ (by rw [serves]; decide)).1

theorem sramRewrite_completes (canon : s.canon) {i : Nat} {l : SramLine} {rest : List (Option LineAddr × Nat × SramLine)}
    (first : (s.pav p).sramFix = (none, i, l) :: rest) : Completes (.sramRewrite p) s fun t =>
      (t.pav p).ghLineAt i = l ∧ (∀ k, k ≠ i → (t.pav p).ghLineAt k = (s.pav p).ghLineAt k) ∧ (t.pav p).sramFix = rest
        ∧ OnlyPav p s t ∧ OnlyParts [.pavs, .blv] s t := by
  obtain ⟨-, -, -, pavs, -⟩ := canon
  obtain ⟨-, -, -, lines, -⟩ := pavs p
  have run : exec (.sramRewrite p) s = .next ((s.sramFixOne p).slotUse p 2) := live_alive (fun s => (s.sramFixOne p).slotUse p 2) alive
  have effect : s.sramFixOne p = s.modPav p fun v => { v with sramFix := rest, ghData := FMap.put (fun _ => {}) v.ghData i l } := by
    unfold State.sramFixOne; rw [first]
  refine .of_eq run (by rw [effect]) ?_
  have used := slotUse_tame (s.modPav p fun v => { v with sramFix := rest, ghData := FMap.put (fun _ => {}) v.ghData i l }) p 2
  rw [used.only.pav_eq, State.modPav_pav_same]
  exact ⟨FMap.get_put_same i l lines, fun k hk => FMap.get_put_other l lines hk, rfl, (modPav_onlyPav s p _).trans (.of_only used.only),
    ((modPav_tame s p _).only.mono (by simp)).trans (used.only.mono (by simp))⟩
end

/-- Settles O25: the line or the push enters its channel's write queue as the queue stands, and nothing else of the hub but counters moves. -/
theorem orangeryDrainsToMemory : Obligations.OrangeryDrainsToMemory := fun _ _ alive canon =>
  ⟨fun _ _ _ oldest apart clean good home _ chan => orangeryDrain_completes alive oldest apart clean good home chan,
    fun _ _ waits plain home _ chan => queuePushRetry_completes alive waits plain home chan, fun _ _ _ first => sramRewrite_completes alive canon first⟩

end Sys2Proof.Machine

namespace Sys2Proof.Machine

/-! ## Stores that list each key once -/

/-- What a rising store lists is what it reads at the key. -/
theorem find_of_mem {α : Type} {m : FMap α} {k : Nat} {v : α} (rises : rising m) (h : (k, v) ∈ m) : FMap.find? m k = some v := by
  induction m with
  | nil => cases h
  | cons x rest ih =>
    obtain ⟨above, rest_⟩ := List.pairwise_cons.mp rises
    rcases List.mem_cons.mp h with rfl | later
    · simp [FMap.find?]
    · have lt : x.1 < k := above _ later
      have := ih rest_ later
      obtain ⟨i, y⟩ := x
      dsimp only at lt
      rw [FMap.find?, if_neg (by omega), if_neg (by omega)]
      exact this

theorem foldl_fixed_mem {α β : Type} {f : α → β → α} {a : α} {xs : List β} (h : ∀ x ∈ xs, f a x = a) : xs.foldl f a = a := by
  induction xs with
  | nil => rfl
  | cons x rest ih => rw [List.foldl_cons, h x (by simp)]; exact ih fun y hy => h y (List.mem_cons_of_mem x hy)

/-! ## One table entry of a pavilion -/

section
variable {s : State} {p : PavId} {e : Nat}

theorem modTxn_tame (f : Txn → Txn) : Tame [.pavs] s (s.modTxn p e f) := by unfold State.modTxn; exact modPav_tame s p _
theorem modTxn_onlyPav (f : Txn → Txn) : OnlyPav p s (s.modTxn p e f) := by unfold State.modTxn; exact modPav_onlyPav s p _
theorem modTxn_pav {t : Txn} (f : Txn → Txn) (found : FMap.find? (s.pav p).tt e = some t) :
    (s.modTxn p e f).pav p = { s.pav p with tt := FMap.insert (s.pav p).tt e (f t) } := by
  unfold State.modTxn; rw [State.modPav_pav_same]; dsimp only; rw [found]
theorem modTxn_find {t : Txn} (f : Txn → Txn) (found : FMap.find? (s.pav p).tt e = some t) :
    FMap.find? ((s.modTxn p e f).pav p).tt e = some (f t) := by
  rw [modTxn_pav f found]; exact FMap.find_insert_same _ _ _

/-! ## Sets without a parity failure are read without effect (R111, R199) -/

theorem checkDir_sound {set : Nat} (sound : (s.pav p).dirSound set) : s.checkDir p set = s :=
  foldl_fixed_mem fun w hw => if_pos (sound w (List.mem_range.mp hw))
theorem readEntry_sound {la : LineAddr} (sound : (s.pav p).dirSound (dirSet la)) : s.readEntry p la = s := by
  unfold State.readEntry; rw [checkDir_sound sound, ite_self]
theorem readTags_sound {la : LineAddr} (sound : s.tagsSound p la) : s.readTags p la = s := by
  obtain ⟨tags, entries⟩ := sound
  have sec : s.checkTags p (setOf la) = s := foldl_fixed_mem fun w hw => if_pos (by rw [tags w (List.mem_range.mp hw)]; rfl)
  have gh : s.checkGh p (ghSet la) = s := foldl_fixed_mem fun w hw => if_pos (by rw [entries w (List.mem_range.mp hw)]; rfl)
  unfold State.readTags
  split
  · rfl
  · split
    · exact sec
    · exact gh
    · rfl

/-! ## Replays (R36, R140) -/

/-- A transaction that tries its access again. -/
def Txn.retried (t : Txn) : Txn := { t with phase := if t.phase = .waitSector then .data else t.phase }

theorem replay_advances {t : Txn} (runs : (s.pav p).halted = false) (found : FMap.find? (s.pav p).tt e = some t) (active : t.active = true)
    (due : t.phase = .waitSector ∨ t.fetch = .replay) (tags : s.readTags p t.pa = s) (dir : (s.pav p).dirSound (dirSet t.pa)) :
    s.replay p e = (s.modTxn p e Txn.retried).advance p e := by
  unfold State.replay
  rw [found]
  dsimp only
  rw [if_pos (by simpa [active] using due), tags, readEntry_sound dir, if_neg (by simp [runs])]
  rfl

theorem lookupReplay_exec {e : Fin 1024} {t : Txn} (alive : s.alive = true) (runs : (s.pav p).halted = false)
    (found : FMap.find? (s.pav p).tt e.val = some t) (active : t.active = true) (due : t.phase = .waitSector ∨ t.fetch = .replay) :
    exec (.lookupReplay p e) s = .next (State.lookEnd s ((s.replay p e.val).pump p) p e.val t) := by
  change execLookupReplay p e s = _
  unfold execLookupReplay
  rw [live_alive _ alive, found]
  dsimp only
  rw [if_pos (by simpa [active, runs] using due)]

theorem lookupReplay_halted {e : Fin 1024} (halted : (s.pav p).halted = true) : exec (.lookupReplay p e) s = .next s := by
  have still : (match FMap.find? (s.pav p).tt e.val with
      | none => s
      | some t => if t.active && (t.phase = .waitSector || t.fetch = .replay) && !(s.pav p).halted then State.lookEnd s ((s.replay p e).pump p) p e t else s) = s := by
    split
    · rfl
    · exact if_neg (by simp [halted])
  change execLookupReplay p e s = _
  unfold execLookupReplay live
  split
  · exact congrArg _ still
  · rfl

theorem lookupReplay_completes {e : Fin 1024} {t0 : Txn} (alive : s.alive = true) (runs : (s.pav p).halted = false)
    (found : FMap.find? (s.pav p).tt e.val = some t0) (active : t0.active = true) (due : t0.phase = .waitSector ∨ t0.fetch = .replay)
    (tags : s.tagsSound p t0.pa) (dir : (s.pav p).dirSound (dirSet t0.pa)) :
    Completes (.lookupReplay p e) s fun t =>
      ∃ u : State, t = State.lookEnd s ((u.advance p e.val).pump p) p e.val t0
        ∧ FMap.find? (u.pav p).tt e.val = some { t0 with phase := if t0.phase = .waitSector then .data else t0.phase }
        ∧ OnlyPav p s u ∧ OnlyParts [.pavs] s u :=
  ⟨_, lookupReplay_exec alive runs found active due, s.modTxn p e.val Txn.retried,
    by rw [replay_advances runs found active due (readTags_sound tags) dir], modTxn_find _ found, modTxn_onlyPav _, (modTxn_tame _).only⟩

/-! ## Parked requests (R134, R136) -/

/-- The fold that looks for the oldest transaction picks an element of its list, or keeps what it began with. -/
theorem foldl_oldest_mem (xs : List (Nat × Txn)) (b : Option (Nat × Txn)) {y : Nat × Txn}
    (h : xs.foldl (fun (b : Option (Nat × Txn)) x => match b with
      | none => some x
      | some y => if x.2.waitSeq < y.2.waitSeq then some x else some y) b = some y) : y ∈ xs ∨ b = some y := by
  induction xs generalizing b with
  | nil => exact .inr h
  | cons x rest ih =>
    rcases ih _ h with later | now
    · exact .inl (List.mem_cons_of_mem x later)
    · cases b with
      | none => injection now with eq; exact .inl (by simp [eq])
      | some z =>
        dsimp only at now
        split at now
        · injection now with eq; exact .inl (by simp [eq])
        · exact .inr now

/-- The oldest parked request of a set is a transaction of the set. -/
theorem oldestParked_set {v : Pav} {set : Nat} {t : Txn} (rises : rising v.tt) (oldest : v.oldestParked set = some e)
    (found : FMap.find? v.tt e = some t) : dirSet t.pa = set := by
  obtain ⟨x, picked, rfl⟩ := Option.map_eq_some_iff.mp oldest
  rcases foldl_oldest_mem _ none picked with mem | none_
  · obtain ⟨listed, parked⟩ := List.mem_filter.mp mem
    have : FMap.find? v.tt x.1 = some x.2 := find_of_mem rises listed
    rw [found] at this
    injection this with eq
    rw [eq]
    obtain ⟨waits, -⟩ := (Bool.and_eq_true _ _).mp parked
    exact of_decide_eq_true ((Bool.and_eq_true _ _).mp waits).2
  · cases none_

/-- A transaction moved to a phase. -/
def Txn.inPhase (ph : Phase) (t : Txn) : Txn := { t with phase := ph }

/-- A parked request that takes a free way waits with its promise (R134). -/
def promisedWay (s : State) (p : PavId) (set w e : Nat) : State :=
  (s.modPav p fun v => { v with promises := (set, w, e) :: v.promises }).cntPav p 0x0A

theorem promisedWay_pav (set w : Nat) : (promisedWay s p set w e).pav p = { s.pav p with promises := (set, w, e) :: (s.pav p).promises } := by
  unfold promisedWay; rw [(cntPav_tame _ p 0x0A none 1).only.pav_eq, State.modPav_pav_same]
theorem promisedWay_tame (set w : Nat) : Tame [.pavs, .csr, .glb, .blv] s (promisedWay s p set w e) :=
  ((modPav_tame s p _).mono (by simp)).trans ((cntPav_tame _ p 0x0A none 1).mono (by simp))
theorem promisedWay_onlyPav (set w : Nat) : OnlyPav p s (promisedWay s p set w e) :=
  (modPav_onlyPav s p _).trans (.of_only (cntPav_tame _ p 0x0A none 1).only)

theorem takeWay_free {set w : Nat} {t : Txn} (found : FMap.find? (s.pav p).tt e = some t) (home : dirSet t.pa = set) (sound : (s.pav p).dirSound set)
    (free : (ways24.find? fun k => ((s.pav p).dirAt set k).st = .free && !(s.pav p).promises.any fun x => x.1 = set && x.2.1 = k) = some w) :
    s.takeWay p e = (promisedWay s p set w e).modTxn p e (Txn.inPhase .data) := by
  have chosen : s.chooseWay p set e = (promisedWay s p set w e, .got) := by
    unfold State.chooseWay
    dsimp only
    rw [checkDir_sound sound, free]
    rfl
  unfold State.takeWay
  rw [found]
  dsimp only
  rw [home, chosen]
  rfl

theorem parkedRetry_completes {set w : Nat} {t0 : Txn} (alive : s.alive = true) (canon : s.canon) (runs : (s.pav p).halted = false)
    (due : set ∈ (s.pav p).retryDue) (oldest : (s.pav p).oldestParked set = some e) (found : FMap.find? (s.pav p).tt e = some t0)
    (sound : (s.pav p).dirSound set)
    (free : (ways24.find? fun k => ((s.pav p).dirAt set k).st = .free && !(s.pav p).promises.any fun x => x.1 = set && x.2.1 = k) = some w) :
    Completes (.parkedRetry p set) s fun t =>
      ∃ u v : State, FMap.find? (u.pav p).tt e = some { t0 with phase := .waitSet } ∧ (u.pav p).promised e = some (set, w)
        ∧ (u.pav p).dir = (s.pav p).dir ∧ OnlyPav p s u ∧ OnlyParts [.pavs, .csr, .glb, .blv] s u ∧ v = u.advance p e
        ∧ t = State.lookEnd s ((if ((v.pav p).oldestParked set).isNone then v.retryStop p set else v).pump p) p e t0 := by
  obtain ⟨-, -, -, pavs, -⟩ := canon
  obtain ⟨-, -, -, -, -, -, -, rises, -⟩ := pavs p
  have home := oldestParked_set rises oldest found
  have run : exec (.parkedRetry p set) s = .next (State.lookEnd s ((s.parkedRetry p set e).pump p) p e t0) := by
    change execParkedRetry p set s = _
    unfold execParkedRetry
    rw [live_alive _ alive, if_neg (by simpa [runs] using due), oldest]
    dsimp only
    rw [found]
  have found1 : FMap.find? ((promisedWay s p set w e).pav p).tt e = some t0 := by rw [promisedWay_pav]; exact found
  have found2 := modTxn_find (Txn.inPhase .data) found1
  have found3 := modTxn_find (Txn.inPhase .waitSet) found2
  have pav2 := (modTxn_pav (Txn.inPhase .data) found1).trans (by rw [promisedWay_pav])
  have pav3 := (modTxn_pav (Txn.inPhase .waitSet) found2).trans (by rw [pav2])
  have effect : s.parkedRetry p set e
      = if ((((((promisedWay s p set w e).modTxn p e (Txn.inPhase .data)).modTxn p e (Txn.inPhase .waitSet)).advance p e).pav p).oldestParked set).isNone
        then ((((promisedWay s p set w e).modTxn p e (Txn.inPhase .data)).modTxn p e (Txn.inPhase .waitSet)).advance p e).retryStop p set
        else (((promisedWay s p set w e).modTxn p e (Txn.inPhase .data)).modTxn p e (Txn.inPhase .waitSet)).advance p e := by
    unfold State.parkedRetry
    rw [takeWay_free found home sound free]
    dsimp only
    rw [if_pos (by rw [pav2]; simp [Pav.promised])]
    rfl
  refine ⟨_, run, _, _, found3, ?_, ?_, ?_, ?_, rfl, by rw [effect]⟩
  · rw [pav3]; simp [Pav.promised]
  · rw [pav3]
  · exact (promisedWay_onlyPav set w).trans ((modTxn_onlyPav _).trans (modTxn_onlyPav _))
  · exact (promisedWay_tame set w).only.trans (((modTxn_tame _).trans (modTxn_tame _)).only.mono (by simp))

theorem parkedRetry_idle {set : Nat} (none_ : set ∉ (s.pav p).retryDue) : exec (.parkedRetry p set) s = .next s := by
  change execParkedRetry p set s = _
  unfold execParkedRetry live
  split
  · exact congrArg _ (if_pos (by simp [none_]))
  · rfl
end
end Sys2Proof.Machine

namespace Sys2Proof.Machine

/-! ## A pavilion in which nothing is left (R32) -/

section
variable {s : State} {p : PavId} {e : Nat}

/-- Nothing waits in the pavilion and no transaction is in its table. -/
def Pav.atRest (v : Pav) : Prop :=
  v.tt = [] ∧ v.evBuf = [] ∧ v.sweeps = [] ∧ v.recoverQ = [] ∧ v.poisonQ = [] ∧ v.miss = []

theorem pumpOnce_atRest (rest : (s.pav p).atRest) : s.pumpOnce p = s := by
  obtain ⟨table, evictions, sweeps, recovers, poisons, misses⟩ := rest
  have recover : s.recoverNow p = s := by unfold State.recoverNow; rw [recovers]; rfl
  have poison : s.poisonNext p = s := by unfold State.poisonNext; rw [poisons]
  have commit : s.regsCommit p = s := by unfold State.regsCommit Pav.missList; rw [misses]; rfl
  have drain : s.drainEvBuf p = s := by unfold State.drainEvBuf; rw [evictions]; exact ite_self s
  unfold State.pumpOnce
  dsimp only
  rw [recover, poison, commit, ite_self, Pav.txns, table, List.map_nil, List.foldl_nil, drain, sweeps, List.foldl_nil, ite_self]
theorem pump_atRest (rest : (s.pav p).atRest) : s.pump p = s := by
  have none_ : (s.pav p).sweepRounds = 0 := by
    obtain ⟨-, -, sweeps, -⟩ := rest
    unfold Pav.sweepRounds; rw [sweeps]; rfl
  unfold State.pump
  rw [none_, if_pos rfl]
  exact foldl_fixed_mem fun _ _ => pumpOnce_atRest rest

/-! ## What the end of a lookup accounts (R546, R550) -/

theorem traceLookup_tame (t : State) (x : Txn) : Tame [.blv, .freeCtr] t (State.traceLookup s t p e x) := by
  have drawn : Tame [.freeCtr] t t.drawn := ⟨fun q hq => by cases q <;> simp_all [Part.same], id⟩
  unfold State.traceLookup
  split
  · exact .refl
  · dsimp only
    split
    · exact (occur_tame _ _).mono (by simp)
    · exact (drawn.mono (by simp)).trans ((occur_tame _ _).mono (by simp))
theorem lookEnd_tame (t : State) (x : Txn) : Tame [.blv, .freeCtr] t (State.lookEnd s t p e x) := by
  unfold State.lookEnd State.slotLookup
  exact ((slotUse_tame t p _).mono (by simp)).trans (traceLookup_tame _ x)

/-! ## A CClean that owes nothing (R122) -/

theorem sendPort_kept {n : PortId} {m : Msg} {rel : Option (BitVec 10)} (keeps : (s.port n).link.keeps = true) :
    ((s.sendPort n m rel).port n).link.egress = (s.port n).link.egress ++ [{ msg := m, relTid := rel, at_ := s.now }]
      ∧ OnlyPort n s (s.sendPort n m rel) ∧ Tame [.ports] s (s.sendPort n m rel) := by
  unfold State.sendPort
  rw [if_pos keeps]
  exact ⟨by rw [State.modLink_link_same], modLink_onlyPort s n _, modLink_tame s n _⟩

/-- The answer to a message that its port still expects leaves for it; a data answer is counted. -/
theorem answerFor_sent {n : PortId} {num : Nat} {m : Msg} {rel : Option (BitVec 10)} (keeps : (s.port n).link.keeps = true)
    (expected : s.current n num = true) :
    ((s.answerFor n num m rel).port n).link.egress = (s.port n).link.egress ++ [{ msg := m, relTid := rel, at_ := s.now }]
      ∧ OnlyPort n s (s.answerFor n num m rel) ∧ Tame [.ports, .csr, .glb, .blv] s (s.answerFor n num m rel) := by
  have counted : ∃ u, u = (if classOf m.hdr.opcode = 3 then s.cntGlob 8 1 (some m.hdr.plot) else s) ∧ Tame [.csr, .glb, .blv] s u :=
    ⟨_, rfl, .ite (fun _ => (cntGlob_logs s 8 1 _).tame) fun _ => .refl⟩
  obtain ⟨u, eq, count⟩ := counted
  have port : u.port n = s.port n := count.only.port_eq n
  have expected' : u.current n num = true := by unfold State.current at *; rw [port]; exact expected
  obtain ⟨sent, only, tame⟩ := sendPort_kept (s := u) (n := n) (m := m) (rel := rel) (by rw [port]; exact keeps)
  unfold State.answerFor State.answerPort
  rw [← eq, if_pos expected']
  rw [port, count.only.now_eq] at sent
  exact ⟨sent, OnlyPort.trans (.of_only count.only) only, (count.mono (by simp)).trans (tame.mono (by simp))⟩

/-- The Comp of a CClean: it leaves for the port, and of the pavilion the entry alone changes. -/
theorem comp_clean {n : PortId} {t : Txn} {st : BitVec 4} (found : FMap.find? (s.pav p).tt e = some t) (clean : t.kind = .req Op.cClean)
    (port : portOf? t.port = some n) (keeps : (s.port n).link.keeps = true) (expected : s.current n t.num = true) :
    ((s.comp p e st).port n).link.egress = (s.port n).link.egress ++ [{ msg := compMsg t.tid t.pa st (htidOf p e), relTid := some t.tid, at_ := s.now }]
      ∧ (s.comp p e st).pav p = { s.pav p with tt := FMap.insert (s.pav p).tt e { t with issued := true } }
      ∧ OnlyPort n s (s.comp p e st) ∧ OnlyPav p s (s.comp p e st) ∧ Tame [.ports, .pavs, .csr, .glb, .blv] s (s.comp p e st) := by
  obtain ⟨sent, onlyPort, answered⟩ := answerFor_sent (m := compMsg t.tid t.pa st (htidOf p e)) (rel := some t.tid) keeps expected
  have ordered (u : State) : ((u.orderPoint t.port t.num).port n).link = (u.port n).link ∧ OnlyPort n u (u.orderPoint t.port t.num)
      ∧ Tame [.ports] u (u.orderPoint t.port t.num) := by
    unfold State.orderPoint
    rw [port]
    exact ⟨State.modIo_link_same _ _ _, modIo_onlyPort u n _, modIo_tame u n _⟩
  obtain ⟨link, onlyOrder, order⟩ := ordered (s.answerFor n t.num (compMsg t.tid t.pa st (htidOf p e)) (some t.tid))
  have effect : s.comp p e st = ((s.answerFor n t.num (compMsg t.tid t.pa st (htidOf p e)) (some t.tid)).orderPoint t.port t.num).modTxn p e
      fun t => { t with issued := true } := by
    unfold State.comp
    rw [found]
    dsimp only
    rw [port, clean]
    rfl
  have pav : (State.orderPoint (s.answerFor n t.num (compMsg t.tid t.pa st (htidOf p e)) (some t.tid)) t.port t.num).pav p = s.pav p :=
    (order.only.pav_eq p).trans (answered.only.pav_eq p)
  have issued := modTxn_pav (s := (s.answerFor n t.num (compMsg t.tid t.pa st (htidOf p e)) (some t.tid)).orderPoint t.port t.num) (p := p) (e := e)
    (fun t => { t with issued := true }) (by rw [pav]; exact found)
  rw [effect]
  refine ⟨?_, ?_, ?_, ?_, ?_⟩
  · rw [(modTxn_tame _).only.port_eq, link, sent]
  · rw [issued, pav]
  · exact (onlyPort.trans onlyOrder).trans (.of_only (modTxn_tame _).only)
  · exact OnlyPav.trans (OnlyPav.trans (.of_only answered.only) (.of_only order.only)) (modTxn_onlyPav _)
  · exact (answered.mono (by simp)).trans ((order.mono (by simp)).trans ((modTxn_tame _).mono (by simp)))

/-- The pavilion holds one transaction, and nothing of it or of anything else is under way. -/
def Pav.holdsOnly (v : Pav) (e : Nat) (t : Txn) : Prop := v.tt = [(e, t)] ∧ v.still

theorem Pav.holdsOnly.find {v : Pav} {t : Txn} (only : v.holdsOnly e t) : FMap.find? v.tt e = some t := by
  rw [only.1]; exact if_pos rfl

theorem modTxn_holdsOnly {t : Txn} (f : Txn → Txn) (only : (s.pav p).holdsOnly e t) :
    (s.modTxn p e f).pav p = { s.pav p with tt := [(e, f t)] } ∧ ((s.modTxn p e f).pav p).holdsOnly e (f t) := by
  have pav := modTxn_pav f only.find
  obtain ⟨table, still⟩ := only
  have table' : FMap.insert (s.pav p).tt e (f t) = [(e, f t)] := by rw [table]; simp [FMap.insert]
  rw [table'] at pav
  exact ⟨pav, by rw [pav]; exact ⟨rfl, still⟩⟩

/-! ## The end of a pavilion's only transaction (R114, R115) -/

theorem setBlk_atRest {v : Pav} {la : LineAddr} {b : Bool} (rest : v.atRest) : (v.setBlk la b).atRest := by
  unfold Pav.setBlk
  split
  · exact rest
  · exact rest


theorem flushAcks_none {t : Txn} (found : FMap.find? (s.pav p).tt e = some t) (owed : t.evAcks = []) :
    s.flushAcks p e = s.modTxn p e fun t => { t with evAcks := [] } := by
  unfold State.flushAcks; rw [found]; dsimp only; rw [owed, List.foldl_nil]
theorem dropFetch_holdsOnly {t : Txn} (only : (s.pav p).holdsOnly e t) :
    ((s.dropFetch p e).pav p).holdsOnly e t ∧ OnlyPav p s (s.dropFetch p e) ∧ Tame [.pavs] s (s.dropFetch p e) := by
  unfold State.dropFetch
  refine ⟨?_, modPav_onlyPav s p _, modPav_tame s p _⟩
  obtain ⟨table, runs, evictions, sweeps, recovers, poisons, misses, pushes, returns, retries⟩ := only
  rw [State.modPav_pav_same]
  exact ⟨table, runs, evictions, sweeps, recovers, poisons, by dsimp only; rw [Pav.missList, misses]; rfl, pushes, by dsimp only; rw [returns]; rfl, retries⟩

theorem ite_atRest {c : Prop} [Decidable c] {v w : Pav} (yes : v.atRest) (no : w.atRest) : (if c then v else w).atRest := by
  split
  · exact yes
  · exact no

/-- The end of a CClean is one update of its pavilion after what it owed; with nothing else there the pavilion comes to rest. -/
theorem endTxn_clean {t : Txn} (found : FMap.find? (s.pav p).tt e = some t) (clean : t.kind = .req Op.cClean) :
    ∃ f : Pav → Pav, s.endTxn p e = (((s.readEntry p t.pa).flushAcks p e).dropFetch p e).modPav p f ∧ ∀ v t', v.holdsOnly e t' → (f v).atRest := by
  unfold State.endTxn
  rw [found]
  dsimp -zeta only
  rw [clean]
  refine ⟨_, rfl, fun v t' only => ?_⟩
  obtain ⟨table, runs, evictions, sweeps, recovers, poisons, misses, pushes, returns, retries⟩ := only
  have none_ : FMap.erase v.tt e = [] := by rw [table]; simp [FMap.erase]
  extract_lets v1 v2 set parked v3 v4 head
  have rest1 : v1.atRest := ⟨none_, evictions, sweeps, recovers, poisons, misses⟩
  have rest2 : v2.atRest := setBlk_atRest rest1
  have rest3 : v3.atRest := ite_atRest rest2 rest2
  have rest4 : v4.atRest := ite_atRest rest3 rest3
  have nobody : head = none := by
    obtain ⟨table, -⟩ := rest4
    dsimp only [head]
    rw [table, List.filter_nil, List.foldl_nil]
  rw [nobody]
  exact rest4

/-- The end of a CClean that alone is in its pavilion leaves nothing there (R114, R115). -/
theorem endTxn_atRest {t : Txn} (only : (s.pav p).holdsOnly e t) (clean : t.kind = .req Op.cClean) (owed : t.evAcks = [])
    (sound : (s.pav p).dirSound (dirSet t.pa)) :
    ((s.endTxn p e).pav p).atRest ∧ OnlyPav p s (s.endTxn p e) ∧ Tame [.pavs] s (s.endTxn p e) := by
  obtain ⟨f, eq, rest⟩ := endTxn_clean only.find clean
  rw [readEntry_sound sound, flushAcks_none only.find owed] at eq
  obtain ⟨-, flushed⟩ := modTxn_holdsOnly (fun t => { t with evAcks := [] }) only
  obtain ⟨dropped, onlyPav, tame⟩ := dropFetch_holdsOnly flushed
  rw [eq]
  exact ⟨by rw [State.modPav_pav_same]; exact rest _ _ dropped, (modTxn_onlyPav _).trans (onlyPav.trans (modPav_onlyPav _ p _)),
    (modTxn_tame _).trans (tame.trans (modPav_tame _ p _))⟩

/-! ## A replayed CClean of the boot window (R122, R140) -/

/-- The CClean `t`, alone in its pavilion, whose line has been written back and whose port is there to get its Comp. -/
structure CleanReady (s : State) (p : PavId) (e : Nat) (n : PortId) (t : Txn) : Prop where
  only : (s.pav p).holdsOnly e t
  clean : t.kind = .req Op.cClean
  port : portOf? t.port = some n
  keeps : (s.port n).link.keeps = true
  expected : s.current n t.num = true
  acked : t.acked = []
  owed : t.evAcks = []
  sound : (s.pav p).dirSound (dirSet t.pa)

/-- What the performance of the CClean leaves behind: a pavilion at rest, and one Comp more in egress. -/
structure CleanEnds (s : State) (p : PavId) (e : Nat) (n : PortId) (t : Txn) (u : State) : Prop where
  rest : (u.pav p).atRest
  sent : (u.port n).link.egress = (s.port n).link.egress
    ++ [{ msg := compMsg t.tid t.pa (if t.agentLost then Status.agentLost else Status.ok) (htidOf p e), relTid := some t.tid, at_ := s.now }]
  onlyPort : OnlyPort n s u
  onlyPav : OnlyPav p s u
  tame : Tame [.ports, .pavs, .csr, .glb, .blv] s u

theorem writeDone_clean {n : PortId} {t : Txn} (ready : CleanReady s p e n t) : CleanEnds s p e n t (s.writeDone p e t Op.cClean) := by
  obtain ⟨only, clean, port, keeps, expected, acked, owed, sound⟩ := ready
  have effect : s.writeDone p e t Op.cClean = (s.comp p e (if t.agentLost then Status.agentLost else Status.ok)).endTxn p e := by
    have final : s.finalState p t = s := if_pos (by rw [acked]; rfl)
    unfold State.writeDone
    dsimp only
    rw [if_neg (show ¬ isWriteOp Op.cClean = true by decide), if_neg (show ¬ Op.cClean = Op.cCleanInv by decide), final,
      if_neg (by simp [show ¬ Op.cClean = Op.wrStash by decide])]
  obtain ⟨sent, pav, onlyPort, onlyPav, tame⟩ := comp_clean (st := if t.agentLost then Status.agentLost else Status.ok) only.find clean port keeps expected
  obtain ⟨table, still⟩ := only
  have inserted : FMap.insert (s.pav p).tt e { t with issued := true } = [(e, { t with issued := true })] := by rw [table]; simp [FMap.insert]
  rw [inserted] at pav
  have after : ((s.comp p e (if t.agentLost then Status.agentLost else Status.ok)).pav p).holdsOnly e { t with issued := true } := by
    rw [pav]; exact ⟨rfl, still⟩
  obtain ⟨rest, onlyPav', tame'⟩ := endTxn_atRest after clean owed (by rw [pav]; exact sound)
  rw [effect]
  exact ⟨rest, by rw [tame'.only.port_eq, sent], onlyPort.trans (.of_only tame'.only), onlyPav.trans onlyPav', tame.trans (tame'.mono (by simp))⟩

theorem mode_window (boot : (s.pav p).place = .window) : s.mode p = .window := by unfold State.mode; dsimp only; rw [boot]

/-- In the boot window nothing has to be written: the CClean is performed at once (R238). -/
theorem doClean_window (only : (s.pav p).still) (boot : (s.pav p).place = .window) (t : Txn) : s.doClean p e t false = s.setFetch p e .performed := by
  obtain ⟨-, evictions, -, -, -, -, pushes, returns, -⟩ := only
  have first : s.windowFirst p t.pa = s := by
    unfold State.windowFirst; dsimp only; rw [if_neg (by simp [boot])]
  have free : (s.pav p).lineWaits t.pa = false := by
    unfold Pav.lineWaits Pav.wbOut; rw [evictions, pushes, returns]; rfl
  unfold State.doClean
  rw [first]
  dsimp only
  rw [free, mode_window boot]
  rfl

/-- A change of its phase or its fetch leaves the CClean as ready as it was. -/
theorem CleanReady.modTxn {n : PortId} {t : Txn} (f : Txn → Txn) (ready : CleanReady s p e n t)
    (kept : (f t).kind = t.kind ∧ (f t).port = t.port ∧ (f t).num = t.num ∧ (f t).acked = t.acked ∧ (f t).evAcks = t.evAcks ∧ (f t).pa = t.pa) :
    CleanReady (s.modTxn p e f) p e n (f t) := by
  obtain ⟨only, clean, port, keeps, expected, acked, owed, sound⟩ := ready
  obtain ⟨kind, asker, num, acks, evs, line⟩ := kept
  obtain ⟨pav, only'⟩ := modTxn_holdsOnly f only
  have ports := (modTxn_tame (s := s) (p := p) (e := e) f).only.port_eq n
  refine ⟨only', kind.trans clean, by rw [asker]; exact port, by rw [ports]; exact keeps, ?_, acks.trans acked, evs.trans owed, ?_⟩
  · unfold State.current at *; rw [ports, num]; exact expected
  · rw [pav, line]; exact sound

theorem CleanEnds.of_modTxn {n : PortId} {t : Txn} {u : State} (f : Txn → Txn) (ends : CleanEnds (s.modTxn p e f) p e n (f t) u)
    (kept : (f t).tid = t.tid ∧ (f t).pa = t.pa ∧ (f t).agentLost = t.agentLost) : CleanEnds s p e n t u := by
  obtain ⟨rest, sent, onlyPort, onlyPav, tame⟩ := ends
  obtain ⟨tid, line, lost⟩ := kept
  have first := modTxn_tame (s := s) (p := p) (e := e) f
  rw [first.only.port_eq, first.only.now_eq, tid, line, lost] at sent
  exact ⟨rest, sent, OnlyPort.trans (.of_only first.only) onlyPort, (modTxn_onlyPav f).trans onlyPav, (first.mono (by simp)).trans tame⟩

/-- A CClean of a boot-window line that no agent owns asks no one and is performed. -/
theorem writeStep_clean {n : PortId} {t : Txn} (ready : CleanReady s p e n t) (boot : (s.pav p).place = .window) (again : t.fetch = .replay)
    (unowned : ((s.pav p).entry t.pa).own = none) : CleanEnds s p e n t (s.writeStep p e t Op.cClean) := by
  have inData := ready.modTxn (Txn.inPhase .data) ⟨rfl, rfl, rfl, rfl, rfl, rfl⟩
  have pav := (modTxn_holdsOnly (Txn.inPhase .data) ready.only).1
  have performed := inData.modTxn (fun t => { t with fetch := .performed }) ⟨rfl, rfl, rfl, rfl, rfl, rfl⟩
  have effect : s.writeStep p e t Op.cClean = ((s.modTxn p e (Txn.inPhase .data)).setFetch p e .performed).writeDone p e
      { t with phase := .data, fetch := .performed } Op.cClean := by
    have alone : ((s.pav p).entry t.pa).left t.acked = (s.pav p).entry t.pa := if_pos (by rw [ready.acked]; rfl)
    have cleaned : (s.modTxn p e fun t => { t with phase := .data }).doClean p e t false
        = (s.modTxn p e fun t => { t with phase := .data }).setFetch p e .performed :=
      doClean_window inData.only.2 (by rw [pav]; exact boot) t
    have found : FMap.find? (((s.modTxn p e fun t => { t with phase := .data }).setFetch p e .performed).pav p).tt e
        = some { t with phase := .data, fetch := .performed } := performed.only.find
    unfold State.writeStep
    dsimp only
    rw [alone, unowned, mode_window boot, again, if_neg (by decide), if_neg (by simp), if_neg (by decide), if_neg (show ¬ Op.cClean = Op.wrPart by decide),
      if_pos rfl, if_neg (show ¬ Op.cClean = Op.wrPart by decide)]
    dsimp only
    rw [cleaned, found]
    exact if_pos rfl
  rw [effect]
  exact .of_modTxn _ (.of_modTxn _ (writeDone_clean performed) ⟨rfl, rfl, rfl⟩) ⟨rfl, rfl, rfl⟩

theorem advance_clean {n : PortId} {t : Txn} (ready : CleanReady s p e n t) (boot : (s.pav p).place = .window) (active : t.active = true)
    (inData : t.phase = .data) (again : t.fetch = .replay) (outs : t.outs = []) (cross : t.cross = []) (evicted : t.waitEvict = false)
    (unowned : ((s.pav p).entry t.pa).own = none) : CleanEnds s p e n t (s.advance p e) := by
  have effect : s.advance p e = s.writeStep p e t Op.cClean := by
    have runs : (s.pav p).halted = false := ready.only.2.1
    have noWait : s.meetsEvicting p t Op.cClean = false := by unfold State.meetsEvicting; rw [again, inData]; rfl
    unfold State.advance
    rw [ready.only.find]
    dsimp only
    rw [if_neg (by simp [runs, active, outs, cross, evicted]), inData, ready.clean]
    dsimp only
    rw [noWait, if_neg (by decide), if_neg (by decide)]
  rw [effect]
  exact writeStep_clean ready boot again unowned

theorem readTags_window (boot : (s.pav p).place = .window) (la : LineAddr) : s.readTags p la = s := by
  unfold State.readTags
  rw [mode_window boot, ite_self]

theorem retried_inData {t : Txn} (inData : t.phase = .data) : t.retried = t := by
  unfold Txn.retried; rw [if_neg (by rw [inData]; decide)]

/-- A replayed CClean of a boot-window line that no agent owns gets its Comp and frees its entry. -/
theorem lookupReplay_clean {e : Fin 1024} {n : PortId} {t0 : Txn} (alive : s.alive = true) (ready : CleanReady s p e.val n t0)
    (boot : (s.pav p).place = .window) (active : t0.active = true) (inData : t0.phase = .data) (again : t0.fetch = .replay) (outs : t0.outs = [])
    (cross : t0.cross = []) (evicted : t0.waitEvict = false) (unowned : ((s.pav p).entry t0.pa).own = none) :
    Completes (.lookupReplay p e) s fun t =>
      t.entryFree p e.val
        ∧ (t.port n).link.egress = (s.port n).link.egress
            ++ [{ msg := compMsg t0.tid t0.pa (if t0.agentLost then Status.agentLost else Status.ok) (htidOf p e.val), relTid := some t0.tid, at_ := s.now }]
        ∧ OnlyPort n s t ∧ OnlyPav p s t ∧ OnlyParts [.ports, .pavs, .csr, .glb, .blv, .freeCtr] s t := by
  have runs : (s.pav p).halted = false := ready.only.2.1
  have due : t0.phase = .waitSector ∨ t0.fetch = .replay := .inr again
  have run := lookupReplay_exec alive runs ready.only.find active due
  rw [replay_advances runs ready.only.find active due (readTags_window boot t0.pa) ready.sound] at run
  have pav := (modTxn_holdsOnly Txn.retried ready.only).1
  have again' := retried_inData inData
  have retried := ready.modTxn Txn.retried (by rw [again']; exact ⟨rfl, rfl, rfl, rfl, rfl, rfl⟩)
  rw [again'] at retried
  obtain ⟨rest, sent, onlyPort, onlyPav, tame⟩ : CleanEnds s p e.val n t0 ((s.modTxn p e.val Txn.retried).advance p e.val) :=
    .of_modTxn Txn.retried (by
      rw [again']
      exact advance_clean retried (by rw [pav]; exact boot) active inData again outs cross evicted (by rw [pav]; exact unowned))
      (by rw [again']; exact ⟨rfl, rfl, rfl⟩)
  rw [pump_atRest rest] at run
  have account := lookEnd_tame (s := s) (p := p) (e := e.val) ((s.modTxn p e.val Txn.retried).advance p e.val) t0
  refine ⟨_, run, ?_, ?_, onlyPort.trans (.of_only account.only), onlyPav.trans (.of_only account.only), (tame.only.mono (by simp)).trans (account.only.mono (by simp))⟩
  · obtain ⟨table, -⟩ := rest
    unfold State.entryFree
    rw [account.only.pav_eq, table]
    rfl
  · rw [account.only.port_eq, sent]
end

/-- Settles O11: each clause is the command's own equation; the replayed CClean is followed to its end, through the performance in the
boot window and the end of its transaction, to a pavilion in which the engine finds nothing to do. -/
theorem replaysAndParkedRetries : Obligations.ReplaysAndParkedRetries := by
  unfold Obligations.ReplaysAndParkedRetries
  refine ⟨?_, ?_, fun p e s => lookupReplay_halted, ?_, fun p set s => parkedRetry_idle⟩
  · intro p e t0 s alive _ runs found active due tags dir
    exact lookupReplay_completes alive runs found active due tags dir
  · intro p e n t0 s alive _ _ table still clean active inData again outs cross evicted acked owed _ port keeps expected boot unowned sound
    exact lookupReplay_clean alive ⟨⟨table, still⟩, clean, port, keeps, expected, acked, owed, sound⟩ boot active inData again outs cross evicted unowned
  · intro p set e w t0 op s alive canon runs due oldest found _ _ _ _ _ sound free
    exact parkedRetry_completes alive canon runs due oldest found sound free
end Sys2Proof.Machine

namespace Sys2Proof.Machine

/-! ## Two statements on links and ports that leave a field of LINK_CTL free

LINK_CTL.DISABLE keeps a port in DETECT out of training (R60, R97), which the statement on detection does not ask to be clear; and a bit of
LINK_CTL that hardware has cleared in this cc is not written by software (R520), which the statement on the port commands leaves free. -/

/-- A hub out of reset whose port 0 is in DETECT with LINK_CTL.DISABLE set. -/
def disabledHub : State := { State.reset with glb := { State.reset.glb with on := true } }.rset (R.portLinkCtl 0) 0x40000000

/-- Refutes O1: where LINK_CTL.DISABLE is set, a port in DETECT stays there though its agent shows a receiver on lane 0. -/
theorem not_linksDetectAndTrain : ¬ Obligations.LinksDetectAndTrain := by
  intro h
  obtain ⟨detects, -⟩ := h.1 0 1 disabledHub (by decide) (by decide)
  obtain ⟨t, run, poll, -⟩ := detects (by decide) (by decide)
  have detect : leaves (.receiverDetect 0 1) disabledHub (fun t => (t.port 0).link.st) = some .detect := by decide +kernel
  rw [leaves_next _ run, poll] at detect
  exact absurd detect (by decide)

/-- Refutes O43: in a cc in which hardware has cleared the bits of LINK_CTL, LINK_DISABLE sets no DISABLE, and a port in DETECT stays there. -/
theorem not_portServiceCommands : ¬ Obligations.PortServiceCommands := by
  intro h
  let s := clearedHub (R.portLinkCtl 0)
  obtain ⟨-, -, -, -, -, -, -, -, -, -, -, disables, -⟩ := h hostAccess 0 s (by decide) (clearedHub_canon _) (clearedHub_privileged _) (by decide)
  obtain ⟨t, run, disabled, -⟩ := disables (by decide +kernel) (by decide)
  have detect : leaves (.linkDisable hostAccess 0 true) s (fun t => (t.port 0).link.st) = some .detect := by decide +kernel
  rw [leaves_next _ run, disabled] at detect
  exact absurd detect (by decide)
end Sys2Proof.Machine

namespace Sys2Proof.Machine

section
variable {s t u : State} {n k : PortId}

/-! ## Operations on a port's link: credits and answers (R82 to R85, R93) -/

/-- An operation on the link of a port: the port's transactions, the other ports and every other part stay. -/
structure OnLink (n : PortId) (s t : State) : Prop where
  tame : Tame [.ports] s t
  only : OnlyPort n s t
  io : (t.port n).io = (s.port n).io

theorem OnLink.refl : OnLink n s s := ⟨.refl, .refl n s, rfl⟩
theorem OnLink.trans (h : OnLink n s t) (k : OnLink n t u) : OnLink n s u := ⟨h.tame.trans k.tame, h.only.trans k.only, k.io.trans h.io⟩
theorem OnLink.ite {c : Prop} [Decidable c] (h : OnLink n s t) (k : OnLink n s u) : OnLink n s (if c then t else u) := by
  split
  · exact h
  · exact k
theorem modLink_onLink (s : State) (n : PortId) (f : Link → Link) : OnLink n s (s.modLink n f) :=
  ⟨modLink_tame s n f, modLink_onlyPort s n f, s.modLink_io_same n f⟩
theorem credBack_onLink (s : State) (n : PortId) (cls : Nat) : OnLink n s (s.credBack n cls) := modLink_onLink s n _
theorem reqCredBack_onLink (s : State) (n : PortId) : OnLink n s (s.reqCredBack n) := .ite (modLink_onLink s n _) (credBack_onLink s n 0)
theorem credFor_onLink (s : State) (n : PortId) (num cls : Nat) : OnLink n s (s.credFor n num cls) :=
  .ite (.ite (reqCredBack_onLink s n) (credBack_onLink s n cls)) .refl

@[simp] theorem credBack_credRet (s : State) (n : PortId) (cls : Nat) :
    ((s.credBack n cls).port n).link.credRet = (s.port n).link.credRet.set cls ((s.port n).link.credRet.getD cls 0 + 1) := by simp [State.credBack]
@[simp] theorem credBack_egress (s : State) (n : PortId) (cls : Nat) : ((s.credBack n cls).port n).link.egress = (s.port n).link.egress := by
  simp [State.credBack]
@[simp] theorem credBack_keeps (s : State) (n : PortId) (cls : Nat) : ((s.credBack n cls).port n).link.keeps = (s.port n).link.keeps := by
  simp [State.credBack, Link.keeps]
@[simp] theorem reqCredBack_egress (s : State) (n : PortId) : ((s.reqCredBack n).port n).link.egress = (s.port n).link.egress := by
  unfold State.reqCredBack; split <;> simp
@[simp] theorem credFor_egress (s : State) (n : PortId) (num cls : Nat) : ((s.credFor n num cls).port n).link.egress = (s.port n).link.egress := by
  unfold State.credFor; split
  · split <;> simp
  · rfl

/-- While no more REQ credits are outstanding than CRED_CFG grants, one that leaves ingress goes back (R84, R85). -/
theorem reqCredBack_granted (h : (s.port n).link.reqOut ≤ s.rf (R.portCredCfg n) 9 0) : s.reqCredBack n = s.credBack n 0 :=
  if_neg (Nat.not_lt.mpr h)

/-- Which messages came over the link as it is now trained is known to the port's transactions. -/
theorem current_congr (h : (t.port n).io = (s.port n).io) (num : Nat) : t.current n num = s.current n num := by
  unfold State.current; rw [h]

/-- A message for a link in service joins its egress queue (R93). -/
theorem sendPort_keeps {m : Msg} {rel : Option (BitVec 10)} {fwd : Option (Nat × Nat)} (keeps : (s.port n).link.keeps = true) :
    s.sendPort n m rel fwd
      = s.modLink n fun l => { l with egress := l.egress ++ [{ msg := m, relTid := rel, fwd := fwd, at_ := s.now }], idleSince := s.now } :=
  if_pos keeps

/-- The entry that an answer to a port's message leaves in egress, if the port still expects one (R93). -/
abbrev State.reply (s : State) (n : PortId) (num : Nat) (m : Msg) (rel : Option (BitVec 10)) : List EgMsg :=
  if s.current n num then [{ msg := m, relTid := rel, at_ := s.now }] else []

theorem answerPort_keeps {num : Nat} {m : Msg} {rel : Option (BitVec 10)} (keeps : (s.port n).link.keeps = true) :
    ((s.answerPort n num m rel).port n).link.egress = (s.port n).link.egress ++ s.reply n num m rel
      ∧ ((s.answerPort n num m rel).port n).link.credRet = (s.port n).link.credRet ∧ OnLink n s (s.answerPort n num m rel) := by
  unfold State.answerPort State.reply
  by_cases c : s.current n num = true
  · rw [if_pos c, if_pos c, sendPort_keeps keeps]
    exact ⟨by rw [State.modLink_link_same], by rw [State.modLink_link_same], modLink_onLink s n _⟩
  · rw [if_neg c, if_neg c]
    exact ⟨(List.append_nil _).symm, rfl, .refl⟩
/-- An answer over the crossbar leaves the same, and a data answer is counted. -/
theorem answerFor_keeps {num : Nat} {m : Msg} {rel : Option (BitVec 10)} (keeps : (s.port n).link.keeps = true) :
    ((s.answerFor n num m rel).port n).link.egress = (s.port n).link.egress ++ s.reply n num m rel
      ∧ ((s.answerFor n num m rel).port n).io = (s.port n).io ∧ OnlyPort n s (s.answerFor n num m rel)
      ∧ Tame [.ports, .csr, .glb, .blv] s (s.answerFor n num m rel) := by
  have counted : Tame [.csr, .glb, .blv] s (if classOf m.hdr.opcode = 3 then s.cntGlob 8 1 (some m.hdr.plot) else s) :=
    .ite (fun _ => (cntGlob_logs s 8 1 _).tame) fun _ => .refl
  unfold State.answerFor
  generalize (if classOf m.hdr.opcode = 3 then s.cntGlob 8 1 (some m.hdr.plot) else s) = u at counted
  have port : u.port n = s.port n := counted.only.port_eq n
  obtain ⟨sent, -, link⟩ := answerPort_keeps (s := u) (n := n) (num := num) (m := m) (rel := rel) (by rw [port]; exact keeps)
  have same : u.reply n num m rel = s.reply n num m rel := by
    unfold State.reply; rw [current_congr (congrArg Port.io port), counted.only.now_eq]
  refine ⟨by rw [sent, same, port], by rw [link.io, port], OnlyPort.trans (.of_only counted.only) link.only, ?_⟩
  exact (counted.mono (by simp)).trans (link.tame.mono (by simp))

/-! ## Messages taken from a port's receive queue -/

/-- Of its port, a message that is taken changes the receive queue at most. -/
theorem takeMsg_link (s : State) (n : PortId) (m : Msg) : ∃ q, ((s.takeMsg n m).port n).link = { (s.port n).link with rxq := q } := by
  unfold State.takeMsg
  split
  · exact ⟨_, s.modLink_link_same n _⟩
  · exact ⟨(s.port n).link.rxq, by rw [(countIn_logs s n m).only.port_eq n]⟩
theorem takeMsg_io (s : State) (n : PortId) (m : Msg) : ((s.takeMsg n m).port n).io = (s.port n).io := (takeMsg_port s n m).2.1
theorem takeMsg_onlyPort (s : State) (n : PortId) (m : Msg) : OnlyPort n s (s.takeMsg n m) := (takeMsg_port s n m).1
@[simp] theorem takeMsg_egress (s : State) (n : PortId) (m : Msg) : ((s.takeMsg n m).port n).link.egress = (s.port n).link.egress := by
  obtain ⟨q, h⟩ := takeMsg_link s n m; rw [h]
@[simp] theorem takeMsg_credRet (s : State) (n : PortId) (m : Msg) : ((s.takeMsg n m).port n).link.credRet = (s.port n).link.credRet := by
  obtain ⟨q, h⟩ := takeMsg_link s n m; rw [h]
@[simp] theorem takeMsg_reqOut (s : State) (n : PortId) (m : Msg) : ((s.takeMsg n m).port n).link.reqOut = (s.port n).link.reqOut := by
  obtain ⟨q, h⟩ := takeMsg_link s n m; rw [h]
@[simp] theorem takeMsg_keeps (s : State) (n : PortId) (m : Msg) : ((s.takeMsg n m).port n).link.keeps = (s.port n).link.keeps := by
  obtain ⟨q, h⟩ := takeMsg_link s n m; rw [h]; rfl
theorem takeMsg_rget (m : Msg) (ok : s.regsOk) {o : Nat} (h : o ≠ R.blvEvt) : (s.takeMsg n m).rget o = s.rget o :=
  (takeMsg_logs s n m).rget ok (by simpa using h)
theorem takeMsg_ingressPlot (m w : Msg) (ok : s.regsOk) : (s.takeMsg n w).ingressPlot n m = s.ingressPlot n m := by
  unfold State.ingressPlot State.rbit State.rf; rw [takeMsg_rget w ok (by unfold R.portPlotCtl R.blvEvt; omega)]

/-! ## Table entries and credits (R85, R112, R396) -/

/-- A request has left ingress for an entry of its home pavilion, and the turn has passed on. -/
def State.entryTaken (s : State) (p : PavId) (n : PortId) (num e : Nat) (y : Txn) : State :=
  ((s.modIo n fun io => { io with ingress := io.ingress.filter fun z => z.num ≠ num }).modPav p fun v => { v with tt := FMap.insert v.tt e y }).modGlb
    fun g => { g with turn := g.turn.set p.val ((n.val / 8 + 1) % 12) }

theorem entryTaken_tame (s : State) (p : PavId) (n : PortId) (num e : Nat) (y : Txn) : Tame [.ports, .pavs, .glb] s (s.entryTaken p n num e y) :=
  ((modIo_tame s n _).mono (by simp)).trans (((modPav_tame _ p _).mono (by simp)).trans ((modGlb_tame _ _).mono (by simp)))
theorem entryTaken_table (s : State) (p : PavId) (n : PortId) (num e : Nat) (y : Txn) :
    ((s.entryTaken p n num e y).pav p).tt = FMap.insert (s.pav p).tt e y := by simp [State.entryTaken]
theorem entryTaken_io (s : State) (p : PavId) (n : PortId) (num e : Nat) (y : Txn) :
    ((s.entryTaken p n num e y).port n).io = { (s.port n).io with ingress := (s.port n).io.ingress.filter fun z => z.num ≠ num } := by simp [State.entryTaken]
theorem entryTaken_onlyPav (s : State) (p : PavId) (n : PortId) (num e : Nat) (y : Txn) : OnlyPav p s (s.entryTaken p n num e y) :=
  .trans (.of_only (modIo_tame s n _).only) (.trans (modPav_onlyPav _ p _) (.of_only (modGlb_tame _ _).only))
theorem entryTaken_onlyPort (s : State) (p : PavId) (n : PortId) (num e : Nat) (y : Txn) : OnlyPort n s (s.entryTaken p n num e y) :=
  .trans (modIo_onlyPort s n _) (.trans (.of_only (modPav_tame _ p _).only) (.of_only (modGlb_tame _ _).only))

/-- A request that takes a table entry leaves ingress for it; its credit changes its port's link only. -/
theorem ttAllocate_effect {p : PavId} {x : InMsg} {e : Nat} (free : ((List.range 992).find? fun k => (FMap.find? (s.pav p).tt k).isNone) = some e) :
    ∃ y : Txn, (y.kind = .req x.msg.hdr.opcode ∧ y.port = n.val ∧ y.tid = x.msg.hdr.tid ∧ y.plot = x.msg.hdr.plot ∧ y.pa = x.msg.hdr.pa
        ∧ y.phase = .lookup ∧ y.active = false) ∧ OnLink n (s.entryTaken p n x.num e y) (s.ttAllocate p n x) := by
  unfold State.ttAllocate
  rw [free]
  refine ⟨_, ?_, .ite (credFor_onLink _ n _ _) (modLink_onLink _ n _)⟩
  exact ⟨rfl, rfl, rfl, rfl, rfl, rfl, rfl⟩

theorem ttEntryAllocate_completes {p : PavId} {x : InMsg} {e : Nat} (alive : s.alive = true) (turn : s.turnGroup p = some (n.val / 8))
    (first : s.eligible p n = some x) (places : s.glb.turn.length = 16)
    (free : ((List.range 992).find? fun k => (FMap.find? (s.pav p).tt k).isNone) = some e) :
    Completes (.ttEntryAllocate p n) s fun t =>
      (∃ y, FMap.find? (t.pav p).tt e = some y ∧ y.kind = .req x.msg.hdr.opcode ∧ y.port = n.val ∧ y.tid = x.msg.hdr.tid
        ∧ y.plot = x.msg.hdr.plot ∧ y.pa = x.msg.hdr.pa ∧ y.phase = .lookup ∧ y.active = false)
      ∧ (∀ k, k ≠ e → FMap.find? (t.pav p).tt k = FMap.find? (s.pav p).tt k)
      ∧ (∀ y ∈ (t.port n).io.ingress, y.num ≠ x.num) ∧ t.glb.turn.getD p.val 0 = (n.val / 8 + 1) % 12
      ∧ (t.port n).io.tids = (s.port n).io.tids ∧ OnlyPort n s t ∧ OnlyPav p s t ∧ OnlyParts [.ports, .pavs, .glb] s t := by
  have run : exec (.ttEntryAllocate p n) s = .next (s.ttAllocate p n x) := by
    change execTtEntryAllocate p n s = _
    unfold execTtEntryAllocate
    rw [live_alive _ alive, if_pos turn, first]
  obtain ⟨y, fields, link⟩ := ttAllocate_effect (n := n) (x := x) free
  have table : ((s.ttAllocate p n x).pav p).tt = FMap.insert (s.pav p).tt e y := by rw [link.tame.only.pav_eq, entryTaken_table]
  have io := link.io.trans (entryTaken_io s p n x.num e y)
  refine ⟨_, run, ⟨y, by rw [table, FMap.find_insert_same], fields⟩, fun k hk => by rw [table, FMap.find_insert_other _ _ hk], ?_, ?_, by rw [io], ?_, ?_, ?_⟩
  · rw [io]; intro z hz; simpa using (List.mem_filter.mp hz).2
  · rw [link.tame.only.glb_eq]; simp [State.entryTaken, places]
  · exact (entryTaken_onlyPort s p n x.num e y).trans link.only
  · exact (entryTaken_onlyPav s p n x.num e y).trans (.of_only link.tame.only)
  · exact ((entryTaken_tame s p n x.num e y).trans (link.tame.mono (by simp))).only

/-- A held credit that is due goes back, unless more are outstanding than CRED_CFG grants (R84, R396). -/
theorem heldCreditReturn_completes {d : Nat} {rest : List Nat} (alive : s.alive = true) (held : (s.port n).link.held = d :: rest) (due : d ≤ s.now) :
    Completes (.heldCreditReturn n) s fun t =>
      (t.port n).link.held = rest
        ∧ (if (s.port n).link.reqOut > s.rf (R.portCredCfg n) 9 0 then
            (t.port n).link.reqOut = (s.port n).link.reqOut - 1 ∧ (t.port n).link.credRet = (s.port n).link.credRet
          else (t.port n).link.credRet = (s.port n).link.credRet.set 0 ((s.port n).link.credRet.getD 0 0 + 1))
        ∧ (t.port n).io = (s.port n).io ∧ OnlyPort n s t ∧ OnlyParts [.ports] s t := by
  let u := s.modLink n fun l => { l with held := rest }
  have run : exec (.heldCreditReturn n) s = .next (u.reqCredBack n) := by
    change execHeldCreditReturn n s = _
    unfold execHeldCreditReturn
    rw [live_alive _ alive]
    simp only [held, if_pos due, u]
  have link := (modLink_onLink s n _).trans (reqCredBack_onLink u n)
  have out : (u.port n).link.reqOut = (s.port n).link.reqOut := by simp [u]
  have cfg : u.rf (R.portCredCfg n) 9 0 = s.rf (R.portCredCfg n) 9 0 := rfl
  refine ⟨_, run, ?_, ?_, link.io, link.only, link.tame.only⟩
  · unfold State.reqCredBack State.credBack; split <;> simp [u]
  · unfold State.reqCredBack
    rw [out, cfg]
    split <;> simp [u]

/-- Settles O9. That the lowest free of the entries 0 to 991 is taken is the model's choice (log entry 54). -/
theorem tableEntriesAndCredits : Obligations.TableEntriesAndCredits :=
  ⟨fun _ _ _ _ alive turn first _ places _ free => ttEntryAllocate_completes alive turn first places free,
    fun _ _ _ _ alive held due => heldCreditReturn_completes alive held due⟩
end
end Sys2Proof.Machine

namespace Sys2Proof.Machine

section
variable {s t u : State} {n : PortId}

/-! ## What software has written of a register in this cc

An event's word rests on the register and on what software wrote in it in this cc (R515, R519); counting touches only the counters' own
event register. -/

/-- What software wrote in this cc of every register but the listed ones is the same. -/
def SoftKept (offs : List Nat) (s t : State) : Prop := ∀ o, o ∉ offs → FMap.find? t.swNow o = FMap.find? s.swNow o

theorem SoftKept.refl {os : List Nat} : SoftKept os s s := fun _ _ => rfl
theorem SoftKept.trans {os : List Nat} (h : SoftKept os s t) (k : SoftKept os t u) : SoftKept os s u := fun o ho => (k o ho).trans (h o ho)
theorem SoftKept.ite {os : List Nat} {c : Prop} [Decidable c] (h : SoftKept os s t) (k : SoftKept os s u) : SoftKept os s (if c then t else u) := by
  split
  · exact h
  · exact k
theorem SoftKept.foldl {os : List Nat} {β : Type} (f : State → β → State) (h : ∀ s x, SoftKept os s (f s x)) (xs : List β) :
    SoftKept os s (xs.foldl f s) := by
  induction xs generalizing s with
  | nil => exact .refl
  | cons x _ ih => exact (h s x).trans ih
theorem SoftKept.of_only {os : List Nat} {ps : List Part} (h : OnlyParts ps s t) (hp : Part.csr ∉ ps := by decide) : SoftKept os s t := fun _ _ => by
  rw [(h .csr hp).2.1]

/-- An event's word in another register is the same. -/
theorem SoftKept.uncleared {os : List Nat} (h : SoftKept os s t) {o : Nat} (ho : o ∉ os) (same : t.rget o = s.rget o) : t.uncleared o = s.uncleared o := by
  unfold State.uncleared; rw [h o ho, same]

theorem raise_softKept (s : State) (off bit : Nat) : SoftKept [off] s (s.raise off bit) := by
  have set (v : W32) : SoftKept [off] s (s.hwSet off v) := fun o ho => by
    unfold State.hwSet
    dsimp only
    split
    · exact FMap.find_insert_other _ _ (by simpa using ho)
    · rfl
  unfold State.raise
  split
  · exact set _
  · exact (set _).trans (.of_only (groupEvent_tame _ _).only)
theorem cntRaw_softKept (s : State) (i k : Nat) : SoftKept [R.blvEvt] s (s.cntRaw i k) := by
  have counted (f : Blv → Blv) : SoftKept [R.blvEvt] s (s.modBlv f) := .of_only (modBlv_tame s f).only
  unfold State.cntRaw
  split
  · exact .refl
  split
  · exact .ite ((counted _).trans (raise_softKept _ _ _)) (counted _)
  · exact .refl
theorem cntAdd_softKept (s : State) (i k : Nat) : SoftKept [R.blvEvt] s (s.cntAdd i k) := by
  have h := cntRaw_softKept s i k
  unfold State.cntAdd
  split
  · exact .refl
  split
  · exact .ite h (h.trans (.foldl _ (fun s _ => .ite (cntRaw_softKept s _ _) .refl) _))
  · exact h
theorem cntPort_softKept (s : State) (n : PortId) (code : Nat) (plot : Option PlotId) (k : Nat) : SoftKept [R.blvEvt] s (s.cntPort n code plot k) :=
  .ite .refl (.foldl _ (fun s _ => .ite (cntAdd_softKept s _ _) .refl) _)
theorem countIn_softKept (s : State) (n : PortId) (m : Msg) : SoftKept [R.blvEvt] s (s.countIn n m) :=
  (SoftKept.of_only (occur_tame s _).only).trans
    (.ite (cntPort_softKept _ _ _ _ _) (.ite (cntPort_softKept _ _ _ _ _) (.ite (cntPort_softKept _ _ _ _ _) (.ite (cntPort_softKept _ _ _ _ _) .refl))))
theorem takeMsg_softKept (s : State) (n : PortId) (m : Msg) : SoftKept [R.blvEvt] s (s.takeMsg n m) :=
  .ite (.of_only (modLink_tame s n _).only) (countIn_softKept s n m)

/-- An event in a register that the operations before it have left alone. -/
theorem Raised.after {os : List Nat} {off bit : Nat} (soft : SoftKept os s u) (free : off ∉ os) (same : u.rget off = s.rget off) (h : Raised off bit u t) :
    Raised off bit s t := by
  unfold Raised at *; rw [h, soft.uncleared free same]

/-! ## Requests at their port (R85, R106, R132, R142, R144, R163, R430) -/

/-- A request with a free TID has taken its TID, its place in arrival order and its place in ingress. -/
def State.reqQueued (s : State) (n : PortId) (m : Msg) (loc : Option (BitVec 4)) : State :=
  s.modIo n fun io =>
    { io with nextNum := io.nextNum + 1, tids := io.tids ++ [m.hdr.tid]
              ingress := io.ingress ++ [{ num := io.nextNum, msg := m, at_ := s.now, loc := loc }]
              opens := io.opens ++ [{ num := io.nextNum, oid := m.hdr.oid, tid := m.hdr.tid, write := isWriteOp m.hdr.opcode || isCmoOp m.hdr.opcode }] }

/-- Each of the ten requests passes ingress with its own opcode. -/
theorem exec_homeRequest {m : Msg} {x : Instr × BitVec 8} (alive : s.alive = true) (hx : x ∈ homeRequests n m) :
    exec x.1 s = .next (s.reqIn n (withOp m x.2)) := by
  simp only [homeRequests, List.mem_cons, List.not_mem_nil, or_false] at hx
  rcases hx with rfl | rfl | rfl | rfl | rfl | rfl | rfl | rfl | rfl | rfl <;> exact live_alive (fun s => s.reqIn n _) alive
theorem homeRequest_op {m : Msg} {x : Instr × BitVec 8} (hx : x ∈ homeRequests n m) : x.2 ≠ Op.fence ∧ x.2 ≠ Op.ioRd := by
  simp only [homeRequests, List.mem_cons, List.not_mem_nil, or_false] at hx
  rcases hx with rfl | rfl | rfl | rfl | rfl | rfl | rfl | rfl | rfl | rfl <;> exact ⟨ne_of_beq_false rfl, ne_of_beq_false rfl⟩

theorem ingressPlot_hdr (s : State) (n : PortId) (m : Msg) :
    (s.ingressPlot n m).hdr.tid = m.hdr.tid ∧ (s.ingressPlot n m).hdr.retry = m.hdr.retry ∧ (s.ingressPlot n m).hdr.oid = m.hdr.oid := by
  unfold State.ingressPlot; split <;> exact ⟨rfl, rfl, rfl⟩

/-- How a port answers a request is judged by its transactions, by COH_CTL and by the home ranges. -/
theorem localStatus_congr (io : (t.port n).io = (s.port n).io) (ctl : t.rget (R.portCohCtl n) = s.rget (R.portCohCtl n)) (ranges : t.glb.ranges = s.glb.ranges)
    (m : Msg) : t.localStatus n m = s.localStatus n m := by
  unfold State.localStatus State.rbit State.isHome; rw [io, ctl, ranges]

section
variable {m : Msg} (ok : s.regsOk)
include ok

theorem takeMsg_localStatus (w : Msg) : (s.takeMsg n w).localStatus n m = s.localStatus n m :=
  localStatus_congr (takeMsg_io s n w) (takeMsg_rget w ok (by unfold R.portCohCtl R.blvEvt; omega)) (by rw [(takeMsg_logs s n w).glb]) m

/-- A request whose TID is in use (R142). -/
theorem reqIn_again (used : m.hdr.tid ∈ (s.port n).io.tids) : s.reqIn n m =
    if m.hdr.retry then (s.takeMsg n m).reqCredBack n
    else (((s.takeMsg n m).protoErr n).reqCredBack n).sendPort n (compMsg m.hdr.tid m.hdr.pa Status.unsupported 0 true) := by
  obtain ⟨tid, retry, -⟩ := ingressPlot_hdr s n m
  simp only [State.reqIn, takeMsg_ingressPlot m m ok, takeMsg_io, tid, retry, ingressPlot_pa]
  rw [if_pos (by simpa using used)]
/-- A request with a free TID joins ingress, and what the port answers itself is answered; an address outside every home range is reported. -/
theorem reqIn_new (free : m.hdr.tid ∉ (s.port n).io.tids) : s.reqIn n m =
    let loc := s.localStatus n (s.ingressPlot n m)
    ((if loc = some Status.notHome && !s.isHome m.hdr.pa && (s.port n).io.qst = .none then (s.takeMsg n m).notHome n m.hdr.pa else s.takeMsg n m).reqQueued n
      (s.ingressPlot n m) loc).localAnswers n := by
  obtain ⟨tid, -, -⟩ := ingressPlot_hdr s n m
  have home : (s.takeMsg n m).isHome m.hdr.pa = s.isHome m.hdr.pa := by unfold State.isHome; rw [(takeMsg_logs s n m).glb]
  simp only [State.reqIn, takeMsg_ingressPlot m m ok, takeMsg_io, tid, ingressPlot_pa, takeMsg_localStatus ok, home, State.reqQueued]
  rw [if_neg (by simpa using free)]
end

/-- While nothing in ingress is the port's to answer, nothing leaves it so. -/
theorem localAnswers_none (h : ∀ y ∈ (s.port n).io.ingress, y.loc = none) : s.localAnswers n = s := by
  unfold State.localAnswers
  split
  · rfl
  · exact foldl_fixed_mem fun y hy => by rw [h y hy]

/-- Settles O6: the request joins ingress, which holds nothing that the port answers itself. -/
theorem requestsWaitInIngress : Obligations.RequestsWaitInIngress := by
  intro n m s alive ok x hx m' io free home quiet
  let w := withOp m x.2
  let u := s.takeMsg n w
  have uio : (u.port n).io = io := takeMsg_io s n w
  have queued : s.reqIn n w = u.reqQueued n m' none := by
    rw [reqIn_new (m := w) ok free]
    have status : s.localStatus n (s.ingressPlot n w) = none := home
    simp only [status]
    rw [if_neg (by simp), localAnswers_none fun y hy => ?_]
    simp only [State.reqQueued, State.modIo_io_same, List.mem_append, List.mem_singleton] at hy
    rcases hy with hy | rfl
    · exact quiet y (uio ▸ hy)
    · rfl
  obtain ⟨tid, -, oid⟩ := ingressPlot_hdr s n w
  have logs := takeMsg_logs s n w
  refine Completes.of_eq (exec_homeRequest alive hx) queued ⟨?_, ?_, ?_, ?_⟩
  · rw [State.reqQueued, State.modIo_io_same, uio, show m'.hdr.tid = m.hdr.tid from tid, show m'.hdr.oid = m.hdr.oid from oid,
      show m'.hdr.opcode = x.2 from ingressPlot_opcode s n w, show u.now = s.now from logs.only.now_eq]
  · rw [State.reqQueued, State.modIo_link_same, takeMsg_egress]
  · exact (takeMsg_onlyPort s n w).trans (modIo_onlyPort u n _)
  · exact (logs.tame.trans ((modIo_tame u n _).mono (by simp))).only

/-! ### Requests that the port answers itself -/

theorem localAnswer_sent {x : InMsg} {st : BitVec 4} (keeps : (s.port n).link.keeps = true)
    (granted : (s.port n).link.reqOut ≤ s.rf (R.portCredCfg n) 9 0) :
    let h := x.msg.hdr
    let t := s.localAnswer n x st
    (t.port n).io = { (s.port n).io with
        ingress := (s.port n).io.ingress.filter fun y => y.num ≠ x.num
        opens := (s.port n).io.opens.filter fun o => o.num ≠ x.num
        ring := if isWriteOp h.opcode && !(h.retry && (s.port n).io.ring.any fun r => r.1 = h.tid && r.2.1 = h.pa)
          then ((h.tid, h.pa, st) :: (s.port n).io.ring).take 64 else (s.port n).io.ring }
      ∧ (s.current n x.num = true →
        (t.port n).link.egress = (s.port n).link.egress ++ [{ msg := compMsg h.tid h.pa st, relTid := some h.tid, at_ := s.now }]
          ∧ (t.port n).link.credRet = (s.port n).link.credRet.set 0 ((s.port n).link.credRet.getD 0 0 + 1))
      ∧ OnlyPort n s t ∧ Tame [.ports] s t := by
  intro h t
  let q := s.modIo n fun io =>
    { io with ingress := io.ingress.filter fun y => y.num ≠ x.num
              opens := io.opens.filter fun o => o.num ≠ x.num
              ring := if isWriteOp h.opcode && !(h.retry && io.ring.any fun r => r.1 = h.tid && r.2.1 = h.pa)
                then ((h.tid, h.pa, st) :: io.ring).take 64 else io.ring }
  have qlink : (q.port n).link = (s.port n).link := State.modIo_link_same s n _
  have credit := credFor_onLink q n x.num 0
  have ckeeps : ((q.credFor n x.num 0).port n).link.keeps = true := by
    unfold State.credFor
    split
    · rw [if_pos rfl, reqCredBack_granted (by rw [qlink]; exact granted), credBack_keeps, qlink, keeps]
    · rw [qlink, keeps]
  obtain ⟨sent, ret, answer⟩ := answerPort_keeps (num := x.num) (m := compMsg h.tid h.pa st) (rel := some h.tid) ckeeps
  refine ⟨?_, fun cur => ⟨?_, ?_⟩, ?_, ?_⟩
  · exact ((credit.trans answer).io).trans (State.modIo_io_same s n _)
  · have cur' : q.current n x.num = true := cur ▸ (by unfold State.current; simp [q])
    have now : (q.credFor n x.num 0).now = s.now := credit.tame.only.now_eq
    rw [show (t.port n).link.egress = _ from sent, credFor_egress, qlink, State.reply, current_congr credit.io, if_pos cur', now]
  · have cur' : q.current n x.num = true := cur ▸ (by unfold State.current; simp [q])
    rw [show (t.port n).link.credRet = _ from ret, State.credFor, if_pos cur', if_pos rfl, reqCredBack_granted (by rw [qlink]; exact granted), credBack_credRet, qlink]
  · exact (modIo_onlyPort s n _).trans (credit.trans answer).only
  · exact (modIo_tame s n _).trans (credit.trans answer).tame

/-- The one request of ingress that the port answers itself goes when order lets it. -/
theorem localAnswers_last {ys : List InMsg} {x : InMsg} {st : BitVec 4} (run : s.glb.hold = false) (queue : (s.port n).io.ingress = ys ++ [x])
    (others : ∀ y ∈ ys, y.loc = none) (loc : x.loc = some st) (fence : x.msg.hdr.opcode ≠ Op.fence) (read : x.msg.hdr.opcode ≠ Op.ioRd)
    (goes : (s.port n).io.reqFree s.now x = true) : s.localAnswers n = s.localAnswer n x st := by
  unfold State.localAnswers
  rw [if_neg (by simp [run]), queue, List.foldl_append, List.foldl_cons, List.foldl_nil, loc,
    foldl_fixed_mem (xs := ys) fun y hy => by rw [others y hy]]
  simp only
  rw [if_neg fence, if_neg read, if_pos goes]

/-- A request that has just joined ingress goes at once where no Fence waits and no earlier request has its OID (R165, R169). -/
theorem reqQueued_free {m : Msg} {loc : Option (BitVec 4)} {x : InMsg} (num : x.num = (s.port n).io.nextNum) (oid : x.msg.hdr.oid = m.hdr.oid)
    (fences : (s.port n).io.fences = []) (opens : ∀ o ∈ (s.port n).io.opens, o.oid ≠ m.hdr.oid) (now : Nat) :
    ((s.reqQueued n m loc).port n).io.reqFree now x = true := by
  rw [State.reqQueued, State.modIo_io_same]
  simp only [PortIo.reqFree, PortIo.fenceFree, PortIo.oidFree, fences, num, oid, List.all_append, Bool.and_eq_true]
  refine ⟨by simp, List.all_eq_true.mpr fun o ho => by simp [opens o ho], by simp⟩

/-- A request that the port answers itself and that nothing before it holds is answered as it joins ingress, and leaves no trace there. -/
theorem reqQueued_answered {m : Msg} {st : BitVec 4} (keeps : (s.port n).link.keeps = true) (granted : (s.port n).link.reqOut ≤ s.rf (R.portCredCfg n) 9 0)
    (op : m.hdr.opcode ≠ Op.fence ∧ m.hdr.opcode ≠ Op.ioRd) (waiting : ∀ y ∈ (s.port n).io.ingress, y.loc = none ∧ y.num ≠ (s.port n).io.nextNum)
    (opens : ∀ o ∈ (s.port n).io.opens, o.oid ≠ m.hdr.oid ∧ o.num ≠ (s.port n).io.nextNum) (fences : (s.port n).io.fences = []) (run : s.glb.hold = false) :
    let t := (s.reqQueued n m (some st)).localAnswers n
    (t.port n).io = { (s.port n).io with
        nextNum := (s.port n).io.nextNum + 1
        tids := (s.port n).io.tids ++ [m.hdr.tid]
        ring := if isWriteOp m.hdr.opcode && !(m.hdr.retry && (s.port n).io.ring.any fun r => r.1 = m.hdr.tid && r.2.1 = m.hdr.pa)
          then ((m.hdr.tid, m.hdr.pa, st) :: (s.port n).io.ring).take 64 else (s.port n).io.ring }
      ∧ (s.current n (s.port n).io.nextNum = true →
          (t.port n).link.egress = (s.port n).link.egress ++ [{ msg := compMsg m.hdr.tid m.hdr.pa st, relTid := some m.hdr.tid, at_ := s.now }]
            ∧ (t.port n).link.credRet = (s.port n).link.credRet.set 0 ((s.port n).link.credRet.getD 0 0 + 1))
      ∧ OnlyPort n s t ∧ Tame [.ports] s t := by
  let x : InMsg := { num := (s.port n).io.nextNum, msg := m, at_ := s.now, loc := some st }
  let q := s.reqQueued n m (some st)
  have qio : (q.port n).io = { (s.port n).io with
      nextNum := (s.port n).io.nextNum + 1, tids := (s.port n).io.tids ++ [m.hdr.tid], ingress := (s.port n).io.ingress ++ [x]
      opens := (s.port n).io.opens ++
        [{ num := x.num, oid := m.hdr.oid, tid := m.hdr.tid, write := isWriteOp m.hdr.opcode || isCmoOp m.hdr.opcode }] } := State.modIo_io_same s n _
  have qlink : (q.port n).link = (s.port n).link := State.modIo_link_same s n _
  have goes : (q.port n).io.reqFree q.now x = true := reqQueued_free (x := x) rfl rfl fences (fun o ho => (opens o ho).1) q.now
  have queue : (q.port n).io.ingress = (s.port n).io.ingress ++ [x] := by rw [qio]
  have answered : q.localAnswers n = q.localAnswer n x st :=
    localAnswers_last run queue (fun z hz => (waiting z hz).1) rfl op.1 op.2 goes
  obtain ⟨tio, reply, only, tame⟩ := localAnswer_sent (s := q) (n := n) (x := x) (st := st) (by rw [qlink]; exact keeps) (by rw [qlink]; exact granted)
  have gone : ((s.port n).io.ingress ++ [x]).filter (fun z => z.num ≠ x.num) = (s.port n).io.ingress := by
    rw [List.filter_append, List.filter_eq_self.mpr fun z hz => by simpa using (waiting z hz).2]; simp
  have closed (w : Bool) : ((s.port n).io.opens ++ [({ num := x.num, oid := m.hdr.oid, tid := m.hdr.tid, write := w } : OpenReq)]).filter (fun o => o.num ≠ x.num)
      = (s.port n).io.opens := by
    rw [List.filter_append, List.filter_eq_self.mpr fun o ho => by simpa using (opens o ho).2]; simp
  rw [show (s.reqQueued n m (some st)).localAnswers n = q.localAnswer n x st from answered]
  refine ⟨?_, fun cur => ?_, (modIo_onlyPort s n _).trans only, (modIo_tame s n _).trans tame⟩
  · rw [tio, qio]
    simp only [gone, closed]
    rfl
  · obtain ⟨sent, ret⟩ := reply (by unfold State.current at *; rw [qio]; exact cur)
    rw [sent, ret, qlink]
    exact ⟨rfl, rfl⟩

theorem notHome_logs (s : State) (n : PortId) (la : LineAddr) :
    Logs [.csr, .glb, .lodge, .blv] [R.portCohEvt n, R.blvEvt, R.lodgeEvqStat] s (s.notHome n la) :=
  ((raise_logs s (R.portCohEvt n) 10).mono (by simp) (by simp)).trans ((event_logs _ _ _ _ _ _ _ _).mono (by simp) (by simp))
/-- An address outside every home range is reported in COH_EVT (R106). -/
theorem notHome_bit (la : LineAddr) (ok : s.regsOk) : ((s.notHome n la).rget (R.portCohEvt n)).getLsbD 10 = true := by
  have other : R.portCohEvt n ∉ [R.blvEvt, R.lodgeEvqStat] := by simp only [List.mem_cons, List.not_mem_nil, or_false]; unfold R.portCohEvt R.blvEvt R.lodgeEvqStat; omega
  unfold State.notHome
  rw [(event_logs _ _ _ _ _ _ _ _).rget ((raise_logs s _ _).regsOk ok) other]
  exact raise_bit _ _ ok (by decide) (by decide)

section
variable {m : Msg} {x : Instr × BitVec 8} (alive : s.alive = true) (ok : s.regsOk)
  (granted : (s.port n).link.reqOut ≤ s.rf (R.portCredCfg n) 9 0) (hx : x ∈ homeRequests n m)
include alive ok granted hx

/-- A request with a TID in use and RETRY set is dropped (R142). -/
theorem homeRequest_dropped (used : m.hdr.tid ∈ (s.port n).io.tids) (retry : m.hdr.retry = true) :
    Completes x.1 s fun t =>
      (t.port n).io = (s.port n).io ∧ (t.port n).link.egress = (s.port n).link.egress
        ∧ (t.port n).link.credRet = (s.port n).link.credRet.set 0 ((s.port n).link.credRet.getD 0 0 + 1) ∧ OnlyPort n s t
        ∧ OnlyParts [.ports, .csr, .glb, .blv] s t := by
  let w := withOp m x.2
  have cfg : (s.takeMsg n w).rf (R.portCredCfg n) 9 0 = s.rf (R.portCredCfg n) 9 0 := by
    unfold State.rf; rw [takeMsg_rget w ok (by unfold R.portCredCfg R.blvEvt; omega)]
  have effect : s.reqIn n w = (s.takeMsg n w).credBack n 0 := by
    rw [reqIn_again (m := w) ok used, if_pos (by exact retry), reqCredBack_granted (by rw [takeMsg_reqOut, cfg]; exact granted)]
  have credit := credBack_onLink (s.takeMsg n w) n 0
  refine Completes.of_eq (exec_homeRequest alive hx) effect ⟨credit.io.trans (takeMsg_io s n w), by simp, by simp, ?_, ?_⟩
  · exact (takeMsg_onlyPort s n w).trans credit.only
  · exact ((takeMsg_logs s n w).tame.trans (credit.tame.mono (by simp))).only

variable (keeps : (s.port n).link.keeps = true)
include keeps

/-- A request with a TID in use and no RETRY is a protocol error, answered Unsupported with PERR (R80, R142). -/
theorem homeRequest_refused (used : m.hdr.tid ∈ (s.port n).io.tids) (retry : m.hdr.retry = false) :
    Completes x.1 s fun t =>
      (t.port n).io = (s.port n).io
        ∧ (t.port n).link.egress = (s.port n).link.egress ++ [{ msg := compMsg m.hdr.tid m.hdr.pa Status.unsupported 0 true, at_ := s.now }]
        ∧ (t.port n).link.credRet = (s.port n).link.credRet.set 0 ((s.port n).link.credRet.getD 0 0 + 1) ∧ Raised (R.portLinkEvt n) 13 s t
        ∧ OnlyPort n s t ∧ OnlyParts [.ports, .csr, .glb, .blv] s t := by
  let w := withOp m x.2
  let u := s.takeMsg n w
  let v := u.protoErr n
  have logs : Logs [.ports, .csr, .glb, .blv] [R.blvEvt] s u := takeMsg_logs s n w
  have raised : Logs [.csr, .glb] [R.portLinkEvt n] u v := raise_logs u (R.portLinkEvt n) 13
  have vport : v.port n = u.port n := raised.only.port_eq n
  have cfg : v.rget (R.portCredCfg n) = s.rget (R.portCredCfg n) := by
    rw [raised.rget (logs.regsOk ok) (by simp), takeMsg_rget w ok (by unfold R.portCredCfg R.blvEvt; omega)]
  have vkeeps : (v.port n).link.keeps = true := by rw [vport, takeMsg_keeps, keeps]
  have vgranted : (v.port n).link.reqOut ≤ v.rf (R.portCredCfg n) 9 0 := by unfold State.rf; rw [vport, takeMsg_reqOut, cfg]; exact granted
  have effect : s.reqIn n w = (v.credBack n 0).sendPort n (compMsg m.hdr.tid m.hdr.pa Status.unsupported 0 true) := by
    rw [reqIn_again (m := w) ok used, if_neg (by simp [w, withOp, retry]), reqCredBack_granted (s := v) vgranted]
    rfl
  have credit := credBack_onLink v n 0
  have ckeeps : ((v.credBack n 0).port n).link.keeps = true := by rw [credBack_keeps, vkeeps]
  have now : (v.credBack n 0).now = s.now := credit.tame.only.now_eq.trans (raised.only.now_eq.trans logs.only.now_eq)
  rw [sendPort_keeps ckeeps] at effect
  have link (f : Link → Link) : OnLink n v ((v.credBack n 0).modLink n f) := credit.trans (modLink_onLink _ n f)
  refine Completes.of_eq (exec_homeRequest alive hx) effect ⟨?_, ?_, ?_, ?_, ?_, ?_⟩
  · exact (link _).io.trans ((congrArg Port.io vport).trans (takeMsg_io s n w))
  · rw [State.modLink_link_same, credBack_egress, vport, takeMsg_egress, now]
  · rw [State.modLink_link_same, credBack_credRet, vport, takeMsg_credRet]
  · have other : R.portLinkEvt n ∉ [R.blvEvt] := by simp; unfold R.portLinkEvt R.blvEvt; omega
    exact Raised.after (takeMsg_softKept s n w) other (logs.rget ok other)
      (((link _).tame.only.rget_eq (R.portLinkEvt n)).trans (raise_raised _ 13 (logs.regsOk ok)))
  · exact ((takeMsg_onlyPort s n w).trans (.of_only raised.only)).trans (link _).only
  · exact ((logs.tame.trans (raised.tame.mono (by simp))).trans ((link _).tame.mono (by simp))).only

/-- A request that the port answers itself and that nothing before it holds is answered at once (R85, R106, R132, R144, R430). -/
theorem homeRequest_answered {st : BitVec 4} (status : s.localStatus n (s.ingressPlot n (withOp m x.2)) = some st) (free : m.hdr.tid ∉ (s.port n).io.tids)
    (waiting : ∀ y ∈ (s.port n).io.ingress, y.loc = none ∧ y.num ≠ (s.port n).io.nextNum)
    (opens : ∀ o ∈ (s.port n).io.opens, o.oid ≠ m.hdr.oid ∧ o.num ≠ (s.port n).io.nextNum) (fences : (s.port n).io.fences = []) (run : s.glb.hold = false) :
    Completes x.1 s fun t =>
      (t.port n).io = { (s.port n).io with
          nextNum := (s.port n).io.nextNum + 1
          tids := (s.port n).io.tids ++ [m.hdr.tid]
          ring := if isWriteOp x.2 && !(m.hdr.retry && (s.port n).io.ring.any fun r => r.1 = m.hdr.tid && r.2.1 = m.hdr.pa)
            then ((m.hdr.tid, m.hdr.pa, st) :: (s.port n).io.ring).take 64 else (s.port n).io.ring }
        ∧ (s.current n (s.port n).io.nextNum = true →
            (t.port n).link.egress = (s.port n).link.egress ++ [{ msg := compMsg m.hdr.tid m.hdr.pa st, relTid := some m.hdr.tid, at_ := s.now }]
              ∧ (t.port n).link.credRet = (s.port n).link.credRet.set 0 ((s.port n).link.credRet.getD 0 0 + 1))
        ∧ (st = Status.notHome → s.isHome m.hdr.pa = false → (s.port n).io.qst = .none → (t.rget (R.portCohEvt n)).getLsbD 10 = true)
        ∧ OnlyPort n s t ∧ OnlyParts [.ports, .csr, .glb, .lodge, .blv] s t := by
  let w := withOp m x.2
  let m' := s.ingressPlot n w
  obtain ⟨tid, retry, oid⟩ := ingressPlot_hdr s n w
  have op : m'.hdr.opcode = x.2 := ingressPlot_opcode s n w
  have pa : m'.hdr.pa = m.hdr.pa := ingressPlot_pa s n w
  let out : Bool := (some st = some Status.notHome) && !s.isHome m.hdr.pa && (s.port n).io.qst = .none
  let u := s.takeMsg n w
  let v := if out then u.notHome n m.hdr.pa else u
  have taken : Logs [.ports, .csr, .glb, .lodge, .blv] [R.portCohEvt n, R.blvEvt, R.lodgeEvqStat] s u := (takeMsg_logs s n w).mono (by simp) (by simp)
  have reported : Logs [.csr, .glb, .lodge, .blv] [R.portCohEvt n, R.blvEvt, R.lodgeEvqStat] u v := .ite (fun _ => notHome_logs u n m.hdr.pa) fun _ => .refl
  have logs := taken.trans (reported.mono (qs := [.ports, .csr, .glb, .lodge, .blv]) (by simp) (List.Subset.refl _))
  have vport : v.port n = u.port n := reported.only.port_eq n
  have vio : (v.port n).io = (s.port n).io := by rw [vport]; exact takeMsg_io s n w
  have now : v.now = s.now := logs.only.now_eq
  have cfg : v.rget (R.portCredCfg n) = s.rget (R.portCredCfg n) :=
    logs.rget ok (by simp only [List.mem_cons, List.not_mem_nil, or_false]; unfold R.portCredCfg R.portCohEvt R.blvEvt R.lodgeEvqStat; omega)
  obtain ⟨tio, reply, only, tame⟩ := reqQueued_answered (s := v) (n := n) (m := m') (st := st) (by rw [vport, takeMsg_keeps, keeps])
    (by unfold State.rf; rw [vport, takeMsg_reqOut, cfg]; exact granted) (op ▸ homeRequest_op hx) (by rw [vio]; exact waiting)
    (by rw [vio, show m'.hdr.oid = m.hdr.oid from oid]; exact opens) (by rw [vio]; exact fences) (by rw [logs.glb]; exact run)
  have effect : s.reqIn n w = (v.reqQueued n m' (some st)).localAnswers n := by
    rw [reqIn_new (m := w) ok free]
    simp only [show s.localStatus n (s.ingressPlot n w) = some st from status]
    rfl
  refine Completes.of_eq (exec_homeRequest alive hx) effect ⟨?_, fun cur => ?_, fun bad away idle => ?_, ?_, ?_⟩
  · rw [tio, vio, op, show m'.hdr.tid = m.hdr.tid from tid, show m'.hdr.retry = m.hdr.retry from retry, pa]
  · obtain ⟨sent, ret⟩ := reply (by unfold State.current at *; rw [vio]; exact cur)
    rw [sent, ret, vport, takeMsg_egress, takeMsg_credRet, show m'.hdr.tid = m.hdr.tid from tid, pa, now]
    exact ⟨rfl, rfl⟩
  · have bit : (v.rget (R.portCohEvt n)).getLsbD 10 = true := by
      rw [show v = u.notHome n m.hdr.pa from if_pos (by simp [out, bad, away, idle])]; exact notHome_bit _ (taken.regsOk ok)
    rw [tame.only.rget_eq]; exact bit
  · exact ((takeMsg_onlyPort s n w).trans (.of_only reported.only)).trans only
  · exact (logs.tame.trans (tame.mono (by simp))).only
end

/-- Settles O7. That a write answered so joins the ring whatever its STATUS is the model's reading (log entry 48). -/
theorem requestsAnsweredAtThePort : Obligations.RequestsAnsweredAtThePort := by
  intro n m s alive ok keeps granted x hx
  exact ⟨fun used retry => homeRequest_dropped alive ok granted hx used retry,
    fun used retry => homeRequest_refused alive ok granted hx keeps used retry,
    fun _ status free waiting opens fences run => homeRequest_answered alive ok granted hx keeps status free waiting opens fences run⟩
end
end Sys2Proof.Machine

namespace Sys2Proof.Machine

section
variable {s t u : State} {n r : PortId} {m : Msg}

/-! ## Data that owners send (R116, R127) -/

/-- The transaction that an answer names is the table entry of its HTID, where that holds the answer's line. -/
theorem txnOf_eq {p : PavId} {e : Nat} {x : Txn} :
    s.txnOf m = some (p, e, x) ↔ FMap.find? (s.pav (htidPav m.hdr.htid)).tt (htidEnt m.hdr.htid) = some x ∧ x.pa = m.hdr.pa
      ∧ p = htidPav m.hdr.htid ∧ e = htidEnt m.hdr.htid := by
  unfold State.txnOf
  split
  · next none_ => simp [none_]
  · next y found =>
    rw [found]
    by_cases pa : y.pa = m.hdr.pa
    · rw [if_pos pa]; simp only [Option.some.injEq, Prod.mk.injEq]; grind
    · rw [if_neg pa]; simp only [Option.some.injEq, reduceCtorEq, false_iff]; rintro ⟨rfl, h, -⟩; exact pa h

/-- The owner's data is awaited no longer, and its requester's TID is answered (R116, R142). -/
def State.ownerTaken (s : State) (p : PavId) (e : Nat) (r : PortId) (x : Txn) : State :=
  (s.modTxn p e fun t => { t with fwdOwner := none }).modIo r fun io => { io with answered := x.tid :: io.answered }

theorem ownerTaken_tame (s : State) (p : PavId) (e : Nat) (r : PortId) (x : Txn) : Tame [.pavs, .ports] s (s.ownerTaken p e r x) :=
  ((modTxn_tame _).mono (by simp)).trans ((modIo_tame _ r _).mono (by simp))
theorem ownerTaken_onlyPort (s : State) (p : PavId) (e : Nat) (r : PortId) (x : Txn) : OnlyPort r s (s.ownerTaken p e r x) :=
  .trans (.of_only (modTxn_tame (s := s) (p := p) (e := e) _).only) (modIo_onlyPort _ r _)
theorem ownerTaken_onlyPav (s : State) (p : PavId) (e : Nat) (r : PortId) (x : Txn) : OnlyPav p s (s.ownerTaken p e r x) :=
  .trans (modTxn_onlyPav _) (.of_only (modIo_tame _ r _).only)
theorem ownerTaken_port (s : State) (p : PavId) (e : Nat) (r : PortId) (x : Txn) :
    ((s.ownerTaken p e r x).port r).io = { (s.port r).io with answered := x.tid :: (s.port r).io.answered }
      ∧ ((s.ownerTaken p e r x).port r).link = (s.port r).link := by
  unfold State.ownerTaken
  rw [State.modIo_io_same, State.modIo_link_same, (modTxn_tame (s := s) (p := p) (e := e) _).only.port_eq]
  exact ⟨rfl, rfl⟩

/-- Data for a transaction that awaits it from its sender goes on to the requester. -/
theorem ownerData_passed {p : PavId} {e : Nat} {x : Txn} (named : s.txnOf m = some (p, e, x)) (port : x.port = r.val) (awaited : x.fwdOwner = some n.val) :
    s.ownerData n m = ((s.ownerTaken p e r x).credBack n 3).answerFor r x.num { m with data := msgData m } := by
  obtain ⟨found, pa, rfl, rfl⟩ := txnOf_eq.mp named
  have requester : portOf? x.port = some r := by rw [portOf?, dif_pos (by rw [port]; exact r.isLt)]; simp [port]
  unfold State.ownerData
  rw [found]
  dsimp only
  rw [requester]
  exact if_pos (by simp [pa, awaited])
/-- Data that no transaction awaits from its sender is a protocol error, and its credit goes back. -/
theorem ownerData_refused (h : ∀ p e x, s.txnOf m = some (p, e, x) → x.fwdOwner ≠ some n.val) : s.ownerData n m = (s.protoErr n).credBack n 3 := by
  unfold State.ownerData
  split
  · rfl
  · next x found =>
    split
    · rfl
    · refine if_neg fun both => ?_
      obtain ⟨pa, owner⟩ : x.pa = m.hdr.pa ∧ x.fwdOwner = some n.val := by simpa using both
      exact h _ _ x (txnOf_eq.mpr ⟨found, pa, rfl, rfl⟩) owner

theorem takeMsg_txnOf (s : State) (n : PortId) (w : Msg) (op : BitVec 8) : (s.takeMsg n w).txnOf (withOp m op) = s.txnOf m := by
  unfold State.txnOf; rw [(takeMsg_logs s n w).only.pav_eq]; rfl

theorem ownerData_completes {i : Instr} {op : BitVec 8} {p : PavId} {e : Nat} {x : Txn}
    (run : exec i s = .next ((s.takeMsg n (withOp m op)).ownerData n (withOp m op))) (named : s.txnOf m = some (p, e, x)) (port : x.port = r.val)
    (other : r ≠ n) (keeps : (s.port r).link.keeps = true) (awaited : x.fwdOwner = some n.val) :
    Completes i s fun t =>
      (t.port r).link.egress = (s.port r).link.egress ++ (if s.current r x.num then [{ msg := { withOp m op with data := msgData m }, at_ := s.now }] else [])
        ∧ (t.port r).io.answered = x.tid :: (s.port r).io.answered
        ∧ (t.port n).link.credRet = (s.port n).link.credRet.set 3 ((s.port n).link.credRet.getD 3 0 + 1)
        ∧ FMap.find? (t.pav p).tt e = some { x with fwdOwner := none }
        ∧ (∀ k, k ≠ n → k ≠ r → t.port k = s.port k) ∧ OnlyPav p s t ∧ OnlyParts [.ports, .pavs, .csr, .glb, .blv] s t := by
  let w := withOp m op
  let u := s.takeMsg n w
  let q := u.ownerTaken p e r x
  let c := q.credBack n 3
  have logs : Logs [.ports, .csr, .glb, .blv] [R.blvEvt] s u := takeMsg_logs s n w
  have uport : u.port r = s.port r := takeMsg_onlyPort s n w r other
  have taken := ownerTaken_tame u p e r x
  obtain ⟨qio, qlink⟩ := ownerTaken_port u p e r x
  have credit := credBack_onLink q n 3
  have cport : c.port r = q.port r := credit.only r other
  have link : (c.port r).link = (s.port r).link := by rw [cport, qlink, uport]
  have now : c.now = s.now := credit.tame.only.now_eq.trans (taken.only.now_eq.trans logs.only.now_eq)
  have expected : c.current r x.num = s.current r x.num := by unfold State.current; rw [cport, qio, uport]
  obtain ⟨sent, io, only, tame⟩ := answerFor_keeps (s := c) (n := r) (num := x.num) (m := { w with data := msgData w }) (rel := none) (by rw [link]; exact keeps)
  have found : FMap.find? (u.pav p).tt e = some x := by
    obtain ⟨found, -, rfl, rfl⟩ := txnOf_eq.mp named
    rw [logs.only.pav_eq]; exact found
  refine Completes.of_eq run (ownerData_passed ((takeMsg_txnOf s n w op).trans named) port awaited) ⟨?_, ?_, ?_, ?_, fun k hn hr => ?_, ?_, ?_⟩
  · rw [sent, link, State.reply, expected, now]; rfl
  · rw [io, cport, qio, uport]
  · rw [only n other.symm, credBack_credRet, ownerTaken_onlyPort u p e r x n other.symm, takeMsg_credRet]
  · rw [tame.only.pav_eq, credit.tame.only.pav_eq]
    exact modTxn_find (s := u) _ found
  · rw [only k hr, credit.only k hn, ownerTaken_onlyPort u p e r x k hr, takeMsg_onlyPort s n w k hn]
  · exact ((OnlyPav.of_only logs.only).trans (ownerTaken_onlyPav u p e r x)).trans ((OnlyPav.of_only credit.tame.only).trans (.of_only tame.only))
  · exact ((logs.tame.mono (by simp)).trans ((taken.mono (by simp)).trans ((credit.tame.mono (by simp)).trans (tame.mono (by simp))))).only

theorem ownerData_discards {i : Instr} {op : BitVec 8} (ok : s.regsOk)
    (run : exec i s = .next ((s.takeMsg n (withOp m op)).ownerData n (withOp m op)))
    (unawaited : ∀ p e x, s.txnOf m = some (p, e, x) → x.fwdOwner ≠ some n.val) :
    Completes i s fun t =>
      (t.rget (R.portLinkEvt n)).getLsbD 13 = true ∧ s.creditGiven n 3 t ∧ OnlyParts [.ports, .csr, .glb, .blv] s t := by
  let w := withOp m op
  let u := s.takeMsg n w
  let v := u.protoErr n
  have logs : Logs [.ports, .csr, .glb, .blv] [R.blvEvt] s u := takeMsg_logs s n w
  have raised := raise_logs u (R.portLinkEvt n) 13
  have vport : v.port n = u.port n := raised.only.port_eq n
  have credit := credBack_onLink v n 3
  refine Completes.of_eq run (ownerData_refused fun p e x h => unawaited p e x ((takeMsg_txnOf s n w op).symm.trans h)) ⟨?_, ⟨?_, ?_, ?_, ?_⟩, ?_⟩
  · rw [credit.tame.only.rget_eq]; exact raise_bit _ _ (logs.regsOk ok) (by decide) (by decide)
  · rw [credBack_credRet, vport, takeMsg_credRet]
  · exact credit.io.trans ((congrArg Port.io vport).trans (takeMsg_io s n w))
  · rw [credBack_egress, vport, takeMsg_egress]
  · exact ((takeMsg_onlyPort s n w).trans (.of_only raised.only)).trans credit.only
  · exact (logs.tame.trans ((raised.tame.mono (by simp)).trans (credit.tame.mono (by simp)))).only

/-- Settles O17: the data reaches the requester's egress, or ends as a protocol error; its own credit goes back either way. -/
theorem ownerDataPassedOn : Obligations.OwnerDataPassedOn := by
  intro n r m x s alive canon i hi
  have run : exec i.1 s = .next ((s.takeMsg n (withOp m i.2)).ownerData n (withOp m i.2)) := by
    simp only [List.mem_cons, List.not_mem_nil, or_false] at hi
    rcases hi with rfl | rfl <;> exact live_alive (fun s => (s.takeMsg n (withOp m _)).ownerData n (withOp m _)) alive
  refine ⟨fun p e named port other keeps awaited => ownerData_completes run named port other keeps awaited, fun unawaited only => ?_⟩
  refine ownerData_discards canon.1 run fun p e y named => ?_
  rcases only with none_ | ⟨p', e', named'⟩
  · rw [none_] at named; cases named
  · have same := named'.symm.trans named
    obtain ⟨rfl, rfl, rfl⟩ : p' = p ∧ e' = e ∧ x = y := by simpa using same
    exact unawaited p' e' named'
end
end Sys2Proof.Machine

namespace Sys2Proof.Machine

section
variable {s t u : State} {n q : PortId}

/-! ## Reads of the tracker (R175, R180, R181) -/

theorem ioElig_link (s : State) (n : PortId) : ((s.ioElig n).port n).link = (s.port n).link := by
  unfold State.ioElig; dsimp only; split
  · rfl
  · rw [State.modIo_link_same]
/-- Starting timers takes no entry into the tracker and out of it. -/
theorem ioElig_rdt (s : State) (n : PortId) :
    ∃ f : RdEntry → RdEntry, (∀ y, (f y).slot = y.slot) ∧ ((s.ioElig n).port n).io.rdt = (s.port n).io.rdt.map f := by
  unfold State.ioElig
  dsimp only
  split
  · exact ⟨id, fun _ => rfl, (List.map_id _).symm⟩
  · refine ⟨fun x => if x.elig.isNone && (s.port n).io.rdFree x then { x with elig := some s.now } else x, fun y => ?_, ?_⟩
    · dsimp only; split <;> rfl
    · rw [State.modIo_io_same]

section
variable (s) (n) (x : RdEntry)

theorem rdFreeSlot_slots : ∃ f : RdEntry → RdEntry, (∀ y, (f y).slot = y.slot)
    ∧ ((s.rdFreeSlot n x).port n).io.rdt = ((s.port n).io.rdt.filter fun y => y.slot ≠ x.slot).map f := by
  obtain ⟨f, slots, rdt⟩ := ioElig_rdt ((s.modIo n fun io => { io with rdt := io.rdt.filter fun y => y.slot ≠ x.slot }).credFor n x.num 5) n
  refine ⟨f, slots, rdt.trans ?_⟩
  rw [(credFor_onLink _ n x.num 5).io, State.modIo_io_same]
/-- A read that frees its entry leaves none of its slot. -/
theorem rdFreeSlot_frees : ∀ y ∈ ((s.rdFreeSlot n x).port n).io.rdt, y.slot ≠ x.slot := by
  obtain ⟨f, slots, rdt⟩ := rdFreeSlot_slots s n x
  rw [rdt]
  intro y hy
  obtain ⟨z, hz, rfl⟩ := List.mem_map.mp hy
  rw [slots]; simpa using (List.mem_filter.mp hz).2
theorem rdFreeSlot_egress : ((s.rdFreeSlot n x).port n).link.egress = (s.port n).link.egress := by
  unfold State.rdFreeSlot
  rw [ioElig_link, credFor_egress, State.modIo_link_same]
theorem rdFreeSlot_onlyPort : OnlyPort n s (s.rdFreeSlot n x) :=
  ((modIo_onlyPort s n _).trans (credFor_onLink _ n x.num 5).only).trans (ioElig_onlyPort _ n)
theorem rdFreeSlot_tame : Tame [.ports] s (s.rdFreeSlot n x) := ((modIo_tame s n _).trans (credFor_onLink _ n x.num 5).tame).trans (ioElig_tame _ n)
end

/-- The read that goes next to a port finds the port's link in service (R177). -/
theorem rdNext_keeps {x : RdEntry} (next : s.rdNext n = some x) (port : x.target = .port q) : (s.port q).link.keeps = true := by
  have takes := List.find?_some next
  simp only [port, State.ioTakes, Bool.and_eq_true] at takes
  obtain ⟨-, ⟨-, up⟩, -⟩ := takes
  unfold Link.up at up
  unfold Link.keeps
  rw [up]; rfl

/-- A read has been sent: it is marked, and its timer runs (R180). -/
def State.rdSent (s : State) (n : PortId) (x : RdEntry) : State :=
  s.modIo n fun io => { io with rdt := io.rdt.map fun y => if y.slot = x.slot then { y with sent := true, elig := some (y.elig.getD s.now) } else y }

theorem rdDispatch_port {x : RdEntry} (next : s.rdNext n = some x) (port : x.target = .port q) :
    s.rdDispatch n = ((s.rdSent n x).credTake q 5).sendPort q (ioForward x.msg n x.use true x.slot) := by
  unfold State.rdDispatch; rw [next]; dsimp only; rw [port]; rfl
theorem rdDispatch_svc {x : RdEntry} (next : s.rdNext n = some x) (svc : x.target = .svc) :
    s.rdDispatch n = ((s.csrRead (csrAccess n x.msg) (s.csrBase x.msg) x.msg).1.answerFor n x.num
      (rdAnswer x.msg (s.csrRead (csrAccess n x.msg) (s.csrBase x.msg) x.msg).2 false Status.ok)).rdFreeSlot n x := by
  unfold State.rdDispatch; rw [next]; dsimp only; rw [svc]

theorem iordDispatch_port {x : RdEntry} (alive : s.alive = true) (next : s.rdNext n = some x) (port : x.target = .port q) (other : q ≠ n) :
    Completes (.iordDispatch n) s fun t =>
      (∀ y ∈ (t.port n).io.rdt, y.slot = x.slot → y.sent = true) ∧ (t.port n).io.rdt.length = (s.port n).io.rdt.length
        ∧ (t.port q).link.egress = (s.port q).link.egress ++ [{ msg := ioForward x.msg n x.use true x.slot, at_ := s.now }]
        ∧ (t.port q).link.cred = (s.port q).link.cred.set 5 ((s.port q).link.cred.getD 5 0 - 1)
        ∧ (∀ k, k ≠ n → k ≠ q → t.port k = s.port k) ∧ OnlyParts [.ports] s t := by
  let c := (s.rdSent n x).credTake q 5
  have credit : OnLink q (s.rdSent n x) c := modLink_onLink _ q _
  have sentPort : (s.rdSent n x).port q = s.port q := State.modIo_port_other s _ other
  have clink : (c.port q).link = { (s.port q).link with cred := (s.port q).link.cred.set 5 ((s.port q).link.cred.getD 5 0 - 1) } := by
    rw [← sentPort]; exact State.modLink_link_same _ q _
  have keeps : (c.port q).link.keeps = true := by rw [clink]; exact rdNext_keeps next port
  have effect := (rdDispatch_port next port).trans (sendPort_keeps (s := c) keeps)
  have link (f : Link → Link) : OnLink q (s.rdSent n x) (c.modLink q f) := credit.trans (modLink_onLink c q f)
  have rdt (f : Link → Link) : ((c.modLink q f).port n).io.rdt
      = (s.port n).io.rdt.map fun y => if y.slot = x.slot then { y with sent := true, elig := some (y.elig.getD s.now) } else y := by
    rw [(link f).only n other.symm, State.rdSent, State.modIo_io_same]
  refine Completes.of_eq (live_alive (fun s => s.rdDispatch n) alive) effect ⟨?_, ?_, ?_, ?_, fun k hn hq => ?_, ?_⟩
  · rw [rdt]
    intro y hy slot
    obtain ⟨z, -, rfl⟩ := List.mem_map.mp hy
    split at slot
    · next same => rw [if_pos same]
    · next differ => exact absurd slot differ
  · rw [rdt, List.length_map]
  · rw [State.modLink_link_same, clink]; rfl
  · rw [State.modLink_link_same, clink]
  · rw [(link _).only k hq]; exact State.modIo_port_other s _ hn
  · exact ((modIo_tame s n _).trans (link _).tame).only

theorem iordDispatch_svc {x : RdEntry} (alive : s.alive = true) (next : s.rdNext n = some x) (svc : x.target = .svc) :
    Completes (.iordDispatch n) s fun t =>
      t = (((s.csrRead (csrAccess n x.msg) (s.csrBase x.msg) x.msg).1.answerFor n x.num
        (rdAnswer x.msg (s.csrRead (csrAccess n x.msg) (s.csrBase x.msg) x.msg).2 false Status.ok)).rdFreeSlot n x)
        ∧ ∀ y ∈ (t.port n).io.rdt, y.slot ≠ x.slot :=
  Completes.of_eq (live_alive (fun s => s.rdDispatch n) alive) (rdDispatch_svc next svc) ⟨rfl, rdFreeSlot_frees _ n x⟩

/-! ### Answers to reads -/

/-- An IODat passes ingress whatever else waits there: its credit returns, and the data is counted (R24, R87). -/
theorem answerIn_ioDat (s : State) (n : PortId) (m : Msg) (f : State → State) :
    ∃ k, s.answerIn n (withOp m Op.ioDat) f = f (((s.takeMsg n (withOp m Op.ioDat)).credBack n 3).cntGlob 8 1 k) := by
  let u := s.takeMsg n (withOp m Op.ioDat)
  have free : u.answerBarred n Op.ioDat = false := by
    simp [State.answerBarred, Op.ioDat, Op.wbD, Op.evC, Op.recallD, Op.fwdAck, Op.fwdAckD, Op.rspCrossed, Op.stashAcc, Op.stashDecl]
  have live (t : State) : t.frozen (withOp m Op.ioDat) = false := by
    have : [Op.invAck, Op.fwdAck, Op.fwdAckD, Op.recallD, Op.rspCrossed, Op.stashAcc, Op.stashDecl].contains (withOp m Op.ioDat).hdr.opcode = false := rfl
    unfold State.frozen; rw [this]; rfl
  have awake (t : State) : t.wakeFor (withOp m Op.ioDat) = t := if_pos rfl
  refine ⟨(u.credBack n 3).plotIn n (withOp m Op.ioDat), ?_⟩
  unfold State.answerIn
  rw [if_neg (by rw [show (withOp m Op.ioDat).hdr.opcode = Op.ioDat from rfl, free]; exact Bool.false_ne_true)]
  have cls : classOf (withOp m Op.ioDat).hdr.opcode = 3 := by
    rw [show (withOp m Op.ioDat).hdr.opcode = Op.ioDat from rfl]; decide
  simp only [live, awake, cls, if_true, Bool.false_eq_true, if_false, u]

/-- The answer that a sent read awaits reaches its requester, and frees its entry (R181). -/
theorem ioDatIn_answers {m : Msg} {x : RdEntry} (source : portOf? (ioSource m) = some q) (read : ioIsRead m = true)
    (awaited : ((s.port q).io.rdt.find? fun y => y.sent && y.slot = ioSlot m && m.hdr.tid = y.use.setWidth 10) = some x) :
    s.ioDatIn m = (s.answerPort q x.num (rdAnswer x.msg (rdBytes x.msg (msgData m)) m.hdr.poison Status.ok)).rdFreeSlot q x := by
  unfold State.ioDatIn; rw [source]; dsimp only; rw [if_pos read, awaited]

/-- A read that is answered at its port and leaves the tracker. -/
theorem readAnswered {x : RdEntry} {m : Msg} (keeps : (s.port n).link.keeps = true) :
    let t := (s.answerPort n x.num m).rdFreeSlot n x
    (t.port n).link.egress = (s.port n).link.egress ++ s.reply n x.num m none ∧ (∀ y ∈ (t.port n).io.rdt, y.slot ≠ x.slot)
      ∧ OnlyPort n s t ∧ Tame [.ports] s t := by
  obtain ⟨sent, -, link⟩ := answerPort_keeps (num := x.num) (m := m) (rel := none) keeps
  exact ⟨(rdFreeSlot_egress _ n x).trans sent, rdFreeSlot_frees _ n x, link.only.trans (rdFreeSlot_onlyPort _ n x), link.tame.trans (rdFreeSlot_tame _ n x)⟩

theorem iodat_completes {m : Msg} {x : RdEntry} (alive : s.alive = true) (source : portOf? (ioSource m) = some q) (read : ioIsRead m = true)
    (other : q ≠ n) (keeps : (s.port q).link.keeps = true)
    (awaited : ((s.port q).io.rdt.find? fun y => y.sent && y.slot = ioSlot m && m.hdr.tid = y.use.setWidth 10) = some x) :
    Completes (.iodat n m) s fun t =>
      (t.port q).link.egress = (s.port q).link.egress
          ++ (if s.current q x.num then [{ msg := rdAnswer x.msg (rdBytes x.msg (msgData m)) m.hdr.poison Status.ok, at_ := s.now }] else [])
        ∧ (∀ y ∈ (t.port q).io.rdt, y.slot ≠ x.slot) ∧ (∀ k, k ≠ n → k ≠ q → t.port k = s.port k)
        ∧ OnlyParts [.ports, .csr, .glb, .blv] s t := by
  let w := withOp m Op.ioDat
  obtain ⟨k, passed⟩ := answerIn_ioDat s n m fun s => s.ioDatIn m
  let u := s.takeMsg n w
  let v := (u.credBack n 3).cntGlob 8 1 k
  have counted := cntGlob_logs (u.credBack n 3) 8 1 k
  have credit := credBack_onLink u n 3
  have before : OnlyPort n s v := (takeMsg_onlyPort s n w).trans (credit.only.trans (.of_only counted.only))
  have tame : Tame [.ports, .csr, .glb, .blv] s v := (takeMsg_logs s n w).tame.trans ((credit.tame.mono (by simp)).trans (counted.tame.mono (by simp)))
  have port : v.port q = s.port q := before q other
  have effect := passed.trans (ioDatIn_answers (s := v) source read (by rw [port]; exact awaited))
  obtain ⟨sent, gone, only, tame'⟩ := readAnswered (s := v) (n := q) (x := x) (m := rdAnswer x.msg (rdBytes x.msg (msgData m)) m.hdr.poison Status.ok)
    (by rw [port]; exact keeps)
  have run : exec (.iodat n m) s = .next (s.answerIn n w fun s => s.ioDatIn m) := live_alive (fun s => s.answerIn n w fun s => s.ioDatIn m) alive
  refine Completes.of_eq run effect ⟨?_, gone, fun j hn hq => ?_, ?_⟩
  · rw [sent, port, State.reply, current_congr (congrArg Port.io port), tame.only.now_eq]
  · rw [only j hq, before j hn]
  · exact (tame.trans (tame'.mono (by simp))).only

theorem iordTimeout_completes {e : Fin 16} {x : RdEntry} {d : Nat} (alive : s.alive = true) (mem : x ∈ (s.port n).io.rdt) (slot : x.slot = e.val)
    (started : x.elig = some d) (due : d + s.ioTmo ≤ s.now) :
    Completes (.iordTimeout n e) s fun t =>
      { x with runOut := true } ∈ (t.port n).io.rdt ∧ (∀ y ∈ (t.port n).io.rdt, y.slot ≠ e.val → y ∈ (s.port n).io.rdt)
        ∧ (t.port n).io.rdt.length = (s.port n).io.rdt.length ∧ (t.port n).link = (s.port n).link ∧ OnlyPort n s t ∧ OnlyParts [.ports] s t := by
  refine ⟨_, live_alive (fun s => s.rdTimeout n e) alive, ?_, ?_, ?_, State.modIo_link_same s n _, modIo_onlyPort s n _, (modIo_tame s n _).only⟩
  · rw [State.rdTimeout, State.modIo_io_same]
    exact List.mem_map.mpr ⟨x, mem, if_pos (by simp [slot, started, due])⟩
  · rw [State.rdTimeout, State.modIo_io_same]
    intro y hy differ
    obtain ⟨z, hz, rfl⟩ := List.mem_map.mp hy
    split at differ
    · next marked => exact absurd (by simpa using (Bool.and_eq_true_iff.mp marked).1) differ
    · next kept => rw [if_neg kept]; exact hz
  · rw [State.rdTimeout, State.modIo_io_same, List.length_map]

/-! ### A read that is given up as its cc ends -/

theorem arbPop_empty (k : Nat) (h : (s.port n).io.arb = []) : s.arbPop n k = s := by
  cases k with
  | zero => rfl
  | succ k => unfold State.arbPop; rw [h]

/-- The only read of a port, run out, is given up (R181). -/
theorem ioRunOut_read {x : RdEntry} (only : (s.port n).io.rdt = [x]) (out : x.runOut = true) (noArb : (s.port n).io.arb = [])
    (noFence : ((s.rdRunOut n x).port n).io.fences = []) :
    s.ioRunOut n = (s.rdRunOut n x).modIo n fun io => { io with loss := io.loss || io.lossNow, lossNow := false } := by
  unfold State.ioRunOut
  rw [if_neg (by simp [only])]
  simp only [noArb, only, arbPop_empty 64 noArb, List.filter_nil, List.foldl_nil, List.filter_cons, out, if_true, List.foldl_cons, noFence]

theorem ioElig_fences (s : State) (n : PortId) : ((s.ioElig n).port n).io.fences = (s.port n).io.fences := by
  obtain ⟨r, io⟩ := ioElig_port s n; rw [io]
theorem rdFreeSlot_fences (s : State) (n : PortId) (x : RdEntry) : ((s.rdFreeSlot n x).port n).io.fences = (s.port n).io.fences := by
  unfold State.rdFreeSlot; rw [ioElig_fences, (credFor_onLink _ n x.num 5).io, State.modIo_io_same]

theorem ioRunOut_givesUp {x : RdEntry} (ok : s.regsOk) (only : (s.port n).io.rdt = [x]) (out : x.runOut = true) (noArb : (s.port n).io.arb = [])
    (noFence : (s.port n).io.fences = []) (keeps : (s.port n).link.keeps = true) :
    let t := s.ioRunOut n
    (t.port n).link.egress = (s.port n).link.egress ++ s.reply n x.num (rdAnswer x.msg 0 true Status.ioTimeout) none
      ∧ (t.port n).io.rdt = [] ∧ Raised (R.portIoEvt n) 11 s t ∧ OnlyPort n s t ∧ OnlyParts [.ports, .csr, .glb] s t := by
  obtain ⟨sent, -, link⟩ := answerPort_keeps (num := x.num) (m := rdAnswer x.msg 0 true Status.ioTimeout) (rel := none) keeps
  let a := s.answerPort n x.num (rdAnswer x.msg 0 true Status.ioTimeout)
  let v := a.raise (R.portIoEvt n) 11
  have raised := raise_logs a (R.portIoEvt n) 11
  have vport : v.port n = a.port n := raised.only.port_eq n
  have freed := rdFreeSlot_tame v n x
  obtain ⟨f, -, rdt⟩ := rdFreeSlot_slots v n x
  let done := fun io : PortIo => { io with loss := io.loss || io.lossNow, lossNow := false }
  have last := modIo_tame (v.rdFreeSlot n x) n done
  have eq : s.ioRunOut n = (v.rdFreeSlot n x).modIo n done :=
    ioRunOut_read only out noArb (by rw [show s.rdRunOut n x = v.rdFreeSlot n x from rfl, rdFreeSlot_fences, vport, link.io, noFence])
  intro t
  rw [show t = (v.rdFreeSlot n x).modIo n done from eq]
  refine ⟨?_, ?_, ?_, ?_, ?_⟩
  · rw [State.modIo_link_same, rdFreeSlot_egress, vport, sent]
  · rw [State.modIo_io_same, show (done ((v.rdFreeSlot n x).port n).io).rdt = ((v.rdFreeSlot n x).port n).io.rdt from rfl, rdt, vport, link.io, only]; simp
  · have event : Raised (R.portIoEvt n) 11 a ((v.rdFreeSlot n x).modIo n done) :=
      ((freed.trans last).only.rget_eq (R.portIoEvt n)).trans (raise_raised _ 11 (link.tame.regs ok))
    exact event.after (SoftKept.of_only (os := []) link.tame.only) (by simp) (link.tame.only.rget_eq _)
  · exact (link.only.trans (.of_only raised.only)).trans ((rdFreeSlot_onlyPort v n x).trans (modIo_onlyPort _ n done))
  · exact ((link.tame.mono (by simp)).trans ((raised.tame.mono (by simp)).trans ((freed.trans last).mono (by simp)))).only

/-- Settles O22. That the service node answers at dispatch is the model's choice (log entries 64 and 236). -/
theorem readsDispatchedAndAnswered : Obligations.ReadsDispatchedAndAnswered := by
  intro n q s alive ok
  exact ⟨fun x next port other => iordDispatch_port alive next port other, fun x next svc => iordDispatch_svc alive next svc,
    fun m x source read other keeps awaited => iodat_completes alive source read other keeps awaited,
    fun e x d mem slot started due => iordTimeout_completes alive mem slot started due,
    fun x only out noArb noFence keeps => ioRunOut_givesUp ok only out noArb noFence keeps⟩
end
end Sys2Proof.Machine

namespace Sys2Proof.Machine

section
variable {s t u : State} {n : PortId}

/-! ## Retry and low power (R74 to R76, R91) -/

/-- A command that is one update of a port's link changes nothing else. -/
theorem linkUpdate_completes {i : Instr} {g : Link → Link} {l : Link} (run : exec i s = .next (s.modLink n g)) (link : g (s.port n).link = l) :
    Completes i s fun t => (t.port n).link = l ∧ OnlyPort n s t ∧ OnlyParts [.ports] s t :=
  ⟨_, run, (s.modLink_link_same n g).trans link, modLink_onlyPort s n g, (modLink_tame s n g).only⟩

theorem exec_retryReq (alive : s.alive = true) (active : (s.port n).link.st = .active) (q : BitVec 12) :
    exec (.retryReq n q) s = .next (s.retryFrom n q.toNat) := by
  change execRetryReq n q s = _
  unfold execRetryReq
  rw [live_alive _ alive, if_pos active]

/-- The hub's own request comes due: it is repeated, or gives up for RECOVERY (R74, R75). -/
theorem exec_retryReqRepeat {d : Nat} (alive : s.alive = true) (active : (s.port n).link.st = .active) (set : (s.port n).link.retryDue = some d)
    (due : d ≤ s.now) (discarding : (s.port n).link.discarding = true) :
    exec (.retryReqRepeat n) s = .next (if s.rf (R.portLinkCtl n) 23 16 ≤ (s.port n).link.retryReqs then s.enterRecovery n
      else s.modLink n fun l => { l with sendRetryReq := true, retryReqs := l.retryReqs + 1, retryDue := some (s.now + ccPerUs) }) := by
  change execRetryReqRepeat n s = _
  unfold execRetryReqRepeat
  rw [live_alive _ alive]
  simp only [set]
  rw [if_neg (by simp [active, discarding, due])]

/-- Entering RECOVERY keeps the retry buffer, and LINK_EVT reports it (R75). -/
theorem enterRecovery_effect (ok : s.regsOk) :
    ((s.enterRecovery n).port n).link.st = .recovery ∧ ((s.enterRecovery n).port n).link.since = s.now
      ∧ ((s.enterRecovery n).port n).link.retry = (s.port n).link.retry ∧ Raised (R.portLinkEvt n) 10 s (s.enterRecovery n)
      ∧ OnlyPort n s (s.enterRecovery n) ∧ OnlyParts [.ports, .csr, .glb] s (s.enterRecovery n) := by
  let u := (s.linkTo n .recovery).modLink n fun l => { l with echoes := [], recAttempts := 0 }
  have link : OnLink n s u := (modLink_onLink s n _).trans (modLink_onLink _ n _)
  have raised := raise_tame (s := u) (R.portLinkEvt n) 10
  have port : (s.enterRecovery n).port n = u.port n := raised.only.port_eq n
  have set : (u.port n).link = { (s.port n).link with st := .recovery, since := s.now, setsOut := 0, echoes := [], recAttempts := 0 } := by
    simp [u, State.linkTo]
  refine ⟨by rw [port, set], by rw [port, set], by rw [port, set], ?_, link.only.trans (.of_only raised.only), ?_⟩
  · exact Raised.after (os := []) (.of_only link.tame.only) (by simp) (link.tame.only.rget_eq _) (raise_raised _ _ (link.tame.regs ok))
  · exact ((link.tame.mono (by simp)).trans (raised.mono (by simp))).only

theorem exec_lpEnter (alive : s.alive = true) (active : (s.port n).link.st = .active) (enabled : s.rbit (R.portLinkCtl n) 24 = true)
    (free : (s.port n).link.ctlReq = none) (egress : (s.port n).link.egress = []) (received : (s.port n).link.rxq = [])
    (slots : (s.port n).link.txSlots = []) (idle : (s.port n).link.idleSince + ccPerUs ≤ s.now) :
    exec (.lpEnter n) s = .next (s.lpAsk n) := by
  change execLpEnter n s = _
  unfold execLpEnter
  rw [live_alive _ alive]
  exact congrArg _ (if_pos (by simp [active, enabled, free, egress, received, slots, idle]))

theorem exec_linkCtlRepeat {c : Byte} {v : BitVec 64} {d : Nat} (alive : s.alive = true) (active : (s.port n).link.st = .active)
    (asked : (s.port n).link.ctlReq = some (c, v, d)) (due : d + ccPerUs ≤ s.now) :
    exec (.linkCtlRepeat n) s
      = .next (s.modLink n fun l => { l with ctlReq := some (c, v, s.now), ctlOut := l.ctlOut ++ [(c, 0, v)] }) := by
  change execLinkCtlRepeat n s = _
  unfold execLinkCtlRepeat
  rw [live_alive _ alive]
  simp only [asked]
  rw [if_pos (by simp [active, due])]

/-- Signals that one after the other come first among the outputs. -/
theorem foldl_emit {α : Type} (f : α → Out) (xs : List α) (s : State) :
    xs.foldl (fun s x => s.emit (f x)) s = { s with outs := (xs.map f).reverse ++ s.outs } := by
  induction xs generalizing s with
  | nil => rfl
  | cons x xs ih => rw [List.foldl_cons, ih]; simp [State.emit]

theorem outs_tame (s : State) (os : List Out) : Tame [.ports, .outs] s { s with outs := os } := ⟨fun p hp => by cases p <;> simp_all [Part.same], id⟩

/-- A set of any kind on each of the link's lanes (R57, R61). -/
theorem sendKind_effect (s : State) (n : PortId) (kind : Nat) :
    (∃ sets : List Out, (s.sendKind n kind).outs = sets ++ s.outs ∧ sets.length = (s.port n).link.setLanes.length
        ∧ ∀ o ∈ sets, ∃ i x, o = .trainSet n i x)
      ∧ (∃ due, ((s.sendKind n kind).port n).link = { (s.port n).link with setsOut := (s.port n).link.setsOut + 1, nextFlit := due })
      ∧ OnlyPort n s (s.sendKind n kind) ∧ Tame [.ports, .outs] s (s.sendKind n kind) := by
  unfold State.sendKind
  simp only [foldl_emit]
  refine ⟨⟨_, rfl, by simp, fun o ho => ?_⟩, ⟨_, State.modLink_link_same _ n _⟩, ?_, ?_⟩
  · obtain ⟨i, -, rfl⟩ := List.mem_map.mp (List.mem_reverse.mp ho)
    exact ⟨_, _, rfl⟩
  · exact fun k hk => State.modLink_port_other _ _ hk
  · exact Tame.trans (outs_tame s _) ((modLink_tame _ n _).mono (by simp))

/-- A link that wakes sends its sets and keeps what was waiting (R91). -/
theorem lowpowerWake_completes (alive : s.alive = true) (low : (s.port n).link.st = .lowpower) (on : s.linksOn = true) (free : s.glb.lowAsk = false) :
    Completes (.lowpowerWake n) s fun t =>
      (t.port n).link.st = .active ∧ (t.port n).link.retry = (s.port n).link.retry ∧ (t.port n).link.txSeq = (s.port n).link.txSeq
        ∧ (t.port n).link.rxExp = (s.port n).link.rxExp ∧ (t.port n).link.cred = (s.port n).link.cred
        ∧ (t.port n).link.egress = (s.port n).link.egress
        ∧ (∃ sets : List Out, t.outs = sets ++ s.outs ∧ sets.length = (s.port n).link.setLanes.length ∧ ∀ o ∈ sets, ∃ i x, o = .trainSet n i x)
        ∧ OnlyPort n s t ∧ OnlyParts [.ports, .outs] s t := by
  have run : exec (.lowpowerWake n) s = .next ((s.sendEnd n).linkResume n) := by
    change execLowpowerWake n s = _
    unfold execLowpowerWake
    rw [live_alive _ alive, if_pos (by simp [low, on, free])]
  obtain ⟨⟨sets, outs, all⟩, ⟨due, link⟩, only, tame⟩ := sendKind_effect s n 0x0F
  obtain ⟨l, woken, keeps⟩ : ∃ l, (((s.sendEnd n).linkResume n).port n).link = l ∧ l.st = .active ∧ l.retry = (s.port n).link.retry
      ∧ l.txSeq = (s.port n).link.txSeq ∧ l.rxExp = (s.port n).link.rxExp ∧ l.cred = (s.port n).link.cred ∧ l.egress = (s.port n).link.egress := by
    refine ⟨_, State.modLink_link_same _ n _, ?_⟩
    rw [State.sendEnd, link]
    exact ⟨rfl, rfl, rfl, rfl, rfl, rfl⟩
  obtain ⟨active, retry, seq, exp, cred, egress⟩ := keeps
  have resumed : OnLink n (s.sendEnd n) ((s.sendEnd n).linkResume n) := modLink_onLink _ n _
  rw [← woken] at active retry seq exp cred egress
  exact ⟨_, run, active, retry, seq, exp, cred, egress, ⟨sets, resumed.tame.only.outs_eq.trans outs, all⟩, only.trans resumed.only,
    (tame.trans (resumed.tame.mono (by simp))).only⟩

/-- Settles O4. That a link that wakes sends one END set on each of its lanes is the model's choice (log entry 265). -/
theorem retryAndLowPower : Obligations.RetryAndLowPower := by
  refine ⟨fun n s alive ok active => ⟨fun q => linkUpdate_completes (exec_retryReq alive active q) rfl,
      fun d set due discarding => ⟨fun few => ?_, fun out => ?_⟩⟩,
    fun n s alive => ⟨fun active enabled free egress received slots idle => ?_, fun c v d active asked due => ?_, fun low on free => ?_⟩⟩
  · exact linkUpdate_completes ((exec_retryReqRepeat alive active set due discarding).trans (by rw [if_neg (Nat.not_le.mpr few)])) rfl
  · exact ⟨_, (exec_retryReqRepeat alive active set due discarding).trans (by rw [if_pos out]), enterRecovery_effect ok⟩
  · exact linkUpdate_completes (exec_lpEnter alive active enabled free egress received slots idle) rfl
  · exact linkUpdate_completes (exec_linkCtlRepeat alive active asked due) rfl
  · exact lowpowerWake_completes alive low on free
end
end Sys2Proof.Machine

namespace Sys2Proof.Machine

section
variable {s t u : State} {n : PortId} {m : Msg}

/-! ## Sessions of the links (R71 to R75, R93) -/

/-- What ends with a link's session: its state, the flits kept to be sent again, the sequence expected and what has been
acknowledged, and whether flits are being discarded. -/
def Link.session (l : Link) : LinkSt × List (Nat × BitVec 896) × Nat × Option Nat × Bool := (l.st, l.retry, l.rxExp, l.rxAck, l.discarding)

/-- Every port's session stays, and its agent stays enabled or not. -/
structure SameSessions (s t : State) : Prop where
  session : ∀ k, (t.port k).link.session = (s.port k).link.session
  enabled : ∀ k, (t.port k).io.enabled = (s.port k).io.enabled

theorem SameSessions.refl : SameSessions s s := ⟨fun _ => rfl, fun _ => rfl⟩
theorem SameSessions.trans (h : SameSessions s t) (k : SameSessions t u) : SameSessions s u :=
  ⟨fun j => (k.session j).trans (h.session j), fun j => (k.enabled j).trans (h.enabled j)⟩
theorem SameSessions.ite {c : Prop} [Decidable c] (h : SameSessions s t) (k : SameSessions s u) : SameSessions s (if c then t else u) := by
  split
  · exact h
  · exact k
/-- What leaves the ports alone keeps their sessions. -/
theorem Tame.sessions {ps : List Part} (h : Tame ps s t) (hp : Part.ports ∉ ps := by decide) : SameSessions s t :=
  ⟨fun k => by rw [h.only.port_eq k hp], fun k => by rw [h.only.port_eq k hp]⟩

theorem modLink_sessions (s : State) (n : PortId) (f : Link → Link) (h : ∀ l, (f l).session = l.session := by intro; rfl) : SameSessions s (s.modLink n f) := by
  refine ⟨fun k => ?_, fun k => ?_⟩ <;> by_cases e : k = n
  · subst e; rw [State.modLink_link_same, h]
  · rw [s.modLink_port_other f e]
  · subst e; rw [State.modLink_io_same]
  · rw [s.modLink_port_other f e]
theorem modIo_sessions (s : State) (n : PortId) (f : PortIo → PortIo) (h : ∀ io, (f io).enabled = io.enabled := by intro; rfl) : SameSessions s (s.modIo n f) := by
  refine ⟨fun k => ?_, fun k => ?_⟩ <;> by_cases e : k = n
  · subst e; rw [State.modIo_link_same]
  · rw [s.modIo_port_other f e]
  · subst e; rw [State.modIo_io_same, h]
  · rw [s.modIo_port_other f e]

theorem sendPort_sessions (s : State) (n : PortId) (m : Msg) (rel : Option (BitVec 10)) (fwd : Option (Nat × Nat)) :
    SameSessions s (s.sendPort n m rel fwd) := by
  refine .ite (modLink_sessions _ _ _) ?_
  cases rel with
  | none => exact .refl
  | some _ => exact modIo_sessions _ _ _
theorem cntGlob_sessions (s : State) (code k : Nat) (plot : Option PlotId) : SameSessions s (s.cntGlob code k plot) := (cntGlob_logs s code k plot).tame.sessions
theorem send_sessions (s : State) (n : PortId) (m : Msg) (rel : Option (BitVec 10)) (fwd : Option (Nat × Nat)) : SameSessions s (s.send n m rel fwd) :=
  .trans (.ite (cntGlob_sessions s _ _ _) .refl) (sendPort_sessions _ n m rel fwd)
theorem answerFor_sessions (s : State) (n : PortId) (num : Nat) (m : Msg) (rel : Option (BitVec 10)) : SameSessions s (s.answerFor n num m rel) :=
  .trans (.ite (cntGlob_sessions s _ _ _) .refl) (.ite (sendPort_sessions _ n m rel none) .refl)
theorem credBack_sessions (s : State) (n : PortId) (cls : Nat) : SameSessions s (s.credBack n cls) := modLink_sessions _ n _
theorem reqCredBack_sessions (s : State) (n : PortId) : SameSessions s (s.reqCredBack n) :=
  .ite (modLink_sessions _ _ _) (credBack_sessions s n 0)
theorem raise_sessions (s : State) (off bit : Nat) : SameSessions s (s.raise off bit) := (raise_tame (s := s) off bit).sessions
theorem modTxn_sessions (s : State) (p : PavId) (e : Nat) (f : Txn → Txn) : SameSessions s (s.modTxn p e f) := (modTxn_tame f).sessions

/-! ## Flits received (R67, R69, R71 to R74) -/

theorem badMsg_sessions (s : State) (n : PortId) (m : Msg) : SameSessions s (s.badMsg n m) :=
  .trans (raise_sessions s _ _)
    (.trans (.ite (reqCredBack_sessions _ n) (.ite (credBack_sessions _ n _) .refl)) (.ite (send_sessions _ n _ none none) .refl))
theorem ownerData_sessions (s : State) (n : PortId) (m : Msg) : SameSessions s (s.ownerData n m) := by
  have refused : SameSessions s ((s.protoErr n).credBack n 3) := .trans (raise_sessions s _ _) (credBack_sessions _ n 3)
  unfold State.ownerData
  split
  · exact refused
  · split
    · exact refused
    · exact .ite (.trans (.trans (.trans (modTxn_sessions s _ _ _) (modIo_sessions _ _ _)) (credBack_sessions _ n 3)) (answerFor_sessions _ _ _ _ _))
        refused
theorem msgIn_sessions (s : State) (n : PortId) (m : Msg) : SameSessions s (s.msgIn n m) := by
  unfold State.msgIn
  refine .trans ?taken (.ite (badMsg_sessions _ n m) (.ite (ownerData_sessions _ n m) ?queued))
  case taken => exact .trans (modLink_sessions _ _ _) (countIn_logs _ n m).tame.sessions
  case queued => exact modLink_sessions _ n _
/-- Whole messages leave the received slots for the port within its session. -/
theorem slotsIn_sessions (s : State) (n : PortId) (k : Nat) : SameSessions s (s.slotsIn n k) := by
  induction k generalizing s with
  | zero => exact .refl
  | succ k ih =>
    unfold State.slotsIn
    split
    · exact .refl
    · exact .ite (.trans (modLink_sessions _ _ _) (ih _))
        (.ite .refl (.trans (.trans (modLink_sessions _ _ _) (msgIn_sessions _ n _)) (ih _)))

/-- A PROT flit in order is accepted: the next sequence is expected, and this one is acknowledged (R73). -/
theorem protIn_accepts (s : State) (n : PortId) (seq : Nat) (b : List Byte) :
    ((s.protIn n seq b).port n).link.rxExp = (seq + 1) % 4096 ∧ ((s.protIn n seq b).port n).link.rxAck = some seq
      ∧ ((s.protIn n seq b).port n).link.discarding = false ∧ ((s.protIn n seq b).port n).link.st = (s.port n).link.st := by
  let u := s.modLink n fun l =>
    { l with rxExp := (seq + 1) % 4096, rxAck := some seq, discarding := false, retryReqs := 0, retryDue := none, sendRetryReq := false
             rxSlots := l.rxSlots ++ (List.range 7).map fun k => BitVec.ofNat 128 (leNat ((b.drop (6 + 16 * k)).take 16)) }
  have kept : ((s.protIn n seq b).port n).link.session = (u.port n).link.session := (slotsIn_sessions u n _).session n
  rw [State.modLink_link_same] at kept
  simp only [Link.session, Prod.mk.injEq] at kept
  obtain ⟨st, -, exp, ack, discarding⟩ := kept
  exact ⟨exp, ack, discarding, st⟩

/-- The link with its descrambler past a received flit. -/
def State.descrambled (s : State) (n : PortId) (x : BitVec 1024) : State :=
  s.modLink n fun l => { l with scrRx := (scramble (s.port n).link.width (flitBytes x) 0 (s.port n).link.scrRx).2 }
/-- The bytes of a received flit, descrambled. -/
def State.flitPlain (s : State) (n : PortId) (x : BitVec 1024) : List Byte :=
  (scramble (s.port n).link.width (flitBytes x) 0 (s.port n).link.scrRx).1

/-- A flit whose CRC fails is counted and is a flit error (R74, R102). -/
theorem flitIn_bad {x : BitVec 1024} (active : (s.port n).link.st = .active) (gen : (s.port n).link.gen ≠ 3)
    (bad : crc32c ((s.flitPlain n x).take 118) ≠ BitVec.ofNat 32 (leNat ((s.flitPlain n x).drop 124))) :
    s.flitIn n x = ((((s.descrambled n x).rcount (R.portLinkErr n) 31 16 1).cntPort n 7).flitError n) := by
  unfold State.flitIn
  rw [if_neg (not_not.mpr active)]
  simp only [if_neg gen, Bool.false_eq_true, if_false]
  exact if_pos bad

/-- An intact PROT flit with the expected sequence brings acknowledgement and credits, and is accepted (R71 to R73, R82). -/
theorem flitIn_expected {x : BitVec 1024} {h : Nat} (active : (s.port n).link.st = .active) (gen : (s.port n).link.gen ≠ 3)
    (good : crc32c ((s.flitPlain n x).take 118) = BitVec.ofNat 32 (leNat ((s.flitPlain n x).drop 124))) (header : h = leNat ((s.flitPlain n x).take 6))
    (prot : natBits h 27 24 = 1) (seq : natBits h 11 0 = (s.port n).link.rxExp) :
    s.flitIn n x = (((((s.descrambled n x).takeAck n (natBits h 23 12)).takeCredit n (natBits h 37 28)).takeCredit n (natBits h 47 38)).cntPort n 5).protIn n
      (s.port n).link.rxExp (s.flitPlain n x) := by
  subst header
  unfold State.flitIn
  rw [if_neg (not_not.mpr active)]
  simp only [if_neg gen, Bool.false_eq_true, if_false]
  refine (if_neg (not_not.mpr good)).trans ?_
  unfold State.flitPlain at prot seq ⊢
  simp [prot, seq, State.descrambled]

theorem descrambled_onLink (s : State) (n : PortId) (x : BitVec 1024) : OnLink n s (s.descrambled n x) := modLink_onLink s n _

theorem takeCredit_st (s : State) (n : PortId) (field : Nat) : ((s.takeCredit n field).port n).link.st = (s.port n).link.st := by
  unfold State.takeCredit
  dsimp only
  split
  · rfl
  · rw [State.modLink_link_same]

theorem badFlit_completes {x : BitVec 1024} (alive : s.alive = true) (ok : s.regsOk) (active : (s.port n).link.st = .active) (gen : (s.port n).link.gen ≠ 3)
    (bad : crc32c ((s.flitPlain n x).take 118) ≠ BitVec.ofNat 32 (leNat ((s.flitPlain n x).drop 124))) (taking : (s.port n).link.discarding = false) :
    Completes (.flitReceive n x) s fun t =>
      (t.port n).link.discarding = true ∧ (t.port n).link.sendRetryReq = true ∧ (t.port n).link.rxExp = (s.port n).link.rxExp
        ∧ (t.port n).link.rxq = (s.port n).link.rxq ∧ (t.port n).link.retryDue = some (s.now + ccPerUs)
        ∧ (s.softFree (R.portLinkErr n) → t.rf (R.portLinkErr n) 31 16 = satAdd (s.rf (R.portLinkErr n) 31 16) 1 (2 ^ 16 - 1))
        ∧ OnlyPort n s t ∧ OnlyParts [.ports, .csr, .glb, .blv] s t := by
  let u := s.descrambled n x
  let v := u.rcount (R.portLinkErr n) 31 16 1
  let w := v.cntPort n 7
  have link := descrambled_onLink s n x
  have counted : Logs [.csr] [R.portLinkErr n] u v := rcount_logs u _ _ _ _
  have logs : Logs [.csr, .glb, .blv] [R.blvEvt] v w := cntPort_logs v n 7 none 1
  have uok := link.tame.regs ok
  have port : w.port n = u.port n := (logs.only.port_eq n).trans (counted.only.port_eq n)
  have field : w.rf (R.portLinkErr n) 31 16 = v.rf (R.portLinkErr n) 31 16 := by
    unfold State.rf; rw [logs.rget (counted.regsOk uok) (by simp [R.portLinkErr, R.blvEvt]; omega)]
  have now : w.now = s.now := logs.only.now_eq.trans (counted.only.now_eq.trans link.tame.only.now_eq)
  have error := modLink_onLink w n fun l =>
    if l.discarding then l else { l with discarding := true, sendRetryReq := true, retryReqs := 1, retryDue := some (w.now + ccPerUs) }
  have set : ((w.flitError n).port n).link
      = { (u.port n).link with discarding := true, sendRetryReq := true, retryReqs := 1, retryDue := some (s.now + ccPerUs) } := by
    unfold State.flitError
    rw [State.modLink_link_same, port, now, if_neg (by simp [u, State.descrambled, taking])]
  have received : (u.port n).link.rxExp = (s.port n).link.rxExp ∧ (u.port n).link.rxq = (s.port n).link.rxq := by simp [u, State.descrambled]
  refine Completes.of_eq (live_alive (fun s => s.flitIn n x) alive) (flitIn_bad active gen bad)
    ⟨by rw [set], by rw [set], by rw [set, received.1], by rw [set, received.2], by rw [set], fun free => ?_, ?_, ?_⟩
  · rw [show ((w.flitError n).rf (R.portLinkErr n) 31 16) = w.rf (R.portLinkErr n) 31 16 from rfl, field]
    exact rcount_field _ _ _ _ uok free (by decide) (by decide)
  · exact link.only.trans ((OnlyPort.of_only counted.only).trans ((OnlyPort.of_only logs.only).trans error.only))
  · exact ((link.tame.mono (by simp)).trans ((counted.tame.mono (by simp)).trans ((logs.tame.mono (by simp)).trans (error.tame.mono (by simp))))).only

theorem expectedFlit_completes {x : BitVec 1024} {h : Nat} (alive : s.alive = true) (active : (s.port n).link.st = .active) (gen : (s.port n).link.gen ≠ 3)
    (good : crc32c ((s.flitPlain n x).take 118) = BitVec.ofNat 32 (leNat ((s.flitPlain n x).drop 124))) (header : h = leNat ((s.flitPlain n x).take 6))
    (prot : natBits h 27 24 = 1) (seq : natBits h 11 0 = (s.port n).link.rxExp) :
    Completes (.flitReceive n x) s fun t =>
      (t.port n).link.rxExp = ((s.port n).link.rxExp + 1) % 4096 ∧ (t.port n).link.rxAck = some (s.port n).link.rxExp
        ∧ (t.port n).link.discarding = false ∧ (t.port n).link.st = .active := by
  let v := (((s.descrambled n x).takeAck n (natBits h 23 12)).takeCredit n (natBits h 37 28)).takeCredit n (natBits h 47 38)
  have before : ((v.cntPort n 5).port n).link.st = .active := by
    rw [(cntPort_logs v n 5 none 1).only.port_eq n, takeCredit_st, takeCredit_st]
    simp [State.takeAck, State.descrambled, active]
  obtain ⟨exp, ack, discarding, st⟩ := protIn_accepts (v.cntPort n 5) n (s.port n).link.rxExp (s.flitPlain n x)
  exact Completes.of_eq (live_alive (fun s => s.flitIn n x) alive) (flitIn_expected active gen good header prot seq) ⟨exp, ack, discarding, st.trans before⟩

/-- Settles O3: without the FEC of QCL-3 the CRC alone decides between a flit error and the sequence. -/
theorem flitsAcceptedOrRetried : Obligations.FlitsAcceptedOrRetried :=
  fun _ _ _ alive ok active gen => ⟨fun bad taking => badFlit_completes alive ok active gen bad taking,
    fun good prot seq => expectedFlit_completes alive active gen good rfl prot seq⟩
end
end Sys2Proof.Machine

namespace Sys2Proof.Machine

section
variable {s t u : State} {n k : PortId}

/-! ## A pass over the ports -/

/-- Of a pass over the ports, what the other ports' turns leave alone is as a port's own turn makes it. -/
theorem forPorts_turn {f : PortId → State → State} {I J : State → Prop} (before : ∀ j u, j ≠ k → I u → I (f j u)) (turn : ∀ u, I u → J (f k u))
    (after : ∀ j u, j ≠ k → J u → J (f j u)) (start : I s) : J (forPorts s f) := by
  obtain ⟨pre, post, split⟩ := List.append_of_mem (List.mem_finRange k)
  have distinct := List.nodup_finRange 96
  rw [split, List.nodup_middle, List.nodup_cons, List.mem_append, not_or] at distinct
  obtain ⟨⟨notPre, notPost⟩, -⟩ := distinct
  unfold forPorts allPorts
  rw [split, List.foldl_append, List.foldl_cons]
  refine List.foldlRecOn post _ (turn _ (List.foldlRecOn pre _ start ?_)) ?_
  · exact fun u inv j mem => before j u (fun e => notPre (e ▸ mem)) inv
  · exact fun u inv j mem => after j u (fun e => notPost (e ▸ mem)) inv

/-! ## Service-chain frames (R94 to R96) -/

/-- A port's quiesce that has reached DOWN has its SAFE frame (R430 step 6). -/
def State.quieted (s : State) (n : PortId) : State :=
  if (s.port n).io.qst = .down && !(s.port n).io.quiesced then (s.modIo n fun io => { io with quiesced := true }).raise (R.portSvcStat n) 8 else s
/-- A port's button and presence are sampled (R95). -/
def State.sampled (din : BitVec 288) (n : PortId) (s : State) : State :=
  let l := (s.port n).link
  let u := s.modLink n fun l' =>
    { l' with btnState := (buttonStep l.btnState (din.getLsbD (3 * n.val)) l.btnRun).1
              btnRun := (buttonStep l.btnState (din.getLsbD (3 * n.val)) l.btnRun).2.1
              present := (filter3 l.present (din.getLsbD (3 * n.val + 1)) l.preRun).1
              preRun := (filter3 l.present (din.getLsbD (3 * n.val + 1)) l.preRun).2 }
  if (buttonStep l.btnState (din.getLsbD (3 * n.val)) l.btnRun).2.2 then u.raise (R.portLinkEvt n) 12 else u

/-- ACT and SAFE of a port as its three bits in the frame (R94, R96). -/
def State.svcDigit (s : State) (i : Nat) : Nat :=
  match portOf? i with
  | none => 0
  | some n => (if s.actOut n then 1 else 0) + (if s.safeOut n then 2 else 0)
/-- The frame that is driven back. -/
def State.svcWord (s : State) : Nat := (List.range 96).foldl (fun a i => a + s.svcDigit i * 2 ^ (3 * i)) 0

/-- The first pass of a frame: every quiesce that has reached DOWN has its SAFE frame. -/
def State.quietedAll (s : State) : State := forPorts s fun n s => s.quieted n
/-- A frame is driven back. -/
def State.drive (s : State) (d : BitVec 288) : State := (s.modGlb fun g => { g with svcBits := d }).emit (.svcDout d)

/-- A frame is a pass that ends quiesces, the frame driven back, and a pass that takes the samples. -/
theorem svcFrame_eq (s : State) (din : BitVec 288) : s.svcFrame din = forPorts (s.quietedAll.drive (BitVec.ofNat 288 s.quietedAll.svcWord)) (State.sampled din) := by
  have word (t : State) : (List.range 96).foldl (fun a i => match portOf? i with
      | none => a
      | some n => a + ((if t.actOut n then 1 else 0) + (if t.safeOut n then 2 else 0)) * 2 ^ (3 * i)) 0 = t.svcWord := by
    refine List.foldl_ext _ _ _ fun a i _ => ?_
    unfold State.svcDigit
    split <;> simp
  rw [← word]
  rfl

/-! ### The passes -/

theorem quieted_onlyPort (s : State) (n : PortId) : OnlyPort n s (s.quieted n) := by
  unfold State.quieted; split
  · exact (modIo_onlyPort s n _).trans (.of_only (raise_tame _ (R.portSvcStat n) 8).only)
  · exact .refl n s
theorem quieted_port (s : State) (n : PortId) :
    (s.quieted n).port n = { s.port n with io := { (s.port n).io with quiesced := (s.port n).io.quiesced || decide ((s.port n).io.qst = .down) } } := by
  unfold State.quieted
  split
  · next h =>
    obtain ⟨down, -⟩ : (s.port n).io.qst = .down ∧ (s.port n).io.quiesced = false := by simpa using h
    rw [(raise_tame _ (R.portSvcStat n) 8).only.port_eq n]
    simp [State.modIo, down]
  · next h =>
    have same : ((s.port n).io.quiesced || decide ((s.port n).io.qst = .down)) = (s.port n).io.quiesced := by
      cases q : (s.port n).io.quiesced <;> simp_all
    rw [same]
theorem quietedAll_port (s : State) (k : PortId) :
    s.quietedAll.port k
      = { s.port k with io := { (s.port k).io with quiesced := (s.port k).io.quiesced || decide ((s.port k).io.qst = .down) } } :=
  forPorts_turn (I := fun u => u.port k = s.port k)
    (J := fun u => u.port k = { s.port k with io := { (s.port k).io with quiesced := (s.port k).io.quiesced || decide ((s.port k).io.qst = .down) } })
    (fun j u ne same => (quieted_onlyPort u j k ne.symm).trans same)
    (fun u same => by rw [quieted_port, same]) (fun j u ne done => (quieted_onlyPort u j k ne.symm).trans done) rfl

theorem sampled_onlyPort (din : BitVec 288) (s : State) (n : PortId) : OnlyPort n s (s.sampled din n) := by
  unfold State.sampled; dsimp only; split
  · exact (modLink_onlyPort s n _).trans (.of_only (raise_tame _ (R.portLinkEvt n) 12).only)
  · exact modLink_onlyPort s n _


theorem linkEvt_reset : ∀ n : PortId, regReset (R.portLinkEvt n) = 0 := by decide +kernel

/-- An event of a link is stored in the port's LINK_EVT, whatever else the register file holds. -/
theorem linkEvent_csr (s : State) (n : PortId) {bit : Nat} (lo : 8 ≤ bit) (hi : bit < 32) :
    (s.raise (R.portLinkEvt n) bit).csr = FMap.insert s.csr (R.portLinkEvt n) (eventWord (s.uncleared (R.portLinkEvt n)) bit) := by
  have event : (eventWord (s.uncleared (R.portLinkEvt n)) bit).getLsbD bit = true := getLsbD_eventWord _ _ lo hi
  rw [raise_csr, FMap.put, if_neg fun same => by rw [same, linkEvt_reset] at event; simp at event]
theorem linkEvent_bit (s : State) (n : PortId) {bit : Nat} (lo : 8 ≤ bit) (hi : bit < 32) :
    ((s.raise (R.portLinkEvt n) bit).rget (R.portLinkEvt n)).getLsbD bit = true := by
  unfold State.rget FMap.get
  rw [linkEvent_csr s n lo hi, FMap.find_insert_same]
  exact getLsbD_eventWord _ _ lo hi
theorem press_apart (s : State) (h : k ≠ n) : (s.raise (R.portLinkEvt k) 12).rget (R.portLinkEvt n) = s.rget (R.portLinkEvt n) := by
  have apart : R.portLinkEvt n ≠ R.portLinkEvt k := fun e => h (Fin.ext (by unfold R.portLinkEvt at e; omega))
  unfold State.rget FMap.get
  rw [linkEvent_csr s k (by decide) (by decide), FMap.find_insert_other _ _ apart]

/-- What a frame's pass leaves of a port: its samples, and a press in its LINK_EVT. -/
structure Sampled (din : BitVec 288) (s : State) (n : PortId) (t : State) : Prop where
  io : (t.port n).io = (s.port n).io
  st : (t.port n).link.st = (s.port n).link.st
  armed : (t.port n).link.btnState = (buttonStep (s.port n).link.btnState (din.getLsbD (3 * n.val)) (s.port n).link.btnRun).1
  run : (t.port n).link.btnRun = (buttonStep (s.port n).link.btnState (din.getLsbD (3 * n.val)) (s.port n).link.btnRun).2.1
  press : (buttonStep (s.port n).link.btnState (din.getLsbD (3 * n.val)) (s.port n).link.btnRun).2.2 = true →
    (t.rget (R.portLinkEvt n)).getLsbD 12 = true
  presence : ((t.port n).link.present, (t.port n).link.preRun) = filter3 (s.port n).link.present (din.getLsbD (3 * n.val + 1)) (s.port n).link.preRun

theorem sampled_own (din : BitVec 288) (s : State) (n : PortId) : Sampled din s n (s.sampled din n) := by
  unfold State.sampled
  dsimp only
  split
  · have port := fun u => (raise_tame u (R.portLinkEvt n) 12).only.port_eq n
    exact ⟨by simp [port], by simp [port], by simp [port], by simp [port], fun _ => linkEvent_bit _ n (by decide) (by decide), by simp [port]⟩
  · next still => constructor <;> simp [still]
theorem sampled_apart (din : BitVec 288) (s : State) (h : k ≠ n) : (s.sampled din k).rget (R.portLinkEvt n) = s.rget (R.portLinkEvt n) := by
  unfold State.sampled; dsimp only; split
  · exact press_apart _ h
  · rfl

/-- After the second pass every port has its samples. -/
theorem sampledAll_port (din : BitVec 288) (s : State) (n : PortId) : Sampled din s n (forPorts s (State.sampled din)) := by
  refine forPorts_turn (I := fun u => u.port n = s.port n) (J := Sampled din s n) (fun j u ne same => (sampled_onlyPort din u j n ne.symm).trans same)
    (fun u same => ?_) (fun j u ne done => ?_) rfl
  · obtain ⟨io, st, armed, run, press, presence⟩ := sampled_own din u n
    rw [same] at io st armed run press presence
    exact ⟨io, st, armed, run, press, presence⟩
  · have port := sampled_onlyPort din u j n ne.symm
    obtain ⟨io, st, armed, run, press, presence⟩ := done
    exact ⟨by rw [port, io], by rw [port, st], by rw [port, armed], by rw [port, run], fun p => by rw [sampled_apart din u ne]; exact press p,
      by rw [port, presence]⟩

/-- What a frame's passes leave alone: all but ports, registers and what is pending, and the end of the frame. -/
structure InFrame (s t : State) : Prop where
  only : OnlyParts [.ports, .csr, .glb] s t
  due : t.glb.svcDue = s.glb.svcDue

theorem forPorts_inFrame {f : PortId → State → State} (h : ∀ n s, InFrame s (f n s)) (s : State) : InFrame s (forPorts s f) :=
  List.foldlRecOn (motive := InFrame s) allPorts _ ⟨.refl _, rfl⟩ fun _ b n _ => ⟨b.only.trans (h n _).only, (h n _).due.trans b.due⟩
theorem quieted_inFrame (n : PortId) (s : State) : InFrame s (s.quieted n) := by
  unfold State.quieted; split
  · exact ⟨((modIo_tame s n _).only.mono (by simp)).trans ((raise_tame _ _ 8).only.mono (by simp)), by rw [(raise_logs _ _ 8).glb]; rfl⟩
  · exact ⟨.refl _, rfl⟩
theorem sampled_inFrame (din : BitVec 288) (n : PortId) (s : State) : InFrame s (s.sampled din n) := by
  unfold State.sampled; dsimp only; split
  · exact ⟨((modLink_tame s n _).only.mono (by simp)).trans ((raise_tame _ _ 12).only.mono (by simp)), by rw [(raise_logs _ _ 12).glb]; rfl⟩
  · exact ⟨(modLink_tame s n _).only.mono (by simp), rfl⟩

/-! ### The frame driven back -/

/-- Octal digits keep their bits in the number that they spell. -/
theorem testBit_octal (d : Nat → Nat) (small : ∀ i, d i < 8) (N : Nat) :
    (List.range N).foldl (fun a i => a + d i * 2 ^ (3 * i)) 0 < 2 ^ (3 * N)
      ∧ ∀ i b, b < 3 → ((List.range N).foldl (fun a i => a + d i * 2 ^ (3 * i)) 0).testBit (3 * i + b) = (decide (i < N) && (d i).testBit b) := by
  induction N with
  | zero => simp
  | succ N ih =>
    obtain ⟨bound, bits⟩ := ih
    rw [List.range_succ, List.foldl_append, List.foldl_cons, List.foldl_nil]
    generalize (List.range N).foldl (fun a i => a + d i * 2 ^ (3 * i)) 0 = low at bound bits
    have digit := small N
    refine ⟨?_, fun i b hb => ?_⟩
    · have := Nat.mul_le_mul_right (2 ^ (3 * N)) (Nat.le_of_lt_succ digit)
      rw [show 3 * (N + 1) = 3 * N + 3 from rfl, Nat.pow_add]
      omega
    · rw [Nat.add_comm low, Nat.mul_comm (d N), Nat.testBit_two_pow_mul_add _ bound]
      by_cases h : i < N
      · rw [if_pos (by omega), bits i b hb]; simp [h, Nat.lt_succ_of_lt h]
      · rw [if_neg (by omega)]
        by_cases e : i = N
        · subst e; simp
        · rw [Nat.testBit_lt_two_pow (Nat.lt_of_lt_of_le digit (Nat.pow_le_pow_right (n := 2) (i := 3) (by decide) (by omega)))]
          simp [show ¬ i < N + 1 by omega]

theorem svcDigit_lt (s : State) (i : Nat) : s.svcDigit i < 8 := by
  unfold State.svcDigit; split
  · decide
  · split <;> split <;> decide
theorem svcDigit_port (s : State) (n : PortId) : s.svcDigit n.val = (if s.actOut n then 1 else 0) + (if s.safeOut n then 2 else 0) := by
  unfold State.svcDigit; simp [portOf?]

/-- The frame's bits of a port: ACT, SAFE and a 0. -/
theorem svcWord_bits (s : State) (n : PortId) :
    (BitVec.ofNat 288 s.svcWord).getLsbD (3 * n.val) = s.actOut n ∧ (BitVec.ofNat 288 s.svcWord).getLsbD (3 * n.val + 1) = s.safeOut n
      ∧ (BitVec.ofNat 288 s.svcWord).getLsbD (3 * n.val + 2) = false := by
  have bit (b : Nat) (hb : b < 3) : (BitVec.ofNat 288 s.svcWord).getLsbD (3 * n.val + b) = (s.svcDigit n.val).testBit b := by
    rw [BitVec.getLsbD_ofNat, State.svcWord, (testBit_octal _ (svcDigit_lt s) 96).2 _ b hb]
    simp [show 3 * n.val + b < 288 by omega]
  have zero := bit 0 (by decide)
  rw [Nat.add_zero] at zero
  rw [zero, bit 1 (by decide), bit 2 (by decide), svcDigit_port]
  cases s.actOut n <;> cases s.safeOut n <;> decide

/-! ### The commands -/

/-- A command without effect leaves the state as it is, whether or not the hub takes commands. -/
theorem live_idle {f : State → State} (h : f s = s) : live s f = .next s := by unfold live; rw [h, ite_self]

/-- A frame has begun: its end, and the bit that it begins with. -/
def State.frameBegun (s : State) : State := s.modGlb fun g => { g with svcDue := s.now + s.frameCc, svcFrom := s.now, svcBit := s.frameCc / 288 }

theorem exec_svcFrame {din : BitVec 288} (alive : s.alive = true) (ended : s.glb.svcDue ≤ s.now) :
    exec (.svcFrame din) s = .next (forPorts (s.frameBegun.quietedAll.drive (BitVec.ofNat 288 s.frameBegun.quietedAll.svcWord)) (State.sampled din)) := by
  rw [← svcFrame_eq]
  change execSvcFrame din s = _
  unfold execSvcFrame
  rw [live_alive _ alive, if_neg (Nat.not_lt.mpr ended)]
  rfl

theorem drive_only (s : State) (d : BitVec 288) : OnlyParts [.glb, .outs] s (s.drive d) :=
  ((modGlb_tame s _).only.mono (by simp)).trans ((emit_tame (s := s.modGlb _) _).only.mono (by simp))
theorem drive_outs (s : State) (d : BitVec 288) : (s.drive d).outs = .svcDout d :: s.outs := rfl
theorem drive_due (s : State) (d : BitVec 288) : (s.drive d).glb.svcDue = s.glb.svcDue := rfl

/-- ACT and SAFE after the first pass: a quiesce that has reached DOWN has its SAFE frame at once. -/
theorem actOut_quieted (now : u.now = s.now)
    (port : u.port n = { s.port n with io := { (s.port n).io with quiesced := (s.port n).io.quiesced || decide ((s.port n).io.qst = .down) } }) :
    u.actOut n = s.actOut n ∧ (u.safeOut n = true ↔ ((s.port n).io.quiesced = true ∨ (s.port n).io.qst = .down)
      ∧ ((s.port n).link.st = .down ∨ (s.port n).link.st = .disabled ∨ (s.port n).link.st = .detect)) := by
  unfold State.actOut State.safeOut
  rw [port, now]
  exact ⟨rfl, by simp [or_assoc]⟩

theorem wakeReq_completes (alive : s.alive = true) (ok : s.regsOk) (standby : s.glb.pwr = .standby) :
    Completes (.wakeReq n) s fun t => (t.rget R.glbPwrEvt).getLsbD 11 = true ∧ OnlyParts [.csr, .glb, .lodge, .blv] s t := by
  have raised := raise_logs s R.glbPwrEvt 11
  have event := event_logs (s.raise R.glbPwrEvt 11) .power n.val 0 0 0x7F 0 .none
  refine ⟨(s.raise R.glbPwrEvt 11).event .power n.val 0, ?_, ?_, ?_⟩
  · change execWakeReq n s = _
    unfold execWakeReq
    rw [live_alive _ alive, if_pos standby]
  · rw [event.rget (raised.regsOk ok) (by decide)]
    exact raise_bit _ _ ok (by decide) (by decide)
  · exact ((raised.tame.mono (by simp)).trans (event.tame.mono (by simp))).only

/-- Settles O5: of each port the frame's two passes leave what the port's own turn does. -/
theorem serviceChainFrames : Obligations.ServiceChainFrames := by
  refine ⟨fun din s alive ended => ?_, fun din s early => ?_, fun n s alive ok standby => wakeReq_completes alive ok standby⟩
  · have run := exec_svcFrame (din := din) alive ended
    have begun : OnlyParts [.glb] s s.frameBegun := (modGlb_tame s _).only
    have quiet : InFrame s.frameBegun s.frameBegun.quietedAll := forPorts_inFrame quieted_inFrame _
    have port (n : PortId) := quietedAll_port s.frameBegun n
    simp only [begun.port_eq] at port
    generalize s.frameBegun.quietedAll = u at run quiet port
    generalize word : BitVec.ofNat 288 u.svcWord = d at run
    have pass := forPorts_inFrame (sampled_inFrame din) (u.drive d)
    have outs : u.outs = s.outs := quiet.only.outs_eq.trans begun.outs_eq
    refine ⟨_, run, fun n => ?_, ⟨d, pass.only.outs_eq.trans ((drive_outs u d).trans (congrArg _ outs)), fun n => ?_⟩,
      pass.due.trans ((drive_due u d).trans quiet.due), ?_⟩
    · obtain ⟨io, st, armed, samples, press, presence⟩ := sampledAll_port din (u.drive d) n
      rw [(drive_only u d).port_eq n, port n] at io st armed samples press presence
      rw [io, st, armed, samples]
      refine ⟨fun released => ?_, fun held unarmed => ?_, fun held ready few => ?_, fun held ready third => ?_, presence, rfl, rfl⟩
      · simp [buttonStep, released]
      · simp [buttonStep, held, unarmed]
      · simp [buttonStep, held, ready, few]
      · simp [buttonStep, held, ready, third] at press ⊢
        exact press
    · obtain ⟨act, safe⟩ := actOut_quieted (n := n) (quiet.only.now_eq.trans begun.now_eq) (port n)
      obtain ⟨zero, one, two⟩ := svcWord_bits u n
      rw [word] at zero one two
      exact ⟨zero.trans act, by rw [one, safe], two⟩
    · exact (begun.mono (by simp)).trans ((quiet.only.mono (by simp)).trans (((drive_only u d).mono (by simp)).trans (pass.only.mono (by simp))))
  · exact live_idle (f := fun s => if s.now < s.glb.svcDue then s else
      (s.modGlb fun g => { g with svcDue := s.now + s.frameCc, svcFrom := s.now, svcBit := s.frameCc / 288 }).svcFrame din) (if_pos early)
end
end Sys2Proof.Machine

namespace Sys2Proof.Machine

section
variable {s t u : State} {p : PavId} {e : Nat}

/-! ## What a pavilion does keeps every session (R93)

One rule per operation of a pavilion, in the order of the model: an operation on a state with the sessions of `s` leaves them. -/

theorem SameSessions.still {ps : List Part} (h : SameSessions s t) (k : Tame ps t u) (hp : Part.ports ∉ ps := by decide) : SameSessions s u :=
  h.trans (k.sessions hp)
theorem SameSessions.fold {α : Type} {f : State → α → State} {xs : List α} (h : SameSessions s t)
    (step : ∀ u x, SameSessions s u → SameSessions s (f u x)) : SameSessions s (xs.foldl f t) :=
  List.foldlRecOn xs f h fun u k x _ => step u x k

section
variable (h : SameSessions s t)
include h

/-! ### State, registers and messages -/

theorem SameSessions.modPav (f : Pav → Pav) : SameSessions s (t.modPav p f) := h.still (modPav_tame t p f)
theorem SameSessions.modTxn (f : Txn → Txn) : SameSessions s (t.modTxn p e f) := h.still (modTxn_tame f)
theorem SameSessions.setFetch (x : Fetch) : SameSessions s (t.setFetch p e x) := h.modTxn _
theorem SameSessions.modReg (r : Nat) (f : MissReg → MissReg) : SameSessions s (t.modReg p r f) := h.modPav _
theorem SameSessions.modGlb (f : Glb → Glb) : SameSessions s (t.modGlb f) := h.still (modGlb_tame t f)
theorem SameSessions.rcount (off hi lo n : Nat) : SameSessions s (t.rcount off hi lo n) := h.still (rcount_tame t off hi lo n)
theorem SameSessions.rfSet (off hi lo v : Nat) : SameSessions s (t.rfSet off hi lo v) := h.still (rset_tame t off _)
theorem SameSessions.raise (off bit : Nat) : SameSessions s (t.raise off bit) := h.still (raise_tame t off bit)
theorem SameSessions.event (k : EvKind) (inst addr cls dev detail : Nat) (st : Store) : SameSessions s (t.event k inst addr cls dev detail st) :=
  h.still (event_tame t k inst addr cls dev detail st)
theorem SameSessions.fatal (bit : Nat) : SameSessions s (t.fatal bit) := h.still (fatal_tame t bit)
theorem SameSessions.cntPav (code : Nat) (plot : Option PlotId) (n : Nat) : SameSessions s (t.cntPav p code plot n) :=
  h.still (cntPav_tame t p code plot n)
theorem SameSessions.modIo (n : PortId) (f : PortIo → PortIo) (hf : ∀ io, (f io).enabled = io.enabled := by intro; rfl) :
    SameSessions s (t.modIo n f) := h.trans (modIo_sessions t n f hf)
theorem SameSessions.send (n : PortId) (m : Msg) (rel : Option (BitVec 10)) (fwd : Option (Nat × Nat)) : SameSessions s (t.send n m rel fwd) :=
  h.trans (send_sessions t n m rel fwd)
theorem SameSessions.answerFor (n : PortId) (num : Nat) (m : Msg) (rel : Option (BitVec 10)) : SameSessions s (t.answerFor n num m rel) :=
  h.trans (answerFor_sessions t n num m rel)

/-! ### Pushes, ways and the Orangery -/

theorem SameSessions.modChan (c : ChanId) (f : Chan → Chan) : SameSessions s (t.modChan c f) := h.still (modChan_tame t c f)
theorem SameSessions.updDrain (c : ChanId) : SameSessions s (t.updDrain c) := by
  unfold State.updDrain; exact h.modChan c _
theorem SameSessions.charge (c : ChanId) (plot : Option PlotId) : SameSessions s (t.charge c plot) := by
  unfold State.charge
  split
  · exact h
  · exact h.modChan c _
theorem SameSessions.wqPush (c : ChanId) (ll : Nat) (st : Stored) (plot : Option PlotId) (raw : Bool) : SameSessions s (t.wqPush c ll st plot raw) :=
  .ite h (((h.modChan c _).charge c _).updDrain c)
theorem SameSessions.wayFree (set way : Nat) : SameSessions s (t.wayFree p set way) := h.modPav _
theorem SameSessions.clearSub (set way sub : Nat) : SameSessions s (t.clearSub p set way sub) := h.modPav _
theorem SameSessions.poisonEnd (set way : Nat) : SameSessions s (t.poisonEnd p set way) := by
  unfold State.poisonEnd
  split
  · exact h
  · exact ((h.modPav _).wayFree set way).event _ _ _ _ _ _ _
theorem SameSessions.pushDone (f : PushFor) (la : LineAddr) : SameSessions s (t.pushDone p f la) := by
  cases f with
  | nothing | walk => exact h
  | txn e | cmo e => exact h.setFetch _
  | mop set way sub inval by_ =>
    exact have k := .ite (h.modGlb _) h
      .ite k (.ite (.ite k (k.modPav _)) (.ite k (k.clearSub _ _ _)))
  | poisonSub set way sub => exact (h.modPav _).poisonEnd _ _
theorem SameSessions.tryPush {j : Push} (r : t.tryPush p j = some u) : SameSessions s u := by
  unfold State.tryPush at r
  dsimp only at r
  split at r
  · cases r
  · split at r <;> obtain rfl := Option.some.inj r
    · exact h.pushDone _ _
    · exact ((h.wqPush _ _ _ _ _).pushDone _ _).cntPav _ _ _
theorem SameSessions.pushLine (j : Push) : SameSessions s (t.pushLine p j) := by
  unfold State.pushLine
  refine .ite ?poisoning (.ite (h.modPav _) ?plain)
  case poisoning =>
    split
    · next r =>
      split at r
      · cases r
      · exact h.tryPush r
    · exact h.modPav _
  case plain =>
    split
    · next r => exact h.tryPush r
    · exact h.modPav _
theorem SameSessions.stackCmd (set way sub : Nat) (pa : LineAddr) (op : StackOp) (plot : Option PlotId) :
    SameSessions s (t.stackCmd p set way sub pa op plot) := h.modPav _
theorem SameSessions.commitSec (set way sub : Nat) (pa : LineAddr) (d : Line) (po dirty : Bool) (plot : Option PlotId) :
    SameSessions s (t.commitSec p set way sub pa d po dirty plot) := (h.modPav _).stackCmd _ _ _ _ _ _
theorem SameSessions.commitGh (set way : Nat) (pa : LineAddr) (d : Line) (po dirty : Bool) : SameSessions s (t.commitGh p set way pa d po dirty) := h.modPav _
theorem SameSessions.startEvict (set way : Nat) : SameSessions s (t.startEvict p set way) :=
  ((h.cntPav _ _ _).modPav _).fold fun _ _ k => .ite (k.stackCmd _ _ _ _ _ _) k
theorem SameSessions.orAdd (pa : LineAddr) (d : Line) (po : Bool) (plot : Option PlotId) : SameSessions s (t.orAdd p pa d po plot) := h.modPav _
theorem SameSessions.orPut (pa : LineAddr) (d : Line) (po : Bool) : SameSessions s (t.orPut p pa d po) := h.modPav _
theorem SameSessions.orDrop (pa : LineAddr) : SameSessions s (t.orDrop p pa) := h.modPav _
theorem SameSessions.orRead {o : OrLine} {x : Line × Bool} (r : t.orRead p o = (u, x)) : SameSessions s u := by
  unfold State.orRead at r
  split at r
  · cases r; exact h
  · dsimp only at r
    split at r <;> cases r
    · exact h
    · exact h
    · exact (h.rcount _ _ _ _).modPav _
    · exact (((h.modPav _).raise _ _).event _ _ _ _ _ _ _).fatal _
theorem SameSessions.mopCls (c : Cls) : SameSessions s (t.mopCls c) := .ite (h.modGlb _) h
theorem SameSessions.ghRead {i : Nat} {window dirty poison : Bool} {x : Option (Line × Bool)} (r : t.ghRead p i window dirty poison = (u, x)) :
    SameSessions s u := by
  unfold State.ghRead at r
  split at r
  · cases r; exact h
  · dsimp only at r
    split at r
    · cases r; exact h
    · cases r; exact h
    · cases r; exact (h.rcount _ _ _ _).modPav _
    · split at r
      · cases r; exact (((h.raise _ _).modPav _).event _ _ _ _ _ _ _).fatal _
      · split at r <;> cases r
        · exact (((h.raise _ _).modPav _).event _ _ _ _ _ _ _).fatal _
        · exact ((h.raise _ _).modPav _).event _ _ _ _ _ _ _

/-! ### Miss registers, reads and writes of the home copy -/

theorem SameSessions.allocWay {la : LineAddr} {k : PlotId} {st : TagSt} {w : Nat} (r : t.allocWay p la k st = some (u, w)) : SameSessions s u := by
  unfold State.allocWay at r
  dsimp only at r
  split at r
  · cases r
  · split at r <;> cases r
    · exact (h.modPav _).modPav _
    · exact (h.modPav _).startEvict _ _
theorem SameSessions.allocGh {la : LineAddr} {w : Nat} (r : t.allocGh p la = some (u, w)) : SameSessions s u := by
  unfold State.allocGh at r
  dsimp only at r
  split at r
  · cases r; exact h.modPav _
  · split at r
    · cases r
    · split at r
      · cases r
      · cases r
        have read (e : GhEntry) (i : Nat) : SameSessions s (if e.dirtyA then t.ghRead p i false true e.poison else (t, none)).1 := by
          split
          · exact h.ghRead rfl
          · exact h
        refine SameSessions.modPav ?_ _
        split
        · exact (read _ _).orAdd _ _ _ _
        · exact read _ _
theorem SameSessions.touchReg (r : Nat) : SameSessions s (t.touchReg p r) := by
  unfold State.touchReg
  split
  · exact .ite (h.modPav _) h
  · exact .ite (h.modPav _) h
  · exact h
/-- A register's sub-block has been committed, and its writers have been performed. -/
theorem SameSessions.committed (r : Nat) (f : MissReg → MissReg) (ws : List (Nat × Nat)) :
    SameSessions s (ws.foldl (fun s w => s.setFetch p w.1 .performed) (t.modReg p r f)) :=
  (h.modReg r f).fold fun _ _ k => k.setFetch _
theorem SameSessions.regCommit (r : Nat) : SameSessions s (t.regCommit p r) := by
  unfold State.regCommit
  split
  · exact h
  · refine .ite h ?_
    dsimp only
    generalize members : List.foldl _ t _ = v
    have kept : SameSessions s v := by
      rw [← members]
      refine h.fold fun u i k => ?_
      split
      · exact k
      · refine .ite k ?_
        split
        · exact k
        · refine .ite (.ite (.ite k (SameSessions.pushLine ?cleared _)) (k.committed _ _ _))
            (.ite ((k.commitGh _ _ _ _ _ _).committed _ _ _) (.ite (k.committed _ _ _) ((k.commitSec _ _ _ _ _ _ _ _).committed _ _ _)))
          exact SameSessions.modReg (.ite (k.clearSub _ _ _) k) _ _
    split
    · exact kept
    · exact .ite (kept.modPav _) kept
theorem SameSessions.regMerge (r i e : Nat) (y : Txn) : SameSessions s (t.regMerge p r i e y) := h.modReg _ _
theorem SameSessions.regsCommit : SameSessions s (t.regsCommit p) := h.fold fun _ _ k => k.regCommit _
theorem SameSessions.orRecall (r i : Nat) (o : OrLine) (engine : Bool) : SameSessions s (t.orRecall p r i o engine) := by
  have read : SameSessions s (t.orRead p o).1 := h.orRead rfl
  exact SameSessions.modReg (SameSessions.orDrop (.ite (read.mopCls _) read) _) _ _
theorem SameSessions.allocReg {la : LineAddr} {way : Nat} {pend alloc : Bool} {k : Option PlotId} {g : Nat} {need : Option Nat}
    {wr : Option (Line × Bool)} {r : Nat} (got : t.allocReg p la way pend alloc k g need wr = some (u, r)) : SameSessions s u := by
  unfold State.allocReg at got
  split at got
  · cases got
  · cases got
    refine SameSessions.regCommit (.ite (h.modPav _) ((h.modPav _).fold fun v i k => .ite k ?_)) _
    split
    · exact k
    · exact k.orRecall _ _ _ _
theorem SameSessions.noAllocWrite {la : LineAddr} {d : Line} {po : Bool} {k : Option PlotId} {w : Option Nat} {count : Bool} {x : Did}
    (r : t.noAllocWrite p la d po k w count = (u, x)) : SameSessions s u := by
  unfold State.noAllocWrite at r
  dsimp only at r
  generalize push : State.pushLine (if count = true then _ else _) p _ = v at r
  have pushed : SameSessions s v := by rw [← push]; exact SameSessions.pushLine (.ite ((h.rcount _ _ _ _).cntPav _ _ _) h) _
  split at r <;> cases r <;> exact pushed
theorem SameSessions.windowPut (la : LineAddr) (d : Line) (po : Bool) : SameSessions s (t.windowPut p la d po) := h.modPav _
theorem SameSessions.windowPush (la : LineAddr) : SameSessions s (t.windowPush p la) := by
  unfold State.windowPush
  split
  next r => exact (h.ghRead r).pushLine _
theorem SameSessions.windowFirst (la : LineAddr) : SameSessions s (t.windowFirst p la) := .ite ((h.modPav _).windowPush _) h
theorem SameSessions.cntLook (m : Mode) (lk : Look) (k : Option PlotId) : SameSessions s (t.cntLook p m lk k) := by
  unfold State.cntLook
  split
  · exact h.cntPav _ _ _
  · exact h.cntPav _ _ _
  · exact h.cntPav _ _ _
  · exact h.cntPav _ _ _
  · exact h.cntPav _ _ _
  · exact h
theorem SameSessions.regJoin {r : Nat} {la : LineAddr} {d : Line} {po : Bool} {k : Option PlotId} {w : Option Nat} {x : Did}
    (got : t.regJoin p r la d po k w = (u, x)) : SameSessions s u := by
  unfold State.regJoin at got
  dsimp only at got
  split at got <;> cases got
  · exact h.rcount _ _ _ _
  · exact (((h.touchReg _).cntPav _ _ _).modReg _ _).regCommit _
theorem SameSessions.writeLine {la : LineAddr} {d : Line} {po : Bool} {k : Option PlotId} {w : Option Nat} {x : Did}
    (r : t.writeLine p la d po k w = (u, x)) : SameSessions s u := by
  unfold State.writeLine at r
  dsimp only at r
  split at r
  case h_1 => cases r; exact h.windowPut _ _ _
  case h_2 =>
    split at r
    · exact h.regJoin r
    · cases r; exact h.orPut _ _ _
    · exact h.noAllocWrite r
  case h_3 =>
    split at r
    · split at r
      · exact (h.modPav _).noAllocWrite r
      · cases r; exact (h.commitGh _ _ _ _ _ _).modPav _
    · exact h.regJoin r
    · split at r
      · next got =>
        have v := h.allocGh (Option.ite_none_right_eq_some.mp got).2
        cases r; exact SameSessions.commitGh (.ite (v.orDrop _) v) _ _ _ _ _ _
      · split at r
        · cases r; exact h.orPut _ _ _
        · exact h.noAllocWrite r
  case h_4 =>
    split at r
    · cases r; exact h
    · split at r
      · exact (h.clearSub _ _ _).noAllocWrite r
      · cases r; exact (h.commitSec _ _ _ _ _ _ _ _).modPav _
    · exact h.regJoin r
    · split at r
      · exact h.noAllocWrite r
      · cases r; exact (h.commitSec _ _ _ _ _ _ _ _).modPav _
    · split at r
      · exact h.noAllocWrite r
      · split at r
        · next got => cases r; exact h.allocReg got
        · cases r; exact h
    · split at r
      · cases r; exact h.orPut _ _ _
      · split at r
        · cases r; exact ((h.orDrop _).commitSec _ _ _ _ _ _ _ _).modPav _
        · split at r
          · next got => cases r; exact ((h.orDrop _).modPav _).allocReg got
          · cases r; exact h
        · split at r
          · next got =>
            obtain ⟨_, -, got⟩ := Option.bind_eq_some_iff.mp (Option.ite_none_right_eq_some.mp got).2
            have v := h.allocWay got
            generalize drop : (if t.look p la = Look.orang then State.orDrop _ p la else _) = v' at r
            have v' : SameSessions s v' := by rw [← drop]; exact .ite (v.orDrop _) v
            split at r
            · split at r
              · next got => cases r; exact v'.allocReg got
              · cases r; exact h
            · cases r; exact v'.commitSec _ _ _ _ _ _ _ _
          · split at r
            · cases r; exact h.orPut _ _ _
            · exact h.noAllocWrite r
omit h in
/-- Counting an access by its outcome goes on from where the access ended. -/
theorem SameSessions.looked {la : LineAddr} {k : Option PlotId} {y : State × Did} (h : SameSessions s y.1) {x : Did}
    (r : t.looked p la k y = (u, x)) : SameSessions s u := by
  unfold State.looked at r
  split at r
  · cases r; exact h.cntLook _ _ _
  · cases r; exact h.cntLook _ _ _
  · rw [r] at h; exact h
theorem SameSessions.putLine {la : LineAddr} {d : Line} {po : Bool} {k : Option PlotId} {w : Option Nat} {x : Did}
    (r : t.putLine p la d po k w = (u, x)) : SameSessions s u := .looked (h.writeLine rfl) r
theorem SameSessions.noAllocRead {la : LineAddr} {k : PlotId} {count : Bool} {x : Did} (r : t.noAllocRead p la k e count = (u, x)) :
    SameSessions s u := by
  unfold State.noAllocRead at r
  dsimp only at r
  generalize counted : (if count = true then State.cntPav _ p 0x0E _ 1 else _) = v at r
  have v' : SameSessions s v := by rw [← counted]; exact .ite ((h.rcount _ _ _ _).cntPav _ _ _) h
  split at r
  · next got => cases r; exact v'.allocReg got
  · cases r; exact v'
theorem SameSessions.toBuf (d : Line) (po : Bool) : SameSessions s (t.toBuf p e d po) := h.modTxn _
theorem SameSessions.mergeRead {la : LineAddr} {i : Nat} {x : Did} (r : t.mergeRead p la i e = (u, x)) : SameSessions s u := by
  have touched := h.touchReg (p := p) i
  unfold State.mergeRead at r
  dsimp only at r
  split at r
  · cases r; exact touched
  · split at r
    · cases r; exact h.rcount _ _ _ _
    · have counted (k : Option PlotId) := touched.cntPav (p := p) 6 k 1
      split at r
      · split at r
        · cases r; exact counted _
        · split at r <;> cases r
          · exact ((counted _).regMerge _ _ _ _).regCommit _
          · exact (counted _).toBuf _ _
      · cases r; exact (counted _).modReg _ _
theorem SameSessions.readHome {la : LineAddr} {k : PlotId} {x : Did} (r : t.readHome p la k e = (u, x)) : SameSessions s u := by
  unfold State.readHome at r
  dsimp only at r
  split at r
  case h_1 =>
    have read := h.ghRead (p := p) (i := windowIdx la) (window := true) (dirty := true) (poison := false) rfl
    split at r <;> cases r
    · exact read.toBuf _ _
    · exact read
  case h_2 =>
    split at r
    · exact h.mergeRead r
    · split at r <;> cases r
      · exact SameSessions.toBuf (h.orRead rfl) _ _
      · exact h
    · exact h.noAllocRead r
  case h_3 =>
    split at r
    · split at r <;> cases r
      · exact (SameSessions.toBuf (h.ghRead rfl) _ _).modPav _
      · exact h.ghRead rfl
    · exact h.mergeRead r
    · split at r
      · cases r; exact h
      · next o _ =>
        have read : SameSessions s (t.orRead p o).1 := h.orRead rfl
        split at r
        · next got =>
          cases r
          exact (((read.allocGh (Option.ite_none_right_eq_some.mp got).2).orDrop _).commitGh _ _ _ _ _ _).toBuf _ _
        · cases r; exact read.toBuf _ _
    · split at r
      · cases r; exact h
      · split at r
        · next got =>
          have v := h.allocGh (Option.ite_none_right_eq_some.mp got).2
          split at r
          · next got => cases r; exact v.allocReg got
          · cases r; exact v
        · exact h.noAllocRead r
  case h_4 =>
    split at r
    · cases r; exact h
    · cases r; exact (h.stackCmd _ _ _ _ _ _).modPav _
    · exact h.mergeRead r
    · split at r
      · cases r; exact h
      · next o _ =>
        have read : SameSessions s (t.orRead p o).1 := h.orRead rfl
        split at r
        · cases r; exact read.toBuf _ _
        · split at r
          · cases r; exact (((read.orDrop _).commitSec _ _ _ _ _ _ _ _).modPav _).toBuf _ _
          · split at r
            · split at r
              · next got => cases r; exact (((read.orDrop _).modPav _).allocReg got).toBuf _ _
              · cases r; exact read
            · next got =>
              have v := (read.allocWay (Option.ite_none_right_eq_some.mp got).2).orDrop (p := p) la
              split at r
              · split at r
                · next got => cases r; exact (v.allocReg got).toBuf _ _
                · cases r; exact read
              · cases r; exact (v.commitSec _ _ _ _ _ _ _ _).toBuf _ _
            · cases r; exact read.toBuf _ _
    · split at r
      · exact h.noAllocRead r
      · split at r
        · next got => cases r; exact h.allocReg got
        · cases r; exact h
    · split at r
      · exact h.noAllocRead r
      · split at r
        · next got => cases r; exact h.allocReg got
        · cases r; exact h
    · split at r
      · cases r; exact h
      · split at r
        · next got =>
          have v := h.allocWay (Option.ite_none_right_eq_some.mp got).2
          split at r
          · next got => cases r; exact v.allocReg got
          · cases r; exact v
        · exact h.noAllocRead r
theorem SameSessions.readLine {la : LineAddr} {k : PlotId} {x : Did} (r : t.readLine p la k e = (u, x)) : SameSessions s u :=
  .looked (h.readHome rfl) r

/-! ### Parity of tags -/

theorem SameSessions.haltPav : SameSessions s (t.haltPav p) := ((h.modPav _).event _ _ _ _ _ _ _).fatal _
theorem SameSessions.poisonSector (set way : Nat) : SameSessions s (t.poisonSector p set way) :=
  .ite (h.modPav _) (((h.modPav _).fold fun _ _ k => k.pushLine _).poisonEnd _ _)
theorem SameSessions.poisonNext : SameSessions s (t.poisonNext p) := by
  unfold State.poisonNext
  split
  · exact h
  · exact .ite (h.poisonSector _ _) h
theorem SameSessions.regsLoseWay (set way : Nat) : SameSessions s (t.regsLoseWay p set way) := h.modPav _
theorem SameSessions.tagFault (set way : Nat) : SameSessions s (t.tagFault p set way) := by
  have noted := (h.rcount (R.pavErrCnt p) 31 16 1).event .tagParity p.val ((lineOf ((t.pav p).tag set way).tag set 0).toNat * 64) 0 0x7F 0 .tags
  unfold State.tagFault
  refine .ite ?clean (.ite (((noted.raise _ _).fatal _).poisonSector _ _) noted.haltPav)
  have ways : ∀ v, SameSessions s v → SameSessions s (v.regsLoseWay p set way) := fun _ k => k.regsLoseWay _ _
  refine .ite (SameSessions.raise (.ite (SameSessions.modPav (ways _ ?_) _) (ways _ ?_)) _ _) (SameSessions.modPav (ways _ ?_) _)
  all_goals
    split
    · exact noted.modPav _
    · exact noted.modPav _
theorem SameSessions.checkTags (set : Nat) : SameSessions s (t.checkTags p set) := h.fold fun _ _ k => .ite k (k.tagFault _ _)
theorem SameSessions.ghFault (set way : Nat) : SameSessions s (t.ghFault p set way) := by
  have noted := (h.rcount (R.pavErrCnt p) 31 16 1).event .tagParity p.val ((ghLine ((t.pav p).ghe set way).tag set).toNat * 64) 0 0x7F 0 .glasshouse
  exact .ite (.ite ((noted.modPav _).raise _ _) (noted.modPav _)) (.ite (((noted.modPav _).raise _ _).fatal _) noted.haltPav)
theorem SameSessions.checkGh (set : Nat) : SameSessions s (t.checkGh p set) := h.fold fun _ _ k => .ite k (k.ghFault _ _)
theorem SameSessions.readTags (la : LineAddr) : SameSessions s (t.readTags p la) := by
  unfold State.readTags
  refine .ite h ?_
  split
  · exact h.checkTags _
  · exact h.checkGh _
  · exact h

/-! ### The directory -/

theorem SameSessions.putEntry (la : LineAddr) (own : Option Nat) (sh : BitVec 96) : SameSessions s (t.putEntry p la own sh) := by
  unfold State.putEntry; exact h.modPav _
theorem SameSessions.dropAgent (la : LineAddr) (n : Nat) : SameSessions s (t.dropAgent p la n) := .ite h (h.putEntry _ _ _)
theorem SameSessions.startRecall {k : TKind} {la : LineAddr} {i : Nat} (r : t.startRecall p k la = some (u, i)) : SameSessions s u := by
  unfold State.startRecall at r
  split at r
  · cases r
  · cases r; exact h.modPav _
theorem SameSessions.recoverNow : SameSessions s (t.recoverNow p) := by
  refine h.fold fun v la k => .ite k ?_
  split
  · exact k
  · next got => exact (k.startRecall got).modPav _
theorem SameSessions.dirFault (set way : Nat) : SameSessions s (t.dirFault p set way) := by
  have noted := (h.rcount (R.pavDirErr p) 31 16 1).raise (R.pavDirStat p) 9
  exact .ite h (.ite ((noted.modPav _).rfSet _ _ _ _) (noted.modPav _).recoverNow)
theorem SameSessions.checkDir (set : Nat) : SameSessions s (t.checkDir p set) := h.fold fun _ _ k => .ite k (k.dirFault _ _)
theorem SameSessions.readEntry (la : LineAddr) : SameSessions s (t.readEntry p la) := .ite h (h.checkDir _)
theorem SameSessions.finalState (y : Txn) : SameSessions s (t.finalState p y) := .ite h ((h.readEntry _).putEntry _ _ _)
theorem SameSessions.chooseWay {set : Nat} {x : WayGot} (r : t.chooseWay p set e = (u, x)) : SameSessions s u := by
  have checked := h.checkDir (p := p) set
  unfold State.chooseWay at r
  dsimp only at r
  generalize t.checkDir p set = v at r checked
  split at r
  · cases r; exact (checked.modPav _).cntPav _ _ _
  · split at r
    · cases r; exact checked
    · generalize aged : (if List.all _ _ = true then State.modPav _ p _ else _) = w at r
      have kept : SameSessions s w := by rw [← aged]; exact .ite (checked.modPav _) checked
      split at r
      · cases r; exact kept
      · split at r
        · cases r; exact kept
        · next got => cases r; exact ((kept.startRecall got).modPav _).cntPav _ _ _
end
end
end Sys2Proof.Machine

namespace Sys2Proof.Machine

section
variable {s t u : State} {p : PavId} {e : Nat} (h : SameSessions s t)
include h

/-! ### Transactions: ways, ends and answers -/

theorem SameSessions.takeWay : SameSessions s (t.takeWay p e) := by
  unfold State.takeWay
  split
  · exact h
  · split
    next r =>
      have chosen := h.chooseWay r
      split
      · exact chosen.modTxn _
      · exact chosen.modTxn _
      · have counted {c : Prop} [Decidable c] {off hi lo n : Nat} := SameSessions.ite (c := c) chosen (chosen.rcount off hi lo n)
        exact SameSessions.modTxn (.ite counted (counted.modPav _)) _
theorem SameSessions.orderPoint (n num : Nat) : SameSessions s (t.orderPoint n num) := by
  unfold State.orderPoint
  split
  · exact h
  · exact h.modIo _ _
theorem SameSessions.meterRd (k : PlotId) : SameSessions s (t.meterRd p k) := h.modPav _
theorem SameSessions.meterWr (k : PlotId) : SameSessions s (t.meterWr p k) := h.modPav _
theorem SameSessions.sample (y : Txn) : SameSessions s (t.sample p y) := h.modPav _
theorem SameSessions.flushAcks : SameSessions s (t.flushAcks p e) := by
  unfold State.flushAcks
  split
  · exact h
  · refine SameSessions.modTxn (h.fold fun _ _ k => ?_) _
    split
    · exact k
    · exact k.send _ _ _ _
theorem SameSessions.dropFetch : SameSessions s (t.dropFetch p e) := h.modPav _
theorem SameSessions.endTxn : SameSessions s (t.endTxn p e) := by
  unfold State.endTxn
  split
  · exact h
  · have ended (la : LineAddr) : SameSessions s (((t.readEntry p la).flushAcks p e).dropFetch p e) := (h.readEntry la).flushAcks.dropFetch
    refine SameSessions.modPav ?_ _
    split
    · exact .ite ((ended _).cntPav _ _ _) (ended _)
    · exact ended _
theorem SameSessions.comp (st : BitVec 4) : SameSessions s (t.comp p e st) := by
  unfold State.comp
  split
  · exact h
  · split
    · exact h.endTxn
    · refine (SameSessions.orderPoint ?_ _ _).modTxn _
      split
      · exact .ite ((h.answerFor _ _ _ _).modIo _ _) (h.answerFor _ _ _ _)
      · exact h.answerFor _ _ _ _
theorem SameSessions.forward (n : Nat) (op : BitVec 8) : SameSessions s (t.forward p e n op) := by
  unfold State.forward
  split
  · exact ((h.modTxn _).send _ _ _ _).cntPav _ _ _
  · exact h

/-! ### Data of agents -/

theorem SameSessions.freshen (la : LineAddr) (d : Line) (po : Bool) : SameSessions s (t.freshen p la d po) := by
  unfold State.freshen
  split
  · exact h
  · split
    · exact .ite (h.dropFetch.modTxn _) (.ite (h.dropFetch.modTxn _) h)
    · exact h
theorem SameSessions.sink (la : LineAddr) (d : Line) (po : Bool) (k : Option PlotId) : SameSessions s (t.sink p la d po k) := by
  have looked := ((h.readTags (p := p) la).freshen (p := p) la d po).windowFirst (p := p) la
  refine .ite (looked.modPav _) ?_
  split
  · next r => exact looked.putLine r
  · next r => exact looked.putLine r
  · exact looked.modPav _
theorem SameSessions.drainEvBuf : SameSessions s (t.drainEvBuf p) := by
  refine .ite h (h.fold fun v x k => .ite k (.ite (k.readTags _) ?_))
  split
  · next r => exact ((k.readTags _).putLine r).modPav _
  · next r => exact ((k.readTags _).putLine r).modPav _
  · exact k.readTags _
theorem SameSessions.poisonLine (la : LineAddr) (k : Option PlotId) : SameSessions s (t.poisonLine p la k) := (h.sink _ _ _ _).event _ _ _ _ _ _ _
theorem SameSessions.applyEvict (n : PortId) (m : Msg) : SameSessions s (t.applyEvict p n m) :=
  .ite (.ite (((h.dropAgent _ _).sink _ _ _ _).meterWr _) ((h.raise _ _).dropAgent _ _)) (h.dropAgent _ _)
theorem SameSessions.lateEvict : SameSessions s (t.lateEvict p e) := by
  unfold State.lateEvict
  split
  · exact h
  · exact ((h.modTxn _).applyEvict _ _).answerFor _ _ _ _

/-! ### Grants and the home copy for a transaction -/

/-- The final state of a grant, where it changes (R118). -/
theorem SameSessions.grant (op : BitVec 8) (fin : Option (Option Nat × BitVec 96)) : SameSessions s (t.grant p e op fin) := by
  unfold State.grant
  split
  · have taken {c : Prop} [Decidable c] (la : LineAddr) (n : PortId) (f : PortIo → PortIo)
        (hf : ∀ io, (f io).enabled = io.enabled := by intro; rfl) : SameSessions s (if c then t.readEntry p la else (t.readEntry p la).modIo n f) :=
      .ite (h.readEntry la) ((h.readEntry la).modIo n f hf)
    dsimp only
    generalize final : State.modTxn _ p e _ = v
    have kept : SameSessions s v := by
      rw [← final]
      refine SameSessions.modTxn ?_ _
      split
      · exact taken _ _ _
      · exact (taken _ _ _).putEntry _ _ _
    refine .ite (SameSessions.endTxn (.lateEvict (.flushAcks ?_))) (.lateEvict (.flushAcks ?_))
    all_goals
      exact .ite (kept.answerFor _ _ _ _)
        (SameSessions.sample (SameSessions.meterRd (SameSessions.answerFor (.ite (kept.cntPav _ _ _) kept) _ _ _ _) _) _)
  · exact h
theorem SameSessions.grantOwner (op : BitVec 8) (fin : Option (Option Nat × BitVec 96)) : SameSessions s (t.grantOwner p e op fin) := by
  unfold State.grantOwner
  split
  · exact h
  · refine SameSessions.lateEvict (SameSessions.flushAcks (SameSessions.sample (SameSessions.meterRd (SameSessions.modTxn ?_ _) _) _))
    split
    · exact h.readEntry _
    · exact (h.readEntry _).putEntry _ _ _
theorem SameSessions.tryFetch : SameSessions s (t.tryFetch p e) := by
  unfold State.tryFetch
  split
  · exact h
  · have looked (la : LineAddr) : SameSessions s ((t.readTags p la).windowFirst p la) := (h.readTags la).windowFirst la
    refine .ite h (.ite (looked _) (.ite ((looked _).setFetch _) ?_))
    have busy (la : LineAddr) : SameSessions s (((t.readTags p la).windowFirst p la).modTxn p e fun t => { t with fetch := .busy }) := (looked la).modTxn _
    split
    · next r => exact (busy _).readLine r
    · next r => exact (busy _).readLine r
    · next r => exact ((busy _).readLine r).setFetch _
    · next r => exact ((busy _).readLine r).modTxn _
theorem SameSessions.fromHome (op : BitVec 8) (fin : Option (Option Nat × BitVec 96)) : SameSessions s (t.fromHome p e op fin) := by
  unfold State.fromHome
  dsimp only
  split
  · exact h.tryFetch
  · exact .ite (h.tryFetch.grant _ _) h.tryFetch
/-- A wave of forwards goes out. -/
theorem SameSessions.wave (f : Txn → Txn) (op : BitVec 8) (ns : List Nat) :
    SameSessions s (ns.foldl (fun s n => s.forward p e n op) (t.modTxn p e f)) := (h.modTxn f).fold fun _ _ k => k.forward _ _
theorem SameSessions.readStep (y : Txn) (op : BitVec 8) : SameSessions s (t.readStep p e y op) := by
  unfold State.readStep
  refine .ite ?owner (.ite (h.fromHome _ _) (.ite (.ite h h.takeWay) (.ite (.ite (h.wave _ _ _) (h.grant _ _)) (.ite ?exclusive (.ite (h.fromHome _ _) ?shared)))))
  case owner => exact .ite (.ite (h.grantOwner _ _) (h.grantOwner _ _)) (.ite (h.grantOwner _ _) (h.grantOwner _ _))
  case exclusive =>
    refine .ite (SameSessions.wave (.ite h.tryFetch h) _ _ _) ?_
    split
    · exact .ite (h.fromHome _ _) ((h.modTxn _).forward _ _)
    · exact h.fromHome _ _
  case shared =>
    split
    · exact .ite (h.fromHome _ _) ((h.modTxn _).forward _ _)
    · exact .ite (h.fromHome _ _) (.ite (h.fromHome _ _) (h.fromHome _ _))
theorem SameSessions.readStep2 (op : BitVec 8) : SameSessions s (t.readStep2 p e op) := by
  unfold State.readStep2
  split
  · exact h
  · exact .ite h (h.readStep _ _)

/-! ### Writes and cache maintenance -/

omit h in
theorem SameSessions.tookWrite {r : State × Did} (h : SameSessions s r.1) : SameSessions s (State.tookWrite r p e) := by
  obtain ⟨v, did⟩ := r
  cases did with
  | done | replay => exact SameSessions.setFetch h _
  | waits | sector => exact SameSessions.modTxn h _
theorem SameSessions.doWrite (y : Txn) (d : Line) (po : Bool) : SameSessions s (t.doWrite p e y d po) := by
  have looked := (h.readTags (p := p) y.pa).windowFirst (p := p) y.pa
  refine .ite looked (.ite (looked.setFetch _) (.tookWrite ?_))
  split
  · exact (looked.setFetch _).writeLine rfl
  · exact (looked.setFetch _).putLine rfl
theorem SameSessions.pinPart (set way : Nat) : SameSessions s (t.pinPart p e set way) := h.modPav _
theorem SameSessions.touchHit (la : LineAddr) : SameSessions s (t.touchHit p la) := by
  unfold State.touchHit
  split
  · exact h.modPav _
  · exact h.modPav _
  · exact h
theorem SameSessions.doPart (y : Txn) : SameSessions s (t.doPart p e y) := by
  unfold State.doPart
  split
  · exact h.doWrite _ _ _
  · have looked := (h.readTags (p := p) y.pa).windowFirst (p := p) y.pa
    refine .ite looked (.ite (looked.setFetch _) ?_)
    split
    · exact ((((looked.modPav _).cntPav _ _ _).pinPart _ _).setFetch _).stackCmd _ _ _ _ _ _
    · dsimp only
      split
      · exact looked.tryFetch
      · split
        · exact looked.tryFetch.doWrite _ _ _
        · exact looked.tryFetch
theorem SameSessions.doClean (y : Txn) (inv : Bool) : SameSessions s (t.doClean p e y inv) := by
  have moved := h.windowFirst (p := p) y.pa
  refine .ite (moved.setFetch _) ?_
  split
  · exact moved.setFetch _
  · split
    · exact moved.modTxn _
    · exact moved.setFetch _
    · split
      · exact moved
      · refine .ite (moved.setFetch _) ?_
        split
        next r => exact (((moved.orRead r).orDrop _).setFetch _).pushLine _
    · split
      · exact .ite ((moved.setFetch _).stackCmd _ _ _ _ _ _) (SameSessions.setFetch (.ite (moved.clearSub _ _ _) moved) _)
      · refine .ite ?_ (SameSessions.setFetch (.ite (moved.modPav _) moved) _)
        split
        next r => exact (((moved.ghRead r).modPav _).setFetch _).pushLine _
    · exact moved.setFetch _
theorem SameSessions.dropClean (la : LineAddr) : SameSessions s (t.dropClean p la) := by
  unfold State.dropClean
  split
  · exact .ite h (h.clearSub _ _ _)
  · exact .ite h (h.modPav _)
  · exact h
theorem SameSessions.writeDone (y : Txn) (op : BitVec 8) : SameSessions s (t.writeDone p e y op) := by
  have metered : SameSessions s (if isWriteOp op then t.meterWr p y.plot else t) := .ite (h.meterWr _) h
  have done (st : BitVec 4) : SameSessions s (((if op = Op.cCleanInv then (if isWriteOp op then t.meterWr p y.plot else t).dropClean p y.pa
      else if isWriteOp op then t.meterWr p y.plot else t).finalState p y).comp p e st) :=
    SameSessions.comp (SameSessions.finalState (.ite (metered.dropClean _) metered) _) _
  refine .ite ?_ (done _).endTxn
  split
  · exact (done _).endTxn
  · exact ((done _).flushAcks.modTxn _).send _ _ _ _
theorem SameSessions.writeStep (y : Txn) (op : BitVec 8) : SameSessions s (t.writeStep p e y op) := by
  unfold State.writeStep
  extract_lets d ownF shF fwd v touched w z
  have pinned : SameSessions s v := by
    unfold v
    split
    · exact h.pinPart _ _
    · exact h
  clear_value v
  refine .ite (pinned.writeDone _ _) (.ite ?forwards (.ite pinned ?performs))
  case forwards => exact (SameSessions.modTxn (.ite (pinned.touchHit _) pinned) _).fold fun _ _ k => k.forward _ _
  case performs =>
    have begun := pinned.modTxn (p := p) (e := e) fun t => { t with phase := .data }
    have tried : SameSessions s z :=
      .ite (begun.doPart _) (.ite (begun.doClean _ _) (.ite (begun.doClean _ _) (.ite (begun.setFetch _) (begun.doWrite _ _ _))))
    clear_value z
    split
    · exact tried
    · exact .ite (tried.writeDone _ _) tried
theorem SameSessions.recallStep (y : Txn) : SameSessions s (t.recallStep p e y) := by
  have broadcast (ns : List Nat) : SameSessions s (ns.foldl (fun s n => s.forward p e n Op.rcl) t) := h.fold fun _ _ k => k.forward _ _
  unfold State.recallStep
  dsimp only
  split
  · exact h
  · exact .ite h.endTxn (broadcast _)
  · exact .ite h.endTxn (broadcast _)
  · exact .ite (h.forward _ _) h.endTxn
  · exact .ite (h.wave _ _ _) (SameSessions.endTxn (SameSessions.event (SameSessions.raise (.ite h ((h.putEntry _ _ _).modPav _)) _ _) _ _ _ _ _ _ _))
theorem SameSessions.advance : SameSessions s (t.advance p e) := by
  unfold State.advance
  split
  · exact h
  · refine .ite h ?_
    split
    · exact .ite h.endTxn h
    · exact h
    · exact h
    · split
      · exact h
      · refine .ite ?_ h
        split
        · exact (h.modTxn _).readStep2 _
        · exact h
    · split
      · exact .ite (h.modTxn _) (.ite ((h.readStep _ _).readStep2 _) (h.writeStep _ _))
      · exact h.recallStep _

/-! ### Dead agents, the sweep and the rounds of a pavilion -/

theorem SameSessions.quiesceLost (n : PortId) : SameSessions s (t.quiesceLost n) := .ite h (h.raise _ _)
theorem SameSessions.timeoutFwd (n : PortId) : SameSessions s (t.timeoutFwd p e n) := by
  unfold State.timeoutFwd
  split
  · exact h
  · have late (la : LineAddr) (f : Txn → Txn) : SameSessions s ((t.readEntry p la).modTxn p e f) := (h.readEntry la).modTxn f
    exact ((SameSessions.ite ((((late _ _).dropAgent _ _).poisonLine _ _).quiesceLost _ |>.modTxn _) ((late _ _).dropAgent _ _)).raise _ _).event _ _ _ _ _ _ _
theorem SameSessions.timeoutDone (n : PortId) : SameSessions s (t.timeoutDone p e n) := by
  unfold State.timeoutDone
  split
  · exact h
  · refine SameSessions.endTxn (SameSessions.event (SameSessions.raise (.ite (SameSessions.quiesceLost ?_ _) ?_) _ _) _ _ _ _ _ _ _)
    all_goals exact .ite (((h.readEntry _).dropAgent _ _).poisonLine _ _) ((h.readEntry _).dropAgent _ _)
theorem SameSessions.offerExpire (n : PortId) (y : Txn) : SameSessions s (t.offerExpire p e n y) := ((h.modIo _ _).raise _ _).endTxn
theorem SameSessions.deadWaits : SameSessions s (t.deadWaits p e) := by
  unfold State.deadWaits
  split
  · exact h
  · refine .ite h ?_
    dsimp only
    generalize waits : List.foldl _ t _ = v
    have kept : SameSessions s v := by
      rw [← waits]
      refine h.fold fun w o k => ?_
      split
      · exact k
      · exact .ite (k.timeoutFwd _) k
    split
    · exact kept
    · exact .ite (kept.offerExpire _ _) kept
theorem SameSessions.sweepPort (n : Nat) : SameSessions s (t.sweepPort p n) := by
  unfold State.sweepPort
  extract_lets v w
  have checked : SameSessions s v := h.fold fun _ _ k => k.dirFault _ _
  clear_value v
  have walked : SameSessions s w := by
    refine checked.fold fun z la k => .ite k ?_
    split
    · exact k
    · next r => exact (k.startRecall r).advance.deadWaits
  exact .ite (walked.modPav _) walked
theorem SameSessions.pumpOnce : SameSessions s (t.pumpOnce p) := by
  unfold State.pumpOnce
  extract_lets v w z
  have begun : SameSessions s v := .ite h h.recoverNow.poisonNext.regsCommit
  clear_value v
  have drained : SameSessions s z := (begun.fold fun _ _ k => k.deadWaits.advance).drainEvBuf
  exact .ite drained (drained.fold fun _ _ k => k.sweepPort _)
end
end Sys2Proof.Machine

namespace Sys2Proof.Machine

section
variable {s t u : State} {n k : PortId}

/-! ## Link loss (R60, R62, R75, R83, R93) -/

theorem SameSessions.linkGone (h : SameSessions s t) (gone : s.linkGone n) : t.linkGone n := by
  have session := h.session n
  simp only [Link.session, Prod.mk.injEq] at session
  obtain ⟨st, retry, -⟩ := session
  unfold State.linkGone
  rw [st, retry, h.enabled n]
  exact gone

/-- A port that settles after its link-down handling stays out of service (R60, R432). -/
theorem linkSettle_gone (s : State) (k : PortId) (gone : s.linkGone n) : (s.linkSettle k).linkGone n := by
  unfold State.linkSettle
  dsimp only
  split
  · by_cases e : n = k
    · subst e
      obtain ⟨-, disabled, empty⟩ := gone
      unfold State.linkGone
      rw [State.modLink_link_same, State.modLink_io_same]
      exact ⟨by split <;> simp, disabled, empty⟩
    · unfold State.linkGone
      rw [State.modLink_port_other _ _ e]
      exact gone
  · exact gone
theorem sweepCheck_gone (gone : s.linkGone n) : s.sweepCheck.linkGone n := by
  unfold State.sweepCheck forPorts
  refine List.foldlRecOn (motive := fun s : State => s.linkGone n) allPorts _ gone fun v gone k _ => ?_
  dsimp only
  split
  · exact linkSettle_gone _ k ((SameSessions.refl.modIo _ _).raise _ _ |>.linkGone gone)
  · exact gone
theorem pump_gone (p : PavId) (gone : s.linkGone n) : (s.pump p).linkGone n := by
  have rounds (m : Nat) : ((List.range m).foldl (fun s _ => s.pumpOnce p) s).linkGone n :=
    (SameSessions.refl.fold fun _ _ k => k.pumpOnce).linkGone gone
  unfold State.pump
  dsimp only
  split
  · exact rounds _
  · exact sweepCheck_gone (rounds _)

theorem SameSessions.sweepStart (h : SameSessions s t) (n : PortId) : SameSessions s (t.sweepStart n) := by
  unfold State.sweepStart
  exact (h.modIo _ _).fold fun v p k => (k.fold fun _ _ k => k.checkDir _).modPav _
theorem SameSessions.waitsEnd (h : SameSessions s t) (n : PortId) : SameSessions s (t.waitsEnd n) := by
  refine h.fold fun v p k => k.fold fun w x k => ?_
  split
  · exact k
  · next y _ =>
    have waits : SameSessions s (if y.outs.any (fun o => o.port = n.val) || y.cross.any (fun c => c.1 = n.val) || (y.waitEvict && y.port = n.val)
        then w.timeoutFwd p x.1 n else w) := .ite (k.timeoutFwd _) k
    exact .ite (waits.timeoutDone _) waits
theorem SameSessions.acksEnd (h : SameSessions s t) (n : PortId) : SameSessions s (t.acksEnd n) :=
  h.fold fun _ _ k => .ite k (k.fold fun _ _ k => k.modTxn _)

/-- Entry to DOWN takes the port out of service (R93). -/
theorem linkDown_gone (down : (s.port n).link.st ≠ .down) (disabled : (s.port n).link.st ≠ .disabled) : (s.linkDown n).linkGone n := by
  unfold State.linkDown
  extract_lets l released cut out noted ended swept pumped
  rw [if_neg (by simp [l, down, disabled])]
  have severed : out.linkGone n := by simp [out, cut, State.linkGone]
  clear_value out
  have waits : SameSessions out ended := (((SameSessions.refl.raise _ _).event _ _ _ _ _ _ _).waitsEnd n).acksEnd n
  clear_value ended
  have sweeps : SameSessions out swept := by
    unfold swept
    split
    · exact waits.sweepStart n
    · exact (waits.modIo _ _).sweepStart n
    · exact waits
    · exact waits
  clear_value swept
  have rest : pumped.linkGone n := by
    unfold pumped forPavs
    exact List.foldlRecOn (motive := fun s : State => s.linkGone n) allPavs _ (sweeps.linkGone severed) fun v gone p _ => pump_gone p gone
  exact linkSettle_gone _ n (sweepCheck_gone rest)

/-! ### Falling back, trying again and the credit minimum -/

/-- EQ falls back to the previous generation, and SPEED to the one in force (R62). -/
theorem genFallback_effect (ok : s.regsOk) :
    ((s.genFallback n).port n).link.st = .speed ∧ ((s.genFallback n).port n).link.fallback = true
      ∧ ((s.genFallback n).port n).link.gen = (if (s.port n).link.st = .eq then (s.port n).link.gen - 1 else (s.port n).link.gen)
      ∧ Raised (R.portLinkEvt n) 11 s (s.genFallback n) ∧ OnlyPort n s (s.genFallback n) ∧ OnlyParts [.ports, .csr, .glb] s (s.genFallback n) := by
  let l := (s.port n).link
  let u := (s.linkTo n .speed).modLink n fun x =>
    { x with fallback := true, gen := if l.st = .eq then l.gen - 1 else l.gen, eqFast := l.eqFast && l.st ≠ .eq, eqLoad := false, eqFull := false }
  have link : OnLink n s u := (modLink_onLink s n _).trans (modLink_onLink _ n _)
  have raised := raise_tame u (R.portLinkEvt n) 11
  have port : (s.genFallback n).port n = u.port n := raised.only.port_eq n
  refine ⟨by rw [port]; simp [u, State.linkTo], by rw [port]; simp [u], by rw [port]; simp [u, l], ?_, link.only.trans (.of_only raised.only), ?_⟩
  · exact Raised.after (os := []) (.of_only link.tame.only) (by simp) (link.tame.only.rget_eq _) (raise_raised _ _ (link.tame.regs ok))
  · exact ((link.tame.mono (by simp)).trans (raised.mono (by simp))).only

/-- A training state that has outlasted its limit (R60, R62). -/
theorem exec_trainingStateTimeout {d : Nat} (alive : s.alive = true) (on : s.linksOn = true) (limit : (s.port n).link.limit = some d)
    (late : (s.port n).link.since + d < s.now) :
    exec (.trainingStateTimeout n) s = .next (if (s.port n).link.st = .speed && !(s.port n).link.fallback || (s.port n).link.st = .eq then s.genFallback n
      else s.linkDown n) := by
  change execTrainingStateTimeout n s = _
  unfold execTrainingStateTimeout
  rw [live_alive _ alive]
  simp only [limit]
  rw [if_neg (by simp [on, late])]
theorem exec_recoveryTimeout (alive : s.alive = true) (on : s.linksOn = true) (recovery : (s.port n).link.st = .recovery)
    (late : (s.port n).link.since + 40 * ccPerUs < s.now) :
    exec (.recoveryTimeout n) s = .next (if 2 ≤ (s.port n).link.recAttempts then s.linkDown n
      else s.modLink n fun l => { l with recAttempts := l.recAttempts + 1, since := s.now, echoes := [], setsOut := 0 }) := by
  change execRecoveryTimeout n s = _
  unfold execRecoveryTimeout
  rw [live_alive _ alive]
  exact congrArg _ (if_neg (by simp [on, recovery, late]))
theorem exec_creditMinimumTimeout (alive : s.alive = true) (active : (s.port n).link.st = .active) (open_ : (s.port n).link.credMinDone = false)
    (due : (s.port n).link.since + 10 * ccPerUs ≤ s.now) :
    exec (.creditMinimumTimeout n) s = .next (if 8 ≤ (s.port n).link.credSeen.getD 1 0 ∧ 8 ≤ (s.port n).link.credSeen.getD 2 0
        ∧ 8 ≤ (s.port n).link.credSeen.getD 3 0 then s.modLink n fun l => { l with credMinDone := true }
      else (s.linkDown n).raise (R.portLinkEvt n) 13) := by
  change execCreditMinimumTimeout n s = _
  unfold execCreditMinimumTimeout
  rw [live_alive _ alive]
  refine congrArg _ ((if_neg (by simp [active, open_, due])).trans ?_)
  by_cases seen : 8 ≤ (s.port n).link.credSeen.getD 1 0 ∧ 8 ≤ (s.port n).link.credSeen.getD 2 0 ∧ 8 ≤ (s.port n).link.credSeen.getD 3 0
  · rw [if_pos seen, if_neg (by simpa [and_assoc] using seen)]
  · rw [if_neg seen, if_pos (by by_contra none_; exact seen (by simpa [and_assoc] using none_))]
/-- Before its time a timeout changes nothing. -/
theorem exec_trainingStateTimeout_early {d : Nat} (limit : (s.port n).link.limit = some d) (early : s.now ≤ (s.port n).link.since + d) :
    exec (.trainingStateTimeout n) s = .next s := by
  change execTrainingStateTimeout n s = _
  unfold execTrainingStateTimeout
  refine live_idle ?_
  simp only [limit]
  exact if_pos (by simp [early])
theorem exec_recoveryTimeout_early (early : s.now ≤ (s.port n).link.since + 40 * ccPerUs) : exec (.recoveryTimeout n) s = .next s := by
  change execRecoveryTimeout n s = _
  unfold execRecoveryTimeout
  exact live_idle (if_pos (by simp [early]))
theorem exec_creditMinimumTimeout_early (early : s.now < (s.port n).link.since + 10 * ccPerUs) : exec (.creditMinimumTimeout n) s = .next s := by
  change execCreditMinimumTimeout n s = _
  unfold execCreditMinimumTimeout
  exact live_idle (if_pos (by simp [early]))

theorem exec_linkDown (alive : s.alive = true) (detect : (s.port n).link.st ≠ .detect) : exec (.linkDown n) s = .next (s.linkDown n) := by
  change execLinkDown n s = _
  unfold execLinkDown
  rw [live_alive _ alive, if_neg detect]
/-- A port in DETECT, DOWN or DISABLED has no link to lose. -/
theorem exec_linkDown_idle (st : (s.port n).link.st = .detect ∨ (s.port n).link.st = .down ∨ (s.port n).link.st = .disabled) :
    exec (.linkDown n) s = .next s := by
  change execLinkDown n s = _
  unfold execLinkDown
  refine live_idle ?_
  rcases st with detect | down | disabled
  · exact if_pos detect
  · rw [if_neg (by simp [down])]; unfold State.linkDown; exact if_pos (by simp [down])
  · rw [if_neg (by simp [disabled])]; unfold State.linkDown; exact if_pos (by simp [disabled])

/-- A command that takes a link in training or in service down loses it. -/
theorem linkDown_completes {i : Instr} (run : exec i s = .next (s.linkDown n)) (down : (s.port n).link.st ≠ .down)
    (disabled : (s.port n).link.st ≠ .disabled) : Completes i s fun t => t.linkGone n := ⟨_, run, linkDown_gone down disabled⟩

/-- Settles O2: what follows the loss of a link in the homes and at the other ports keeps the port out of service. That SPEED falls back
to the generation in force is the model's reading (log entry 25). -/
theorem linkTimeoutsAndLoss : Obligations.LinkTimeoutsAndLoss := by
  refine ⟨fun n s alive canon on => ⟨fun k limit late falls => ?_, fun k limit late lost => ?_, fun k limit early => exec_trainingStateTimeout_early limit early,
    fun recovery late few => ?_, fun recovery late out => ?_, fun _ early => exec_recoveryTimeout_early early,
    fun early => exec_creditMinimumTimeout_early early, fun active open_ due => ⟨fun seen => ?_, fun unseen => ?_⟩⟩,
    fun n s alive => ⟨fun detect down disabled => linkDown_completes (exec_linkDown alive detect) down disabled, exec_linkDown_idle⟩⟩
  · refine ⟨_, (exec_trainingStateTimeout alive on limit late).trans (congrArg _ (if_pos ?_)), genFallback_effect canon.1⟩
    rcases falls with eq | ⟨speed, first⟩
    · simp [eq]
    · simp [speed, first]
  · have run := exec_trainingStateTimeout alive on limit late
    rcases lost with st | st | st | ⟨st, again⟩
    · exact linkDown_completes (run.trans (congrArg _ (if_neg (by simp [st])))) (by simp [st]) (by simp [st])
    · exact linkDown_completes (run.trans (congrArg _ (if_neg (by simp [st])))) (by simp [st]) (by simp [st])
    · exact linkDown_completes (run.trans (congrArg _ (if_neg (by simp [st])))) (by simp [st]) (by simp [st])
    · exact linkDown_completes (run.trans (congrArg _ (if_neg (by simp [st, again])))) (by simp [st]) (by simp [st])
  · obtain ⟨t, run, link, only, parts⟩ :=
      linkUpdate_completes ((exec_recoveryTimeout alive on recovery late).trans (congrArg _ (if_neg (Nat.not_le.mpr few)))) rfl
    exact ⟨t, run, by rw [link]; exact recovery, by rw [link], by rw [link], only, parts⟩
  · exact linkDown_completes ((exec_recoveryTimeout alive on recovery late).trans (congrArg _ (if_pos out))) (by simp [recovery]) (by simp [recovery])
  · exact linkUpdate_completes ((exec_creditMinimumTimeout alive active open_ due).trans (congrArg _ (if_pos seen))) rfl
  · refine ⟨_, (exec_creditMinimumTimeout alive active open_ due).trans (congrArg _ (if_neg unseen)), ?_, linkEvent_bit _ n (by decide) (by decide)⟩
    exact (raise_sessions _ _ _).linkGone (linkDown_gone (by simp [active]) (by simp [active]))
end
end Sys2Proof.Machine

namespace Sys2Proof.Machine
-- The proofs below are elaborated one after the other, which bounds the threads that checking the text takes.
set_option Elab.async false

/-! ## Stores whose keys stay -/

section
variable {α β : Type} {m : FMap α} {k : Nat} {v w : α}

theorem find_map (g : α → β) (m : FMap α) (k : Nat) : FMap.find? (m.map fun x => (x.1, g x.2)) k = (FMap.find? m k).map g := by
  induction m with
  | nil => rfl
  | cons x rest ih =>
    obtain ⟨i, y⟩ := x
    simp only [List.map_cons, FMap.find?, ih]
    split
    · rfl
    · split <;> rfl

/-- What is written over a listed value is seen at its key only. -/
theorem map_insert_found (g : α → β) (found : FMap.find? m k = some v) (same : g w = g v) :
    (FMap.insert m k w).map (fun x => (x.1, g x.2)) = m.map fun x => (x.1, g x.2) := by
  induction m with
  | nil => cases found
  | cons x rest ih =>
    obtain ⟨i, y⟩ := x
    rw [FMap.find?] at found
    by_cases eq : k = i
    · rw [if_pos eq] at found
      obtain rfl := Option.some.inj found
      simp [FMap.insert, eq, same]
    · rw [if_neg eq] at found
      split at found
      · cases found
      · next above => simp only [FMap.insert, if_neg eq, if_neg above, List.map_cons, ih found]
end

/-! ## What the home copy of a line needs of its pavilion (R120, R200 to R224)

Reads and writes of the home copy, the pushes and the fills that they cause and the checks of the tags leave the directory as it is, and
of the transaction table all but what the transactions have fetched. -/

/-- A transaction but for its data and how far its access has come. -/
def Txn.core (t : Txn) : Txn := { t with buf := none, fetch := .idle }

/-- The directory of a pavilion, and its table but for what has been fetched. -/
def Pav.frame (v : Pav) : FMap DirEntry × FMap Txn := (v.dir, v.tt.map fun x => (x.1, x.2.core))

/-- An operation on the home copies of a pavilion: it reaches the pavilion's stores, write queues, registers and reports, and leaves the
directory and the transactions. -/
structure HomeOnly (p : PavId) (s t : State) : Prop where
  tame : Tame [.pavs, .chans, .csr, .glb, .lodge, .blv] s t
  only : OnlyPav p s t
  frame : (t.pav p).frame = (s.pav p).frame

theorem setGhLine_frame (v : Pav) (i : Nat) (l : SramLine) : (v.setGhLine i l).frame = v.frame := rfl

section
variable {s t u : State} {p : PavId} {e : Nat}

theorem HomeOnly.refl : HomeOnly p s s := ⟨.refl, fun _ _ => rfl, rfl⟩
theorem HomeOnly.trans (h : HomeOnly p s t) (k : HomeOnly p t u) : HomeOnly p s u := ⟨h.tame.trans k.tame, h.only.trans k.only, k.frame.trans h.frame⟩
theorem HomeOnly.ite {c : Prop} [Decidable c] (h : HomeOnly p s t) (k : HomeOnly p s u) : HomeOnly p s (if c then t else u) := by
  split
  · exact h
  · exact k
theorem HomeOnly.fold {α : Type} {f : State → α → State} {xs : List α} (h : HomeOnly p s t) (step : ∀ u x, HomeOnly p s u → HomeOnly p s (f u x)) :
    HomeOnly p s (xs.foldl f t) := List.foldlRecOn xs f h fun u k x _ => step u x k
/-- An operation that reaches no pavilion. -/
theorem HomeOnly.outside {ps : List Part} (h : HomeOnly p s t) (k : Tame ps t u) (le : ps ⊆ [.chans, .csr, .glb, .lodge, .blv] := by simp) :
    HomeOnly p s u :=
  have k := k.mono le
  h.trans ⟨k.mono (by simp), .of_only k.only, by rw [k.only.pav_eq]⟩

/-- The transactions stay, but for what they have fetched. -/
theorem HomeOnly.find (h : HomeOnly p s t) (e : Nat) :
    (FMap.find? (t.pav p).tt e).map Txn.core = (FMap.find? (s.pav p).tt e).map Txn.core := by
  rw [← find_map, ← find_map]; exact congrArg (FMap.find? ·.2 e) h.frame
theorem HomeOnly.found {y : Txn} (h : HomeOnly p s t) (found : FMap.find? (s.pav p).tt e = some y) :
    ∃ z, FMap.find? (t.pav p).tt e = some z ∧ z.core = y.core := by
  have := h.find e
  rw [found] at this
  exact Option.map_eq_some_iff.mp this
theorem HomeOnly.dir (h : HomeOnly p s t) : (t.pav p).dir = (s.pav p).dir := congrArg Prod.fst h.frame

section
variable (h : HomeOnly p s t)
include h

/-! ### State and reports -/

theorem HomeOnly.modPav (f : Pav → Pav) (hf : ∀ v, (f v).frame = v.frame := by intro; rfl) : HomeOnly p s (t.modPav p f) :=
  h.trans ⟨(modPav_tame t p f).mono (by simp), modPav_onlyPav t p f, by rw [State.modPav_pav_same]; exact hf _⟩
theorem HomeOnly.modTxn (f : Txn → Txn) (hf : ∀ y, (f y).core = y.core := by intro; rfl) : HomeOnly p s (t.modTxn p e f) := by
  refine h.modPav _ fun v => ?_
  split
  · rfl
  · next y found => exact congrArg (v.dir, ·) (map_insert_found Txn.core found (hf y))
theorem HomeOnly.setFetch (x : Fetch) : HomeOnly p s (t.setFetch p e x) := h.modTxn _
theorem HomeOnly.modReg (r : Nat) (f : MissReg → MissReg) : HomeOnly p s (t.modReg p r f) := h.modPav _ fun v => by split <;> rfl
theorem HomeOnly.modGlb (f : Glb → Glb) : HomeOnly p s (t.modGlb f) := h.outside (modGlb_tame t f)
theorem HomeOnly.rcount (off hi lo n : Nat) : HomeOnly p s (t.rcount off hi lo n) := h.outside (rcount_tame t off hi lo n)
theorem HomeOnly.raise (off bit : Nat) : HomeOnly p s (t.raise off bit) := h.outside (raise_tame t off bit)
theorem HomeOnly.event (k : EvKind) (inst addr cls dev detail : Nat) (st : Store) : HomeOnly p s (t.event k inst addr cls dev detail st) :=
  h.outside (event_tame t k inst addr cls dev detail st)
theorem HomeOnly.fatal (bit : Nat) : HomeOnly p s (t.fatal bit) := h.outside (fatal_tame t bit)
theorem HomeOnly.cntPav (code : Nat) (plot : Option PlotId) (n : Nat) : HomeOnly p s (t.cntPav p code plot n) :=
  h.outside (cntPav_tame t p code plot n)

/-! ### Pushes, ways and the Orangery -/

theorem HomeOnly.wqPush (c : ChanId) (ll : Nat) (st : Stored) (plot : Option PlotId) (raw : Bool) : HomeOnly p s (t.wqPush c ll st plot raw) :=
  h.outside (wqPush_within c t ll st plot raw).tame
theorem HomeOnly.wayFree (set way : Nat) : HomeOnly p s (t.wayFree p set way) := h.modPav _ fun v => by split <;> rfl
theorem HomeOnly.clearSub (set way sub : Nat) : HomeOnly p s (t.clearSub p set way sub) := by
  refine h.modPav _ fun v => ?_
  dsimp only
  split
  · rfl
  · split
    · rfl
    · split <;> rfl
theorem HomeOnly.poisonEnd (set way : Nat) : HomeOnly p s (t.poisonEnd p set way) := by
  unfold State.poisonEnd
  split
  · exact h
  · exact ((h.modPav _ fun v => by split <;> rfl).wayFree set way).event _ _ _ _ _ _ _
theorem HomeOnly.pushDone (f : PushFor) (la : LineAddr) : HomeOnly p s (t.pushDone p f la) := by
  cases f with
  | nothing | walk => exact h
  | txn e | cmo e => exact h.setFetch _
  | mop set way sub inval by_ =>
    have counted := HomeOnly.ite (c := (t.glb.mop.busy && by_ = .engine) = true)
      (h.modGlb fun g => { g with mop := { g.mop with wb := satAdd g.mop.wb 1 (2 ^ 32 - 1) } }) h
    exact .ite counted (.ite (.ite counted (counted.modPav _)) (.ite counted (counted.clearSub _ _ _)))
  | poisonSub set way sub => exact (h.modPav _).poisonEnd _ _
theorem HomeOnly.tryPush {j : Push} (r : t.tryPush p j = some u) : HomeOnly p s u := by
  unfold State.tryPush at r
  dsimp only at r
  split at r
  · cases r
  · split at r <;> obtain rfl := Option.some.inj r
    · exact h.pushDone _ _
    · exact ((h.wqPush _ _ _ _ _).pushDone _ _).cntPav _ _ _
theorem HomeOnly.pushLine (j : Push) : HomeOnly p s (t.pushLine p j) := by
  unfold State.pushLine
  refine .ite ?poisoning (.ite (h.modPav _) ?plain)
  case poisoning =>
    split
    · next r => exact h.tryPush (Option.ite_none_left_eq_some.mp r).2
    · exact h.modPav _
  case plain =>
    split
    · next r => exact h.tryPush r
    · exact h.modPav _
theorem HomeOnly.stackCmd (set way sub : Nat) (pa : LineAddr) (op : StackOp) (plot : Option PlotId) :
    HomeOnly p s (t.stackCmd p set way sub pa op plot) := h.modPav _
theorem HomeOnly.commitSec (set way sub : Nat) (pa : LineAddr) (d : Line) (po dirty : Bool) (plot : Option PlotId) :
    HomeOnly p s (t.commitSec p set way sub pa d po dirty plot) := (h.modPav _).stackCmd _ _ _ _ _ _
theorem HomeOnly.commitGh (set way : Nat) (pa : LineAddr) (d : Line) (po dirty : Bool) : HomeOnly p s (t.commitGh p set way pa d po dirty) := h.modPav _
theorem HomeOnly.startEvict (set way : Nat) : HomeOnly p s (t.startEvict p set way) :=
  ((h.cntPav _ _ _).modPav _).fold fun _ _ k => .ite (k.stackCmd _ _ _ _ _ _) k
theorem HomeOnly.orAdd (pa : LineAddr) (d : Line) (po : Bool) (plot : Option PlotId) : HomeOnly p s (t.orAdd p pa d po plot) := h.modPav _
theorem HomeOnly.orPut (pa : LineAddr) (d : Line) (po : Bool) : HomeOnly p s (t.orPut p pa d po) := h.modPav _
theorem HomeOnly.orDrop (pa : LineAddr) : HomeOnly p s (t.orDrop p pa) := h.modPav _
theorem HomeOnly.orRead (o : OrLine) : HomeOnly p s (t.orRead p o).1 := by
  unfold State.orRead
  split
  · exact h
  · dsimp only
    split
    · exact h
    · exact h
    · dsimp only; exact (h.rcount _ _ _ _).modPav _
    · exact (((h.modPav _).raise _ _).event _ _ _ _ _ _ _).fatal _
theorem HomeOnly.mopCls (c : Cls) : HomeOnly p s (t.mopCls c) := .ite (h.modGlb _) h
theorem HomeOnly.ghRead (i : Nat) (window dirty poison : Bool) : HomeOnly p s (t.ghRead p i window dirty poison).1 := by
  unfold State.ghRead
  split
  · exact h
  · dsimp only
    split
    · exact h
    · exact h
    · dsimp only; exact (h.rcount _ _ _ _).modPav _
    · have noted := h.raise (R.pavErrStat p) 9
      split
      · exact ((noted.modPav _ fun v => setGhLine_frame v i windowPoison).event _ _ _ _ _ _ _).fatal _
      · split
        · exact ((noted.modPav _).event _ _ _ _ _ _ _).fatal _
        · exact (noted.modPav _).event _ _ _ _ _ _ _

/-! ### Miss registers -/

theorem HomeOnly.allocWay {la : LineAddr} {k : PlotId} {st : TagSt} {w : Nat} (r : t.allocWay p la k st = some (u, w)) : HomeOnly p s u := by
  unfold State.allocWay at r
  dsimp only at r
  split at r
  · cases r
  · split at r <;> cases r
    · exact (h.modPav _).modPav _
    · exact (h.modPav _).startEvict _ _
theorem HomeOnly.allocGh {la : LineAddr} {w : Nat} (r : t.allocGh p la = some (u, w)) : HomeOnly p s u := by
  unfold State.allocGh at r
  dsimp only at r
  split at r
  · cases r; exact h.modPav _
  · split at r
    · cases r
    · split at r
      · cases r
      · cases r
        have read (e : GhEntry) (i : Nat) : HomeOnly p s (if e.dirtyA then t.ghRead p i false true e.poison else (t, none)).1 := by
          split
          · exact h.ghRead _ _ _ _
          · exact h
        refine HomeOnly.modPav ?_ _
        split
        · exact (read _ _).orAdd _ _ _ _
        · exact read _ _
theorem HomeOnly.touchReg (r : Nat) : HomeOnly p s (t.touchReg p r) := by
  unfold State.touchReg
  split
  · exact .ite (h.modPav _) h
  · exact .ite (h.modPav _) h
  · exact h
/-- A register's sub-block has been committed, and its writers have been performed. -/
theorem HomeOnly.committed (r : Nat) (f : MissReg → MissReg) (ws : List (Nat × Nat)) :
    HomeOnly p s (ws.foldl (fun s w => s.setFetch p w.1 .performed) (t.modReg p r f)) :=
  (h.modReg r f).fold fun _ _ k => k.setFetch _
theorem HomeOnly.regCommit (r : Nat) : HomeOnly p s (t.regCommit p r) := by
  unfold State.regCommit
  split
  · exact h
  · refine .ite h ?_
    dsimp only
    generalize members : List.foldl _ t _ = v
    have kept : HomeOnly p s v := by
      rw [← members]
      refine h.fold fun u i k => ?_
      split
      · exact k
      · refine .ite k ?_
        split
        · exact k
        · refine .ite (.ite (.ite k (HomeOnly.pushLine (HomeOnly.modReg (.ite (k.clearSub _ _ _) k) _ _) _)) (k.committed _ _ _))
            (.ite ((k.commitGh _ _ _ _ _ _).committed _ _ _) (.ite (k.committed _ _ _) ((k.commitSec _ _ _ _ _ _ _ _).committed _ _ _)))
    split
    · exact kept
    · refine .ite (kept.modPav _ fun v => ?_) kept
      split
      · split <;> rfl
      · rfl
theorem HomeOnly.regMerge (r i e : Nat) (y : Txn) : HomeOnly p s (t.regMerge p r i e y) := h.modReg _ _
theorem HomeOnly.regsCommit : HomeOnly p s (t.regsCommit p) := h.fold fun _ _ k => k.regCommit _
theorem HomeOnly.orRecall (r i : Nat) (o : OrLine) (engine : Bool) : HomeOnly p s (t.orRecall p r i o engine) := by
  have read : HomeOnly p s (t.orRead p o).1 := h.orRead o
  exact HomeOnly.modReg (HomeOnly.orDrop (.ite (read.mopCls _) read) _) _ _
theorem HomeOnly.allocReg {la : LineAddr} {way : Nat} {pend alloc : Bool} {k : Option PlotId} {g : Nat} {need : Option Nat}
    {wr : Option (Line × Bool)} {r : Nat} (got : t.allocReg p la way pend alloc k g need wr = some (u, r)) : HomeOnly p s u := by
  unfold State.allocReg at got
  split at got
  · cases got
  · cases got
    refine HomeOnly.regCommit (.ite (h.modPav _) ((h.modPav _).fold fun v i k => .ite k ?_)) _
    split
    · exact k
    · exact k.orRecall _ _ _ _

/-! ### Writes of the home copy -/

theorem HomeOnly.noAllocWrite (la : LineAddr) (d : Line) (po : Bool) (k : Option PlotId) (w : Option Nat) (count : Bool) :
    HomeOnly p s (t.noAllocWrite p la d po k w count).1 := by
  unfold State.noAllocWrite
  dsimp only
  generalize push : State.pushLine (if count = true then _ else _) p _ = v
  have pushed : HomeOnly p s v := by rw [← push]; exact HomeOnly.pushLine (.ite ((h.rcount _ _ _ _).cntPav _ _ _) h) _
  split <;> exact pushed
theorem HomeOnly.windowPut (la : LineAddr) (d : Line) (po : Bool) : HomeOnly p s (t.windowPut p la d po) := h.modPav _
theorem HomeOnly.windowPush (la : LineAddr) : HomeOnly p s (t.windowPush p la) := by
  have read := h.ghRead (windowIdx la) true true false
  unfold State.windowPush
  split
  next r => rw [r] at read; exact read.pushLine _
theorem HomeOnly.windowFirst (la : LineAddr) : HomeOnly p s (t.windowFirst p la) := .ite ((h.modPav _).windowPush _) h
theorem HomeOnly.cntLook (m : Mode) (lk : Look) (k : Option PlotId) : HomeOnly p s (t.cntLook p m lk k) := by
  unfold State.cntLook
  split
  · exact h.cntPav _ _ _
  · exact h.cntPav _ _ _
  · exact h.cntPav _ _ _
  · exact h.cntPav _ _ _
  · exact h.cntPav _ _ _
  · exact h
theorem HomeOnly.regJoin (r : Nat) (la : LineAddr) (d : Line) (po : Bool) (k : Option PlotId) (w : Option Nat) :
    HomeOnly p s (t.regJoin p r la d po k w).1 := by
  unfold State.regJoin
  dsimp only
  split
  · exact h.rcount _ _ _ _
  · exact (((h.touchReg _).cntPav _ _ _).modReg _ _).regCommit _
theorem HomeOnly.writeLine (la : LineAddr) (d : Line) (po : Bool) (k : Option PlotId) (w : Option Nat) : HomeOnly p s (t.writeLine p la d po k w).1 := by
  unfold State.writeLine
  dsimp only
  split
  case h_1 => exact h.windowPut _ _ _
  case h_2 =>
    split
    · exact h.regJoin _ _ _ _ _ _
    · exact h.orPut _ _ _
    · exact h.noAllocWrite _ _ _ _ _ _
  case h_3 =>
    split
    · split
      · exact (h.modPav _).noAllocWrite _ _ _ _ _ _
      · dsimp only; exact (h.commitGh _ _ _ _ _ _).modPav _
    · exact h.regJoin _ _ _ _ _ _
    · split
      · next got =>
        have v := h.allocGh (Option.ite_none_right_eq_some.mp got).2
        exact HomeOnly.commitGh (.ite (v.orDrop _) v) _ _ _ _ _ _
      · split
        · exact h.orPut _ _ _
        · exact h.noAllocWrite _ _ _ _ _ _
  case h_4 =>
    split
    · exact h
    · split
      · exact (h.clearSub _ _ _).noAllocWrite _ _ _ _ _ _
      · dsimp only; exact (h.commitSec _ _ _ _ _ _ _ _).modPav _
    · exact h.regJoin _ _ _ _ _ _
    · split
      · exact h.noAllocWrite _ _ _ _ _ _
      · dsimp only; exact (h.commitSec _ _ _ _ _ _ _ _).modPav _
    · split
      · exact h.noAllocWrite _ _ _ _ _ _
      · split
        · next got => exact h.allocReg got
        · exact h
    · split
      · exact h.orPut _ _ _
      · split
        · dsimp only; exact ((h.orDrop _).commitSec _ _ _ _ _ _ _ _).modPav _
        · split
          · next got => exact ((h.orDrop _).modPav _).allocReg got
          · exact h
        · split
          · next got =>
            obtain ⟨_, -, got⟩ := Option.bind_eq_some_iff.mp (Option.ite_none_right_eq_some.mp got).2
            have v := h.allocWay got
            generalize drop : (if t.look p la = Look.orang then State.orDrop _ p la else _) = v'
            have v' : HomeOnly p s v' := by rw [← drop]; exact .ite (v.orDrop _) v
            split
            · split
              · next got => exact v'.allocReg got
              · exact h
            · exact v'.commitSec _ _ _ _ _ _ _ _
          · split
            · exact h.orPut _ _ _
            · exact h.noAllocWrite _ _ _ _ _ _
omit h in
/-- Counting an access by its outcome goes on from where the access ended. -/
theorem HomeOnly.looked {y : State × Did} (h : HomeOnly p s y.1) (la : LineAddr) (k : Option PlotId) : HomeOnly p s (t.looked p la k y).1 := by
  unfold State.looked
  split
  · exact h.cntLook _ _ _
  · exact h.cntLook _ _ _
  · exact h
theorem HomeOnly.putLine (la : LineAddr) (d : Line) (po : Bool) (k : Option PlotId) (w : Option Nat) : HomeOnly p s (t.putLine p la d po k w).1 :=
  .looked (h.writeLine _ _ _ _ _) _ _

/-! ### Reads of the home copy -/

theorem HomeOnly.noAllocRead (la : LineAddr) (k : PlotId) (count : Bool) : HomeOnly p s (t.noAllocRead p la k e count).1 := by
  unfold State.noAllocRead
  dsimp only
  generalize counted : (if count = true then State.cntPav _ p 0x0E _ 1 else _) = v
  have v' : HomeOnly p s v := by rw [← counted]; exact .ite ((h.rcount _ _ _ _).cntPav _ _ _) h
  split
  · next got => exact v'.allocReg got
  · exact v'
theorem HomeOnly.toBuf (d : Line) (po : Bool) : HomeOnly p s (t.toBuf p e d po) := h.modTxn _
theorem HomeOnly.mergeRead (la : LineAddr) (i : Nat) : HomeOnly p s (t.mergeRead p la i e).1 := by
  have touched := h.touchReg i
  unfold State.mergeRead
  dsimp only
  split
  · exact touched
  · split
    · exact h.rcount _ _ _ _
    · have counted (k : Option PlotId) := touched.cntPav 6 k 1
      split
      · split
        · exact counted _
        · split
          · exact ((counted _).regMerge _ _ _ _).regCommit _
          · exact (counted _).toBuf _ _
      · exact (counted _).modReg _ _
theorem HomeOnly.readHome (la : LineAddr) (k : PlotId) : HomeOnly p s (t.readHome p la k e).1 := by
  unfold State.readHome
  dsimp only
  split
  case h_1 =>
    split
    · exact (h.ghRead _ _ _ _).toBuf _ _
    · exact h.ghRead _ _ _ _
  case h_2 =>
    split
    · exact h.mergeRead _ _
    · split
      · exact (h.orRead _).toBuf _ _
      · exact h
    · exact h.noAllocRead _ _ _
  case h_3 =>
    split
    · split
      · dsimp only; exact ((h.ghRead _ _ _ _).toBuf _ _).modPav _
      · exact h.ghRead _ _ _ _
    · exact h.mergeRead _ _
    · split
      · exact h
      · next o _ =>
        have read : HomeOnly p s (t.orRead p o).1 := h.orRead o
        split
        · next got => exact (((read.allocGh (Option.ite_none_right_eq_some.mp got).2).orDrop _).commitGh _ _ _ _ _ _).toBuf _ _
        · exact read.toBuf _ _
    · split
      · exact h
      · split
        · next got =>
          have v := h.allocGh (Option.ite_none_right_eq_some.mp got).2
          split
          · next got => exact v.allocReg got
          · exact v
        · exact h.noAllocRead _ _ _
  case h_4 =>
    split
    · exact h
    · dsimp only; exact (h.stackCmd _ _ _ _ _ _).modPav _
    · exact h.mergeRead _ _
    · split
      · exact h
      · next o _ =>
        have read : HomeOnly p s (t.orRead p o).1 := h.orRead o
        split
        · exact read.toBuf _ _
        · split
          · exact (((read.orDrop _).commitSec _ _ _ _ _ _ _ _).modPav _).toBuf _ _
          · split
            · split
              · next got => exact (((read.orDrop _).modPav _).allocReg got).toBuf _ _
              · exact read
            · next got =>
              have v := (read.allocWay (Option.ite_none_right_eq_some.mp got).2).orDrop la
              split
              · split
                · next got => exact (v.allocReg got).toBuf _ _
                · exact read
              · exact (v.commitSec _ _ _ _ _ _ _ _).toBuf _ _
            · exact read.toBuf _ _
    · split
      · exact h.noAllocRead _ _ _
      · split
        · next got => exact h.allocReg got
        · exact h
    · split
      · exact h.noAllocRead _ _ _
      · split
        · next got => exact h.allocReg got
        · exact h
    · split
      · exact h
      · split
        · next got =>
          have v := h.allocWay (Option.ite_none_right_eq_some.mp got).2
          split
          · next got => exact v.allocReg got
          · exact v
        · exact h.noAllocRead _ _ _
theorem HomeOnly.readLine (la : LineAddr) (k : PlotId) : HomeOnly p s (t.readLine p la k e).1 := .looked (h.readHome _ _) _ _

/-! ### Parity of tags -/

theorem HomeOnly.haltPav : HomeOnly p s (t.haltPav p) := ((h.modPav _).event _ _ _ _ _ _ _).fatal _
theorem HomeOnly.poisonSector (set way : Nat) : HomeOnly p s (t.poisonSector p set way) :=
  .ite (h.modPav _) (((h.modPav _).fold fun _ _ k => k.pushLine _).poisonEnd _ _)
theorem HomeOnly.poisonNext : HomeOnly p s (t.poisonNext p) := by
  unfold State.poisonNext
  split
  · exact h
  · exact .ite (h.poisonSector _ _) h
theorem HomeOnly.tagFault (set way : Nat) : HomeOnly p s (t.tagFault p set way) := by
  have noted := (h.rcount (R.pavErrCnt p) 31 16 1).event .tagParity p.val ((lineOf ((t.pav p).tag set way).tag set 0).toNat * 64) 0 0x7F 0 .tags
  unfold State.tagFault
  refine .ite ?clean (.ite (((noted.raise _ _).fatal _).poisonSector _ _) noted.haltPav)
  have ways : ∀ v, HomeOnly p s v → HomeOnly p s (v.regsLoseWay p set way) := fun _ k => k.modPav _
  refine .ite (HomeOnly.raise (.ite (HomeOnly.modPav (ways _ ?_) _) (ways _ ?_)) _ _) (HomeOnly.modPav (ways _ ?_) _)
  all_goals
    split
    · exact noted.modPav _
    · exact noted.modPav _
theorem HomeOnly.checkTags (set : Nat) : HomeOnly p s (t.checkTags p set) := h.fold fun _ _ k => .ite k (k.tagFault _ _)
theorem HomeOnly.ghFault (set way : Nat) : HomeOnly p s (t.ghFault p set way) := by
  have noted := (h.rcount (R.pavErrCnt p) 31 16 1).event .tagParity p.val ((ghLine ((t.pav p).ghe set way).tag set).toNat * 64) 0 0x7F 0 .glasshouse
  exact .ite (.ite ((noted.modPav _).raise _ _) (noted.modPav _)) (.ite (((noted.modPav _).raise _ _).fatal _) noted.haltPav)
theorem HomeOnly.checkGh (set : Nat) : HomeOnly p s (t.checkGh p set) := h.fold fun _ _ k => .ite k (k.ghFault _ _)
theorem HomeOnly.readTags (la : LineAddr) : HomeOnly p s (t.readTags p la) := by
  unfold State.readTags
  refine .ite h ?_
  split
  · exact h.checkTags _
  · exact h.checkGh _
  · exact h

/-! ### Data of agents (R123, R137, R138) -/

theorem HomeOnly.meterRd (k : PlotId) : HomeOnly p s (t.meterRd p k) := h.modPav _
theorem HomeOnly.meterWr (k : PlotId) : HomeOnly p s (t.meterWr p k) := h.modPav _
theorem HomeOnly.sample (y : Txn) : HomeOnly p s (t.sample p y) := h.modPav _
theorem HomeOnly.dropFetch : HomeOnly p s (t.dropFetch p e) := h.modPav _
theorem HomeOnly.freshen (la : LineAddr) (d : Line) (po : Bool) : HomeOnly p s (t.freshen p la d po) := by
  unfold State.freshen
  split
  · exact h
  · split
    · exact .ite (h.dropFetch.modTxn _) (.ite (h.dropFetch.modTxn _) h)
    · exact h
theorem HomeOnly.sink (la : LineAddr) (d : Line) (po : Bool) (k : Option PlotId) : HomeOnly p s (t.sink p la d po k) := by
  have looked := ((h.readTags la).freshen la d po).windowFirst la
  have put := looked.putLine la d po k none
  refine .ite (looked.modPav _) ?_
  split
  · next r => rw [r] at put; exact put
  · next r => rw [r] at put; exact put
  · exact looked.modPav _
theorem HomeOnly.drainEvBuf : HomeOnly p s (t.drainEvBuf p) := by
  refine .ite h (h.fold fun v x k => .ite k (.ite (k.readTags _) ?_))
  have put := (k.readTags x.pa).putLine x.pa x.data x.poison x.plot none
  split
  · next r => rw [r] at put; exact put.modPav _
  · next r => rw [r] at put; exact put.modPav _
  · exact k.readTags _
theorem HomeOnly.poisonLine (la : LineAddr) (k : Option PlotId) : HomeOnly p s (t.poisonLine p la k) := (h.sink _ _ _ _).event _ _ _ _ _ _ _
end
end
end Sys2Proof.Machine

namespace Sys2Proof.Machine
-- The proofs below are elaborated one after the other, which bounds the threads that checking the text takes.
set_option Elab.async false

/-! ## Tables that give no entry to a request

A pavilion's own work moves and ends transactions and starts recalls in the reserved entries; only TT_ENTRY_ALLOCATE takes one of the
entries 0 to 991 (R112). -/

section
variable {α β : Type} {m : FMap α} {k j : Nat} {v : α}

theorem rising_map (g : α → β) : rising (m.map fun x => (x.1, g x.2)) ↔ rising m := by simp [rising, List.pairwise_map]
theorem mem_insert {x : Nat × α} (h : x ∈ FMap.insert m k v) : x = (k, v) ∨ x ∈ m := by
  fun_induction FMap.insert m k v <;> grind
theorem rising_insert (rises : rising m) : rising (FMap.insert m k v) := by
  induction m with
  | nil => simp [FMap.insert, rising]
  | cons x rest ih =>
    obtain ⟨above, rest_⟩ := List.pairwise_cons.mp rises
    unfold FMap.insert
    split
    · next eq => exact List.pairwise_cons.mpr ⟨fun y hy => eq ▸ above y hy, rest_⟩
    · split
      · next lt => exact List.pairwise_cons.mpr ⟨fun y hy => (List.mem_cons.mp hy).elim (fun e => e ▸ lt) fun hy => lt.trans (above y hy), rises⟩
      · next ne nlt =>
        refine List.pairwise_cons.mpr ⟨fun y hy => ?_, ih rest_⟩
        rcases mem_insert hy with rfl | hy
        · dsimp only; omega
        · exact above y hy
theorem erase_sublist (m : FMap α) (k : Nat) : (FMap.erase m k).Sublist m := by
  fun_induction FMap.erase m k
  · exact .refl _
  · exact List.sublist_cons_self _ _
  · exact .refl _
  · next ih => exact ih.cons_cons _
theorem rising_erase (rises : rising m) (k : Nat) : rising (FMap.erase m k) := List.Pairwise.sublist (erase_sublist m k) rises
/-- A rising store lists nothing at a key below all of its keys. -/
theorem find_above (above : ∀ x ∈ m, k < x.1) : FMap.find? m k = none := by
  cases m with
  | nil => rfl
  | cons x rest =>
    have : k < x.1 := above x (by simp)
    rw [FMap.find?, if_neg (by omega), if_pos this]
theorem find_erase_rising (rises : rising m) (k j : Nat) : FMap.find? (FMap.erase m k) j = if j = k then none else FMap.find? m j := by
  induction m with
  | nil => simp [FMap.erase]
  | cons x rest ih =>
    obtain ⟨above, rest_⟩ := List.pairwise_cons.mp rises
    have ih := ih rest_
    have first : FMap.find? rest x.1 = none := find_above above
    obtain ⟨i, y⟩ := x
    dsimp only at above first
    unfold FMap.erase
    split
    · next eq =>
      subst eq
      by_cases e : j = k
      · rw [if_pos e, e]; exact first
      · rw [if_neg e, FMap.find?, if_neg e]
        split
        · next lt => exact find_above fun z hz => lt.trans (above z hz)
        · rfl
    · split
      · next ne lt =>
        by_cases e : j = k
        · rw [if_pos e, FMap.find?, e, if_neg ne, if_pos lt]
        · rw [if_neg e]
      · next ne nlt => grind [FMap.find?]
end

/-- No entry below 992 that is free in one table is taken in the other, and the order of the entries stays. -/
def TableKept (m m' : FMap Txn) : Prop := rising m → rising m' ∧ ∀ e, e < 992 → FMap.find? m e = none → FMap.find? m' e = none

theorem TableKept.refl (m : FMap Txn) : TableKept m m := fun rises => ⟨rises, fun _ _ => id⟩
theorem TableKept.trans {m m' m'' : FMap Txn} (h : TableKept m m') (k : TableKept m' m'') : TableKept m m'' := fun rises =>
  have ⟨rises', kept⟩ := h rises
  have ⟨rises'', kept'⟩ := k rises'
  ⟨rises'', fun e small free => kept' e small (kept e small free)⟩
/-- Entries may change where the same entries are in use. -/
theorem TableKept.of_map {β : Type} {m m' : FMap Txn} (g : Txn → β) (same : m'.map (fun x => (x.1, g x.2)) = m.map fun x => (x.1, g x.2)) :
    TableKept m m' := fun rises => by
  refine ⟨(rising_map g).mp (same ▸ (rising_map g).mpr rises), fun e _ free => ?_⟩
  have := congrArg (FMap.find? · e) same
  rw [find_map, find_map, free] at this
  exact Option.map_eq_none_iff.mp this
theorem TableKept.insert_found {m : FMap Txn} {k : Nat} {y z : Txn} (found : FMap.find? m k = some y) : TableKept m (FMap.insert m k z) :=
  .of_map (fun _ => ()) (map_insert_found (fun _ => ()) found rfl)
/-- A recall takes a reserved entry (R112). -/
theorem TableKept.insert_reserved (m : FMap Txn) {k : Nat} (reserved : 992 ≤ k) (y : Txn) : TableKept m (FMap.insert m k y) := fun rises =>
  ⟨rising_insert rises, fun e small free => by rw [FMap.find_insert_other m y (by omega)]; exact free⟩

/-- No pavilion gives one of the entries 0 to 991. -/
def KeepsFree (s t : State) : Prop := ∀ q, TableKept (s.pav q).tt (t.pav q).tt

section
variable {s t u : State} {p : PavId} {e : Nat}

theorem KeepsFree.refl : KeepsFree s s := fun _ => .refl _
theorem KeepsFree.trans (h : KeepsFree s t) (k : KeepsFree t u) : KeepsFree s u := fun q => (h q).trans (k q)
theorem KeepsFree.ite {c : Prop} [Decidable c] (h : KeepsFree s t) (k : KeepsFree s u) : KeepsFree s (if c then t else u) := by
  split
  · exact h
  · exact k
theorem KeepsFree.fold {α : Type} {f : State → α → State} {xs : List α} (h : KeepsFree s t) (step : ∀ u x, KeepsFree s u → KeepsFree s (f u x)) :
    KeepsFree s (xs.foldl f t) := List.foldlRecOn xs f h fun u k x _ => step u x k
theorem KeepsFree.free (h : KeepsFree s t) (rises : rising (s.pav p).tt) (small : e < 992) (free : s.entryFree p e) : t.entryFree p e :=
  (h p rises).2 e small free
theorem KeepsFree.rising (h : KeepsFree s t) (rises : rising (s.pav p).tt) : rising (t.pav p).tt := (h p rises).1
theorem KeepsFree.home (h : KeepsFree s t) (k : HomeOnly p t u) : KeepsFree s u := h.trans fun q => by
  by_cases eq : q = p
  · subst eq; exact .of_map Txn.core (congrArg Prod.snd k.frame)
  · rw [k.only q eq]; exact .refl _
theorem KeepsFree.outside {ps : List Part} (h : KeepsFree s t) (k : Tame ps t u) (hp : Part.pavs ∉ ps := by decide) : KeepsFree s u :=
  h.trans fun q => by rw [k.only.pav_eq q hp]; exact .refl _

/-! ### Directory entries that are read (R111, R149, R150) -/

/-- Checking directory entries: the pavilion's registers of the directory report, recalls start, and the requests stay. -/
structure Checked (p : PavId) (s t : State) : Prop where
  logs : Logs [.pavs, .csr, .glb, .blv] [R.blvEvt, R.pavDirErr p, R.pavDirStat p] s t
  only : OnlyPav p s t
  rises : rising (s.pav p).tt → rising (t.pav p).tt
  requests : ∀ e, e < 992 → FMap.find? (t.pav p).tt e = FMap.find? (s.pav p).tt e

theorem Checked.refl : Checked p s s := ⟨.refl, fun _ _ => rfl, id, fun _ _ => rfl⟩
theorem Checked.trans (h : Checked p s t) (k : Checked p t u) : Checked p s u :=
  ⟨h.logs.trans k.logs, h.only.trans k.only, k.rises ∘ h.rises, fun e small => (k.requests e small).trans (h.requests e small)⟩
theorem Checked.ite {c : Prop} [Decidable c] (h : Checked p s t) (k : Checked p s u) : Checked p s (if c then t else u) := by
  split
  · exact h
  · exact k
theorem Checked.fold {α : Type} {f : State → α → State} {xs : List α} (h : Checked p s t) (step : ∀ u x, Checked p s u → Checked p s (f u x)) :
    Checked p s (xs.foldl f t) := List.foldlRecOn xs f h fun u k x _ => step u x k
theorem Checked.outside {ps : List Part} {os : List Nat} (h : Checked p s t) (k : Logs ps os t u) (hp : ps ⊆ [.csr, .glb, .blv] := by simp)
    (ho : os ⊆ [R.blvEvt, R.pavDirErr p, R.pavDirStat p] := by simp) : Checked p s u :=
  have still := (k.mono hp (List.Subset.refl _)).only
  h.trans ⟨(k.mono hp ho).mono (by simp) (by simp), .of_only still, by rw [still.pav_eq]; exact id, fun _ _ => by rw [still.pav_eq]⟩
theorem Checked.modPav (h : Checked p s t) (f : Pav → Pav) (hf : ∀ v, (f v).tt = v.tt := by intro; rfl) : Checked p s (t.modPav p f) :=
  h.trans ⟨(Logs.of_tame (modPav_tame t p f)).mono (by simp) (List.Subset.refl _), modPav_onlyPav t p f,
    by rw [State.modPav_pav_same, hf]; exact id, fun _ _ => by rw [State.modPav_pav_same, hf]⟩

theorem setBlk_tt (v : Pav) (la : LineAddr) (b : Bool) : (v.setBlk la b).tt = v.tt := by unfold Pav.setBlk; split <;> rfl
theorem freeRecall_reserved {v : Pav} {i : Nat} (h : v.freeRecall = some i) : 992 ≤ i := by
  obtain ⟨j, -, rfl⟩ := List.mem_map.mp (List.mem_of_find?_eq_some h)
  omega
/-- A recall starts in a reserved entry. -/
theorem startRecall_entry {k : TKind} {la : LineAddr} {i : Nat} (r : t.startRecall p k la = some (u, i)) :
    ∃ f : Pav → Pav, u = t.modPav p f ∧ 992 ≤ i ∧ ∀ v, ∃ y, (f v).tt = FMap.insert v.tt i y := by
  unfold State.startRecall at r
  split at r
  · cases r
  · next free => cases r; exact ⟨_, rfl, freeRecall_reserved free, fun _ => ⟨_, rfl⟩⟩
theorem Checked.startRecall {k : TKind} {la : LineAddr} {i : Nat} (h : Checked p s t) (r : t.startRecall p k la = some (u, i)) : Checked p s u := by
  obtain ⟨f, rfl, reserved, table⟩ := startRecall_entry r
  obtain ⟨y, table⟩ := table (t.pav p)
  refine h.trans ⟨(Logs.of_tame (modPav_tame t p f)).mono (by simp) (List.Subset.refl _), modPav_onlyPav t p f, fun rises => ?_, fun e small => ?_⟩
  · rw [State.modPav_pav_same, table]; exact rising_insert rises
  · rw [State.modPav_pav_same, table]; exact FMap.find_insert_other _ _ (by omega)
theorem Checked.recoverNow (h : Checked p s t) : Checked p s (t.recoverNow p) := by
  refine h.fold fun v la k => .ite k ?_
  split
  · exact k
  · next got => exact (k.startRecall got).modPav _
theorem Checked.dirFault (h : Checked p s t) (set way : Nat) : Checked p s (t.dirFault p set way) := by
  have noted := (h.outside (rcount_logs t (R.pavDirErr p) 31 16 1)).outside (raise_logs _ (R.pavDirStat p) 9)
  exact .ite h (.ite ((noted.modPav _).outside (rset_logs _ (R.pavDirStat p) _)) (noted.modPav _).recoverNow)
theorem Checked.checkDir (h : Checked p s t) (set : Nat) : Checked p s (t.checkDir p set) := h.fold fun _ _ k => .ite k (k.dirFault _ _)
theorem Checked.readEntry (h : Checked p s t) (la : LineAddr) : Checked p s (t.readEntry p la) := .ite h (h.checkDir _)

theorem KeepsFree.checked (h : KeepsFree s t) (k : Checked p t u) : KeepsFree s u := h.trans fun q => by
  by_cases eq : q = p
  · subst eq; exact fun rises => ⟨k.rises rises, fun e small free => (k.requests e small).trans free⟩
  · rw [k.only q eq]; exact .refl _

/-! ### The end of a transaction (R114, R115, R136) -/

/-- A transaction that ends has had its entry read and checked, its EvAcks sent and its fetch dropped, and a read is counted. -/
def State.closing (s : State) (p : PavId) (e : Nat) (t : Txn) : State :=
  match t.kind with
  | .req op => if isReadOp op then (((s.readEntry p t.pa).flushAcks p e).dropFetch p e).cntPav p 0x11 (some t.plot)
      else ((s.readEntry p t.pa).flushAcks p e).dropFetch p e
  | _ => ((s.readEntry p t.pa).flushAcks p e).dropFetch p e

/-- The last update of a transaction's end: its entry is free and the others stay in use; where nothing else was in the pavilion, nothing is
left there. -/
theorem endTxn_update {t : Txn} (found : FMap.find? (s.pav p).tt e = some t) :
    ∃ f : Pav → Pav, s.endTxn p e = (s.closing p e t).modPav p f ∧ (∀ v, TableKept v.tt (f v).tt ∧ (rising v.tt → FMap.find? (f v).tt e = none))
      ∧ ∀ v t', v.holdsOnly e t' → (f v).atRest := by
  unfold State.endTxn
  rw [found]
  dsimp -zeta only
  refine ⟨_, rfl, fun v => ?_, fun v t' only => ?_⟩
  · extract_lets v1 v2 set parked v3 v4 head
    have table : v4.tt = FMap.erase v.tt e := by
      have second : v2.tt = v1.tt := setBlk_tt _ _ _
      have third : v3.tt = v2.tt := by unfold v3; split <;> rfl
      have fourth : v4.tt = v3.tt := by unfold v4; split <;> rfl
      rw [fourth, third, second]
    have erased : TableKept v.tt v4.tt := fun rises =>
      ⟨table ▸ rising_erase rises e, fun k _ free => by rw [table, find_erase_rising rises]; split <;> trivial⟩
    have gone (rises : rising v.tt) : FMap.find? v4.tt e = none := by rw [table, find_erase_rising rises, if_pos rfl]
    generalize first : head = b
    rcases b with _ | ⟨h, th⟩
    · exact ⟨erased, gone⟩
    · have waits : rising v4.tt → FMap.find? v4.tt h = some th := fun rises => by
        rcases foldl_oldest_mem _ none first with mem | none_
        · exact find_of_mem rises (List.mem_filter.mp mem).1
        · cases none_
      refine ⟨fun rises => ?_, fun rises => ?_⟩
      · have rises4 := (erased rises).1
        exact erased.trans (.insert_found (waits rises4)) rises
      · have rises4 := (erased rises).1
        have other : e ≠ h := fun eq => by have := waits rises4; rw [← eq, gone rises] at this; cases this
        dsimp only
        rw [FMap.find_insert_other _ _ other]
        exact gone rises
  · obtain ⟨table, runs, evictions, sweeps, recovers, poisons, misses, pushes, returns, retries⟩ := only
    have none_ : FMap.erase v.tt e = [] := by rw [table]; simp [FMap.erase]
    extract_lets v1 v2 set parked v3 v4 head
    have rest1 : v1.atRest := ⟨none_, evictions, sweeps, recovers, poisons, misses⟩
    have rest4 : v4.atRest := ite_atRest (ite_atRest (setBlk_atRest rest1) (setBlk_atRest rest1)) (ite_atRest (setBlk_atRest rest1) (setBlk_atRest rest1))
    have nobody : head = none := by
      obtain ⟨table, -⟩ := rest4
      dsimp only [head]
      rw [table, List.filter_nil, List.foldl_nil]
    rw [nobody]
    exact rest4
theorem endTxn_none (free : s.entryFree p e) : s.endTxn p e = s := by unfold State.endTxn; rw [free]

section
variable (h : KeepsFree s t)
include h

theorem KeepsFree.modPav (f : Pav → Pav) (hf : ∀ v, (f v).tt = v.tt := by intro; rfl) : KeepsFree s (t.modPav p f) := h.trans fun q => by
  by_cases eq : q = p
  · subst eq; rw [State.modPav_pav_same, hf]; exact .refl _
  · rw [State.modPav_pav_other t f eq]; exact .refl _
theorem KeepsFree.modTxn (f : Txn → Txn) : KeepsFree s (t.modTxn p e f) := h.trans fun q => by
  unfold State.modTxn
  by_cases eq : q = p
  · subst eq
    rw [State.modPav_pav_same]
    split
    · exact .refl _
    · next found => exact .insert_found found
  · rw [State.modPav_pav_other t _ eq]; exact .refl _
theorem KeepsFree.modIo (n : PortId) (f : PortIo → PortIo) : KeepsFree s (t.modIo n f) := h.outside (modIo_tame t n f)
theorem KeepsFree.rcount (off hi lo n : Nat) : KeepsFree s (t.rcount off hi lo n) := h.outside (rcount_tame t off hi lo n)
theorem KeepsFree.raise (off bit : Nat) : KeepsFree s (t.raise off bit) := h.outside (raise_tame t off bit)
theorem KeepsFree.event (k : EvKind) (inst addr cls dev detail : Nat) (st : Store) : KeepsFree s (t.event k inst addr cls dev detail st) :=
  h.outside (event_tame t k inst addr cls dev detail st)
theorem KeepsFree.cntPav (code : Nat) (plot : Option PlotId) (n : Nat) : KeepsFree s (t.cntPav p code plot n) := h.outside (cntPav_tame t p code plot n)
end
end
end Sys2Proof.Machine

namespace Sys2Proof.Machine
-- The proofs below are elaborated one after the other, which bounds the threads that checking the text takes.
set_option Elab.async false

/-! ## What a pavilion's work leaves of its free entries -/

/-- The way that the entry of a line goes to: its own, or the one promised to the line's transaction (R134). -/
def Pav.putWay (v : Pav) (la : LineAddr) : Option Nat :=
  match v.dirFind la with
  | some w => some w
  | none => ((v.blocker la).bind fun x => v.promised x.1).map fun y => y.2
/-- The directory after the entry of a line has been written. -/
def Pav.putDir (v : Pav) (la : LineAddr) (own : Option Nat) (sh : BitVec 96) : FMap DirEntry :=
  match v.putWay la with
  | none => v.dir
  | some w => (v.setDir (dirSet la) w (dirMake (dirTag la) own sh (v.blocker la).isSome)).dir

/-- A pavilion after the entry of a line has been written: only its directory, sweeps, retries and promises are new. -/
def Pav.DirPut (v : Pav) (ds : FMap DirEntry) (w : Pav) : Prop :=
  ∃ sweeps retries promises, w = { v with dir := ds, sweeps := sweeps, retryDue := retries, promises := promises }
theorem Pav.DirPut.ite {v w x : Pav} {ds : FMap DirEntry} {c : Prop} [Decidable c] (h : v.DirPut ds w) (k : v.DirPut ds x) :
    v.DirPut ds (if c then w else x) := by
  split
  · exact h
  · exact k

theorem putEntry_update (s : State) (p : PavId) (la : LineAddr) (own : Option Nat) (sh : BitVec 96) :
    ∃ f : Pav → Pav, s.putEntry p la own sh = s.modPav p f ∧ ∀ v : Pav, v.DirPut (v.putDir la own sh) (f v) := by
  unfold State.putEntry
  refine ⟨_, rfl, fun v => ?_⟩
  extract_lets v' b d set way
  have same : way = v.putWay la := rfl
  have blocks : b = v.blocker la := rfl
  clear_value way b
  subst same
  unfold Pav.putDir
  rw [← blocks]
  cases v.putWay la with
  | none => exact ⟨_, _, _, rfl⟩
  | some w =>
    rcases b with _ | ⟨e, y⟩
    · exact .ite ⟨_, _, _, rfl⟩ ⟨_, _, _, rfl⟩
    · exact .ite ⟨_, _, _, rfl⟩ (.ite ⟨_, _, _, rfl⟩ (.ite ⟨_, _, _, rfl⟩ ⟨_, _, _, rfl⟩))

section
variable {s t u : State} {p : PavId} {e : Nat}

section
variable (h : KeepsFree s t)
include h

/-! ### Messages, the directory and the ways (R82, R108, R134) -/

theorem KeepsFree.answerFor (n : PortId) (num : Nat) (m : Msg) (rel : Option (BitVec 10)) : KeepsFree s (t.answerFor n num m rel) := by
  have counted : KeepsFree s (if classOf m.hdr.opcode = 3 then t.cntGlob 8 1 (some m.hdr.plot) else t) := .ite (h.outside (cntGlob_logs _ _ _ _).tame) h
  exact .ite (.ite (counted.outside (modLink_tame _ _ _)) (by split; exacts [counted, counted.modIo _ _])) counted
theorem KeepsFree.send (n : PortId) (m : Msg) (rel : Option (BitVec 10)) (fwd : Option (Nat × Nat)) : KeepsFree s (t.send n m rel fwd) := by
  have counted : KeepsFree s (if classOf m.hdr.opcode = 3 then t.cntGlob 8 1 (some m.hdr.plot) else t) := .ite (h.outside (cntGlob_logs _ _ _ _).tame) h
  exact .ite (counted.outside (modLink_tame _ _ _)) (by split; exacts [counted, counted.modIo _ _])
theorem KeepsFree.readEntry (la : LineAddr) : KeepsFree s (t.readEntry p la) := h.checked (Checked.refl.readEntry la)
theorem KeepsFree.putEntry (la : LineAddr) (own : Option Nat) (sh : BitVec 96) : KeepsFree s (t.putEntry p la own sh) := by
  obtain ⟨f, eq, effect⟩ := putEntry_update t p la own sh
  rw [eq]
  refine h.modPav f fun v => ?_
  obtain ⟨sweeps, retries, promises, eq⟩ := effect v
  rw [eq]
theorem KeepsFree.dropAgent (la : LineAddr) (n : Nat) : KeepsFree s (t.dropAgent p la n) := .ite h (h.putEntry _ _ _)
theorem KeepsFree.finalState (y : Txn) : KeepsFree s (t.finalState p y) := .ite h ((h.readEntry _).putEntry _ _ _)
theorem KeepsFree.startRecall {k : TKind} {la : LineAddr} {i : Nat} (r : t.startRecall p k la = some (u, i)) : KeepsFree s u :=
  h.checked (Checked.refl.startRecall r)
theorem KeepsFree.chooseWay (set : Nat) : KeepsFree s (t.chooseWay p set e).1 := by
  have checked : KeepsFree s (t.checkDir p set) := h.checked (Checked.refl.checkDir set)
  unfold State.chooseWay
  dsimp only
  generalize t.checkDir p set = v at checked
  split
  · exact (checked.modPav _).cntPav _ _ _
  · split
    · exact checked
    · generalize aged : (if List.all _ _ = true then State.modPav _ p _ else _) = w
      have kept : KeepsFree s w := by
        rw [← aged]
        exact .ite (checked.modPav _ fun v => List.foldlRecOn (motive := fun w : Pav => w.tt = v.tt) _ _ rfl fun _ k _ _ => k) checked
      split
      · exact kept
      · split
        · exact kept
        · next got => exact ((kept.startRecall got).modPav _).cntPav _ _ _
theorem KeepsFree.takeWay : KeepsFree s (t.takeWay p e) := by
  unfold State.takeWay
  split
  · exact h
  · next y _ =>
    have chosen := h.chooseWay (p := p) (e := e) (dirSet y.pa)
    split
    next r =>
      rw [r] at chosen
      split
      · exact chosen.modTxn _
      · exact chosen.modTxn _
      · have counted {c : Prop} [Decidable c] {off hi lo n : Nat} := KeepsFree.ite (c := c) chosen (chosen.rcount off hi lo n)
        exact KeepsFree.modTxn (.ite counted (counted.modPav _)) _

/-! ### Ends and answers (R114, R118) -/

theorem KeepsFree.orderPoint (n num : Nat) : KeepsFree s (t.orderPoint n num) := by
  unfold State.orderPoint
  split
  · exact h
  · exact h.modIo _ _
theorem KeepsFree.meterWr (k : PlotId) : KeepsFree s (t.meterWr p k) := h.modPav _
theorem KeepsFree.flushAcks : KeepsFree s (t.flushAcks p e) := by
  unfold State.flushAcks
  split
  · exact h
  · refine KeepsFree.modTxn (h.fold fun _ _ k => ?_) _
    split
    · exact k
    · exact k.send _ _ _ _
theorem KeepsFree.closing (y : Txn) : KeepsFree s (t.closing p e y) := by
  have ended : KeepsFree s (((t.readEntry p y.pa).flushAcks p e).dropFetch p e) := (h.readEntry _).flushAcks.modPav _
  unfold State.closing
  split
  · exact .ite (ended.cntPav _ _ _) ended
  · exact ended
theorem KeepsFree.endTxn : KeepsFree s (t.endTxn p e) := by
  rcases found : FMap.find? (t.pav p).tt e with _ | y
  · rw [endTxn_none found]; exact h
  · obtain ⟨f, eq, table, -⟩ := endTxn_update found
    rw [eq]
    refine (h.closing (p := p) (e := e) y).trans fun q => ?_
    by_cases same : q = p
    · subst same; rw [State.modPav_pav_same]; exact (table _).1
    · rw [State.modPav_pav_other _ f same]; exact .refl _
omit h in
/-- A transaction that has ended has freed its entry (R114). -/
theorem endTxn_free (rises : rising (s.pav p).tt) : (s.endTxn p e).entryFree p e := by
  rcases found : FMap.find? (s.pav p).tt e with _ | y
  · rw [endTxn_none found]; exact found
  · obtain ⟨f, eq, table, -⟩ := endTxn_update found
    unfold State.entryFree
    rw [eq, State.modPav_pav_same]
    exact (table _).2 ((KeepsFree.refl.closing y).rising rises)
theorem KeepsFree.comp (st : BitVec 4) : KeepsFree s (t.comp p e st) := by
  unfold State.comp
  split
  · exact h
  · split
    · exact h.endTxn
    · refine (KeepsFree.orderPoint ?_ _ _).modTxn _
      split
      · exact .ite ((h.answerFor _ _ _ _).modIo _ _) (h.answerFor _ _ _ _)
      · exact h.answerFor _ _ _ _
theorem KeepsFree.forward (n : Nat) (op : BitVec 8) : KeepsFree s (t.forward p e n op) := by
  unfold State.forward
  split
  · exact ((h.modTxn _).send _ _ _ _).cntPav _ _ _
  · exact h

/-! ### Data of agents, grants and the home copy -/

theorem KeepsFree.readTags (la : LineAddr) : KeepsFree s (t.readTags p la) := h.home (HomeOnly.refl.readTags la)
theorem KeepsFree.windowFirst (la : LineAddr) : KeepsFree s (t.windowFirst p la) := h.home (HomeOnly.refl.windowFirst la)
theorem KeepsFree.sink (la : LineAddr) (d : Line) (po : Bool) (k : Option PlotId) : KeepsFree s (t.sink p la d po k) := h.home (HomeOnly.refl.sink la d po k)
theorem KeepsFree.poisonLine (la : LineAddr) (k : Option PlotId) : KeepsFree s (t.poisonLine p la k) := h.home (HomeOnly.refl.poisonLine la k)
theorem KeepsFree.applyEvict (n : PortId) (m : Msg) : KeepsFree s (t.applyEvict p n m) :=
  .ite (.ite (((h.dropAgent _ _).sink _ _ _ _).meterWr _) ((h.raise _ _).dropAgent _ _)) (h.dropAgent _ _)
theorem KeepsFree.lateEvict : KeepsFree s (t.lateEvict p e) := by
  unfold State.lateEvict
  split
  · exact h
  · exact ((h.modTxn _).applyEvict _ _).answerFor _ _ _ _
theorem KeepsFree.metered (k : PlotId) (y : Txn) : KeepsFree s ((t.meterRd p k).sample p y) := h.home ((HomeOnly.refl.meterRd k).sample y)
theorem KeepsFree.grant (op : BitVec 8) (fin : Option (Option Nat × BitVec 96)) : KeepsFree s (t.grant p e op fin) := by
  unfold State.grant
  split
  · have taken {c : Prop} [Decidable c] (la : LineAddr) (n : PortId) (f : PortIo → PortIo) :
        KeepsFree s (if c then t.readEntry p la else (t.readEntry p la).modIo n f) := .ite (h.readEntry la) ((h.readEntry la).modIo n f)
    dsimp only
    generalize final : State.modTxn _ p e _ = v
    have kept : KeepsFree s v := by
      rw [← final]
      refine KeepsFree.modTxn ?_ _
      split
      · exact taken _ _ _
      · exact (taken _ _ _).putEntry _ _ _
    refine .ite (KeepsFree.endTxn (.lateEvict (.flushAcks ?_))) (.lateEvict (.flushAcks ?_))
    all_goals exact .ite (kept.answerFor _ _ _ _) (KeepsFree.metered (KeepsFree.answerFor (.ite (kept.cntPav _ _ _) kept) _ _ _ _) _ _)
  · exact h
theorem KeepsFree.grantOwner (op : BitVec 8) (fin : Option (Option Nat × BitVec 96)) : KeepsFree s (t.grantOwner p e op fin) := by
  unfold State.grantOwner
  split
  · exact h
  · refine KeepsFree.lateEvict (KeepsFree.flushAcks (KeepsFree.metered (KeepsFree.modTxn ?_ _) _ _))
    split
    · exact h.readEntry _
    · exact (h.readEntry _).putEntry _ _ _
theorem KeepsFree.tryFetch : KeepsFree s (t.tryFetch p e) := by
  unfold State.tryFetch
  split
  · exact h
  · next y _ =>
    have looked : KeepsFree s ((t.readTags p y.pa).windowFirst p y.pa) := (h.readTags _).windowFirst _
    refine .ite h (.ite looked (.ite (looked.modTxn _) ?_))
    have read := (looked.modTxn (p := p) (e := e) fun t => { t with fetch := .busy }).home (HomeOnly.refl.readLine (p := p) (e := e) y.pa y.plot)
    split
    · next r => rw [r] at read; exact read
    · next r => rw [r] at read; exact read
    · next r => rw [r] at read; exact read.modTxn _
    · next r => rw [r] at read; exact read.modTxn _
theorem KeepsFree.fromHome (op : BitVec 8) (fin : Option (Option Nat × BitVec 96)) : KeepsFree s (t.fromHome p e op fin) := by
  unfold State.fromHome
  dsimp only
  split
  · exact h.tryFetch
  · exact .ite (h.tryFetch.grant _ _) h.tryFetch
/-- A wave of forwards goes out. -/
theorem KeepsFree.wave (f : Txn → Txn) (op : BitVec 8) (ns : List Nat) :
    KeepsFree s (ns.foldl (fun s n => s.forward p e n op) (t.modTxn p e f)) := (h.modTxn f).fold fun _ _ k => k.forward _ _
theorem KeepsFree.readStep (y : Txn) (op : BitVec 8) : KeepsFree s (t.readStep p e y op) := by
  unfold State.readStep
  refine .ite ?owner (.ite (h.fromHome _ _) (.ite (.ite h h.takeWay) (.ite (.ite (h.wave _ _ _) (h.grant _ _)) (.ite ?exclusive (.ite (h.fromHome _ _) ?shared)))))
  case owner => exact .ite (.ite (h.grantOwner _ _) (h.grantOwner _ _)) (.ite (h.grantOwner _ _) (h.grantOwner _ _))
  case exclusive =>
    refine .ite (KeepsFree.wave (.ite h.tryFetch h) _ _ _) ?_
    split
    · exact .ite (h.fromHome _ _) ((h.modTxn _).forward _ _)
    · exact h.fromHome _ _
  case shared =>
    split
    · exact .ite (h.fromHome _ _) ((h.modTxn _).forward _ _)
    · exact .ite (h.fromHome _ _) (.ite (h.fromHome _ _) (h.fromHome _ _))
theorem KeepsFree.readStep2 (op : BitVec 8) : KeepsFree s (t.readStep2 p e op) := by
  unfold State.readStep2
  split
  · exact h
  · exact .ite h (h.readStep _ _)

/-! ### Writes and cache maintenance -/

omit h in
theorem KeepsFree.tookWrite {r : State × Did} (h : KeepsFree s r.1) : KeepsFree s (State.tookWrite r p e) := by
  obtain ⟨v, did⟩ := r
  cases did with
  | done | replay | waits | sector => exact KeepsFree.modTxn h _
theorem KeepsFree.doWrite (y : Txn) (d : Line) (po : Bool) : KeepsFree s (t.doWrite p e y d po) := by
  have looked := (h.readTags (p := p) y.pa).windowFirst (p := p) y.pa
  refine .ite looked (.ite (looked.modTxn _) (.tookWrite ?_))
  split
  · exact KeepsFree.home (looked.modTxn _) (HomeOnly.refl.writeLine _ _ _ _ _)
  · exact KeepsFree.home (looked.modTxn _) (HomeOnly.refl.putLine _ _ _ _ _)
theorem KeepsFree.touchHit (la : LineAddr) : KeepsFree s (t.touchHit p la) := by
  unfold State.touchHit
  split
  · exact h.modPav _
  · exact h.modPav _
  · exact h
theorem KeepsFree.pinPart (set way : Nat) : KeepsFree s (t.pinPart p e set way) := h.modPav _ fun v => by split <;> rfl
theorem KeepsFree.doPart (y : Txn) : KeepsFree s (t.doPart p e y) := by
  unfold State.doPart
  split
  · exact h.doWrite _ _ _
  · have looked := (h.readTags (p := p) y.pa).windowFirst (p := p) y.pa
    refine .ite looked (.ite (looked.modTxn _) ?_)
    split
    · exact ((((looked.modPav _).cntPav _ _ _).pinPart _ _).modTxn _).modPav _
    · dsimp only
      split
      · exact looked.tryFetch
      · split
        · exact looked.tryFetch.doWrite _ _ _
        · exact looked.tryFetch
theorem KeepsFree.clearSub (set way sub : Nat) : KeepsFree s (t.clearSub p set way sub) := h.home (HomeOnly.refl.clearSub set way sub)
theorem KeepsFree.ghRead {i : Nat} {window dirty poison : Bool} {got : Option (Line × Bool)} (r : t.ghRead p i window dirty poison = (u, got)) :
    KeepsFree s u := by
  have read := h.home (HomeOnly.refl.ghRead (p := p) i window dirty poison)
  rwa [r] at read
theorem KeepsFree.doClean (y : Txn) (inv : Bool) : KeepsFree s (t.doClean p e y inv) := by
  have moved := h.windowFirst (p := p) y.pa
  refine .ite (moved.modTxn _) ?_
  split
  · exact moved.modTxn _
  · split
    · exact moved.modTxn _
    · exact moved.modTxn _
    · split
      · exact moved
      · next o _ =>
        have read := moved.home (HomeOnly.refl.orRead (p := p) o)
        refine .ite (moved.modTxn _) ?_
        split
        next r => rw [r] at read; exact KeepsFree.home (KeepsFree.modTxn (read.modPav _) _) (HomeOnly.refl.pushLine _)
    · split
      · exact .ite (KeepsFree.modPav (moved.modTxn _) _) (KeepsFree.modTxn (.ite (moved.clearSub _ _ _) moved) _)
      · refine .ite ?_ (KeepsFree.modTxn (.ite (moved.modPav _) moved) _)
        split
        next r =>
          have read := moved.ghRead r
          exact KeepsFree.home (KeepsFree.modTxn (read.modPav _) _) (HomeOnly.refl.pushLine _)
    · exact moved.modTxn _
theorem KeepsFree.dropClean (la : LineAddr) : KeepsFree s (t.dropClean p la) := by
  unfold State.dropClean
  split
  · exact .ite h (h.clearSub _ _ _)
  · exact .ite h (h.modPav _)
  · exact h
theorem KeepsFree.writeDone (y : Txn) (op : BitVec 8) : KeepsFree s (t.writeDone p e y op) := by
  have metered : KeepsFree s (if isWriteOp op then t.meterWr p y.plot else t) := .ite (h.meterWr _) h
  have done (st : BitVec 4) : KeepsFree s (((if op = Op.cCleanInv then (if isWriteOp op then t.meterWr p y.plot else t).dropClean p y.pa
      else if isWriteOp op then t.meterWr p y.plot else t).finalState p y).comp p e st) :=
    KeepsFree.comp (KeepsFree.finalState (.ite (metered.dropClean _) metered) _) _
  refine .ite ?_ (done _).endTxn
  split
  · exact (done _).endTxn
  · exact ((done _).flushAcks.modTxn _).send _ _ _ _
theorem KeepsFree.writeStep (y : Txn) (op : BitVec 8) : KeepsFree s (t.writeStep p e y op) := by
  unfold State.writeStep
  extract_lets d ownF shF fwd v touched w z
  have pinned : KeepsFree s v := by
    unfold v
    split
    · exact h.pinPart _ _
    · exact h
  clear_value v
  refine .ite (pinned.writeDone _ _) (.ite ?forwards (.ite pinned ?performs))
  case forwards => exact (KeepsFree.modTxn (.ite (pinned.touchHit _) pinned) _).fold fun _ _ k => k.forward _ _
  case performs =>
    have begun := pinned.modTxn (p := p) (e := e) fun t => { t with phase := .data }
    have tried : KeepsFree s z :=
      .ite (begun.doPart _) (.ite (begun.doClean _ _) (.ite (begun.doClean _ _) (.ite (begun.modTxn _) (begun.doWrite _ _ _))))
    clear_value z
    split
    · exact tried
    · exact .ite (tried.writeDone _ _) tried
theorem KeepsFree.recallStep (y : Txn) : KeepsFree s (t.recallStep p e y) := by
  have broadcast (ns : List Nat) : KeepsFree s (ns.foldl (fun s n => s.forward p e n Op.rcl) t) := h.fold fun _ _ k => k.forward _ _
  unfold State.recallStep
  dsimp only
  split
  · exact h
  · exact .ite h.endTxn (broadcast _)
  · exact .ite h.endTxn (broadcast _)
  · exact .ite (h.forward _ _) h.endTxn
  · have freed (v : Pav) : (ways24.foldl (fun v w => if (!(v.dirAt (dirSet y.pa) w).parOk && (v.dirAt (dirSet y.pa) w).tag = dirTag y.pa) = true
        then v.setDir (dirSet y.pa) w {} else v) v).tt = v.tt :=
      List.foldlRecOn (motive := fun w : Pav => w.tt = v.tt) _ _ rfl fun _ k _ _ => by split <;> exact k
    exact .ite (h.wave _ _ _) (KeepsFree.endTxn (KeepsFree.event (KeepsFree.raise (.ite h ((h.putEntry _ _ _).modPav _ freed)) _ _) _ _ _ _ _ _ _))
theorem KeepsFree.advance : KeepsFree s (t.advance p e) := by
  unfold State.advance
  split
  · exact h
  · refine .ite h ?_
    split
    · exact .ite h.endTxn h
    · exact h
    · exact h
    · split
      · exact h
      · refine .ite ?_ h
        split
        · exact (h.modTxn _).readStep2 _
        · exact h
    · split
      · exact .ite (h.modTxn _) (.ite ((h.readStep _ _).readStep2 _) (h.writeStep _ _))
      · exact h.recallStep _

/-! ### Dead agents, the sweep and the rounds of a pavilion -/

theorem KeepsFree.quiesceLost (n : PortId) : KeepsFree s (t.quiesceLost n) := .ite h (h.raise _ _)
theorem KeepsFree.timeoutFwd (n : PortId) : KeepsFree s (t.timeoutFwd p e n) := by
  unfold State.timeoutFwd
  split
  · exact h
  · have late (la : LineAddr) (f : Txn → Txn) : KeepsFree s ((t.readEntry p la).modTxn p e f) := (h.readEntry la).modTxn f
    exact ((KeepsFree.ite ((((late _ _).dropAgent _ _).poisonLine _ _).quiesceLost _ |>.modTxn _) ((late _ _).dropAgent _ _)).raise _ _).event _ _ _ _ _ _ _
/-- What a missing Done does before its transaction ends (R147). -/
theorem KeepsFree.lostDone {c : Prop} [Decidable c] (la : LineAddr) (k : Option PlotId) (n : PortId) :
    KeepsFree s (if c then (if c then ((t.readEntry p la).dropAgent p la n).poisonLine p la k else (t.readEntry p la).dropAgent p la n).quiesceLost n
      else if c then ((t.readEntry p la).dropAgent p la n).poisonLine p la k else (t.readEntry p la).dropAgent p la n) := by
  have dropped := (h.readEntry (p := p) la).dropAgent (p := p) la n
  have poisoned := KeepsFree.ite (c := c) (dropped.poisonLine (p := p) la k) dropped
  exact .ite (poisoned.quiesceLost n) poisoned
theorem KeepsFree.timeoutDone (n : PortId) : KeepsFree s (t.timeoutDone p e n) := by
  unfold State.timeoutDone
  split
  · exact h
  · exact (((h.lostDone _ _ n).raise _ _).event _ _ _ _ _ _ _).endTxn
theorem KeepsFree.offerExpire (n : PortId) (y : Txn) : KeepsFree s (t.offerExpire p e n y) := ((h.modIo _ _).raise _ _).endTxn
theorem KeepsFree.deadWaits : KeepsFree s (t.deadWaits p e) := by
  unfold State.deadWaits
  split
  · exact h
  · refine .ite h ?_
    dsimp only
    generalize waits : List.foldl _ t _ = v
    have kept : KeepsFree s v := by
      rw [← waits]
      refine h.fold fun w o k => ?_
      split
      · exact k
      · exact .ite (k.timeoutFwd _) k
    split
    · exact kept
    · exact .ite (kept.offerExpire _ _) kept
theorem KeepsFree.recoverNow : KeepsFree s (t.recoverNow p) := h.checked Checked.refl.recoverNow
theorem KeepsFree.sweepPort (n : Nat) : KeepsFree s (t.sweepPort p n) := by
  unfold State.sweepPort
  extract_lets v w
  have checked : KeepsFree s v := h.fold fun _ _ k => k.checked (Checked.refl.dirFault _ _)
  clear_value v
  have walked : KeepsFree s w := by
    refine checked.fold fun z la k => .ite k ?_
    split
    · exact k
    · next r => exact (k.startRecall r).advance.deadWaits
  exact .ite (walked.modPav _) walked
theorem KeepsFree.pumpOnce : KeepsFree s (t.pumpOnce p) := by
  unfold State.pumpOnce
  extract_lets v w z
  have begun : KeepsFree s v := .ite h (h.recoverNow.home HomeOnly.refl.poisonNext.regsCommit)
  clear_value v
  have drained : KeepsFree s z := (begun.fold fun _ _ k => k.deadWaits.advance).home HomeOnly.refl.drainEvBuf
  exact .ite drained (drained.fold fun _ _ k => k.sweepPort _)
theorem KeepsFree.linkSettle (n : PortId) : KeepsFree s (t.linkSettle n) := .ite (h.outside (modLink_tame _ _ _)) h
theorem KeepsFree.sweepCheck : KeepsFree s t.sweepCheck := h.fold fun _ _ k => .ite (((k.modIo _ _).raise _ _).linkSettle _) k
theorem KeepsFree.pump (p : PavId) : KeepsFree s (t.pump p) := by
  have rounds (m : Nat) : KeepsFree s ((List.range m).foldl (fun s _ => s.pumpOnce p) t) := h.fold fun _ _ k => k.pumpOnce
  exact .ite (rounds _) (rounds _).sweepCheck

/-! ### A link that goes down (R93) -/

theorem KeepsFree.sweepStart (n : PortId) : KeepsFree s (t.sweepStart n) := by
  unfold State.sweepStart
  exact (h.modIo _ _).fold fun v p k => (k.fold fun _ _ k => k.checked (Checked.refl.checkDir _)).modPav _
theorem KeepsFree.waitsEnd (n : PortId) : KeepsFree s (t.waitsEnd n) := by
  refine h.fold fun v p k => k.fold fun w x k => ?_
  split
  · exact k
  · next y _ =>
    have waits : KeepsFree s (if y.outs.any (fun o => o.port = n.val) || y.cross.any (fun c => c.1 = n.val) || (y.waitEvict && y.port = n.val)
        then w.timeoutFwd p x.1 n else w) := .ite (k.timeoutFwd _) k
    exact .ite (waits.timeoutDone _) waits
theorem KeepsFree.acksEnd (n : PortId) : KeepsFree s (t.acksEnd n) := h.fold fun _ _ k => .ite k (k.fold fun _ _ k => k.modTxn _)
theorem KeepsFree.linkDown (n : PortId) : KeepsFree s (t.linkDown n) := by
  unfold State.linkDown
  extract_lets l released cut out noted ended swept pumped
  have severed : KeepsFree s out := (h.outside (modLink_tame _ _ _)).modIo _ _
  clear_value out
  have waits : KeepsFree s ended := (((severed.raise _ _).event _ _ _ _ _ _ _).waitsEnd n).acksEnd n
  clear_value ended
  have sweeps : KeepsFree s swept := by
    unfold swept
    split
    · exact waits.sweepStart n
    · exact (waits.modIo _ _).sweepStart n
    · exact waits
    · exact waits
  exact .ite h ((sweeps.fold fun _ q k => k.pump q).sweepCheck.linkSettle n)
theorem KeepsFree.deadFence (n : PortId) : KeepsFree s (t.deadFence n) := .ite (h.linkDown n) h
end
end
end Sys2Proof.Machine

namespace Sys2Proof.Machine
-- The proofs below are elaborated one after the other, which bounds the threads that checking the text takes.
set_option Elab.async false

/-! ## Entries of the directory (R108, R109, R133) -/

section
variable {v v' : Pav} {la : LineAddr} {own : Option Nat} {sh : BitVec 96} {w k : Nat}

/-- An entry that is made lists its owner and its sharers. -/
theorem dirMake_lists (tag : BitVec 34) (sh : BitVec 96) (blk : Bool) (small : ∀ o, own = some o → o < 128) :
    (dirMake tag own sh blk).lists k = (decide (own = some k) || sh.getLsbD k) := by
  unfold dirMake
  split
  · split
    · next none_ => subst none_; simp [DirEntry.lists, DirEntry.own]
    · simp [DirEntry.lists, DirEntry.own]
  · next o =>
    have fits : o % 128 = o := Nat.mod_eq_of_lt (small o rfl)
    by_cases alone : sh = 0
    · simp [DirEntry.lists, DirEntry.own, alone, fits]
    · simp [DirEntry.lists, DirEntry.own, show sh ≠ 0#96 from alone, fits]
/-- Its parity apart, a sealed entry is the entry (R111). -/
theorem withPar_eq (d : DirEntry) (x : BitVec 4) : ({ d with par := x }).st = d.st ∧ ({ d with par := x }).tag = d.tag
    ∧ ({ d with par := x }).lists = d.lists := ⟨rfl, rfl, rfl⟩
theorem seal_eq (d : DirEntry) : d.seal.st = d.st ∧ d.seal.tag = d.tag ∧ d.seal.lists = d.lists := withPar_eq d d.parity
theorem dirMake_tag (tag : BitVec 34) (own : Option Nat) (sh : BitVec 96) (blk : Bool) (used : (dirMake tag own sh blk).st ≠ .free) :
    (dirMake tag own sh blk).tag = tag := by
  unfold dirMake at used ⊢
  split
  · split
    · next none_ => simp [none_] at used
    · rfl
  · rfl
theorem lists_of_free {d : DirEntry} (free : d.st = .free) (k : Nat) : d.lists k = false := by simp [DirEntry.lists, DirEntry.own, free]
theorem own_lt {d : DirEntry} {o : Nat} (h : d.own = some o) : o < 128 := by
  unfold DirEntry.own at h
  split at h
  · cases h; omega
  · cases h
theorem lists_eq {d : DirEntry} (used : d.st ≠ .free) (k : Nat) : d.lists k = (decide (d.own = some k) || d.sharers.getLsbD k) := by
  simp [DirEntry.lists, used]
theorem getLsbD_bit96 {n : Nat} (h : n < 96) (k : Nat) : (bit96 n).getLsbD k = decide (k = n) := by
  rw [bit96, BitVec.getLsbD_ofNat, Nat.testBit_two_pow]
  by_cases eq : n = k
  · subst eq; simp [h]
  · simp [eq, Ne.symm eq]

theorem dirFind_congr (same : v'.dir = v.dir) : v'.dirFind la = v.dirFind la := by unfold Pav.dirFind Pav.dirAt; rw [same]
theorem entry_congr (same : v'.dir = v.dir) : v'.entry la = v.entry la := by unfold Pav.entry; rw [dirFind_congr same]; unfold Pav.dirAt; rw [same]
theorem entry_of_find (found : v.dirFind la = some w) : v.entry la = v.dirAt (dirSet la) w := by unfold Pav.entry; rw [found]; rfl
theorem find_spec (found : v.dirFind la = some w) : w < 24 ∧ (v.dirAt (dirSet la) w).st ≠ .free ∧ (v.dirAt (dirSet la) w).tag = dirTag la :=
  ⟨List.mem_range.mp (List.mem_of_find?_eq_some found), by simpa using List.find?_some found⟩
/-- A line without an entry is Uncached. -/
theorem entry_of_none (none_ : v.dirFind la = none) : v.entry la = {} := by unfold Pav.entry; rw [none_]; rfl
theorem dirFind_none (none_ : ∀ w, w < 24 → (v.dirAt (dirSet la) w).st ≠ .free → (v.dirAt (dirSet la) w).tag ≠ dirTag la) : v.dirFind la = none := by
  refine List.find?_eq_none.mpr fun w mem => ?_
  simpa using none_ w (List.mem_range.mp mem)
/-- The way that holds a line's tag is the one that is found. -/
theorem dirFind_only (small : w < 24) (used : (v.dirAt (dirSet la) w).st ≠ .free) (tag : (v.dirAt (dirSet la) w).tag = dirTag la)
    (only : ∀ w', w' < 24 → (v.dirAt (dirSet la) w').st ≠ .free → (v.dirAt (dirSet la) w').tag = dirTag la → w' = w) : v.dirFind la = some w := by
  rcases found : v.dirFind la with _ | w'
  · exact absurd (List.find?_eq_none.mp found w (List.mem_range.mpr small)) (by simp [used, tag])
  · obtain ⟨small', used', tag'⟩ := find_spec found
    rw [only w' small' used' tag']

theorem dirAt_setDir (wf : FMap.wf (fun _ => ({} : DirEntry)) v.dir = true) (set : Nat) {w w' : Nat} (_ : w < 24) (_ : w' < 24) (d : DirEntry) :
    (v.setDir set w d).dirAt set w' = if w' = w then (if d.st = .free then {} else d.seal) else v.dirAt set w' := by
  unfold Pav.setDir Pav.dirAt
  rw [FMap.get_put wf]
  exact if_congr (by unfold dirKey; omega) rfl rfl

/-- A line that had an entry has afterwards the one that was written. -/
theorem entry_putDir (wf : FMap.wf (fun _ => ({} : DirEntry)) v.dir = true) (unique : v.dirUnique la) (found : v.dirFind la = some w)
    (same : v'.dir = v.putDir la own sh) (small : ∀ o, own = some o → o < 128) (k : Nat) :
    (v'.entry la).lists k = (decide (own = some k) || sh.getLsbD k) := by
  obtain ⟨in24, used, tag⟩ := find_spec found
  have written : v'.dir = (v.setDir (dirSet la) w (dirMake (dirTag la) own sh (v.blocker la).isSome)).dir := by
    rw [same, Pav.putDir, Pav.putWay, found]
  rw [entry_congr written, ← dirMake_lists (dirTag la) sh (v.blocker la).isSome small]
  generalize eq : dirMake (dirTag la) own sh (v.blocker la).isSome = d
  have at_ (w' : Nat) (small' : w' < 24) := dirAt_setDir wf (dirSet la) in24 small' d
  have others (w' : Nat) (small' : w' < 24) (ne : w' ≠ w) (used' : ((v.setDir (dirSet la) w d).dirAt (dirSet la) w').st ≠ .free) :
      ((v.setDir (dirSet la) w d).dirAt (dirSet la) w').tag ≠ dirTag la := fun tag' => by
    rw [at_ w' small', if_neg ne] at used' tag'
    exact ne (unique w' small' w in24 ⟨used', tag', used, tag⟩)
  by_cases free : d.st = .free
  · have gone : (v.setDir (dirSet la) w d).dirFind la = none := dirFind_none fun w' small' used' => by
      by_cases eqw : w' = w
      · rw [at_ w' small', if_pos eqw, if_pos free] at used'; exact absurd rfl used'
      · exact others w' small' eqw used'
    rw [entry_of_none gone, lists_of_free free, lists_of_free rfl]
  · have here := at_ w in24
    rw [if_pos rfl, if_neg free] at here
    obtain ⟨st_, tag_, lists_⟩ := seal_eq d
    have stays : (v.setDir (dirSet la) w d).dirFind la = some w := by
      refine dirFind_only in24 (by rw [here, st_]; exact free) ?_ fun w' small' used' tag' => ?_
      · rw [here, tag_, ← eq]
        exact dirMake_tag _ _ _ _ (by rwa [eq])
      · by_contra ne; exact others w' small' ne used' tag'
    rw [entry_of_find stays, here, lists_]
end

section
variable (s : State) (p : PavId) (la : LineAddr)

theorem modPav_id : s = s.modPav p id := by simp [State.modPav]

/-- Taking a port out of an entry leaves the directory as it is, or writes the entry. -/
theorem dropAgent_update (n : Nat) : ∃ f : Pav → Pav, s.dropAgent p la n = s.modPav p f ∧ ∀ v : Pav, ∃ ds, v.DirPut ds (f v) := by
  unfold State.dropAgent
  dsimp only
  split
  · exact ⟨id, modPav_id s p, fun v => ⟨v.dir, _, _, _, rfl⟩⟩
  · obtain ⟨f, eq, effect⟩ := putEntry_update s p la (if ((s.pav p).entry la).own = some n then none else ((s.pav p).entry la).own)
      (((s.pav p).entry la).sharers &&& ~~~bit96 n)
    exact ⟨f, eq, fun v => ⟨_, effect v⟩⟩
/-- After a port has been taken out, the entry lists what it listed but the port. -/
theorem dropAgent_lists (n : PortId) (k : PortId) (wf : FMap.wf (fun _ => ({} : DirEntry)) (s.pav p).dir = true) (unique : (s.pav p).dirUnique la) :
    (((s.dropAgent p la n).pav p).entry la).lists k = (((s.pav p).entry la).lists k && decide (k ≠ n)) := by
  unfold State.dropAgent
  dsimp only
  split
  · next out =>
    by_cases eq : k = n
    · subst eq; simpa using out
    · simp [eq]
  · next in_ =>
    rcases found : (s.pav p).dirFind la with _ | w
    · rw [entry_of_none found, lists_of_free rfl] at in_; exact absurd rfl in_
    obtain ⟨-, used, -⟩ := find_spec found
    rw [← entry_of_find found] at used
    generalize (s.pav p).entry la = d at used
    obtain ⟨f, eq, effect⟩ := putEntry_update s p la (if d.own = some n.val then none else d.own) (d.sharers &&& ~~~bit96 n)
    obtain ⟨_, _, _, written⟩ := effect (s.pav p)
    rw [eq, State.modPav_pav_same, entry_putDir wf unique found (by rw [written]) (fun o h => own_lt (by split at h; cases h; exact h)) k,
      lists_eq used k, BitVec.getLsbD_and, BitVec.getLsbD_not, getLsbD_bit96 n.isLt]
    have inside : k.val < 96 := k.isLt
    by_cases same : k = n
    · subst same
      by_cases owner : d.own = some k.val
      · simp [owner]
      · simp [owner]
    · have differ : k.val ≠ n.val := fun e => same (Fin.ext e)
      by_cases owner : d.own = some n.val
      · simp [owner, same, differ, inside, Ne.symm differ]
      · simp [owner, same, differ, inside]
theorem dropAgent_onlyPav (n : Nat) : OnlyPav p s (s.dropAgent p la n) := by
  obtain ⟨f, eq, -⟩ := dropAgent_update s p la n
  rw [eq]
  exact modPav_onlyPav s p f
theorem dropAgent_tame (n : Nat) : Tame [.pavs] s (s.dropAgent p la n) := by
  obtain ⟨f, eq, -⟩ := dropAgent_update s p la n
  rw [eq]
  exact modPav_tame s p f
end

/-- Settles O15: the entry is rewritten without the port in the one way that holds the line's tag, or is freed there. -/
theorem directoryForgetsOnlyThePort : Obligations.DirectoryForgetsOnlyThePort := by
  intro p n la s canon unique
  obtain ⟨-, -, -, -, wf, -⟩ := canon
  have lists := fun k => dropAgent_lists s p la n k wf unique
  exact ⟨by simpa using lists n, fun k ne => by simpa [ne] using lists k, dropAgent_onlyPav s p la n, (dropAgent_tame s p la n).only⟩
end Sys2Proof.Machine

namespace Sys2Proof.Machine
-- The proofs below are elaborated one after the other, which bounds the threads that checking the text takes.
set_option Elab.async false

/-! ## Answers that the hub takes (R82, R85, R126)

What an answer's acceptance does before the answer itself is looked at: the message leaves ingress, the class returns a credit, and the
clock of the pavilion that the answer came for starts. -/

/-- A message of a class has been taken from a port, and its credit goes back. -/
structure Taken (n : PortId) (cls : Nat) (s t : State) : Prop where
  logs : Logs [.ports, .csr, .glb, .blv] [R.blvEvt] s t
  only : OnlyPort n s t
  io : (t.port n).io = (s.port n).io
  credRet : (t.port n).link.credRet = (s.port n).link.credRet.set cls ((s.port n).link.credRet.getD cls 0 + 1)
  egress : (t.port n).link.egress = (s.port n).link.egress
  keeps : (t.port n).link.keeps = (s.port n).link.keeps

section
variable {s t u v : State} {n : PortId} {m : Msg} {p : PavId} {e cls : Nat}

theorem Taken.creditGiven (h : Taken n cls s t) : s.creditGiven n cls t := ⟨h.credRet, h.io, h.egress, h.only⟩
theorem Taken.pav (h : Taken n cls s t) (q : PavId) : t.pav q = s.pav q := h.logs.only.pav_eq q
theorem Taken.now (h : Taken n cls s t) : t.now = s.now := h.logs.only.now_eq
theorem Taken.regsOk (h : Taken n cls s t) (ok : s.regsOk) : t.regsOk := h.logs.regsOk ok
theorem takeMsg_taken (s : State) (n : PortId) (m : Msg) (cls : Nat) : Taken n cls s ((s.takeMsg n m).credBack n cls) := by
  refine ⟨(takeMsg_logs s n m).trans ((Logs.of_tame (credBack_tame _ n cls)).mono (by simp) (List.nil_subset _)),
    (takeMsg_onlyPort s n m).trans (credBack_onLink _ n cls).only, ?_, ?_, ?_, ?_⟩
  · rw [(credBack_onLink _ n cls).io, takeMsg_io]
  · rw [credBack_credRet, takeMsg_credRet]
  · rw [credBack_egress, takeMsg_egress]
  · rw [credBack_keeps, takeMsg_keeps]
/-- Counting what was taken leaves the ports as they are. -/
theorem Taken.then (h : Taken n cls s t) (k : Logs [.csr, .glb, .blv] [R.blvEvt] t u) : Taken n cls s u := by
  have same := k.only.port_eq n
  exact ⟨h.logs.trans (k.mono (by simp) (List.Subset.refl _)), h.only.trans (.of_only k.only), by rw [same, h.io], by rw [same, h.credRet],
    by rw [same, h.egress], by rw [same, h.keeps]⟩

theorem wakePav_pav (s : State) (p : PavId) : (s.wakePav p).pav p = { s.pav p with gated := false } := by
  unfold State.wakePav
  split
  · rw [State.modPav_pav_same]
  · next idle => rw [Bool.not_eq_true] at idle; rw [← idle]
theorem wakePav_onlyPav (s : State) (p : PavId) : OnlyPav p s (s.wakePav p) := by
  unfold State.wakePav
  split
  · exact modPav_onlyPav s p _
  · exact fun _ _ => rfl
theorem wakePav_tame (s : State) (p : PavId) : Tame [.pavs] s (s.wakePav p) := .ite (fun _ => modPav_tame s p _) fun _ => .refl

/-- Only the port's settings bar an answer (R126). -/
theorem takeMsg_answerBarred (m : Msg) (ok : s.regsOk) (op : BitVec 8) : (s.takeMsg n m).answerBarred n op = s.answerBarred n op := by
  have level : ((s.takeMsg n m).port n).link.level = (s.port n).link.level := by obtain ⟨q, eq⟩ := takeMsg_link s n m; rw [eq]
  unfold State.answerBarred State.rbit
  rw [takeMsg_rget m ok (by unfold R.portCohCtl R.blvEvt; omega), level]
/-- A caching port's answers are let in, and those to stash offers at level 2 and above. -/
theorem answerBarred_caching {op : BitVec 8} (caches : s.rbit (R.portCohCtl n) 2 = true)
    (stash : op = Op.stashAcc ∨ op = Op.stashDecl → 2 ≤ (s.port n).link.level) : s.answerBarred n op = false := by
  unfold State.answerBarred
  rw [caches]
  simp only [Bool.not_true, Bool.false_and, Bool.false_or, Bool.and_eq_false_iff, decide_eq_false_iff_not, Bool.or_eq_false_iff]
  by_cases st : op = Op.stashAcc ∨ op = Op.stashDecl
  · have := stash st; omega
  · exact .inr (not_or.mp st)

/-- An answer is frozen only for a transaction of a halted pavilion (R351). -/
theorem frozen_of_runs (runs : (s.pav (htidPav m.hdr.htid)).halted = true → s.txnOf m = none) : s.frozen m = false := by
  unfold State.frozen
  rcases halted : (s.pav (htidPav m.hdr.htid)).halted with _ | _
  · simp
  · simp [runs halted]

/-- An answer that the port's settings let in, and that is not frozen, is taken; then its own effect follows. -/
theorem answerIn_taken (f : State → State) (ok : s.regsOk) (open_ : s.answerBarred n m.hdr.opcode = false)
    (thawed : s.frozen m = false) :
    ∃ v, s.answerIn n m f = f (v.wakeFor m) ∧ Taken n (classOf m.hdr.opcode) s v := by
  let counted := if classOf m.hdr.opcode = 3 then ((s.takeMsg n m).credBack n (classOf m.hdr.opcode)).cntGlob 8 1
    (((s.takeMsg n m).credBack n (classOf m.hdr.opcode)).plotIn n m) else (s.takeMsg n m).credBack n (classOf m.hdr.opcode)
  have back : Taken n (classOf m.hdr.opcode) s counted :=
    (takeMsg_taken s n m _).then (.ite (fun _ => cntGlob_logs _ _ _ _) fun _ => .refl)
  have thawed : counted.frozen m = false := by
    rw [← thawed]
    unfold State.frozen State.txnOf
    rw [back.pav]
  refine ⟨counted, ?_, back⟩
  unfold State.answerIn
  dsimp only
  rw [takeMsg_answerBarred m ok, open_, if_neg (by simp), if_neg (by simpa using thawed)]

/-- Answers to forwards start the clock of the pavilion they came for (R422). -/
theorem wakeFor_eq (s : State) (wakes : [Op.ioAck, Op.ioDat, Op.wbD, Op.evC].contains m.hdr.opcode = false) : s.wakeFor m = s.wakePav (htidPav m.hdr.htid) := by
  unfold State.wakeFor; rw [wakes]; rfl

theorem txnOf_congr (m : Msg) (same : (t.pav (htidPav m.hdr.htid)).tt = (s.pav (htidPav m.hdr.htid)).tt) : t.txnOf m = s.txnOf m := by
  unfold State.txnOf; rw [same]
theorem KeepsFree.of_pav (same : ∀ q, (t.pav q).tt = (s.pav q).tt) : KeepsFree s t := fun q => by rw [same q]; exact .refl _

/-- An answer has been taken and its pavilion's clock runs. -/
structure Woken (n : PortId) (cls : Nat) (p : PavId) (s t : State) : Prop where
  given : s.creditGiven n cls t
  logs : Logs [.ports, .pavs, .csr, .glb, .blv] [R.blvEvt] s t
  only : OnlyPav p s t
  pav : t.pav p = { s.pav p with gated := false }
  keeps : (t.port n).link.keeps = (s.port n).link.keeps

theorem Taken.wake (h : Taken n cls s t) (p : PavId) : Woken n cls p s (t.wakePav p) := by
  have woken := wakePav_tame t p
  have same := woken.only.port_eq n
  refine ⟨⟨by rw [same, h.credRet], by rw [same, h.io], by rw [same, h.egress], h.only.trans (.of_only woken.only)⟩,
    (h.logs.mono (by simp) (List.Subset.refl _)).trans ((Logs.of_tame woken).mono (by simp) (List.nil_subset _)),
    (OnlyPav.of_only h.logs.only).trans (wakePav_onlyPav t p), by rw [wakePav_pav, h.pav], by rw [same, h.keeps]⟩
theorem Woken.tt (h : Woken n cls p s t) (q : PavId) : (t.pav q).tt = (s.pav q).tt := by
  by_cases eq : q = p
  · subst eq; rw [h.pav]
  · rw [h.only q eq]
theorem Woken.txnOf (h : Woken n cls p s t) (m : Msg) : t.txnOf m = s.txnOf m := txnOf_congr m (h.tt _)
theorem Woken.keepsFree (h : Woken n cls p s t) : KeepsFree s t := .of_pav h.tt

/-- Such an answer is taken, and its pavilion's clock runs when its effect begins. -/
theorem answerIn_woken (op : BitVec 8) (f : State → State) (ok : s.regsOk) (open_ : s.answerBarred n op = false)
    (runs : (s.pav (htidPav m.hdr.htid)).halted = true → s.txnOf m = none)
    (wakes : [Op.ioAck, Op.ioDat, Op.wbD, Op.evC].contains op = false := by decide) :
    ∃ v, s.answerIn n (withOp m op) f = f v ∧ Woken n (classOf op) (htidPav m.hdr.htid) s v := by
  obtain ⟨v, eq, taken⟩ := answerIn_taken (m := withOp m op) f ok open_ (frozen_of_runs runs)
  exact ⟨v.wakePav (htidPav m.hdr.htid), by rw [eq, wakeFor_eq v wakes]; rfl, taken.wake _⟩

/-! ## The end of a read (R114, R142) -/

/-- A granted read whose Done has come, and which waits for nothing else, ends. -/
theorem advance_ends {y : Txn} (found : FMap.find? (s.pav p).tt e = some y) (runs : (s.pav p).halted = false) (active : y.active = true) (outs : y.outs = [])
    (cross : y.cross = []) (evict : y.waitEvict = false) (phase : y.phase = .doneWait) (seen : y.doneSeen = true) : s.advance p e = s.endTxn p e := by
  unfold State.advance
  rw [found]
  dsimp only
  rw [if_neg (by simp [runs, active, outs, cross, evict]), phase]
  exact if_pos seen
/-- The Done of a granted read that waits for nothing else ends the read, and then the pavilion's engine runs. -/
theorem done_ends {y : Txn} {op : BitVec 8} (named : s.txnOf m = some (p, e, y)) (runs : (s.pav p).halted = false) (kind : y.kind = .req op)
    (read : isReadOp op = true) (port : y.port = n.val) (tid : y.tid = m.hdr.tid) (unseen : y.doneSeen = false) (phase : y.phase = .doneWait)
    (active : y.active = true) (outs : y.outs = []) (cross : y.cross = []) (evict : y.waitEvict = false) :
    ∃ u, KeepsFree s u ∧ s.done n m = (u.endTxn p e).pump p := by
  unfold State.done
  extract_lets stash v
  have freed : Tame [.ports] s v := .ite (fun _ => .refl) fun _ => modIo_tame s n _
  clear_value v
  have named' : v.txnOf m = some (p, e, y) := (txnOf_congr m (by rw [freed.only.pav_eq])).trans named
  obtain ⟨found, -, rfl, rfl⟩ := txnOf_eq.mp named'
  refine ⟨v.modTxn (htidPav m.hdr.htid) (htidEnt m.hdr.htid) fun t => { t with doneSeen := true }, (KeepsFree.refl.outside freed).modTxn _, ?_⟩
  rw [named']
  dsimp only
  have runs' : (v.pav (htidPav m.hdr.htid)).halted = false := by rw [freed.only.pav_eq]; exact runs
  rw [if_neg (by simp [runs']), if_pos (by simp [kind, read, port, tid, unseen, phase])]
  rw [advance_ends (modTxn_find _ found) (by rw [modTxn_pav _ found]; exact runs') active outs cross evict phase rfl]
end

/-- Settles O12: the Done moves the transaction to its end, which takes its table entry, and the pavilion's engine gives no entry to a request. -/
theorem doneEndsReads : Obligations.DoneEndsReads := by
  intro n m y op s alive canon named small kind read port tid unseen phase active outs cross evict runs
  obtain ⟨csr, -, -, pavs, -⟩ := canon
  obtain ⟨-, -, -, -, -, -, -, rises, -⟩ := pavs (htidPav m.hdr.htid)
  have open_ : s.answerBarred n Op.done = false := by simp [State.answerBarred, Op.done, Op.wbD, Op.evC, Op.recallD, Op.fwdAck, Op.fwdAckD,
    Op.rspCrossed, Op.stashAcc, Op.stashDecl]
  obtain ⟨v, run, woken⟩ := answerIn_woken Op.done (m := m) (fun s => s.done n (withOp m Op.done)) csr open_ (by simp [runs])
  obtain ⟨u, kept, ends⟩ := done_ends (s := v) (m := withOp m Op.done) ((woken.txnOf _).trans named) (by rw [woken.pav]; exact runs) kind read port tid
    unseen phase active outs cross evict
  have kept' := woken.keepsFree.trans kept
  refine Completes.of_eq (live_alive (fun s => s.answerIn n (withOp m Op.done) fun s => s.done n (withOp m Op.done)) alive) (run.trans ends) ?_
  exact (KeepsFree.refl.pump _).free (kept'.endTxn.rising rises) small (endTxn_free (kept'.rising rises))
end Sys2Proof.Machine

namespace Sys2Proof.Machine
-- The proofs below are elaborated one after the other, which bounds the threads that checking the text takes.
set_option Elab.async false

/-! ## What the end of a transaction reaches (R114, R138) -/

/-- A transaction's end: its pavilion, the links of the ports that it answers, and reports of the directory. -/
structure Ended (p : PavId) (s t : State) : Prop where
  logs : Logs [.ports, .pavs, .csr, .glb, .blv] [R.blvEvt, R.pavDirErr p, R.pavDirStat p] s t
  only : OnlyPav p s t
  io : ∀ n, (t.port n).io = (s.port n).io

section
variable {s t u : State} {p : PavId} {e : Nat}

theorem Ended.refl : Ended p s s := ⟨.refl, fun _ _ => rfl, fun _ => rfl⟩
theorem Ended.trans (h : Ended p s t) (k : Ended p t u) : Ended p s u :=
  ⟨h.logs.trans k.logs, h.only.trans k.only, fun n => (k.io n).trans (h.io n)⟩
theorem Ended.ite {c : Prop} [Decidable c] (h : Ended p s t) (k : Ended p s u) : Ended p s (if c then t else u) := by
  split
  · exact h
  · exact k
theorem Ended.outside {ps : List Part} {os : List Nat} (h : Ended p s t) (k : Logs ps os t u) (hp : ps ⊆ [.csr, .glb, .blv] := by simp)
    (ho : os ⊆ [R.blvEvt, R.pavDirErr p, R.pavDirStat p] := by simp) : Ended p s u :=
  have still := (k.mono hp (List.Subset.refl _)).only
  h.trans ⟨(k.mono hp ho).mono (by simp) (List.Subset.refl _), .of_only still, fun n => by rw [still.port_eq]⟩
theorem Ended.checked (h : Ended p s t) (k : Checked p t u) : Ended p s u :=
  h.trans ⟨k.logs.mono (by simp) (List.Subset.refl _), k.only, fun n => by rw [k.logs.only.port_eq]⟩

section
variable (h : Ended p s t)
include h

theorem Ended.modPav (f : Pav → Pav) : Ended p s (t.modPav p f) :=
  h.trans ⟨(Logs.of_tame (modPav_tame t p f)).mono (by simp) (List.nil_subset _), modPav_onlyPav t p f,
    fun n => by rw [(modPav_tame t p f).only.port_eq]⟩
theorem Ended.modTxn (f : Txn → Txn) : Ended p s (t.modTxn p e f) := h.modPav _
/-- A message that no request waits for changes only the link that it goes out on. -/
theorem Ended.send (n : PortId) (m : Msg) (fwd : Option (Nat × Nat)) : Ended p s (t.send n m none fwd) := by
  have counted : Ended p s (if classOf m.hdr.opcode = 3 then t.cntGlob 8 1 (some m.hdr.plot) else t) := .ite (h.outside (cntGlob_logs _ _ _ _)) h
  unfold State.send
  generalize (if classOf m.hdr.opcode = 3 then t.cntGlob 8 1 (some m.hdr.plot) else t) = v at counted ⊢
  have linked := modLink_onLink v n fun l => { l with egress := l.egress ++ [{ msg := m, relTid := none, fwd := fwd, at_ := v.now }], idleSince := v.now }
  refine .ite (counted.trans ⟨(Logs.of_tame linked.tame).mono (by simp) (List.nil_subset _), .of_only linked.tame.only, fun k => ?_⟩) counted
  by_cases eq : k = n
  · rw [eq]; exact linked.io
  · rw [linked.only k eq]
theorem Ended.flushAcks : Ended p s (t.flushAcks p e) := by
  unfold State.flushAcks
  split
  · exact h
  · refine Ended.modTxn (List.foldlRecOn _ _ h fun u k a _ => ?_) _
    split
    · exact k
    · exact k.send _ _ _
theorem Ended.closing (y : Txn) : Ended p s (t.closing p e y) := by
  have ended : Ended p s (((t.readEntry p y.pa).flushAcks p e).dropFetch p e) := (h.checked (Checked.refl.readEntry y.pa)).flushAcks.modPav _
  unfold State.closing
  split
  · exact .ite (ended.outside (cntPav_logs _ _ _ _ _)) ended
  · exact ended
theorem Ended.endTxn : Ended p s (t.endTxn p e) := by
  rcases found : FMap.find? (t.pav p).tt e with _ | y
  · rw [endTxn_none found]; exact h
  · obtain ⟨f, eq, -⟩ := endTxn_update found
    rw [eq]
    exact (h.closing y).modPav f
end

/-- Where no EvAck waits for the end of a transaction, its end sends nothing. -/
theorem endTxn_ports {y : Txn} (found : FMap.find? (s.pav p).tt e = some y) (small : e < 992) (owed : y.evAcks = []) (n : PortId) :
    (s.endTxn p e).port n = s.port n := by
  obtain ⟨f, eq, -⟩ := endTxn_update found
  have checked := Checked.refl (p := p) (s := s) |>.readEntry y.pa
  have quiet : (((s.readEntry p y.pa).flushAcks p e).dropFetch p e).port n = s.port n := by
    rw [flushAcks_none ((checked.requests e small).trans found) owed]
    unfold State.dropFetch State.modTxn
    rw [(modPav_tame _ p _).only.port_eq, (modPav_tame _ p _).only.port_eq, checked.logs.only.port_eq]
  rw [eq, (modPav_tame _ p f).only.port_eq]
  unfold State.closing
  split
  · split
    · rw [(cntPav_logs _ _ _ _ _).only.port_eq]; exact quiet
    · exact quiet
  · exact quiet

/-- A credit that has been given is still so after work elsewhere than at the ports. -/
theorem creditGiven_after {n : PortId} {cls : Nat} {ps : List Part} (h : s.creditGiven n cls t) (k : OnlyParts ps t u) (hp : Part.ports ∉ ps := by decide) :
    s.creditGiven n cls u := by
  obtain ⟨credRet, io, egress, only⟩ := h
  have same := k.port_eq n hp
  exact ⟨by rw [same, credRet], by rw [same, io], by rw [same, egress], only.trans (.of_only k hp)⟩

/-! ## Stash offers (R130, R131) -/

section
variable {n : PortId} {m : Msg} {y : Txn}

/-- An answer that names an offer to its port answers it. -/
theorem offerOf_named (named : s.txnOf m = some (p, e, y)) (phase : y.phase = .stash) (offer : y.offer = true) (target : y.tport.toNat = n.val) :
    s.offerOf n m = some (p, e, y) := by
  unfold State.offerOf
  rw [named]
  exact if_pos (by simp [phase, offer, target])
theorem stashDecl_ends (answers : s.offerOf n m = some (p, e, y)) : s.stashDecl n m = (s.endTxn p e).pump p := by unfold State.stashDecl; rw [answers]

/-- An offer that its target accepts becomes a grant to the target, with the answer's TID (R130). -/
def Txn.accepted (s : State) (n : PortId) (tid : BitVec 10) (t : Txn) : Txn :=
  { t with kind := .req Op.stashAcc, port := n.val, num := (s.port n).io.nextNum, tid := tid, retry := false, phase := .data, offer := false, issued := false
           fetch := .idle, buf := none, arrive := some s.now, agentLost := false, doneSeen := false, parkedOnce := false }
theorem stashAcc_grants (answers : s.offerOf n m = some (p, e, y)) :
    s.stashAcc n m = ((s.modTxn p e (Txn.accepted s n m.hdr.tid)).advance p e).pump p := by unfold State.stashAcc; rw [answers]; rfl

/-- An offer unanswered for 1 µs expires (R131). -/
theorem stashOfferTimeout_expires {k : Fin 1024} {d : Nat} (alive : s.alive = true) (key : k.val = e) (found : FMap.find? (s.pav p).tt e = some y)
    (target : portOf? y.tport.toNat = some n) (runs : (s.pav p).halted = false) (phase : y.phase = .stash) (offer : y.offer = true)
    (sent : y.offerSent = some d) (late : d + ccPerUs ≤ s.now) : exec (.stashOfferTimeout p k) s = .next ((s.offerExpire p e n y).pump p) := by
  subst key
  change execStashOfferTimeout p k s = _
  unfold execStashOfferTimeout
  rw [live_alive _ alive, found]
  dsimp only
  rw [target]
  exact congrArg _ (if_pos (by simp [runs, phase, offer, sent, late]))
/-- A port's coherence events stand apart from what a pavilion's directory reports. -/
theorem cohEvt_apart (p : PavId) (n : PortId) : R.portCohEvt n ∉ [R.blvEvt, R.pavDirErr p, R.pavDirStat p] := by
  have := p.isLt
  simp only [List.mem_cons, List.not_mem_nil, or_false]
  unfold R.portCohEvt R.blvEvt R.pavDirErr R.pavDirStat
  omega
/-- An offer that expires is listed at its target and reported (R131). -/
theorem offerExpire_reports (ok : s.regsOk) (y : Txn) : ((s.offerExpire p e n y).rget (R.portCohEvt n)).getLsbD 9 = true
    ∧ ((s.offerExpire p e n y).port n).io.expired = (y.pa :: (s.port n).io.expired).take 16 := by
  unfold State.offerExpire
  extract_lets v
  have listed : (v.port n).io.expired = (y.pa :: (s.port n).io.expired).take 16 := by rw [State.modIo_io_same]
  have ok' : v.regsOk := (modIo_tame s n _).regs ok
  clear_value v
  have noted := raise_logs (s := v) (R.portCohEvt n) 9
  have ended := (Ended.refl (p := p) (s := v.raise (R.portCohEvt n) 9)).endTxn (e := e)
  constructor
  · rw [ended.logs.rget (noted.regsOk ok') (cohEvt_apart p n)]
    exact raise_bit _ 9 ok' (by omega) (by omega)
  · rw [ended.io n, noted.only.port_eq]; exact listed
theorem offerExpire_begun (s : State) (n : PortId) (y : Txn) :
    KeepsFree s ((s.modIo n fun io => { io with expired := (y.pa :: io.expired).take 16 }).raise (R.portCohEvt n) 9) := (KeepsFree.refl.modIo _ _).raise _ _
end
end

/-- Settles O16. That the grant carries the TID of the StashAcc is log entry 41. -/
theorem stashOffersEnd : Obligations.StashOffersEnd := by
  intro n m p e y s alive canon small caches level runs phase offer
  obtain ⟨csr, -, -, pavs, -⟩ := canon
  obtain ⟨-, -, -, -, -, -, -, rises, -⟩ := pavs p
  refine ⟨fun target named => ?_, fun k d key found target sent late => ?_⟩
  · obtain ⟨-, -, rfl, rfl⟩ := txnOf_eq.mp named
    have taken (op : BitVec 8) (f : State → State) (wakes : [Op.ioAck, Op.ioDat, Op.wbD, Op.evC].contains op = false) :=
      answerIn_woken (m := m) op f csr (answerBarred_caching caches fun _ => level) (by simp [runs]) wakes
    have answers (v : State) (cls : Nat) (op : BitVec 8) (woken : Woken n cls (htidPav m.hdr.htid) s v) :
        v.offerOf n (withOp m op) = some (htidPav m.hdr.htid, htidEnt m.hdr.htid, y) :=
      offerOf_named ((woken.txnOf _).trans named) phase offer target
    constructor
    · obtain ⟨v, run, woken⟩ := taken Op.stashDecl (fun s => s.stashDecl n (withOp m Op.stashDecl)) (by decide)
      refine Completes.of_eq (live_alive (fun s => s.answerIn n (withOp m Op.stashDecl) fun s => s.stashDecl n (withOp m Op.stashDecl)) alive)
        (run.trans (stashDecl_ends (answers v _ _ woken))) ?_
      exact (KeepsFree.refl.pump _).free (woken.keepsFree.endTxn.rising rises) small (endTxn_free (woken.keepsFree.rising rises))
    · obtain ⟨v, run, woken⟩ := taken Op.stashAcc (fun s => s.stashAcc n (withOp m Op.stashAcc)) (by decide)
      refine Completes.of_eq (live_alive (fun s => s.answerIn n (withOp m Op.stashAcc) fun s => s.stashAcc n (withOp m Op.stashAcc)) alive)
        (run.trans (stashAcc_grants (answers v _ _ woken))) ⟨_, rfl, ?_⟩
      have found : FMap.find? (v.pav (htidPav m.hdr.htid)).tt (htidEnt m.hdr.htid) = some y := by
        rw [woken.tt]; exact (txnOf_eq.mp named).1
      exact ⟨creditGiven_after woken.given (modTxn_tame _).only, woken.only.trans (modTxn_onlyPav _),
        woken.logs.only.trans ((modTxn_tame _).mono (by simp)).only, _, modTxn_find _ found, rfl, rfl, rfl, rfl, rfl, rfl, rfl⟩
  · have run : exec (.stashOfferTimeout p k) s = .next ((s.offerExpire p e n y).pump p) := stashOfferTimeout_expires alive key found target runs phase offer sent late
    obtain ⟨event, listed⟩ := offerExpire_reports (p := p) (e := e) (n := n) csr y
    have gone : (s.offerExpire p e n y).entryFree p e := endTxn_free ((offerExpire_begun s n y).rising rises)
    exact Completes.of_eq run rfl ⟨(KeepsFree.refl.pump _).free ((KeepsFree.refl.offerExpire n y).rising rises) small gone, _, rfl, gone, event, listed⟩
end Sys2Proof.Machine

namespace Sys2Proof.Machine
-- The proofs below are elaborated one after the other, which bounds the threads that checking the text takes.
set_option Elab.async false

/-! ## Agents that do not answer (R146, R147) -/

/-- A port leaves a line's entry; what a lost owner held is poisoned, and a port that is being quiesced reports the loss. -/
def State.lose (s : State) (p : PavId) (la : LineAddr) (n : PortId) (k : Option PlotId) (owned : Bool) : State :=
  if owned then ((s.dropAgent p la n).poisonLine p la k).quiesceLost n else s.dropAgent p la n

theorem lose_owned (s : State) (p : PavId) (la : LineAddr) (n : PortId) (k : Option PlotId) :
    s.lose p la n k true = ((s.dropAgent p la n).poisonLine p la k).quiesceLost n := if_pos rfl
theorem lose_other (s : State) (p : PavId) (la : LineAddr) (n : PortId) (k : Option PlotId) : s.lose p la n k false = s.dropAgent p la n :=
  if_neg (by decide)

section
variable {s t u : State} {p : PavId} {e : Nat} {n : PortId} {y : Txn} {la : LineAddr} {k : Option PlotId} {owned : Bool}

theorem quiesceLost_logs (s : State) (n : PortId) : Logs [.csr, .glb] [R.portSvcStat n] s (s.quiesceLost n) :=
  .ite (fun _ => .refl) fun _ => raise_logs _ _ 10
theorem lose_tame (s : State) (p : PavId) (la : LineAddr) (n : PortId) (k : Option PlotId) (owned : Bool) :
    Tame [.pavs, .chans, .csr, .glb, .lodge, .blv] s (s.lose p la n k owned) := by
  have dropped := (dropAgent_tame s p la n).mono (qs := [.pavs, .chans, .csr, .glb, .lodge, .blv]) (by simp)
  exact .ite (fun _ => (dropped.trans (HomeOnly.refl.poisonLine la k).tame).trans ((quiesceLost_logs _ n).tame.mono (by simp))) fun _ => dropped
/-- The transactions stay but for what they have fetched, and the directory is the one that the port has left. -/
theorem lose_frame (s : State) (p : PavId) (la : LineAddr) (n : PortId) (k : Option PlotId) (owned : Bool) :
    ((s.lose p la n k owned).pav p).frame = ((s.dropAgent p la n).pav p).frame := by
  unfold State.lose
  split
  · rw [(quiesceLost_logs _ n).only.pav_eq, (HomeOnly.refl.poisonLine la k).frame]
  · rfl
theorem lose_dir (s : State) (p : PavId) (la : LineAddr) (n : PortId) (k : Option PlotId) (owned : Bool) :
    ((s.lose p la n k owned).pav p).dir = ((s.dropAgent p la n).pav p).dir := congrArg Prod.fst (lose_frame s p la n k owned)
theorem lose_onlyPav (s : State) (p : PavId) (la : LineAddr) (n : PortId) (k : Option PlotId) (owned : Bool) : OnlyPav p s (s.lose p la n k owned) := by
  have dropped := dropAgent_onlyPav s p la n
  unfold State.lose
  split
  · exact (dropped.trans (HomeOnly.refl.poisonLine la k).only).trans (.of_only (quiesceLost_logs _ n).only)
  · exact dropped
theorem lose_found (found : FMap.find? (s.pav p).tt e = some y) :
    ∃ z, FMap.find? ((s.lose p la n k owned).pav p).tt e = some z ∧ z.core = y.core := by
  have kept : ((s.dropAgent p la n).pav p).tt = (s.pav p).tt := by
    obtain ⟨f, eq, effect⟩ := dropAgent_update s p la n
    obtain ⟨_, _, _, _, put⟩ := effect (s.pav p)
    rw [eq, State.modPav_pav_same, put]
  have same := congrArg (FMap.find? ·.2 e) (lose_frame s p la n k owned)
  dsimp only [Pav.frame] at same
  rw [find_map, find_map, kept, found] at same
  exact Option.map_eq_some_iff.mp same
/-- After a port has been lost, the line's entry does not list it. -/
theorem lose_lists (wf : FMap.wf (fun _ => ({} : DirEntry)) (s.pav p).dir = true) (unique : (s.pav p).dirUnique la) :
    (((s.lose p la n k owned).pav p).entry la).lists n = false := by
  rw [entry_congr (lose_dir s p la n k owned), dropAgent_lists s p la n n wf unique]
  simp
theorem KeepsFree.lose (h : KeepsFree s t) : KeepsFree s (t.lose p la n k owned) :=
  .ite (((h.dropAgent _ _).poisonLine _ _).quiesceLost n) (h.dropAgent _ _)

/-- A transaction that waits no longer for a port (R146). -/
def Txn.without (n : PortId) (t : Txn) : Txn :=
  { t with outs := t.outs.filter (fun o => o.port ≠ n.val), cross := t.cross.filter (fun x => x.1 ≠ n.val)
           fwdOwner := if t.fwdOwner = some n.val then none else t.fwdOwner
           waitEvict := if t.port = n.val then false else t.waitEvict }
/-- A port that did not answer was the owner, and its forward was not an invalidation: its data is lost (R146). -/
def Txn.ownerLost (t : Txn) (d : DirEntry) (n : PortId) : Bool :=
  decide (d.own = some n.val) && !(t.outs.find? fun o => o.port = n.val).elim false fun o => o.op = Op.inv
theorem ownerLost_of {d : DirEntry} (owner : d.own = some n.val) (forwards : ∀ z ∈ y.outs, z.port = n.val → z.op ≠ Op.inv) : y.ownerLost d n = true := by
  have forwarded : ((y.outs.find? fun o => o.port = n.val).elim false fun o => o.op = Op.inv) = false := by
    rcases first : y.outs.find? fun o => o.port = n.val with _ | z
    · rw [first]; rfl
    · rw [first]; exact decide_eq_false (forwards z (List.mem_of_find?_eq_some first) (by simpa using List.find?_some first))
  unfold Txn.ownerLost
  rw [owner, forwarded]
  simp
/-- The state of a forward's timeout before it is reported. -/
def State.unanswered (s : State) (p : PavId) (e : Nat) (n : PortId) (y : Txn) : State :=
  let lost := y.ownerLost ((s.pav p).entry y.pa) n
  let t := (s.modTxn p e (Txn.without n)).lose p y.pa n y.chargeTo lost
  if lost then t.modTxn p e fun t => { t with agentLost := true } else t

/-- A forward's timeout takes the port out of the transaction and out of the entry, and reports it (R146). -/
theorem timeoutFwd_eq (found : FMap.find? (s.pav p).tt e = some y) (sound : (s.pav p).dirSound (dirSet y.pa)) :
    s.timeoutFwd p e n = ((s.unanswered p e n y).raise (R.portCohEvt n) 11).event .agentLost n.val (y.pa.toNat * 64) := by
  unfold State.timeoutFwd
  rw [found]
  dsimp only
  rw [readEntry_sound sound]
  change State.event (State.raise (if y.ownerLost ((s.pav p).entry y.pa) n = true then
      (((((s.modTxn p e (Txn.without n)).dropAgent p y.pa n).poisonLine p y.pa y.chargeTo).quiesceLost n).modTxn p e fun t => { t with agentLost := true })
    else (s.modTxn p e (Txn.without n)).dropAgent p y.pa n) _ _) _ _ _ _ _ _ _ = _
  unfold State.unanswered
  dsimp only
  split
  · next lost => rw [lost, lose_owned]
  · next held => rw [Bool.not_eq_true] at held; rw [held, lose_other]
theorem modTxn_dir (s : State) (p : PavId) (e : Nat) (f : Txn → Txn) : ((s.modTxn p e f).pav p).dir = (s.pav p).dir := by
  unfold State.modTxn
  rw [State.modPav_pav_same]
  split
  · rfl
  · rfl
theorem unanswered_tame (s : State) (p : PavId) (e : Nat) (n : PortId) (y : Txn) :
    Tame [.pavs, .chans, .csr, .glb, .lodge, .blv] s (s.unanswered p e n y) := by
  have lost := ((modTxn_tame (s := s) (p := p) (e := e) (Txn.without n)).mono (by simp)).trans
    (lose_tame (s.modTxn p e (Txn.without n)) p y.pa n y.chargeTo (y.ownerLost ((s.pav p).entry y.pa) n))
  exact .ite (fun _ => lost.trans ((modTxn_tame _).mono (by simp))) fun _ => lost
theorem unanswered_onlyPav (s : State) (p : PavId) (e : Nat) (n : PortId) (y : Txn) : OnlyPav p s (s.unanswered p e n y) := by
  have lost := (modTxn_onlyPav (s := s) (p := p) (e := e) (Txn.without n)).trans
    (lose_onlyPav _ p y.pa n y.chargeTo (y.ownerLost ((s.pav p).entry y.pa) n))
  unfold State.unanswered
  dsimp only
  split
  · exact lost.trans (modTxn_onlyPav _)
  · exact lost
/-- The transaction has what it had but the port, and an owner's loss is marked. -/
theorem unanswered_found (found : FMap.find? (s.pav p).tt e = some y) : ∃ z, FMap.find? ((s.unanswered p e n y).pav p).tt e = some z
    ∧ z.outs = (y.without n).outs ∧ z.cross = (y.without n).cross ∧ z.kind = y.kind ∧ z.pa = y.pa
    ∧ (y.ownerLost ((s.pav p).entry y.pa) n = true → z.agentLost = true) := by
  obtain ⟨z, kept, core⟩ := lose_found (la := y.pa) (n := n) (k := y.chargeTo) (owned := y.ownerLost ((s.pav p).entry y.pa) n)
    (modTxn_find (Txn.without n) found)
  unfold Txn.core at core
  injection core
  unfold State.unanswered
  dsimp only
  split
  · exact ⟨_, modTxn_find _ kept, by assumption, by assumption, by assumption, by assumption, fun _ => rfl⟩
  · next held => exact ⟨z, kept, by assumption, by assumption, by assumption, by assumption, fun lost => absurd lost held⟩
theorem unanswered_lists (wf : FMap.wf (fun _ => ({} : DirEntry)) (s.pav p).dir = true)
    (unique : (s.pav p).dirUnique y.pa) : (((s.unanswered p e n y).pav p).entry y.pa).lists n = false := by
  have same := modTxn_dir s p e (Txn.without n)
  have gone : (((s.modTxn p e (Txn.without n)).lose p y.pa n y.chargeTo (y.ownerLost ((s.pav p).entry y.pa) n)).pav p |>.entry y.pa).lists n = false :=
    lose_lists (by rw [same]; exact wf) (by unfold Pav.dirUnique Pav.dirAt; rw [same]; exact unique)
  unfold State.unanswered
  dsimp only
  split
  · rw [entry_congr (modTxn_dir _ _ _ _)]; exact gone
  · exact gone

/-- A missing Done takes the port out of the entry and reports it, and the transaction ends (R147). -/
theorem timeoutDone_eq (found : FMap.find? (s.pav p).tt e = some y) : ∃ owned,
    s.timeoutDone p e n = ((((s.readEntry p y.pa).lose p y.pa n y.chargeTo owned).raise (R.portCohEvt n) 11).event .agentLost n.val (y.pa.toNat * 64)).endTxn p e := by
  unfold State.timeoutDone
  rw [found]
  dsimp only
  generalize (decide (y.issuedOp = Op.dataE) || decide (y.issuedOp = Op.dataM) || decide (y.issuedOp = Op.dataO) || decide (y.issuedOp = Op.comp)) = owned
  refine ⟨owned, ?_⟩
  cases owned with
  | true => rw [if_pos rfl, if_pos rfl, lose_owned]
  | false => rw [if_neg (by decide), if_neg (by decide), lose_other]

/-! ### The timeout -/

/-- A timeout that is due for no forward and no Done changes nothing. -/
theorem fwdTimeout_early {x : Fin 1024} {d : Nat} (alive : s.alive = true) (found : FMap.find? (s.pav p).tt x.val = some y) (outs : y.outs = [])
    (cross : y.cross = []) (start : y.tstart = some d) (early : s.now < d + s.rf R.glbCohCtl 16 0 * ccPerUs) : exec (.fwdTimeout p x n) s = .next s := by
  change execFwdTimeout p x n s = _
  unfold execFwdTimeout
  rw [live_alive _ alive, found]
  dsimp only
  have waits : decide (d + s.rf R.glbCohCtl 16 0 * ccPerUs ≤ s.now) = false := by simpa using early
  rw [outs, cross, start]
  simp only [Option.elim_some, waits, List.any_nil, Bool.and_false, Bool.or_false, Bool.false_eq_true, if_false, ite_self]
/-- A forward that is out for the timeout is given up. -/
theorem fwdTimeout_forward {x : Fin 1024} {o : FwdOut} {d : Nat} (alive : s.alive = true) (found : FMap.find? (s.pav p).tt x.val = some y)
    (runs : (s.pav p).halted = false) (out : o ∈ y.outs) (port : o.port = n.val) (sent : o.sent = some d)
    (late : d + s.rf R.glbCohCtl 16 0 * ccPerUs ≤ s.now) :
    exec (.fwdTimeout p x n) s = .next ((((s.timeoutFwd p x n).advance p x).deadFence n).pump p) := by
  change execFwdTimeout p x n s = _
  unfold execFwdTimeout
  rw [live_alive _ alive, found]
  dsimp only
  have due : y.outs.any (fun o => o.port = n.val && o.sent.elim false fun x => decide (x + s.rf R.glbCohCtl 16 0 * ccPerUs ≤ s.now)) = true :=
    List.any_eq_true.mpr ⟨o, out, by simp [port, sent, late]⟩
  rw [if_neg (by simp [runs]), due]
  rfl
/-- A Done that has not come for the timeout is given up. -/
theorem fwdTimeout_done {x : Fin 1024} {d : Nat} (alive : s.alive = true) (found : FMap.find? (s.pav p).tt x.val = some y) (runs : (s.pav p).halted = false)
    (outs : y.outs = []) (cross : y.cross = []) (evict : y.waitEvict = false) (phase : y.phase = .doneWait) (port : y.port = n.val)
    (unseen : y.doneSeen = false) (start : y.tstart = some d) (late : d + s.rf R.glbCohCtl 16 0 * ccPerUs ≤ s.now) :
    exec (.fwdTimeout p x n) s = .next (((s.timeoutDone p x n).deadFence n).pump p) := by
  change execFwdTimeout p x n s = _
  unfold execFwdTimeout
  rw [live_alive _ alive, found]
  dsimp only
  rw [if_neg (by simp [runs]), if_neg (by simp [outs, cross, evict]), if_pos (by simp [phase, port, outs, unseen, start, late])]

/-- Reporting a lost agent sets its port's event. -/
theorem agentLost_bit (ok : s.regsOk) (addr : Nat) :
    (((s.raise (R.portCohEvt n) 11).event .agentLost n.val addr).rget (R.portCohEvt n)).getLsbD 11 = true := by
  have apart : R.portCohEvt n ∉ [R.blvEvt, R.lodgeEvqStat] := by
    simp only [List.mem_cons, List.not_mem_nil, or_false]; unfold R.portCohEvt R.blvEvt R.lodgeEvqStat; omega
  rw [(event_logs _ _ _ _ _ _ _ _).rget ((raise_logs _ _ _).regsOk ok) apart]
  exact raise_bit _ 11 ok (by omega) (by omega)
/-- What a missing Done leaves before its transaction ends (R147). -/
theorem lostDone_reports (ok : s.regsOk) (rises : rising (s.pav p).tt) (owned : Bool) (addr : Nat) (la : LineAddr) (k : Option PlotId) :
    let u := ((((s.readEntry p la).lose p la n k owned).raise (R.portCohEvt n) 11).event .agentLost n.val addr).endTxn p e
    rising (u.pav p).tt ∧ u.entryFree p e ∧ (u.rget (R.portCohEvt n)).getLsbD 11 = true := by
  intro u
  have lost := (lose_tame (s.readEntry p la) p la n k owned).regs (((Checked.refl (p := p)).readEntry la).logs.regsOk ok)
  have noted : State.regsOk ((((s.readEntry p la).lose p la n k owned).raise (R.portCohEvt n) 11).event .agentLost n.val addr) :=
    (event_logs _ _ _ _ _ _ _ _).regsOk ((raise_logs _ _ _).regsOk lost)
  have kept : KeepsFree s ((((s.readEntry p la).lose p la n k owned).raise (R.portCohEvt n) 11).event .agentLost n.val addr) :=
    (((KeepsFree.refl.readEntry la).lose).raise _ _).event _ _ _ _ _ _ _
  refine ⟨kept.endTxn.rising rises, endTxn_free (kept.rising rises), ?_⟩
  rw [(Ended.refl.endTxn (p := p) (e := e)).logs.rget noted (cohEvt_apart p n)]
  exact agentLost_bit lost addr
end

/-- Settles O18. -/
theorem forwardTimeouts : Obligations.ForwardTimeouts := by
  intro p e n y s alive canon small found runs sound
  obtain ⟨csr, -, -, pavs, -⟩ := canon
  obtain ⟨-, -, -, -, wf, -, -, rises, -⟩ := pavs p
  refine ⟨fun o d out port sent late unique => ?_, fun d outs cross evict phase port unseen start late => ?_, fun d outs cross start early => ?_⟩
  · refine Completes.of_eq (fwdTimeout_forward alive found runs out port sent late) rfl ⟨_, rfl, ?_⟩
    rw [timeoutFwd_eq found sound]
    have reported : Tame [.csr, .glb, .blv, .lodge] (s.unanswered p e n y)
        (((s.unanswered p e n y).raise (R.portCohEvt n) 11).event .agentLost n.val (y.pa.toNat * 64)) :=
      ((raise_tame _ _ _).mono (by simp)).trans (event_tame _ _ _ _ _ _ _ _ |>.mono (by simp))
    have same := reported.only.pav_eq p
    obtain ⟨z, kept, outs', cross', kind, pa, lost⟩ := unanswered_found (n := n) found
    refine ⟨⟨z, by rw [same]; exact kept, outs', cross', kind, pa, fun owner forwards => lost ?_⟩, by rw [same]; exact unanswered_lists wf unique,
      agentLost_bit ((unanswered_tame s p e n y).regs csr) _, (unanswered_onlyPav s p e n y).trans (.of_only reported.only)⟩
    exact ownerLost_of owner forwards
  · obtain ⟨owned, eq⟩ := timeoutDone_eq (n := n) found
    obtain ⟨rises', gone, event⟩ := lostDone_reports (p := p) (e := e.val) (n := n) csr rises owned (y.pa.toNat * 64) y.pa y.chargeTo
    refine Completes.of_eq (fwdTimeout_done alive found runs outs cross evict phase port unseen start late) rfl ?_
    rw [eq]
    exact ⟨((KeepsFree.refl.deadFence n).pump p).free rises' small gone, _, rfl, gone, event⟩
  · exact fwdTimeout_early alive found outs cross start early
end Sys2Proof.Machine

namespace Sys2Proof.Machine
-- The proofs below are elaborated one after the other, which bounds the threads that checking the text takes.
set_option Elab.async false

/-! ## Where an agent's data goes (R123, R137, R138, R201, R233, R237) -/

/-- A miss register but for the transactions that wait for it. -/
def MissReg.quiet (r : MissReg) : MissReg := { r with waiters := [] }
/-- What a pavilion's lookups read, and where its home copies lie: the pavilion but for its directory, its transactions and its stack's queue. -/
def Pav.copy (v : Pav) : Pav :=
  { v with tt := [], dir := [], sweeps := [], retryDue := [], promises := [], gated := false, stackq := []
           miss := v.miss.map fun r => (r.1, r.2.quiet) }

theorem copy_findMiss (v : Pav) (q : Nat × MissReg → Bool) (same : ∀ r : Nat × MissReg, q (r.1, r.2.quiet) = q r) :
    v.copy.findMiss q = (v.findMiss q).map fun r => (r.1, r.2.quiet) := by
  unfold Pav.findMiss Pav.copy
  rw [List.find?_map]
  exact congrArg (Option.map _) (congrArg (List.find? · v.miss) (funext same))
theorem copy_regFor (v : Pav) (la : LineAddr) : v.copy.regFor la = v.regFor la := by
  unfold Pav.regFor
  rw [copy_findMiss v _ fun _ => rfl, Option.map_map]
  rfl
theorem copy_pendFor (v : Pav) (la : LineAddr) : v.copy.pendFor la = v.pendFor la := by
  unfold Pav.pendFor
  rw [copy_findMiss v _ fun _ => rfl, Option.map_map]
  rfl
theorem copy_lookGh (v : Pav) (la : LineAddr) : v.copy.lookGh la = v.lookGh la := by unfold Pav.lookGh; rw [copy_regFor]; rfl
theorem copy_lookSec (v : Pav) (la : LineAddr) : v.copy.lookSec la = v.lookSec la := by unfold Pav.lookSec; rw [copy_regFor, copy_pendFor]; rfl

/-- The home copies of a pavilion, and what decides where they lie, are as they were. -/
structure SameCopy (p : PavId) (s t : State) : Prop where
  copy : (t.pav p).copy = (s.pav p).copy
  hcEn : t.glb.hcEn = s.glb.hcEn
  disableClean : t.glb.disableClean = s.glb.disableClean
  stk : ∀ k, t.stk k = s.stk k

section
variable {s t u : State} {p : PavId} {e : Nat} {la : LineAddr} {d : Line} {po : Bool}

theorem SameCopy.refl : SameCopy p s s := ⟨rfl, rfl, rfl, fun _ => rfl⟩
theorem SameCopy.trans (h : SameCopy p s t) (k : SameCopy p t u) : SameCopy p s u :=
  ⟨k.copy.trans h.copy, k.hcEn.trans h.hcEn, k.disableClean.trans h.disableClean, fun j => (k.stk j).trans (h.stk j)⟩
theorem SameCopy.modPav (f : Pav → Pav) (hf : (f (s.pav p)).copy = (s.pav p).copy) : SameCopy p s (s.modPav p f) :=
  ⟨by rw [State.modPav_pav_same, hf], rfl, rfl, fun _ => rfl⟩
theorem SameCopy.modTxn (f : Txn → Txn) : SameCopy p s (s.modTxn p e f) := .modPav _ (by split <;> rfl)
/-- Counters, events and messages leave the copies alone. -/
theorem SameCopy.logs {ps : List Part} {os : List Nat} (k : Logs ps os s t) (hp : Part.pavs ∉ ps := by decide) (hs : Part.stks ∉ ps := by decide) :
    SameCopy p s t := ⟨by rw [k.only.pav_eq p hp], by rw [k.glb], by rw [k.glb], fun j => k.only.stk_eq j hs⟩
theorem SameCopy.dropAgent (n : Nat) : SameCopy p s (s.dropAgent p la n) := by
  obtain ⟨f, eq, effect⟩ := dropAgent_update s p la n
  rw [eq]
  refine .modPav f ?_
  obtain ⟨_, _, _, _, put⟩ := effect (s.pav p)
  rw [put]
  rfl

section
variable (h : SameCopy p s t)
include h

theorem SameCopy.field {α : Type} (g : Pav → α) (same : ∀ v : Pav, g v.copy = g v := by intro; rfl) : g (t.pav p) = g (s.pav p) := by
  rw [← same, h.copy, same]
theorem SameCopy.mode : t.mode p = s.mode p := by
  unfold State.mode
  rw [h.hcEn, h.disableClean, h.stk]
  dsimp only
  rw [h.field Pav.place, h.field Pav.from_]
theorem SameCopy.look (la : LineAddr) : t.look p la = s.look p la := by
  unfold State.look
  rw [h.mode, h.field (Pav.lookGh · la) (copy_lookGh · la), h.field (Pav.lookSec · la) (copy_lookSec · la),
    h.field (Pav.regFor · la) (copy_regFor · la), h.field (Pav.orFor · la)]
theorem SameCopy.writeThrough : t.writeThrough p = s.writeThrough p := by
  unfold State.writeThrough
  rw [h.disableClean, h.stk, h.field Pav.place]
end

/-! ### A transaction's own copy of the line -/

theorem dropFetch_same (returns : (s.pav p).stackRet = []) : SameCopy p s (s.dropFetch p e) := by
  refine .modPav _ ?_
  unfold Pav.copy Pav.missList
  rw [returns, List.map_map]
  rfl
theorem freshen_same (returns : (s.pav p).stackRet = []) (la : LineAddr) (d : Line) (po : Bool) : SameCopy p s (s.freshen p la d po) := by
  have dropped (e : Nat) (f : Txn → Txn) : SameCopy p s ((s.dropFetch p e).modTxn p e f) := (dropFetch_same returns).trans (.modTxn f)
  unfold State.freshen
  split
  · exact .refl
  · split
    · split
      · exact dropped _ _
      · split
        · exact dropped _ _
        · exact .refl
    · exact .refl

/-! ### Placements -/

theorem place_of_window (h : s.mode p = .window) : (s.pav p).place = .window := by
  unfold State.mode at h
  grind
theorem place_of_gh (h : s.mode p = .gh true) : (s.pav p).place = .ghCache ∧ s.glb.disableClean = false := by
  unfold State.mode at h
  grind
theorem place_of_sec (h : s.mode p = .sec true) : (s.pav p).place = .sectored ∧ s.glb.disableClean = false ∧ (s.stk (stackOfPav p)).com.st ≠ .failed := by
  unfold State.mode at h
  grind

theorem windowFirst_settled (la : LineAddr) (settled : (s.pav p).place ≠ .transition) : s.windowFirst p la = s := by
  unfold State.windowFirst
  exact if_neg (by simp [settled])
theorem lineHeld_none (la : LineAddr) (buffered : (s.pav p).evBuf = []) (pushes : (s.pav p).pushq = []) (returns : (s.pav p).stackRet = []) :
    s.lineHeld p la = false := by
  simp [State.lineHeld, State.pushHeld, Pav.wbOut, buffered, pushes, returns]

/-! ### The write of a line that nothing delays -/

theorem writeLine_window (k : Option PlotId) (mode : s.mode p = .window) : s.writeLine p la d po k none = (s.windowPut p la d po, .done) := by
  unfold State.writeLine; rw [mode]
theorem writeLine_ghHit (k : Option PlotId) {w : Nat} (mode : s.mode p = .gh true) (look : s.look p la = .hit w) :
    s.writeLine p la d po k none = ((s.commitGh p (ghSet la) w la d po true).modPav p fun v => v.touch (ghSet la) w, .done) := by
  obtain ⟨place, cleans⟩ := place_of_gh mode
  unfold State.writeLine
  rw [mode]
  dsimp only
  rw [look]
  exact if_neg (by simp [State.writeThrough, cleans, place])
/-- A line that misses takes an Invalid way of its set. -/
theorem writeLine_ghMiss (k : Option PlotId) (mode : s.mode p = .gh true) (look : s.look p la = .miss) (misses : (s.pav p).miss = [])
    (room : ∃ w, w < 16 ∧ ((s.pav p).ghe (ghSet la) w).valid = false) : ∃ w, w < 16
      ∧ s.writeLine p la d po k none = ((s.modPav p fun v => v.touch (ghSet la) w).commitGh p (ghSet la) w la d po true, .done) := by
  obtain ⟨free, small, invalid⟩ := room
  have unheld (w : Nat) : ((s.pav p).missList.any fun r => r.2.way = w && ghSet r.2.base = ghSet la) = false := by
    unfold Pav.missList; rw [misses]; rfl
  rcases chosen : ways16.find? fun w => !((s.pav p).ghe (ghSet la) w).valid && !((s.pav p).missList.any fun r => r.2.way = w && ghSet r.2.base = ghSet la) with _ | w
  · exact absurd (List.find?_eq_none.mp chosen free (List.mem_range.mpr small)) (by rw [unheld, invalid]; simp)
  · have allocates : s.allocGh p la = some (s.modPav p fun v => v.touch (ghSet la) w, w) := by
      unfold State.allocGh
      dsimp only
      rw [chosen]
    refine ⟨w, List.mem_range.mp (List.mem_of_find?_eq_some chosen), ?_⟩
    unfold State.writeLine
    rw [mode]
    dsimp only
    rw [look]
    dsimp only
    rw [if_pos rfl, allocates]
    rfl
theorem writeLine_sec (k : Option PlotId) {w : Nat} (mode : s.mode p = .sec true) (look : s.look p la = .hit w ∨ s.look p la = .sector w) :
    s.writeLine p la d po k none = ((s.commitSec p (setOf la) w (subOf la) la d po true k).modPav p fun v => v.touch (setOf la) w, .done) := by
  obtain ⟨place, cleans, stack⟩ := place_of_sec mode
  unfold State.writeLine
  rw [mode]
  dsimp only
  rcases look with look | look
  · rw [look]
    exact if_neg (by simp [State.writeThrough, cleans, stack])
  · rw [look]
    rfl

/-! ### What a write leaves in the home copy -/

theorem windowPut_holds (wf : FMap.wf (fun _ => ({} : SramLine)) (s.pav p).ghData = true) :
    ((s.windowPut p la d po).pav p).ghLineAt (windowIdx la) = if po then windowPoison else sramEncode d := by
  unfold State.windowPut
  rw [State.modPav_pav_same]
  exact FMap.get_put_same _ _ wf
/-- A line lies dirty in a way of the Glasshouse. -/
def Pav.ghLies (v : Pav) (la : LineAddr) (d : Line) (po : Bool) (w : Nat) : Prop :=
  v.ghe (ghSet la) w = GhEntry.seal { tag := ghTag la, valid := true, poison := po, dirtyA := true, dirtyB := true }
    ∧ v.ghLineAt (ghKey (ghSet la) w) = sramEncode (if po then 0 else d)
theorem commitGh_lies (w : Nat) (gh : FMap.wf (fun _ => ({} : GhEntry)) (s.pav p).gh = true) (data : FMap.wf (fun _ => ({} : SramLine)) (s.pav p).ghData = true) :
    ((s.commitGh p (ghSet la) w la d po true).pav p).ghLies la d po w := by
  unfold State.commitGh
  rw [State.modPav_pav_same]
  exact ⟨FMap.get_put_same _ _ gh, FMap.get_put_same _ _ data⟩
/-- A line lies dirty in its sub-block of a sector, and the last command to the stack writes it. -/
def Pav.secLies (v : Pav) (la : LineAddr) (d : Line) (po : Bool) (w : Nat) : Prop :=
  (v.tag (setOf la) w).present.getLsbD (subOf la) = true ∧ (v.tag (setOf la) w).dirty.getLsbD (subOf la) = true
    ∧ (v.stackq.getLast?.map fun c => (c.set, c.way, c.sub, c.pa, c.op))
      = some (setOf la, w, subOf la, la, .write (if po then stackPoison else stackEncode d))
theorem getLsbD_setBits_one {x : BitVec 64} {i : Nat} (h : i < 64) : (setBits x i i 1).getLsbD i = true := by
  rw [getLsbD_setBits x i i 1 i h (Nat.le_refl i), if_pos ⟨Nat.le_refl i, Nat.le_refl i⟩, Nat.sub_self]
  rfl
theorem commitSec_lies (w : Nat) (k : Option PlotId) (tags : FMap.wf (fun _ => ({} : TagEntry)) (s.pav p).tags = true) :
    ((s.commitSec p (setOf la) w (subOf la) la d po true k).pav p).secLies la d po w := by
  have small : subOf la < 64 := Nat.mod_lt _ (by decide)
  unfold State.commitSec State.stackCmd
  rw [State.modPav_pav_same, State.modPav_pav_same]
  dsimp only
  unfold Pav.secLies Pav.tag Pav.setTag
  dsimp only
  rw [FMap.get_put_same _ _ tags, List.getLast?_append]
  exact ⟨getLsbD_setBits_one small, getLsbD_setBits_one small, rfl⟩

/-! ### Data that is put away -/

/-- Data whose write is performed lies where the write put it. -/
theorem sink_done {k : Option PlotId} (runs : (s.pav p).halted = false) (sound : s.tagsSound p la) (buffered : (s.pav p).evBuf = [])
    (pushes : (s.pav p).pushq = []) (returns : (s.pav p).stackRet = []) (settled : (s.pav p).place ≠ .transition)
    (put : (s.freshen p la d po).writeLine p la d po k none = (u, .done)) : (s.sink p la d po k).pav p = u.pav p := by
  have same := freshen_same returns la d po
  unfold State.sink
  dsimp only
  rw [readTags_sound sound]
  generalize s.freshen p la d po = t at put same
  rw [windowFirst_settled la (by rw [same.field Pav.place]; exact settled), same.field Pav.halted, runs,
    lineHeld_none la (by rw [same.field Pav.evBuf]; exact buffered) (by rw [same.field Pav.pushq]; exact pushes)
      (by rw [same.field Pav.stackRet]; exact returns)]
  unfold State.putLine
  rw [put]
  have counted (m : Mode) (lk : Look) : (u.cntLook p m lk k).pav p = u.pav p := by
    unfold State.cntLook
    split
    · exact (cntPav_logs _ _ _ _ _).only.pav_eq p
    · exact (cntPav_logs _ _ _ _ _).only.pav_eq p
    · exact (cntPav_logs _ _ _ _ _).only.pav_eq p
    · exact (cntPav_logs _ _ _ _ _).only.pav_eq p
    · exact (cntPav_logs _ _ _ _ _).only.pav_eq p
    · rfl
  exact counted _ _

/-- An agent's data that is put away is in the home copy. -/
theorem sink_holds (k : Option PlotId) (runs : (s.pav p).halted = false) (tags : FMap.wf (fun _ => ({} : TagEntry)) (s.pav p).tags = true)
    (gh : FMap.wf (fun _ => ({} : GhEntry)) (s.pav p).gh = true) (ghData : FMap.wf (fun _ => ({} : SramLine)) (s.pav p).ghData = true) :
    s.copyHolds p la d po (s.sink p la d po k) := by
  intro buffered pushes returns sound
  have same := freshen_same returns la d po
  have ghData' : FMap.wf (fun _ => ({} : SramLine)) ((s.freshen p la d po).pav p).ghData = true := by rw [same.field Pav.ghData]; exact ghData
  have gh' : FMap.wf (fun _ => ({} : GhEntry)) ((s.freshen p la d po).pav p).gh = true := by rw [same.field Pav.gh]; exact gh
  refine ⟨fun mode => ?_, fun mode => ⟨fun w look => ?_, fun look misses room => ?_⟩, fun w mode look => ?_⟩
  · rw [sink_done runs sound buffered pushes returns (by rw [place_of_window mode]; decide) (writeLine_window k (same.mode.trans mode))]
    exact windowPut_holds ghData'
  · rw [sink_done runs sound buffered pushes returns (by rw [(place_of_gh mode).1]; decide)
      (writeLine_ghHit k (same.mode.trans mode) ((same.look la).trans look)), State.modPav_pav_same]
    exact commitGh_lies w gh' ghData'
  · have misses' : ((s.freshen p la d po).pav p).miss = [] := by
      have count := same.field (fun v => v.miss.length) fun _ => List.length_map _
      exact List.eq_nil_of_length_eq_zero (by rw [count, misses]; rfl)
    obtain ⟨w, small, put⟩ := writeLine_ghMiss (la := la) (d := d) (po := po) k (same.mode.trans mode) ((same.look la).trans look) misses'
      (by obtain ⟨w, small, invalid⟩ := room; exact ⟨w, small, by rw [same.field fun v => v.ghe (ghSet la) w]; exact invalid⟩)
    refine ⟨w, small, ?_⟩
    rw [sink_done runs sound buffered pushes returns (by rw [(place_of_gh mode).1]; decide) put]
    exact commitGh_lies w (by rw [State.modPav_pav_same]; exact gh') (by rw [State.modPav_pav_same]; exact ghData')
  · rw [sink_done runs sound buffered pushes returns (by rw [(place_of_sec mode).1]; decide)
      (writeLine_sec k (same.mode.trans mode) (by rw [same.look la]; exact look)), State.modPav_pav_same]
    exact commitSec_lies w k (by rw [same.field Pav.tags]; exact tags)

/-- Where the data lies is decided by the copies as they were before. -/
theorem SameCopy.holds (h : SameCopy p s t) (k : t.copyHolds p la d po u) : s.copyHolds p la d po u := by
  intro buffered pushes returns sound
  have tagAt (set w : Nat) : (t.pav p).tag set w = (s.pav p).tag set w := h.field fun v => v.tag set w
  have gheAt (set w : Nat) : (t.pav p).ghe set w = (s.pav p).ghe set w := h.field fun v => v.ghe set w
  obtain ⟨window, cache, sector⟩ := k (by rw [h.field Pav.evBuf]; exact buffered) (by rw [h.field Pav.pushq]; exact pushes)
    (by rw [h.field Pav.stackRet]; exact returns) ⟨fun w small => by rw [tagAt]; exact sound.1 w small, fun w small => by rw [gheAt]; exact sound.2 w small⟩
  rw [h.mode] at window cache
  rw [h.look] at cache
  have count := h.field (fun v => v.miss.length) fun _ => List.length_map _
  refine ⟨window, fun mode => ?_, fun w mode look => sector w (h.mode.trans mode) (by rw [h.look]; exact look)⟩
  obtain ⟨hits, allocates⟩ := cache mode
  refine ⟨hits, fun look misses room => allocates look (List.eq_nil_of_length_eq_zero (by rw [count, misses]; rfl)) ?_⟩
  obtain ⟨w, small, invalid⟩ := room
  exact ⟨w, small, by rw [gheAt]; exact invalid⟩
/-- Where nothing has touched the copies before, an agent's data is put where they were. -/
theorem SameCopy.sink (h : SameCopy p s t) (k : Option PlotId) (canon : (s.pav p).canon) (runs : (s.pav p).halted = false) :
    s.copyHolds p la d po (t.sink p la d po k) := by
  obtain ⟨tags, -, gh, ghData, -⟩ := canon
  exact h.holds (sink_holds k (by rw [h.field Pav.halted]; exact runs) (by rw [h.field Pav.tags]; exact tags) (by rw [h.field Pav.gh]; exact gh)
    (by rw [h.field Pav.ghData]; exact ghData))
/-- What leaves the stores and the stack's queue alone leaves the data where it is. -/
theorem copyHolds_kept (h : s.copyHolds p la d po u) (gh : (t.pav p).gh = (u.pav p).gh) (ghData : (t.pav p).ghData = (u.pav p).ghData)
    (tags : (t.pav p).tags = (u.pav p).tags) (stackq : (t.pav p).stackq = (u.pav p).stackq) : s.copyHolds p la d po t := by
  unfold State.copyHolds Pav.ghe Pav.ghLineAt Pav.tag at *
  rw [gh, ghData, tags, stackq]
  exact h
theorem copyHolds_modTxn (h : s.copyHolds p la d po u) (f : Txn → Txn) : s.copyHolds p la d po (u.modTxn p e f) := by
  have kept {α : Type} (g : Pav → α) (same : ∀ v m, g { v with tt := m } = g v) : g ((u.modTxn p e f).pav p) = g (u.pav p) := by
    unfold State.modTxn
    rw [State.modPav_pav_same]
    split
    · rfl
    · exact same _ _
  exact copyHolds_kept h (kept Pav.gh fun _ _ => rfl) (kept Pav.ghData fun _ _ => rfl) (kept Pav.tags fun _ _ => rfl) (kept Pav.stackq fun _ _ => rfl)
theorem copyHolds_meterWr (h : s.copyHolds p la d po u) (k : PlotId) : s.copyHolds p la d po (u.meterWr p k) := by
  have kept {α : Type} (g : Pav → α) (same : ∀ v m, g { v with meters := m } = g v) : g ((u.meterWr p k).pav p) = g (u.pav p) := by
    unfold State.meterWr
    rw [State.modPav_pav_same]
    exact same _ _
  exact copyHolds_kept h (kept Pav.gh fun _ _ => rfl) (kept Pav.ghData fun _ _ => rfl) (kept Pav.tags fun _ _ => rfl) (kept Pav.stackq fun _ _ => rfl)
/-- Of poisoned data nothing is kept. -/
theorem copyHolds_poisoned (h : s.copyHolds p la (if po then 0 else d) po u) : s.copyHolds p la d po u := by
  cases po with
  | true => exact h
  | false => exact h
end
end Sys2Proof.Machine

namespace Sys2Proof.Machine
-- The proofs below are elaborated one after the other, which bounds the threads that checking the text takes.
set_option Elab.async false

/-! ## Answers to forwards (R123, R125 to R128, R135, R137) -/

section
variable {s t u v : State} {n : PortId} {m : Msg} {p : PavId} {e cls : Nat} {y : Txn} {o : FwdOut}

theorem Woken.same (h : Woken n cls p s v) : SameCopy p s v :=
  ⟨by rw [h.pav]; rfl, by rw [h.logs.glb], by rw [h.logs.glb], fun j => h.logs.only.stk_eq j⟩
theorem Woken.dir (h : Woken n cls p s v) : (v.pav p).dir = (s.pav p).dir := by rw [h.pav]
theorem Woken.readEntry (h : Woken n cls p s v) {la : LineAddr} (sound : (s.pav p).dirSound (dirSet la)) : v.readEntry p la = v :=
  readEntry_sound fun w small => by unfold Pav.dirAt; rw [h.dir]; exact sound w small
theorem Woken.now (h : Woken n cls p s v) : v.now = s.now := h.logs.only.now_eq

/-- A protocol error is reported at its port and changes nothing else. -/
theorem protoErr_logs (s : State) (n : PortId) : Logs [.csr, .glb] [R.portLinkEvt n] s (s.protoErr n) := raise_logs s _ _
theorem protoErr_bit (ok : s.regsOk) (n : PortId) : ((s.protoErr n).rget (R.portLinkEvt n)).getLsbD 13 = true := raise_bit _ 13 ok (by omega) (by omega)

/-- An answer that names nothing is a protocol error. -/
theorem Woken.protoErr (h : Woken n cls p s v) (ok : s.regsOk) :
    ((v.protoErr n).rget (R.portLinkEvt n)).getLsbD 13 = true ∧ s.creditGiven n cls (v.protoErr n)
      ∧ (v.protoErr n).pav p = { s.pav p with gated := false } ∧ OnlyPav p s (v.protoErr n) ∧ OnlyParts [.ports, .pavs, .csr, .glb, .blv] s (v.protoErr n) := by
  have err := protoErr_logs v n
  exact ⟨protoErr_bit (h.logs.regsOk ok) n, creditGiven_after h.given err.only, by rw [err.only.pav_eq, h.pav], h.only.trans (.of_only err.only),
    h.logs.only.trans (err.only.mono (by simp))⟩
theorem invAck_none (none_ : s.txnOf m = none) : s.invAck n m = s.protoErr n := by unfold State.invAck; rw [none_]
theorem fwdAck_none (none_ : s.txnOf m = none) : s.fwdAck n m = s.protoErr n := by unfold State.fwdAck; rw [none_]
theorem fwdAckD_none (none_ : s.txnOf m = none) : s.fwdAckD n m = s.protoErr n := by unfold State.fwdAckD; rw [none_]
theorem rspCrossed_none (none_ : s.txnOf m = none) : s.rspCrossed n m = s.protoErr n := by unfold State.rspCrossed; rw [none_]

/-! ### Answers to an outstanding forward -/

theorem answered_find (found : FMap.find? (s.pav p).tt e = some y) :
    FMap.find? ((s.answered p e n).pav p).tt e = some { y with outs := y.outs.filter fun x => x.port ≠ n.val } := modTxn_find _ found
theorem ackAgent_req {op : BitVec 8} (kind : y.kind = .req op) : s.ackAgent p e y n = s.modTxn p e fun t => { t with acked := n.val :: t.acked } := by
  unfold State.ackAgent; rw [kind]
theorem ackAgent_recall (kind : ∀ op, y.kind ≠ .req op) : s.ackAgent p e y n = s.dropAgent p y.pa n := by
  unfold State.ackAgent
  split
  · next op eq => exact absurd eq (kind op)
  · rfl
theorem ackAgent_cases (s : State) (p : PavId) (e : Nat) (y : Txn) (n : PortId) :
    (∃ op, y.kind = .req op ∧ s.ackAgent p e y n = s.modTxn p e fun t => { t with acked := n.val :: t.acked })
      ∨ (∀ op, y.kind ≠ .req op) ∧ s.ackAgent p e y n = s.dropAgent p y.pa n := by
  by_cases kind : ∃ op, y.kind = .req op
  · obtain ⟨op, kind⟩ := kind; exact .inl ⟨op, kind, ackAgent_req kind⟩
  · exact .inr ⟨fun op eq => kind ⟨op, eq⟩, ackAgent_recall fun op eq => kind ⟨op, eq⟩⟩
theorem ackAgent_tame (s : State) (p : PavId) (e : Nat) (y : Txn) (n : PortId) : Tame [.pavs] s (s.ackAgent p e y n) := by
  rcases ackAgent_cases s p e y n with ⟨_, _, eq⟩ | ⟨_, eq⟩ <;> rw [eq]
  · exact modTxn_tame _
  · exact dropAgent_tame s p _ n
theorem ackAgent_onlyPav (s : State) (p : PavId) (e : Nat) (y : Txn) (n : PortId) : OnlyPav p s (s.ackAgent p e y n) := by
  rcases ackAgent_cases s p e y n with ⟨_, _, eq⟩ | ⟨_, eq⟩ <;> rw [eq]
  · exact modTxn_onlyPav _
  · exact dropAgent_onlyPav s p _ n
theorem ackAgent_same (s : State) (p : PavId) (e : Nat) (y : Txn) (n : PortId) : SameCopy p s (s.ackAgent p e y n) := by
  rcases ackAgent_cases s p e y n with ⟨_, _, eq⟩ | ⟨_, eq⟩ <;> rw [eq]
  · exact .modTxn _
  · exact .dropAgent _
theorem dropAgent_tt (s : State) (p : PavId) (la : LineAddr) (n : Nat) : ((s.dropAgent p la n).pav p).tt = (s.pav p).tt := by
  obtain ⟨f, eq, effect⟩ := dropAgent_update s p la n
  obtain ⟨_, _, _, _, put⟩ := effect (s.pav p)
  rw [eq, State.modPav_pav_same, put]

/-- The state after an answer of a holder has been processed. -/
def State.acks (s : State) (p : PavId) (e : Nat) (y : Txn) (n : PortId) : State := (s.answered p e n).ackAgent p e y n

theorem acks_tame (s : State) (p : PavId) (e : Nat) (y : Txn) (n : PortId) : Tame [.pavs] s (s.acks p e y n) :=
  (modTxn_tame _).trans (ackAgent_tame _ p e y n)
theorem acks_onlyPav (s : State) (p : PavId) (e : Nat) (y : Txn) (n : PortId) : OnlyPav p s (s.acks p e y n) :=
  (modTxn_onlyPav _).trans (ackAgent_onlyPav _ p e y n)
theorem acks_same (s : State) (p : PavId) (e : Nat) (y : Txn) (n : PortId) : SameCopy p s (s.acks p e y n) :=
  (SameCopy.modTxn _).trans (ackAgent_same _ p e y n)
/-- A request's forward is answered: the holder leaves the entry with the request's final state (R118). -/
theorem acks_req {op : BitVec 8} (found : FMap.find? (s.pav p).tt e = some y) (kind : y.kind = .req op) :
    FMap.find? ((s.acks p e y n).pav p).tt e = some { y with outs := y.outs.filter (fun x => x.port ≠ n.val), acked := n.val :: y.acked }
      ∧ ((s.acks p e y n).pav p).dir = (s.pav p).dir := by
  unfold State.acks
  rw [ackAgent_req kind]
  exact ⟨modTxn_find _ (answered_find found), by rw [modTxn_dir]; exact modTxn_dir s p e _⟩
/-- A recall's forward is answered: the holder leaves the entry at once (R135). -/
theorem acks_recall (found : FMap.find? (s.pav p).tt e = some y) (kind : ∀ op, y.kind ≠ .req op)
    (wf : FMap.wf (fun _ => ({} : DirEntry)) (s.pav p).dir = true) (unique : (s.pav p).dirUnique y.pa) :
    FMap.find? ((s.acks p e y n).pav p).tt e = some { y with outs := y.outs.filter fun x => x.port ≠ n.val }
      ∧ (((s.acks p e y n).pav p).entry y.pa).lists n = false := by
  have same : ((s.answered p e n).pav p).dir = (s.pav p).dir := modTxn_dir s p e _
  unfold State.acks
  rw [ackAgent_recall kind, dropAgent_tt, dropAgent_lists _ p y.pa n n (by rw [same]; exact wf) (by unfold Pav.dirUnique Pav.dirAt; rw [same]; exact unique)]
  exact ⟨answered_find found, by simp⟩
theorem acks_found (found : FMap.find? (s.pav p).tt e = some y) : ∃ z, FMap.find? ((s.acks p e y n).pav p).tt e = some z
    ∧ z.outs = y.outs.filter (fun x => x.port ≠ n.val) ∧ z.kind = y.kind ∧ z.pa = y.pa ∧ ∀ op, y.kind = .req op → z.acked = n.val :: y.acked := by
  unfold State.acks
  rcases ackAgent_cases (s.answered p e n) p e y n with ⟨_, _, eq⟩ | ⟨none_, eq⟩ <;> rw [eq]
  · exact ⟨_, modTxn_find _ (answered_find found), rfl, rfl, rfl, fun _ _ => rfl⟩
  · rw [dropAgent_tt]
    exact ⟨_, answered_find found, rfl, rfl, rfl, fun op kind => absurd kind (none_ op)⟩

theorem invAck_acks (named : s.txnOf m = some (p, e, y)) (out : y.outTo n = some o) (op : o.op = Op.inv ∨ o.op = Op.rcl)
    (entry : s.readEntry p y.pa = s) : s.invAck n m = (((s.acks p e y n).advance p e).pump p).slotUse p 2 := by
  unfold State.invAck
  rw [named]
  dsimp only
  rw [out]
  dsimp only
  rw [if_pos (by simpa using op), entry]
  rfl
/-- The owner has sent its data to the requester (R125, R127). -/
def State.ownerSent (s : State) (p : PavId) (e : Nat) (n : PortId) : State := (s.answered p e n).modTxn p e fun t => { t with ownerData := true }
theorem fwdAck_sent (named : s.txnOf m = some (p, e, y)) (out : y.outTo n = some o) (op : o.op = Op.fwdS ∨ o.op = Op.fwdO)
    (entry : s.readEntry p y.pa = s) : s.fwdAck n m = ((s.ownerSent p e n).advance p e).pump p := by
  unfold State.fwdAck
  rw [named]
  dsimp only
  rw [out]
  dsimp only
  rw [if_pos (by simpa using op), entry]
  rfl
theorem ownerSent_find (found : FMap.find? (s.pav p).tt e = some y) :
    FMap.find? ((s.ownerSent p e n).pav p).tt e = some { y with outs := y.outs.filter (fun x => x.port ≠ n.val), ownerData := true } :=
  modTxn_find _ (answered_find found)
theorem ownerSent_tame (s : State) (p : PavId) (e : Nat) (n : PortId) : Tame [.pavs] s (s.ownerSent p e n) := (modTxn_tame _).trans (modTxn_tame _)
theorem ownerSent_onlyPav (s : State) (p : PavId) (e : Nat) (n : PortId) : OnlyPav p s (s.ownerSent p e n) := (modTxn_onlyPav _).trans (modTxn_onlyPav _)
theorem ownerSent_dir (s : State) (p : PavId) (e : Nat) (n : PortId) : ((s.ownerSent p e n).pav p).dir = (s.pav p).dir :=
  (modTxn_dir _ p e _).trans (modTxn_dir s p e _)

/-- An owner's data goes into the hub copy, and is metered. -/
def State.keepData (s : State) (p : PavId) (la : LineAddr) (d : Line) (po : Bool) (k : PlotId) : State := (s.sink p la d po (some k)).meterWr p k
theorem HomeOnly.keepData (h : HomeOnly p s t) (la : LineAddr) (d : Line) (po : Bool) (k : PlotId) : HomeOnly p s (t.keepData p la d po k) :=
  (h.sink la d po _).meterWr k
theorem fwdAckD_sent (named : s.txnOf m = some (p, e, y)) (out : y.outTo n = some o) (op : o.op = Op.fwdS) (entry : s.readEntry p y.pa = s) :
    s.fwdAckD n m = (((s.keepData p y.pa (if m.hdr.poison || s.homePoisoned p y.pa then 0 else msgData m) (m.hdr.poison || s.homePoisoned p y.pa)
      m.hdr.plot).ownerSent p e n).advance p e).pump p := by
  unfold State.fwdAckD
  rw [named]
  dsimp only
  rw [out]
  dsimp only
  rw [if_pos op, entry]
  rfl
theorem recallD_acks (named : s.txnOf m = some (p, e, y)) (out : y.outTo n = some o) (op : o.op = Op.rcl) (entry : s.readEntry p y.pa = s)
    (owner : ((s.pav p).entry y.pa).own = some n.val) :
    s.recallD n m = ((((s.acks p e y n).keepData p y.pa (msgData m) m.hdr.poison m.hdr.plot).advance p e).pump p).slotUse p 2 := by
  unfold State.recallD
  rw [named]
  dsimp only
  rw [out]
  dsimp only
  rw [if_pos op, entry, if_pos (by simp [owner])]
  rfl

/-- A forward that crossed an eviction waits for it, unless the eviction has come already (R137). -/
def Txn.crosses (n : PortId) (now : Nat) (t : Txn) : Txn :=
  let t := { t with fwdOwner := if t.fwdOwner = some n.val then none else t.fwdOwner }
  if t.gone.contains n.val then { t with gone := t.gone.erase n.val } else { t with cross := t.cross ++ [(n.val, now)], phase := .crossed }
theorem rspCrossed_crosses (named : s.txnOf m = some (p, e, y)) (out : y.outTo n = some o) (op : o.op ≠ Op.stashOffer) (entry : s.readEntry p y.pa = s) :
    ∃ u, s.rspCrossed n m = (u.advance p e).pump p ∧ FMap.find? (u.pav p).tt e = some (({ y with outs := y.outs.filter fun x => x.port ≠ n.val }).crosses n s.now)
      ∧ (u.pav p).dir = (s.pav p).dir ∧ OnlyPav p s u ∧ Tame [.pavs] s u := by
  obtain ⟨found, -, rfl, rfl⟩ := txnOf_eq.mp named
  unfold State.rspCrossed
  rw [named]
  dsimp only
  rw [out]
  dsimp only
  rw [if_neg op, entry]
  refine ⟨_, rfl, modTxn_find _ (modTxn_find _ (answered_find found)), ?_, (modTxn_onlyPav _).trans ((modTxn_onlyPav _).trans (modTxn_onlyPav _)),
    (modTxn_tame _).trans ((modTxn_tame _).trans (modTxn_tame _))⟩
  rw [modTxn_dir, modTxn_dir]
  exact modTxn_dir s _ _ _

/-! ### What an answer's acceptance leaves of the address map (R26 to R29, R282) -/

theorem hashBit_congr {f g : Nat → Nat} (same : ∀ j, j < 16 → f j = g j) (sec : Nat) {b : Nat} (small : b < 4) : hashBit f sec b = hashBit g sec b :=
  List.foldl_ext _ _ _ fun x k mem => by
    have := List.mem_range.mp mem
    rw [same (4 * b + k) (by omega)]
theorem hashWith_congr {f g : Nat → Nat} (same : ∀ j, j < 16 → f j = g j) (sec : Nat) : hashWith f sec = hashWith g sec :=
  List.foldl_ext _ _ _ fun x b mem => by rw [hashBit_congr same sec (List.mem_range.mp mem)]

/-- The maps of addresses are as they were. -/
structure SameMaps (s t : State) : Prop where
  glb : t.glb = { s.glb with msixPend := t.glb.msixPend, fatalNew := t.glb.fatalNew }
  fold : ∀ j, j < 16 → t.rget (R.glbIlFold j) = s.rget (R.glbIlFold j)
  window : t.rget R.glbBootWin = s.rget R.glbBootWin

theorem SameMaps.trans (h : SameMaps s t) (k : SameMaps t u) : SameMaps s u :=
  ⟨by rw [k.glb, h.glb], fun j small => (k.fold j small).trans (h.fold j small), k.window.trans h.window⟩
theorem SameMaps.logs {ps : List Part} {os : List Nat} (k : Logs ps os s t) (ok : s.regsOk) (apart : ∀ o ∈ os, 0x1000 ≤ o) : SameMaps s t :=
  ⟨k.glb, fun j small => k.rget ok fun mem => by have := apart _ mem; unfold R.glbIlFold at this; omega,
    k.rget ok fun mem => absurd (apart _ mem) (by decide)⟩

section
variable (h : SameMaps s t) (la : LineAddr)
include h

theorem SameMaps.hash : t.hash la = s.hash la := hashWith_congr (fun j small => by unfold State.fold State.rf; rw [h.fold j small]) _
theorem SameMaps.home : t.home la = s.home la := by unfold State.home; rw [h.hash la, h.glb]
theorem SameMaps.chanFor : t.chanFor la = s.chanFor la := by unfold State.chanFor; rw [h.hash la]
theorem SameMaps.isHome : t.isHome la = s.isHome la := by unfold State.isHome; rw [h.glb]
theorem SameMaps.llOf : t.llOf la = s.llOf la := by unfold State.llOf; rw [h.glb]
theorem SameMaps.unmapped : t.unmapped la = s.unmapped la := by unfold State.unmapped; rw [h.llOf la, h.glb]
theorem SameMaps.inWindow : t.inWindow la = s.inWindow la := by unfold State.inWindow State.rf; rw [h.window, h.glb]
end

theorem Woken.maps (h : Woken n cls p s v) (ok : s.regsOk) : SameMaps s v := .logs h.logs ok (by decide)
theorem protoErr_maps (ok : s.regsOk) (n : PortId) : SameMaps s (s.protoErr n) := .logs (protoErr_logs s n) ok fun o mem => by
  obtain rfl := List.mem_singleton.mp mem; unfold R.portLinkEvt; omega
/-- Taking an answer leaves the home's poison as it is. -/
theorem Woken.homePoisoned (h : Woken n cls p s v) (ok : s.regsOk) (la : LineAddr) : v.homePoisoned p la = s.homePoisoned p la := by
  have memory : v.memPoisoned la = s.memPoisoned la := by
    unfold State.memPoisoned
    rw [(h.maps ok).chanFor, (h.maps ok).llOf, h.logs.only.chan_eq]
  unfold State.homePoisoned
  rw [memory, h.same.mode, h.same.look, h.pav]
  rfl

/-! ### A RecallD that answers no Recall (R126) -/

/-- The clock of a line's home pavilion runs after an error has been reported. -/
theorem strayRecallD_cases {la : LineAddr} (homely : (s.protoErr n).isHome la = true) (home : p = (s.protoErr n).home la) (runs : (s.pav p).halted = false)
    (sound : (s.pav p).dirSound (dirSet la)) :
    s.strayRecallD n la = if ((s.pav p).entry la).own = some n.val then (s.protoErr n).wakePav p else ((s.protoErr n).wakePav p).dropAgent p la n := by
  subst home
  have err := (protoErr_logs s n).only.pav_eq ((s.protoErr n).home la)
  unfold State.strayRecallD
  dsimp only
  rw [homely, err, runs, if_neg (by simp), checkDir_sound (fun w small => by unfold Pav.dirAt; rw [wakePav_pav, err]; exact sound w small),
    entry_congr (v := s.pav ((s.protoErr n).home la)) (by rw [wakePav_pav, err])]
theorem recallD_none (none_ : s.txnOf m = none) : s.recallD n m = s.strayRecallD n m.hdr.pa := by unfold State.recallD; rw [none_]
end
end Sys2Proof.Machine

namespace Sys2Proof.Machine
-- The proofs below are elaborated one after the other, which bounds the threads that checking the text takes.
set_option Elab.async false

/-! ## Answers to forwards: the statement -/

section
variable {s : State} {n : PortId} {m : Msg} {p : PavId} {e : Nat} {y : Txn} {o : FwdOut} (alive : s.alive = true) (ok : s.regsOk)
  (caches : s.rbit (R.portCohCtl n) 2 = true)
include alive ok caches

/-- An answer from a caching port, to no transaction of a halted pavilion, runs its effect from a state where it has been taken. -/
theorem answer_runs {i : Instr} (op : BitVec 8) (f : State → State)
    (run : exec i s = live s fun s => s.answerIn n (withOp m op) f)
    (runs : (s.pav (htidPav m.hdr.htid)).halted = true → s.txnOf m = none)
    (plain : [Op.stashAcc, Op.stashDecl, Op.ioAck, Op.ioDat, Op.wbD, Op.evC].contains op = false := by decide) :
    ∃ v, exec i s = .next (f v) ∧ Woken n (classOf op) (htidPav m.hdr.htid) s v := by
  have stash : ¬(op = Op.stashAcc ∨ op = Op.stashDecl) := by rintro (rfl | rfl) <;> simp at plain
  have wakes : [Op.ioAck, Op.ioDat, Op.wbD, Op.evC].contains op = false := by
    simp only [List.contains_cons, List.contains_nil, Bool.or_false, Bool.or_eq_false_iff] at plain ⊢
    tauto
  obtain ⟨v, eq, woken⟩ := answerIn_woken op f ok (answerBarred_caching caches fun h => absurd h stash) runs wakes
  exact ⟨v, run.trans ((live_alive _ alive).trans (congrArg _ eq)), woken⟩

/-- An answer that names nothing only reports the error. -/
theorem unnamed_completes {i : Instr} (op : BitVec 8) {f : State → State} (run : exec i s = live s fun s => s.answerIn n (withOp m op) f)
    (none_ : s.txnOf m = none) (errs : ∀ v, v.txnOf (withOp m op) = none → f v = v.protoErr n)
    (plain : [Op.stashAcc, Op.stashDecl, Op.ioAck, Op.ioDat, Op.wbD, Op.evC].contains op = false := by decide) :
    Completes i s fun t =>
      (t.rget (R.portLinkEvt n)).getLsbD 13 = true ∧ s.creditGiven n (classOf op) t ∧ t.pav (htidPav m.hdr.htid) = { s.pav (htidPav m.hdr.htid) with gated := false }
        ∧ OnlyPav (htidPav m.hdr.htid) s t ∧ OnlyParts [.ports, .pavs, .csr, .glb, .blv] s t := by
  obtain ⟨v, run, woken⟩ := answer_runs alive ok caches op f run (fun _ => none_) plain
  exact Completes.of_eq run (errs v ((woken.txnOf _).trans none_)) (woken.protoErr ok)

/-- A RecallD that answers no Recall is an error, and clears a sharer's bit. -/
theorem recallD_unnamed (none_ : s.txnOf m = none) (homely : s.isHome m.hdr.pa = true) (home : p = s.home m.hdr.pa) (runs : (s.pav p).halted = false)
    (sound : (s.pav p).dirSound (dirSet m.hdr.pa)) (unique : (s.pav p).dirUnique m.hdr.pa) (wf : FMap.wf (fun _ => ({} : DirEntry)) (s.pav p).dir = true) :
    let q := htidPav m.hdr.htid
    Completes (.recalld n m) s fun t =>
      (t.rget (R.portLinkEvt n)).getLsbD 13 = true ∧ s.creditGiven n 3 t
        ∧ (((s.pav p).entry m.hdr.pa).own = some n.val → t.pav p = { s.pav p with gated := false })
        ∧ (((s.pav p).entry m.hdr.pa).own ≠ some n.val → ((t.pav p).entry m.hdr.pa).lists n = false)
        ∧ (q ≠ p → t.pav q = { s.pav q with gated := false }) ∧ (∀ k, k ≠ p → k ≠ q → t.pav k = s.pav k)
        ∧ OnlyParts [.ports, .pavs, .csr, .glb, .blv] s t := by
  intro q
  obtain ⟨v, run, woken⟩ := answer_runs (i := .recalld n m) (m := m) alive ok caches Op.recallD (fun s => s.recallD n (withOp m Op.recallD)) rfl (fun _ => none_)
  have ok' := woken.logs.regsOk ok
  have err := protoErr_logs v n
  have maps := (woken.maps ok).trans (protoErr_maps ok' n)
  -- the home pavilion's directory is as it was, whichever pavilion the answer came for
  have still : v.pav p = { s.pav p with gated := (v.pav p).gated } := by
    by_cases eq : p = q
    · rw [eq, woken.pav]
    · rw [woken.only p eq]
  have same : (v.pav p).dir = (s.pav p).dir := by rw [still]
  have entry : (v.pav p).entry m.hdr.pa = (s.pav p).entry m.hdr.pa := entry_congr same
  have effect := (recallD_none ((woken.txnOf _).trans none_)).trans (strayRecallD_cases (s := v) (p := p) (la := m.hdr.pa) ((maps.isHome _).trans homely)
    (home.trans (maps.home _).symm) (by rw [still]; exact runs) (fun w small => by unfold Pav.dirAt; rw [same]; exact sound w small))
  obtain ⟨w, begun⟩ : ∃ w, w = (v.protoErr n).wakePav p := ⟨_, rfl⟩
  have woke : Tame [.pavs] (v.protoErr n) w := begun ▸ wakePav_tame _ p
  have onlyPav : OnlyPav p v w := (OnlyPav.of_only err.only).trans (begun ▸ wakePav_onlyPav _ p)
  have pav : w.pav p = { s.pav p with gated := false } := by rw [begun, wakePav_pav, err.only.pav_eq, still]
  -- what holds of that state holds of one where a port has left the line's entry too
  have reports {t : State} (more : Tame [.pavs] w t) (only : OnlyPav p w t) : (t.rget (R.portLinkEvt n)).getLsbD 13 = true ∧ s.creditGiven n 3 t
      ∧ (q ≠ p → t.pav q = { s.pav q with gated := false }) ∧ (∀ k, k ≠ p → k ≠ q → t.pav k = s.pav k) ∧ OnlyParts [.ports, .pavs, .csr, .glb, .blv] s t := by
    have reach := onlyPav.trans only
    refine ⟨?_, creditGiven_after (creditGiven_after woken.given err.only) (woke.trans more).only, fun ne => (reach q ne).trans woken.pav,
      fun k ne ne' => (reach k ne).trans (woken.only k ne'), (woken.logs.only.trans (err.only.mono (by simp))).trans ((woke.trans more).mono (by simp)).only⟩
    rw [more.only.rget_eq, woke.only.rget_eq]
    exact protoErr_bit ok' n
  rw [← begun, entry] at effect
  refine Completes.of_eq run effect ?_
  split
  · next own =>
    obtain ⟨event, credit, named, others, parts⟩ := reports .refl fun _ _ => rfl
    exact ⟨event, credit, fun _ => pav, fun ne => absurd own ne, named, others, parts⟩
  · next own =>
    obtain ⟨event, credit, named, others, parts⟩ := reports (dropAgent_tame w p m.hdr.pa n) (dropAgent_onlyPav w p m.hdr.pa n)
    refine ⟨event, credit, fun eq => absurd eq own, fun _ => ?_, named, others, parts⟩
    rw [dropAgent_lists w p m.hdr.pa n n (by rw [pav]; exact wf) (by rw [pav]; exact unique)]
    simp

/-! ### Answers to an outstanding forward of a transaction -/

section
variable (canon : (s.pav p).canon) (named : s.txnOf m = some (p, e, y)) (out : y.outTo n = some o) (runs : (s.pav p).halted = false)
  (sound : (s.pav p).dirSound (dirSet y.pa)) (unique : (s.pav p).dirUnique y.pa)
include named runs

/-- Its effect begins where it has been taken, with the transaction as it was. -/
theorem answer_names {i : Instr} (op : BitVec 8) (f : State → State) (run : exec i s = live s fun s => s.answerIn n (withOp m op) f)
    (plain : [Op.stashAcc, Op.stashDecl, Op.ioAck, Op.ioDat, Op.wbD, Op.evC].contains op = false := by decide) :
    ∃ v, exec i s = .next (f v) ∧ Woken n (classOf op) p s v ∧ v.txnOf (withOp m op) = some (p, e, y) ∧ FMap.find? (v.pav p).tt e = some y := by
  obtain ⟨found, -, rfl, rfl⟩ := txnOf_eq.mp named
  obtain ⟨v, ran, woken⟩ := answer_runs alive ok caches op f run (fun halted => absurd halted (by simp [runs])) plain
  exact ⟨v, ran, woken, (woken.txnOf _).trans named, by rw [woken.tt]; exact found⟩

include out sound

theorem fwdAck_completes (op : o.op = Op.fwdS ∨ o.op = Op.fwdO) : Completes (.fwdack n m) s fun t =>
    ∃ u : State, t = (u.advance p e).pump p ∧ s.creditGiven n 2 u
      ∧ FMap.find? (u.pav p).tt e = some { y with outs := y.outs.filter (fun x => x.port ≠ n.val), ownerData := true } ∧ (u.pav p).dir = (s.pav p).dir
      ∧ OnlyPav p s u ∧ OnlyParts [.ports, .pavs, .csr, .glb, .blv] s u := by
  obtain ⟨v, run, woken, named', found⟩ := answer_names alive ok caches named runs (i := .fwdack n m) Op.fwdAck (fun s => s.fwdAck n (withOp m Op.fwdAck)) rfl
  have sent := ownerSent_tame v p e n
  exact Completes.of_eq run (fwdAck_sent named' out op (woken.readEntry sound)) ⟨_, rfl, creditGiven_after woken.given sent.only, ownerSent_find found,
    (ownerSent_dir v p e n).trans woken.dir, woken.only.trans (ownerSent_onlyPav v p e n), woken.logs.only.trans (sent.mono (by simp)).only⟩

theorem rspCrossed_completes (op : o.op ≠ Op.stashOffer) : Completes (.rspcrossed n m) s fun t =>
    ∃ u : State, t = (u.advance p e).pump p ∧ s.creditGiven n 2 u
      ∧ (∃ z, FMap.find? (u.pav p).tt e = some z ∧ z.outs = y.outs.filter (fun x => x.port ≠ n.val) ∧ z.fwdOwner ≠ some n.val
        ∧ (n.val ∈ y.gone → z.gone = y.gone.erase n.val ∧ z.cross = y.cross ∧ z.phase = y.phase)
        ∧ (n.val ∉ y.gone → z.gone = y.gone ∧ z.cross = y.cross ++ [(n.val, s.now)] ∧ z.phase = .crossed))
      ∧ (u.pav p).dir = (s.pav p).dir ∧ OnlyPav p s u ∧ OnlyParts [.ports, .pavs, .csr, .glb, .blv] s u := by
  obtain ⟨v, run, woken, named', -⟩ := answer_names alive ok caches named runs (i := .rspcrossed n m) Op.rspCrossed (fun s => s.rspCrossed n (withOp m Op.rspCrossed)) rfl
  obtain ⟨u, effect, found, dir, only, tame⟩ := rspCrossed_crosses named' out op (woken.readEntry sound)
  have awaits : (if y.fwdOwner = some n.val then none else y.fwdOwner) ≠ some n.val := by
    split
    · exact nofun
    · assumption
  refine Completes.of_eq run effect ⟨u, rfl, creditGiven_after woken.given tame.only, ⟨_, found, ?_⟩, dir.trans woken.dir, woken.only.trans only,
    woken.logs.only.trans (tame.mono (by simp)).only⟩
  rw [woken.now]
  unfold Txn.crosses
  by_cases gone : n.val ∈ y.gone
  · rw [if_pos (by simpa using gone)]
    exact ⟨rfl, awaits, fun _ => ⟨rfl, rfl, rfl⟩, fun no => absurd gone no⟩
  · rw [if_neg (by simpa using gone)]
    exact ⟨rfl, awaits, fun yes => absurd yes gone, fun _ => ⟨rfl, rfl, rfl⟩⟩

include canon

theorem fwdAckD_completes (op : o.op = Op.fwdS) : Completes (.fwdackd n m) s fun t =>
    ∃ u : State, t = (u.advance p e).pump p ∧ s.creditGiven n 3 u
      ∧ (∃ z, FMap.find? (u.pav p).tt e = some z ∧ z.outs = y.outs.filter (fun x => x.port ≠ n.val) ∧ z.ownerData = true ∧ z.kind = y.kind ∧ z.pa = y.pa)
      ∧ s.copyHolds p y.pa (msgData m) (m.hdr.poison || s.homePoisoned p y.pa) u ∧ (u.pav p).dir = (s.pav p).dir ∧ OnlyPav p s u
      ∧ OnlyParts [.ports, .pavs, .chans, .csr, .glb, .lodge, .blv] s u := by
  obtain ⟨v, run, woken, named', found⟩ := answer_names alive ok caches named runs (i := .fwdackd n m) Op.fwdAckD (fun s => s.fwdAckD n (withOp m Op.fwdAckD)) rfl
  obtain ⟨po, poison⟩ : ∃ po, po = (m.hdr.poison || s.homePoisoned p y.pa) := ⟨_, rfl⟩
  have effect : v.fwdAckD n (withOp m Op.fwdAckD)
      = (((v.keepData p y.pa (if po then 0 else msgData m) po m.hdr.plot).ownerSent p e n).advance p e).pump p := by
    rw [poison, ← woken.homePoisoned ok]
    exact fwdAckD_sent named' out op (woken.readEntry sound)
  have held := copyHolds_poisoned (copyHolds_meterWr (woken.same.sink (la := y.pa) (d := if po then 0 else msgData m) (po := po) (some m.hdr.plot) canon runs) m.hdr.plot)
  have kept := HomeOnly.refl.keepData (p := p) (s := v) y.pa (if po then 0 else msgData m) po m.hdr.plot
  have sent := ownerSent_tame (v.keepData p y.pa (if po then 0 else msgData m) po m.hdr.plot) p e n
  obtain ⟨z, found', core⟩ := kept.found found
  unfold Txn.core at core
  injection core with kind _ _ _ _ pa _ _ _ _ _ _ _ outs
  refine Completes.of_eq run effect ⟨_, rfl, creditGiven_after (creditGiven_after woken.given kept.tame.only) sent.only,
    ⟨_, ownerSent_find found', by rw [← outs], rfl, kind, pa⟩, ?_, ?_, ?_, ?_⟩
  · exact poison ▸ copyHolds_modTxn (copyHolds_modTxn held _) _
  · rw [ownerSent_dir, kept.dir, woken.dir]
  · exact (woken.only.trans kept.only).trans (ownerSent_onlyPav _ p e n)
  · exact ((woken.logs.only.mono (by simp)).trans (kept.tame.mono (by simp)).only).trans (sent.mono (by simp)).only

include unique

theorem invAck_completes (op : o.op = Op.inv ∨ o.op = Op.rcl) : Completes (.invack n m) s fun t =>
    ∃ u : State, t = ((u.advance p e).pump p).slotUse p 2 ∧ s.creditGiven n 2 u
      ∧ (∀ op, y.kind = .req op → FMap.find? (u.pav p).tt e = some { y with outs := y.outs.filter (fun x => x.port ≠ n.val), acked := n.val :: y.acked }
          ∧ (u.pav p).dir = (s.pav p).dir)
      ∧ ((∀ op, y.kind ≠ .req op) → FMap.find? (u.pav p).tt e = some { y with outs := y.outs.filter fun x => x.port ≠ n.val }
          ∧ ((u.pav p).entry y.pa).lists n = false)
      ∧ OnlyPav p s u ∧ OnlyParts [.ports, .pavs, .csr, .glb, .blv] s u := by
  obtain ⟨-, -, -, -, wf, -⟩ := canon
  obtain ⟨v, run, woken, named', found⟩ := answer_names alive ok caches named runs (i := .invack n m) Op.invAck (fun s => s.invAck n (withOp m Op.invAck)) rfl
  have acks := acks_tame v p e y n
  refine Completes.of_eq run (invAck_acks named' out op (woken.readEntry sound)) ⟨_, rfl, creditGiven_after woken.given acks.only, fun op kind => ?_,
    fun kind => acks_recall found kind (by rw [woken.dir]; exact wf) (by unfold Pav.dirUnique Pav.dirAt; rw [woken.dir]; exact unique),
    woken.only.trans (acks_onlyPav v p e y n), woken.logs.only.trans (acks.mono (by simp)).only⟩
  obtain ⟨found', dir⟩ := acks_req (n := n) found kind
  exact ⟨found', dir.trans woken.dir⟩

theorem recallD_completes (op : o.op = Op.rcl) (owner : ((s.pav p).entry y.pa).own = some n.val) : Completes (.recalld n m) s fun t =>
    ∃ u : State, t = ((u.advance p e).pump p).slotUse p 2 ∧ s.creditGiven n 3 u
      ∧ (∃ z, FMap.find? (u.pav p).tt e = some z ∧ z.outs = y.outs.filter (fun x => x.port ≠ n.val) ∧ z.kind = y.kind ∧ z.pa = y.pa
        ∧ ∀ op, y.kind = .req op → z.acked = n.val :: y.acked)
      ∧ ((∀ op, y.kind ≠ .req op) → ((u.pav p).entry y.pa).lists n = false)
      ∧ s.copyHolds p y.pa (msgData m) m.hdr.poison u ∧ OnlyPav p s u ∧ OnlyParts [.ports, .pavs, .chans, .csr, .glb, .lodge, .blv] s u := by
  obtain ⟨v, run, woken, named', found⟩ := answer_names alive ok caches named runs (i := .recalld n m) Op.recallD (fun s => s.recallD n (withOp m Op.recallD)) rfl
  have effect : v.recallD n (withOp m Op.recallD)
      = ((((v.acks p e y n).keepData p y.pa (msgData m) m.hdr.poison m.hdr.plot).advance p e).pump p).slotUse p 2 :=
    recallD_acks named' out op (woken.readEntry sound) (by rw [entry_congr woken.dir]; exact owner)
  have acks := acks_tame v p e y n
  have kept := HomeOnly.refl.keepData (p := p) (s := v.acks p e y n) y.pa (msgData m) m.hdr.poison m.hdr.plot
  obtain ⟨x, acked, outs', kind', pa', holders⟩ := acks_found (n := n) found
  obtain ⟨z, found', core⟩ := kept.found acked
  unfold Txn.core at core
  injection core with kind _ _ _ _ pa _ _ _ _ _ _ _ outs
  refine Completes.of_eq run effect ⟨_, rfl, creditGiven_after (creditGiven_after woken.given acks.only) kept.tame.only,
    ⟨z, found', outs.trans outs', kind.trans kind', pa.trans pa', fun op is => ?_⟩, fun recalls => ?_,
    copyHolds_meterWr ((woken.same.trans (acks_same v p e y n)).sink _ canon runs) _, (woken.only.trans (acks_onlyPav v p e y n)).trans kept.only,
    ((woken.logs.only.mono (by simp)).trans (acks.mono (by simp)).only).trans (kept.tame.mono (by simp)).only⟩
  · rw [← holders op is]; assumption
  · obtain ⟨-, -, -, -, wf, -⟩ := canon
    rw [entry_congr kept.dir]
    exact (acks_recall found recalls (by rw [woken.dir]; exact wf) (by unfold Pav.dirUnique Pav.dirAt; rw [woken.dir]; exact unique)).2
end
end

/-- Settles O13. That a FwdAckD leaves a poisoned line poisoned is log entry 269. -/
theorem answersToForwards : Obligations.AnswersToForwards := by
  intro n m s alive canon caches q
  obtain ⟨ok, -, -, pavs, -⟩ := canon
  refine ⟨fun x mem none_ => ?_, fun none_ homely p home runs sound unique => ?_, fun p e y o named out runs sound unique => ?_⟩
  · simp only [List.mem_cons, List.not_mem_nil, or_false] at mem
    rcases mem with rfl | rfl | rfl | rfl
    · exact unnamed_completes alive ok caches Op.invAck (f := fun s => s.invAck n (withOp m Op.invAck)) rfl none_ fun _ => invAck_none
    · exact unnamed_completes alive ok caches Op.fwdAck (f := fun s => s.fwdAck n (withOp m Op.fwdAck)) rfl none_ fun _ => fwdAck_none
    · exact unnamed_completes alive ok caches Op.rspCrossed (f := fun s => s.rspCrossed n (withOp m Op.rspCrossed)) rfl none_ fun _ => rspCrossed_none
    · exact unnamed_completes alive ok caches Op.fwdAckD (f := fun s => s.fwdAckD n (withOp m Op.fwdAckD)) rfl none_ fun _ => fwdAckD_none
  · obtain ⟨-, -, -, -, wf, -⟩ := pavs p
    exact recallD_unnamed alive ok caches none_ homely home runs sound unique wf
  · exact ⟨invAck_completes alive ok caches (pavs p) named out runs sound unique, fwdAck_completes alive ok caches named out runs sound,
      fwdAckD_completes alive ok caches (pavs p) named out runs sound, recallD_completes alive ok caches (pavs p) named out runs sound unique,
      rspCrossed_completes alive ok caches named out runs sound⟩
end Sys2Proof.Machine

namespace Sys2Proof.Machine
-- The proofs below are elaborated one after the other, which bounds the threads that checking the text takes.
set_option Elab.async false

/-! ## Evictions (R106, R123) -/

section
variable {s t u v : State} {n : PortId} {m : Msg} {p : PavId} {cls : Nat}

/-- A message to a port whose link is up waits in its egress. -/
theorem send_kept (s : State) (m : Msg) (keeps : (s.port n).link.keeps = true) :
    ((s.send n m).port n).link.egress = (s.port n).link.egress ++ [{ msg := m, at_ := s.now }] ∧ OnlyPort n s (s.send n m)
      ∧ Logs [.ports, .csr, .glb, .blv] [R.blvEvt] s (s.send n m) := by
  have counted : Logs [.csr, .glb, .blv] [R.blvEvt] s (if classOf m.hdr.opcode = 3 then s.cntGlob 8 1 (some m.hdr.plot) else s) :=
    .ite (fun _ => cntGlob_logs _ _ _ _) fun _ => .refl
  unfold State.send
  generalize (if classOf m.hdr.opcode = 3 then s.cntGlob 8 1 (some m.hdr.plot) else s) = v at counted ⊢
  have same := counted.only.port_eq n
  obtain ⟨egress, only, tame⟩ := sendPort_kept (s := v) (m := m) (rel := none) (by rw [same]; exact keeps)
  rw [same, counted.only.now_eq] at egress
  exact ⟨egress, (OnlyPort.of_only counted.only).trans only,
    (counted.mono (by simp) (List.Subset.refl _)).trans ((Logs.of_tame tame).mono (by simp) (List.nil_subset _))⟩

/-- An eviction from a caching port is taken, and its effect follows. -/
theorem eviction_runs {i : Instr} {op : BitVec 8} (alive : s.alive = true) (ok : s.regsOk) (caches : s.rbit (R.portCohCtl n) 2 = true)
    (evicts : op = Op.wbD ∨ op = Op.evC)
    (run : exec i s = live s fun s => s.answerIn n (withOp m op) fun s => s.evictIn n (withOp m op)) :
    ∃ v, exec i s = .next (v.evictIn n (withOp m op)) ∧ Taken n (classOf op) s v := by
  have plain : op ≠ Op.stashAcc ∧ op ≠ Op.stashDecl := by rcases evicts with rfl | rfl <;> decide
  obtain ⟨v, eq, taken⟩ := answerIn_taken (m := withOp m op) (fun s => s.evictIn n (withOp m op)) ok
    (answerBarred_caching caches fun stash => stash.elim (absurd · plain.1) (absurd · plain.2))
    (by unfold State.frozen; rcases evicts with rfl | rfl <;> rfl)
  have asleep : v.wakeFor (withOp m op) = v := by
    unfold State.wakeFor
    exact if_pos (by rcases evicts with rfl | rfl <;> rfl)
  exact ⟨v, run.trans ((live_alive _ alive).trans (congrArg _ (by rw [eq, asleep]))), taken⟩

theorem Taken.same (h : Taken n cls s v) : SameCopy p s v := .logs h.logs
theorem Taken.maps (h : Taken n cls s v) (ok : s.regsOk) : SameMaps s v := .logs h.logs ok (by decide)
theorem wakePav_same (s : State) (p : PavId) : SameCopy p s (s.wakePav p) := by
  have woke := wakePav_tame s p
  exact ⟨by rw [wakePav_pav]; rfl, by rw [woke.only.glb_eq], by rw [woke.only.glb_eq], fun k => woke.only.stk_eq k⟩

/-- An eviction outside every home range is reported, and answered NotHome. -/
theorem evictIn_outside (foreign : s.isHome m.hdr.pa = false) :
    s.evictIn n m = (s.notHome n m.hdr.pa).sendPort n (evAckMsg m.hdr Status.notHome) := by
  unfold State.evictIn
  dsimp only
  rw [foreign]
  exact if_pos rfl
/-- An eviction of a line that no transaction blocks is applied at its home, and answered OK. -/
theorem evictIn_applies (homely : s.isHome m.hdr.pa = true) (home : p = s.home m.hdr.pa)
    (window : (s.pav p).place = .window → s.inWindow m.hdr.pa = true) (mapped : (s.pav p).place ≠ .window → s.unmapped m.hdr.pa = false)
    (sound : (s.pav p).dirSound (dirSet m.hdr.pa)) (free : (s.pav p).blocker m.hdr.pa = none) :
    s.evictIn n m = (((s.wakePav p).applyEvict p n m).send n (evAckMsg m.hdr Status.ok)).pump p := by
  subst home
  have woke := wakePav_tame s (s.home m.hdr.pa)
  have pav := wakePav_pav s (s.home m.hdr.pa)
  have place : ((s.wakePav (s.home m.hdr.pa)).pav (s.home m.hdr.pa)).place = (s.pav (s.home m.hdr.pa)).place := by rw [pav]
  have inside : (s.wakePav (s.home m.hdr.pa)).inWindow m.hdr.pa = s.inWindow m.hdr.pa := by
    unfold State.inWindow State.rf; rw [woke.only.glb_eq, woke.only.rget_eq]
  have behind : (s.wakePav (s.home m.hdr.pa)).unmapped m.hdr.pa = s.unmapped m.hdr.pa := by unfold State.unmapped State.llOf; rw [woke.only.glb_eq]
  have entry : (s.wakePav (s.home m.hdr.pa)).readEntry (s.home m.hdr.pa) m.hdr.pa = s.wakePav (s.home m.hdr.pa) :=
    readEntry_sound fun w small => by unfold Pav.dirAt; rw [pav]; exact sound w small
  have blocks : ((s.wakePav (s.home m.hdr.pa)).pav (s.home m.hdr.pa)).blocker m.hdr.pa = none := by rw [pav]; exact free
  unfold State.evictIn
  dsimp only
  rw [homely, place, inside, behind, if_neg (by simp), if_neg (by simpa using window), if_neg (by simpa using mapped)]
  unfold State.evict
  dsimp only
  rw [entry, blocks]

/-- What an eviction of an unblocked line does: the port leaves the entry, and an owner's data goes into the hub copy. -/
theorem applyEvict_cases (free : (s.pav p).blocker m.hdr.pa = none) :
    (m.hdr.opcode = Op.wbD ∧ ((s.pav p).entry m.hdr.pa).own = some n.val
        ∧ s.applyEvict p n m = (s.dropAgent p m.hdr.pa n).keepData p m.hdr.pa (msgData m) m.hdr.poison m.hdr.plot)
      ∨ (m.hdr.opcode = Op.wbD ∧ ((s.pav p).entry m.hdr.pa).own ≠ some n.val ∧ s.applyEvict p n m = (s.protoErr n).dropAgent p m.hdr.pa n)
      ∨ (m.hdr.opcode ≠ Op.wbD ∧ s.applyEvict p n m = s.dropAgent p m.hdr.pa n) := by
  unfold State.applyEvict
  dsimp only
  rw [free, Option.elim_none, DirEntry.left, if_pos List.isEmpty_nil]
  by_cases wb : m.hdr.opcode = Op.wbD
  · by_cases own : ((s.pav p).entry m.hdr.pa).own = some n.val
    · exact .inl ⟨wb, own, (if_pos wb).trans (if_pos own)⟩
    · exact .inr (.inl ⟨wb, own, (if_pos wb).trans (if_neg own)⟩)
  · exact .inr (.inr ⟨wb, if_neg wb⟩)
/-- It reaches the line's home and the reports, and leaves the port out of the entry. -/
theorem applyEvict_effect (free : (s.pav p).blocker m.hdr.pa = none) (wf : FMap.wf (fun _ => ({} : DirEntry)) (s.pav p).dir = true)
    (unique : (s.pav p).dirUnique m.hdr.pa) : Tame [.pavs, .chans, .csr, .glb, .lodge, .blv] s (s.applyEvict p n m) ∧ OnlyPav p s (s.applyEvict p n m)
      ∧ (((s.applyEvict p n m).pav p).entry m.hdr.pa).lists n = false := by
  have gone : (((s.dropAgent p m.hdr.pa n).pav p).entry m.hdr.pa).lists n = false := by rw [dropAgent_lists s p _ n n wf unique]; simp
  have dropped := dropAgent_tame s p m.hdr.pa n
  rcases applyEvict_cases (n := n) free with ⟨-, -, eq⟩ | ⟨-, -, eq⟩ | ⟨-, eq⟩
  · have kept := HomeOnly.refl.keepData (p := p) (s := s.dropAgent p m.hdr.pa n) m.hdr.pa (msgData m) m.hdr.poison m.hdr.plot
    rw [eq]
    exact ⟨(dropped.mono (by simp)).trans kept.tame, (dropAgent_onlyPav s p _ n).trans kept.only, by rw [entry_congr kept.dir]; exact gone⟩
  · have err := protoErr_logs s n
    have dropped := dropAgent_tame (s.protoErr n) p m.hdr.pa n
    rw [eq]
    refine ⟨(err.tame.mono (by simp)).trans (dropped.mono (by simp)), (OnlyPav.of_only err.only).trans (dropAgent_onlyPav _ p _ n), ?_⟩
    rw [dropAgent_lists _ p _ n n (by rw [err.only.pav_eq]; exact wf) (by rw [err.only.pav_eq]; exact unique)]
    simp
  · rw [eq]
    exact ⟨dropped.mono (by simp), dropAgent_onlyPav s p _ n, gone⟩
/-- Data of a port that is not the owner is a protocol error. -/
theorem applyEvict_stranger (ok : s.regsOk) (free : (s.pav p).blocker m.hdr.pa = none) (wb : m.hdr.opcode = Op.wbD)
    (own : ((s.pav p).entry m.hdr.pa).own ≠ some n.val) : ((s.applyEvict p n m).rget (R.portLinkEvt n)).getLsbD 13 = true := by
  rcases applyEvict_cases (n := n) free with ⟨-, owner, -⟩ | ⟨-, -, eq⟩ | ⟨other, -⟩
  · exact absurd owner own
  · rw [eq, (dropAgent_tame _ p m.hdr.pa n).only.rget_eq]; exact protoErr_bit ok n
  · exact absurd wb other
/-- An owner's data is in the hub copy. -/
theorem applyEvict_holds (same : SameCopy p s t) (canon : (s.pav p).canon) (runs : (s.pav p).halted = false) (free : (t.pav p).blocker m.hdr.pa = none)
    (wb : m.hdr.opcode = Op.wbD) (own : ((t.pav p).entry m.hdr.pa).own = some n.val) :
    s.copyHolds p m.hdr.pa (msgData m) m.hdr.poison (t.applyEvict p n m) := by
  rcases applyEvict_cases (n := n) free with ⟨-, -, eq⟩ | ⟨-, stranger, -⟩ | ⟨other, -⟩
  · rw [eq]; exact copyHolds_meterWr ((same.trans (.dropAgent _)).sink _ canon runs) _
  · exact absurd own stranger
  · exact absurd wb other
end

section
variable {s : State} {n : PortId} {m : Msg} {p : PavId} {i : Instr} {op : BitVec 8} (alive : s.alive = true) (ok : s.regsOk)
  (caches : s.rbit (R.portCohCtl n) 2 = true) (keeps : (s.port n).link.keeps = true) (evicts : op = Op.wbD ∨ op = Op.evC)
  (run : exec i s = live s fun s => s.answerIn n (withOp m op) fun s => s.evictIn n (withOp m op))
include alive ok caches keeps evicts run

theorem eviction_outside (foreign : s.isHome m.hdr.pa = false) : Completes i s fun t =>
    (t.port n).link.egress = (s.port n).link.egress ++ [{ msg := evAckMsg m.hdr Status.notHome, at_ := s.now }]
      ∧ (t.rget (R.portCohEvt n)).getLsbD 10 = true ∧ OnlyPort n s t ∧ OnlyParts [.ports, .csr, .glb, .lodge, .blv] s t := by
  obtain ⟨v, run, taken⟩ := eviction_runs alive ok caches evicts run
  have effect : v.evictIn n (withOp m op) = (v.notHome n m.hdr.pa).sendPort n (evAckMsg m.hdr Status.notHome) :=
    evictIn_outside (m := withOp m op) ((taken.maps ok).isHome _ |>.trans foreign)
  have noted := notHome_logs v n m.hdr.pa
  have same := noted.only.port_eq n
  obtain ⟨egress, only, sent⟩ := sendPort_kept (s := v.notHome n m.hdr.pa) (m := evAckMsg m.hdr Status.notHome) (rel := none)
    (by rw [same, taken.keeps]; exact keeps)
  refine Completes.of_eq run effect ⟨?_, ?_, ?_, ?_⟩
  · rw [same, taken.egress, noted.only.now_eq, taken.now] at egress
    exact egress
  · rw [sent.only.rget_eq]
    exact notHome_bit _ (taken.regsOk ok)
  · exact (taken.only.trans (.of_only noted.only)).trans only
  · exact ((taken.logs.only.mono (by simp)).trans (noted.only.mono (by simp))).trans (sent.mono (by simp)).only

theorem eviction_applied (canon : (s.pav p).canon) (homely : s.isHome m.hdr.pa = true) (home : p = s.home m.hdr.pa) (runs : (s.pav p).halted = false)
    (window : (s.pav p).place = .window → s.inWindow m.hdr.pa = true) (mapped : (s.pav p).place ≠ .window → s.unmapped m.hdr.pa = false)
    (sound : (s.pav p).dirSound (dirSet m.hdr.pa)) (unique : (s.pav p).dirUnique m.hdr.pa) (free : (s.pav p).blocker m.hdr.pa = none) :
    Completes i s fun t =>
      ∃ u : State, t = u.pump p ∧ ((u.pav p).entry m.hdr.pa).lists n = false
        ∧ (u.port n).link.egress = (s.port n).link.egress ++ [{ msg := evAckMsg m.hdr Status.ok, at_ := s.now }]
        ∧ (op = Op.wbD → ((s.pav p).entry m.hdr.pa).own = some n.val → s.copyHolds p m.hdr.pa (msgData (withOp m Op.wbD)) m.hdr.poison u)
        ∧ (op = Op.wbD → ((s.pav p).entry m.hdr.pa).own ≠ some n.val → (u.rget (R.portLinkEvt n)).getLsbD 13 = true)
        ∧ OnlyPort n s u ∧ OnlyPav p s u ∧ OnlyParts [.ports, .pavs, .chans, .csr, .glb, .lodge, .blv] s u := by
  obtain ⟨v, run, taken⟩ := eviction_runs alive ok caches evicts run
  have maps := taken.maps ok
  have woke := wakePav_tame v p
  have pav : (v.wakePav p).pav p = { s.pav p with gated := false } := by rw [wakePav_pav, taken.pav]
  have free' : ((v.wakePav p).pav p).blocker m.hdr.pa = none := by rw [pav]; exact free
  have entry : ((v.wakePav p).pav p).entry m.hdr.pa = (s.pav p).entry m.hdr.pa := entry_congr (by rw [pav])
  have effect : v.evictIn n (withOp m op) = (((v.wakePav p).applyEvict p n (withOp m op)).send n (evAckMsg m.hdr Status.ok)).pump p :=
    evictIn_applies (m := withOp m op) ((maps.isHome _).trans homely) (home.trans (maps.home _).symm)
    (by rw [taken.pav, maps.inWindow]; exact window) (by rw [taken.pav, maps.unmapped]; exact mapped) (by rw [taken.pav]; exact sound)
    (by rw [taken.pav]; exact free)
  obtain ⟨tame, only, lists⟩ := applyEvict_effect (s := v.wakePav p) (n := n) (m := withOp m op) free'
    (by obtain ⟨-, -, -, -, wf, -⟩ := canon; rw [pav]; exact wf) (by rw [pav]; exact unique)
  obtain ⟨egress, onlyPort, sent⟩ := send_kept (n := n) ((v.wakePav p).applyEvict p n (withOp m op)) (evAckMsg m.hdr Status.ok)
    (by rw [tame.only.port_eq, woke.only.port_eq, taken.keeps]; exact keeps)
  rw [tame.only.port_eq, woke.only.port_eq, taken.egress, tame.only.now_eq, woke.only.now_eq, taken.now] at egress
  have ok' : State.regsOk ((v.wakePav p).applyEvict p n (withOp m op)) := tame.regs (woke.regs (taken.regsOk ok))
  refine Completes.of_eq run effect ⟨_, rfl, ?_, egress, fun wb own => ?_, fun wb own => ?_,
    ((taken.only.trans (.of_only woke.only)).trans (.of_only tame.only)).trans onlyPort,
    (((OnlyPav.of_only taken.logs.only).trans (wakePav_onlyPav v p)).trans only).trans (.of_only sent.only), ?_⟩
  · rw [sent.only.pav_eq]; exact lists
  · subst wb
    have held := applyEvict_holds (m := withOp m Op.wbD) (n := n) (taken.same.trans (wakePav_same v p)) canon runs free' rfl (by rw [← entry] at own; exact own)
    exact copyHolds_kept held (by rw [sent.only.pav_eq]) (by rw [sent.only.pav_eq]) (by rw [sent.only.pav_eq]) (by rw [sent.only.pav_eq])
  · rw [sent.rget ok' (by unfold R.portLinkEvt R.blvEvt; simp; omega)]
    exact applyEvict_stranger (woke.regs (taken.regsOk ok)) free' wb (by rw [← entry] at own; exact own)
  · exact (((taken.logs.only.mono (by simp)).trans (woke.mono (by simp)).only).trans (tame.mono (by simp)).only).trans (sent.only.mono (by simp))
end

/-- Settles O14. -/
theorem evictionsAppliedAndAnswered : Obligations.EvictionsAppliedAndAnswered := by
  intro n m s alive canon caches keeps x mem p home
  obtain ⟨ok, -, -, pavs, -⟩ := canon
  have evicts : (x.2 = Op.wbD ∨ x.2 = Op.evC)
      ∧ exec x.1 s = live s fun s => s.answerIn n (withOp m x.2) fun s => s.evictIn n (withOp m x.2) := by
    simp only [List.mem_cons, List.not_mem_nil, or_false] at mem
    rcases mem with rfl | rfl
    · exact ⟨.inl rfl, rfl⟩
    · exact ⟨.inr rfl, rfl⟩
  exact ⟨eviction_outside alive ok caches keeps evicts.1 evicts.2, fun homely runs window mapped sound unique free =>
    eviction_applied alive ok caches keeps evicts.1 evicts.2 (pavs p) homely home runs window mapped sound unique free⟩
end Sys2Proof.Machine

namespace Sys2Proof.Machine
-- The proofs below are elaborated one after the other, which bounds the threads that checking the text takes.
set_option Elab.async false

/-! ## The Comp of a request (R93, R116) -/

section
variable {s t u v : State} {n : PortId} {p : PavId} {e : Nat} {y : Txn}

theorem answerFor_logs (s : State) (n : PortId) (num : Nat) (m : Msg) (rel : Option (BitVec 10)) :
    Logs [.ports, .csr, .glb, .blv] [R.blvEvt] s (s.answerFor n num m rel) := by
  have counted : Logs [.csr, .glb, .blv] [R.blvEvt] s (if classOf m.hdr.opcode = 3 then s.cntGlob 8 1 (some m.hdr.plot) else s) :=
    .ite (fun _ => cntGlob_logs _ _ _ _) fun _ => .refl
  have sent (u : State) : Tame [.ports] u (u.sendPort n m rel) := by
    refine .ite (fun _ => modLink_tame _ _ _) fun _ => ?_
    split
    · exact .refl
    · exact modIo_tame _ _ _
  refine (counted.mono (by simp) (List.Subset.refl _)).trans (.ite (fun _ => ?_) fun _ => .refl)
  exact (Logs.of_tame (sent _)).mono (by simp) (List.nil_subset _)

/-- A change of what a port remembers of its transactions. -/
structure OnPort (n : PortId) (s t : State) : Prop where
  tame : Tame [.ports] s t
  only : OnlyPort n s t
  link : (t.port n).link = (s.port n).link

theorem OnPort.refl : OnPort n s s := ⟨.refl, .refl n s, rfl⟩
theorem OnPort.trans (h : OnPort n s t) (k : OnPort n t u) : OnPort n s u := ⟨h.tame.trans k.tame, h.only.trans k.only, k.link.trans h.link⟩
theorem modIo_onPort (s : State) (n : PortId) (f : PortIo → PortIo) : OnPort n s (s.modIo n f) := ⟨modIo_tame s n f, modIo_onlyPort s n f, s.modIo_link_same n f⟩
theorem orderPoint_onPort {k : Nat} (port : portOf? k = some n) (num : Nat) : OnPort n s (s.orderPoint k num) := by
  unfold State.orderPoint
  rw [port]
  exact modIo_onPort _ _ _

/-- A Comp goes out as an answer to its port, which remembers it, and its transaction has been answered. -/
theorem comp_answers {st : BitVec 4} (found : FMap.find? (s.pav p).tt e = some y) (port : portOf? y.port = some n) :
    ∃ w, s.comp p e st = w.modTxn p e (fun t => { t with issued := true })
      ∧ OnPort n (s.answerFor n y.num (compMsg y.tid y.pa st (htidOf p e)) (some y.tid)) w := by
  unfold State.comp
  rw [found]
  dsimp only
  rw [port]
  refine ⟨_, rfl, .trans ?_ (orderPoint_onPort port _)⟩
  split
  · split
    · exact modIo_onPort _ _ _
    · exact .refl
  · exact .refl
theorem comp_lost {st : BitVec 4} (found : FMap.find? (s.pav p).tt e = some y) (nowhere : portOf? y.port = none) : s.comp p e st = s.endTxn p e := by
  unfold State.comp
  rw [found]
  dsimp only
  rw [nowhere]

/-- What a Comp reaches: its transaction, and the port that it answers. -/
theorem comp_logs (st : BitVec 4) (found : FMap.find? (s.pav p).tt e = some y) :
    Logs [.ports, .pavs, .csr, .glb, .blv] [R.blvEvt, R.pavDirErr p, R.pavDirStat p] s (s.comp p e st) := by
  rcases port : portOf? y.port with _ | n
  · rw [comp_lost found port]
    exact Ended.refl.endTxn.logs
  · obtain ⟨w, eq, noted⟩ := comp_answers (st := st) found port
    rw [eq]
    exact (((answerFor_logs _ _ _ _ _).mono (by simp) (by simp)).trans ((Logs.of_tame noted.tame).mono (by simp) (List.nil_subset _))).trans
      ((Logs.of_tame (modTxn_tame _)).mono (by simp) (List.nil_subset _))

/-- The Comp that a port expects is the last message of its egress; of the pavilion the entry alone changes. -/
structure Comped (s : State) (p : PavId) (e : Nat) (n : PortId) (y : Txn) (st : BitVec 4) (t : State) : Prop where
  sent : (t.port n).link.egress = (s.port n).link.egress ++ [{ msg := compMsg y.tid y.pa st (htidOf p e), relTid := some y.tid, at_ := s.now }]
  pav : t.pav p = { s.pav p with tt := FMap.insert (s.pav p).tt e { y with issued := true } }
  onlyPort : OnlyPort n s t
  onlyPav : OnlyPav p s t
  tame : Tame [.ports, .pavs, .csr, .glb, .blv] s t

theorem comp_comped {st : BitVec 4} (found : FMap.find? (s.pav p).tt e = some y) (port : portOf? y.port = some n) (keeps : (s.port n).link.keeps = true)
    (expected : s.current n y.num = true) : Comped s p e n y st (s.comp p e st) := by
  obtain ⟨w, eq, noted⟩ := comp_answers (st := st) found port
  obtain ⟨sent, onlyPort, answered⟩ := answerFor_sent (m := compMsg y.tid y.pa st (htidOf p e)) (rel := some y.tid) keeps expected
  have pav : w.pav p = s.pav p := (noted.tame.only.pav_eq p).trans (answered.only.pav_eq p)
  have issued := modTxn_pav (s := w) (p := p) (e := e) (fun t => { t with issued := true }) (by rw [pav]; exact found)
  rw [eq]
  refine ⟨?_, ?_, ?_, ?_, ?_⟩
  · rw [(modTxn_tame _).only.port_eq, noted.link, sent]
  · rw [issued, pav]
  · exact (onlyPort.trans noted.only).trans (.of_only (modTxn_tame _).only)
  · exact OnlyPav.trans (OnlyPav.trans (.of_only answered.only) (.of_only noted.tame.only)) (modTxn_onlyPav _)
  · exact (answered.mono (by simp)).trans ((noted.tame.mono (by simp)).trans ((modTxn_tame _).mono (by simp)))

/-! ## A request that its home turns away (R234, R285) -/

/-- A request that ends with a status: its event has been noted and it is active. -/
def State.turnAway (s : State) (off bit : Nat) (p : PavId) (e : Nat) (st : BitVec 4) : State :=
  (((s.raise off bit).modTxn p e fun t => { t with active := true }).comp p e st).endTxn p e

variable {off bit : Nat} {st : BitVec 4}

theorem turnAway_begun (s : State) (off bit : Nat) (p : PavId) (e : Nat) (st : BitVec 4) :
    KeepsFree s (((s.raise off bit).modTxn p e fun t => { t with active := true }).comp p e st) := (((KeepsFree.refl.raise off bit).modTxn _).comp st)
theorem turnAway_free (rises : rising (s.pav p).tt) : (s.turnAway off bit p e st).entryFree p e := endTxn_free ((turnAway_begun s off bit p e st).rising rises)
theorem turnAway_find (found : FMap.find? (s.pav p).tt e = some y) :
    FMap.find? (((s.raise off bit).modTxn p e fun t => { t with active := true }).pav p).tt e = some { y with active := true } :=
  modTxn_find _ (by rw [(raise_tame s off bit).only.pav_eq]; exact found)
theorem turnAway_event (ok : s.regsOk) (found : FMap.find? (s.pav p).tt e = some y) (apart : off ∉ [R.blvEvt, R.pavDirErr p, R.pavDirStat p])
    (lo : 8 ≤ bit) (hi : bit < 32) : ((s.turnAway off bit p e st).rget off).getLsbD bit = true := by
  have active := modTxn_tame (s := s.raise off bit) (p := p) (e := e) fun t => { t with active := true }
  have ok' := active.regs ((raise_tame s off bit).regs ok)
  have comped := comp_logs st (turnAway_find (off := off) (bit := bit) found)
  unfold State.turnAway
  rw [(Ended.refl.endTxn (p := p) (e := e)).logs.rget (comped.regsOk ok') apart, comped.rget ok' apart, active.only.rget_eq]
  exact raise_bit off bit ok lo hi
/-- Its Comp is the last that goes to its port where no EvAck waits for its end. -/
theorem comp_endTxn_sent (found : FMap.find? (s.pav p).tt e = some y) (small : e < 992) (port : portOf? y.port = some n)
    (keeps : (s.port n).link.keeps = true) (expected : s.current n y.num = true) (owed : y.evAcks = []) :
    (((s.comp p e st).endTxn p e).port n).link.egress
      = (s.port n).link.egress ++ [{ msg := compMsg y.tid y.pa st (htidOf p e), relTid := some y.tid, at_ := s.now }] := by
  have comped := comp_comped (st := st) found port keeps expected
  have issued : FMap.find? ((s.comp p e st).pav p).tt e = some { y with issued := true } := by rw [comped.pav]; exact FMap.find_insert_same _ _ _
  rw [endTxn_ports issued small owed]
  exact comped.sent
theorem turnAway_answers (found : FMap.find? (s.pav p).tt e = some y) (small : e < 992) : y.turnedAway st p e s (s.turnAway off bit p e st) := by
  intro n port keeps expected owed
  have active := (raise_tame s off bit).mono (qs := [.pavs, .csr, .glb]) (by simp) |>.trans
    ((modTxn_tame (s := s.raise off bit) (p := p) (e := e) fun t => { t with active := true }).mono (by simp))
  have begun := turnAway_find (off := off) (bit := bit) found
  unfold State.turnAway
  generalize (s.raise off bit).modTxn p e (fun t => { t with active := true }) = w at active begun ⊢
  have same := active.only.port_eq n
  rw [comp_endTxn_sent begun small port (by rw [same]; exact keeps) ((current_congr (by rw [same]) _).trans expected) owed, same, active.only.now_eq]
end
end Sys2Proof.Machine

namespace Sys2Proof.Machine
-- The proofs below are elaborated one after the other, which bounds the threads that checking the text takes.
set_option Elab.async false

/-! ## A lookup up to its request (R114, R200) -/

/-- A listed value may change where a test does not see the change. -/
theorem any_insert_found {α : Type} {m : FMap α} {k : Nat} {v w : α} (q : Nat × α → Bool) (found : FMap.find? m k = some v) (same : q (k, w) = q (k, v)) :
    (FMap.insert m k w).any q = m.any q := by
  induction m with
  | nil => cases found
  | cons x rest ih =>
    obtain ⟨i, y⟩ := x
    rw [FMap.find?] at found
    by_cases eq : k = i
    · rw [if_pos eq] at found
      obtain rfl := Option.some.inj found
      subst eq
      simp [FMap.insert, same]
    · rw [if_neg eq] at found
      split at found
      · cases found
      · next above => simp only [FMap.insert, if_neg eq, if_neg above, List.any_cons, ih found]

/-- A request that arrives at its home's lookup has its time noted, and the lookup is counted. -/
def State.arrives (s : State) (p : PavId) (e : Nat) (t : Txn) : State :=
  (if t.arrive.isNone then s.modTxn p e fun t => { t with arrive := some s.now } else s).cntPav p 1 (some t.plot)

/-- What an arrival leaves: the request but for its time, the rest of its pavilion, and every test of the table that does not see times. -/
structure Arrived (s : State) (p : PavId) (e : Nat) (y : Txn) (v : State) : Prop where
  logs : Logs [.pavs, .csr, .glb, .blv] [R.blvEvt] s v
  only : OnlyPav p s v
  pav : v.pav p = { s.pav p with tt := (v.pav p).tt }
  found : ∃ x, FMap.find? (v.pav p).tt e = some { y with arrive := x }
  tests : ∀ q : Nat × Txn → Bool, (∀ x, q (e, { y with arrive := x }) = q (e, y)) → (v.pav p).tt.any q = (s.pav p).tt.any q
  kept : KeepsFree s v

section
variable {s t u v : State} {n : PortId} {p : PavId} {e : Nat} {y : Txn} {op : BitVec 8}

theorem arrives_arrived (found : FMap.find? (s.pav p).tt e = some y) : Arrived s p e y (s.arrives p e y) := by
  unfold State.arrives
  split
  · have counted := cntPav_logs (s.modTxn p e fun t => { t with arrive := some s.now }) p 1 (some y.plot) 1
    have stamped := modTxn_pav (fun t => { t with arrive := some s.now }) found
    have timed := modTxn_tame (s := s) (p := p) (e := e) fun t => { t with arrive := some s.now }
    refine ⟨((Logs.of_tame timed).mono (by simp) (List.nil_subset _)).trans (counted.mono (by simp) (List.Subset.refl _)),
      (modTxn_onlyPav _).trans (.of_only counted.only), ?_, ?_, fun q same => ?_, (KeepsFree.refl.modTxn _).outside counted.tame⟩
    · rw [counted.only.pav_eq, stamped]
    · exact ⟨some s.now, by rw [counted.only.pav_eq]; exact modTxn_find _ found⟩
    · rw [counted.only.pav_eq, stamped]
      exact any_insert_found q found (same _)
  · have counted := cntPav_logs s p 1 (some y.plot) 1
    have still := counted.only.pav_eq p
    exact ⟨counted.mono (by simp) (List.Subset.refl _), .of_only counted.only, by rw [still], ⟨y.arrive, by rw [still]; exact found⟩,
      fun _ _ => by rw [still], KeepsFree.refl.outside counted.tame⟩

section
variable (h : Arrived s p e y v)
include h

theorem Arrived.field {α : Type} (g : Pav → α) (same : ∀ v m, g { v with tt := m } = g v := by intros; rfl) : g (v.pav p) = g (s.pav p) := by
  rw [h.pav, same]
theorem Arrived.maps (ok : s.regsOk) : SameMaps s v := .logs h.logs ok (by decide)
theorem Arrived.mustWait : (v.pav p).mustWait e y = (s.pav p).mustWait e y := h.tests _ fun _ => by simp
theorem Arrived.unblocked (inactive : y.active = false) (la : LineAddr) : (v.pav p).unblocked la = (s.pav p).unblocked la := by
  have blocks (w : Pav) : w.unblocked la = !(w.tt.any fun x => x.2.active && x.2.pa = la) := by
    rw [Bool.eq_iff_iff]
    simp [Pav.unblocked, Pav.blocker]
  rw [blocks, blocks, h.tests _ fun _ => by simp [inactive]]
theorem Arrived.entry (la : LineAddr) : (v.pav p).entry la = (s.pav p).entry la := h.field (Pav.entry · la)
theorem Arrived.mustRecover (ok : s.regsOk) (la : LineAddr) : v.mustRecover p la = s.mustRecover p la := by
  unfold State.mustRecover
  dsimp only
  rw [h.entry, h.field Pav.suspect, h.field Pav.rebuild, (h.maps ok).hash]
end

/-- A lookup that has not begun arrives, and the tags that it reads are sound. -/
theorem lookup_arrives (found : FMap.find? (s.pav p).tt e = some y) (kind : y.kind = .req op) (phase : y.phase = .lookup) (inactive : y.active = false)
    (runs : (s.pav p).halted = false) (tags : s.tagsSound p y.pa) (first : (s.pav p).mustWait e y = false) :
    ((s.pav p).place = .window → s.inWindow y.pa = false → s.regsOk →
        s.lookup p e = (s.arrives p e y).turnAway (R.pavPlaceEvt p) 8 p e Status.unsupported)
      ∧ ((s.pav p).place ≠ .window → s.unmapped y.pa = true → s.regsOk →
        s.lookup p e = (s.arrives p e y).turnAway (R.chanEvt (s.chanFor y.pa)) 17 p e Status.unsupported)
      ∧ (((s.pav p).place = .window → s.inWindow y.pa = true) → ((s.pav p).place ≠ .window → s.unmapped y.pa = false) → s.regsOk →
        (s.pav p).dirSound (dirSet y.pa) → dirSet y.pa ∉ (s.pav p).retryDue → y.pa ∉ (s.pav p).recoverQ → (s.pav p).unblocked y.pa = true →
        s.mustRecover p y.pa = false → s.lookup p e = (s.arrives p e y).begin p e y op) := by
  have arrived := arrives_arrived found
  have sound : (s.arrives p e y).tagsSound p y.pa := by
    obtain ⟨sectors, lines⟩ := tags
    exact ⟨fun w small => by rw [arrived.field fun v => v.tag (setOf y.pa) w]; exact sectors w small,
      fun w small => by rw [arrived.field fun v => v.ghe (ghSet y.pa) w]; exact lines w small⟩
  have folded : ((if y.arrive.isNone then s.modTxn p e fun t => { t with arrive := some s.now } else s).cntPav p 1 (some y.plot)).readTags p y.pa
      = s.arrives p e y := readTags_sound sound
  unfold State.lookup
  rw [found]
  dsimp only
  rw [kind]
  dsimp only
  rw [if_neg (by simp [runs, phase, inactive]), folded, if_neg (by rw [arrived.field Pav.halted]; simp [runs]),
    if_neg (by rw [arrived.mustWait]; simp [first]), arrived.field Pav.place]
  refine ⟨fun window outside ok => ?_, fun settled unmapped ok => ?_, fun inside mapped ok dir idle recovered free settled => ?_⟩
  · rw [(arrived.maps ok).inWindow, if_pos (by simp [window, outside])]
    rfl
  · rw [(arrived.maps ok).unmapped, if_neg (by simp [settled]), if_pos (by simp [settled, unmapped]), (arrived.maps ok).chanFor]
    rfl
  · have checked : (s.arrives p e y).checkDir p (dirSet y.pa) = s.arrives p e y :=
      checkDir_sound fun w small => by rw [arrived.field fun v => v.dirAt (dirSet y.pa) w]; exact dir w small
    rw [(arrived.maps ok).inWindow, (arrived.maps ok).unmapped, if_neg (by simpa using inside), if_neg (by simpa using mapped),
      arrived.field Pav.retryDue, if_neg (by simp [idle]), checked, arrived.unblocked inactive, free, if_neg (by simp), arrived.field Pav.recoverQ,
      if_neg (by simpa using recovered), arrived.mustRecover ok, settled, if_neg (by simp)]
end
end Sys2Proof.Machine

namespace Sys2Proof.Machine
-- The proofs below are elaborated one after the other, which bounds the threads that checking the text takes.
set_option Elab.async false

/-! ## A request that begins (R114, R164) -/

section
variable {v : Pav} {la : LineAddr} {b : Bool}

theorem setBlk_wf (wf : FMap.wf (fun _ => ({} : DirEntry)) v.dir = true) : FMap.wf (fun _ => ({} : DirEntry)) (v.setBlk la b).dir = true := by
  unfold Pav.setBlk
  split
  · exact wf
  · exact FMap.wf_put _ _ wf
theorem withPar_blk (d : DirEntry) (x : BitVec 4) : ({ d with par := x }).blk = d.blk := rfl
theorem seal_blk (d : DirEntry) : d.seal.blk = d.blk := withPar_blk d d.parity
/-- A line's entry that is blocked stays in its way. -/
theorem setBlk_entry (wf : FMap.wf (fun _ => ({} : DirEntry)) v.dir = true) : ((v.setBlk la true).entry la).st = .free ∨ ((v.setBlk la true).entry la).blk = true := by
  unfold Pav.setBlk
  split
  · next none_ => exact .inl (by rw [entry_of_none none_])
  · next w found =>
    obtain ⟨small, used, tag⟩ := find_spec found
    generalize eq : { v.dirAt (dirSet la) w with blk := true } = d
    have used' : d.st ≠ .free := by rw [← eq]; exact used
    have tag' : d.tag = dirTag la := by rw [← eq]; exact tag
    obtain ⟨st_, tag_, -⟩ := seal_eq d
    have at_ (w' : Nat) (small' : w' < 24) := dirAt_setDir wf (dirSet la) small small' d
    have stays : (v.setDir (dirSet la) w d).dirFind la = some w := by
      rw [← found]
      refine List.find?_congr fun w' mem => ?_
      have small' := List.mem_range.mp mem
      rw [at_ w' small']
      by_cases here : w' = w
      · rw [if_pos here, if_neg used', here]
        simp [st_, tag_, used', tag', used, tag]
      · rw [if_neg here]
    have here := at_ w small
    rw [if_pos rfl, if_neg used'] at here
    refine .inr ?_
    rw [entry_of_find stays, here, seal_blk, ← eq]
end

section
variable {s t u : State} {n : PortId} {p : PavId} {e : Nat} {y z : Txn} {op : BitVec 8}

/-- The owner of a line asks for it again: its eviction is on the way, and the request waits for it (R137). -/
def Txn.awaitsEviction (t : Txn) (op : BitVec 8) (d : DirEntry) : Bool := !t.retry && op ≠ Op.upg && d.own = some t.port

/-- What beginning a request leaves: the request is active, its line's entry is blocked, and a read has reached its ordering point. -/
structure Begun (s : State) (p : PavId) (e : Nat) (y z : Txn) (op : BitVec 8) (u : State) : Prop where
  found : ∃ x, FMap.find? (u.pav p).tt e = some x ∧ x.active = true ∧ x.kind = z.kind ∧ x.pa = z.pa ∧ x.port = z.port ∧ x.tid = z.tid
    ∧ x.phase = if y.awaitsEviction op ((s.pav p).entry y.pa) then .crossed else .data
  blocked : ((u.pav p).entry y.pa).st = .free ∨ ((u.pav p).entry y.pa).blk = true
  ordered : isReadOp op = true → ∀ n, portOf? y.port = some n → ∀ o ∈ (u.port n).io.opens, o.num = y.num → o.doneAt.isSome = true
  link : ∀ n : PortId, (u.port n).link = (s.port n).link
  only : OnlyPav p s u
  tame : Tame [.ports, .pavs] s u

theorem orderPoint_link (k num : Nat) (n : PortId) : ((s.orderPoint k num).port n).link = (s.port n).link := by
  unfold State.orderPoint
  split
  · rfl
  · next m _ =>
    by_cases eq : n = m
    · subst eq; exact State.modIo_link_same _ _ _
    · rw [State.modIo_port_other _ _ eq]
theorem orderPoint_tame (k num : Nat) : Tame [.ports] s (s.orderPoint k num) := by
  unfold State.orderPoint
  split
  · exact .refl
  · exact modIo_tame _ _ _
/-- A transaction that has reached its ordering point is done for the fences after it (R164). -/
theorem orderPoint_ordered {k num : Nat} (port : portOf? k = some n) : ∀ o ∈ ((s.orderPoint k num).port n).io.opens, o.num = num → o.doneAt.isSome = true := by
  intro o mem here
  unfold State.orderPoint at mem
  rw [port] at mem
  dsimp only at mem
  rw [State.modIo_io_same] at mem
  obtain ⟨o', -, rfl⟩ := List.mem_map.mp mem
  by_cases due : (o'.num = num && o'.doneAt.isNone) = true
  · rw [if_pos due]; rfl
  · rw [if_neg due] at here ⊢
    exact Option.isSome_iff_ne_none.mpr (by simpa [here] using due)

theorem begin_begun (found : FMap.find? (s.pav p).tt e = some z) (wf : FMap.wf (fun _ => ({} : DirEntry)) (s.pav p).dir = true) :
    Begun s p e y z op (s.begin p e y op) := by
  unfold State.begin
  extract_lets d marked regrant wait active ordered
  have kept : (marked.pav p).tt = (s.pav p).tt ∧ FMap.wf (fun _ => ({} : DirEntry)) (marked.pav p).dir = true := by
    unfold marked
    rw [State.modPav_pav_same]
    split
    · exact ⟨setBlk_tt _ _ _, setBlk_wf wf⟩
    · exact ⟨rfl, wf⟩
  have reach : OnlyPav p s marked ∧ Tame [.pavs] s marked := ⟨modPav_onlyPav _ _ _, modPav_tame _ _ _⟩
  clear_value marked
  obtain ⟨table, wf'⟩ := kept
  have asked : ∃ x, FMap.find? (active.pav p).tt e = some x ∧ x.active = true ∧ x.kind = z.kind ∧ x.pa = z.pa ∧ x.port = z.port ∧ x.tid = z.tid
      ∧ x.phase = if wait then .crossed else .data := ⟨_, modTxn_find _ (by rw [table]; exact found), rfl, rfl, rfl, rfl, rfl, rfl⟩
  have wf'' : FMap.wf (fun _ => ({} : DirEntry)) (active.pav p).dir = true := by
    unfold active; rw [modTxn_dir]; exact wf'
  have reach' : OnlyPav p s active ∧ Tame [.pavs] s active := ⟨reach.1.trans (modTxn_onlyPav _), reach.2.trans (modTxn_tame _)⟩
  clear_value active
  have point : Tame [.ports] active ordered := .ite (fun _ => orderPoint_tame _ _) fun _ => .refl
  have links (n : PortId) : (ordered.port n).link = (active.port n).link := by
    unfold ordered
    split
    · exact orderPoint_link _ _ n
    · rfl
  have order (read : isReadOp op = true) (n : PortId) (port : portOf? y.port = some n) : ∀ o ∈ (ordered.port n).io.opens, o.num = y.num → o.doneAt.isSome = true := by
    unfold ordered
    rw [if_pos read]
    exact orderPoint_ordered port
  clear_value ordered
  have blocks := modPav_tame ordered p fun v => v.setBlk y.pa true
  refine ⟨?_, ?_, fun read n port => ?_, fun n => ?_, ?_, ?_⟩
  · rw [State.modPav_pav_same, setBlk_tt, point.only.pav_eq]
    exact asked
  · rw [State.modPav_pav_same]
    exact setBlk_entry (by rw [point.only.pav_eq]; exact wf'')
  · rw [blocks.only.port_eq]
    exact order read n port
  · rw [blocks.only.port_eq, links, reach'.2.only.port_eq]
  · exact (reach'.1.trans (.of_only point.only)).trans (modPav_onlyPav _ p _)
  · exact ((reach'.2.mono (by simp)).trans (point.mono (by simp))).trans (blocks.mono (by simp))
end
end Sys2Proof.Machine

namespace Sys2Proof.Machine
-- The proofs below are elaborated one after the other, which bounds the threads that checking the text takes.
set_option Elab.async false

/-! ## A pavilion's only transaction, followed to its end (R114, R115, R122) -/

section
variable {s u w : State} {n : PortId} {p : PavId} {e : Nat} {y : Txn} {op : BitVec 8}

theorem modPav_fixed {f : Pav → Pav} (same : f (s.pav p) = s.pav p) : s.modPav p f = s := by
  have fixed : f s.pavs[p] = s.pavs[p] := same
  unfold State.modPav
  rw [fixed]
  simp

/-- One round of a pavilion that holds one transaction advances it; if that brings the pavilion to rest, nothing else happens. -/
theorem pumpOnce_only (only : (s.pav p).holdsOnly e y) (rest : (((s.deadWaits p e).advance p e).pav p).atRest) :
    s.pumpOnce p = (s.deadWaits p e).advance p e := by
  obtain ⟨table, runs, -, -, recovers, poisons, misses, -⟩ := only
  have recover : s.recoverNow p = s := by unfold State.recoverNow; rw [recovers]; rfl
  have poison : s.poisonNext p = s := by unfold State.poisonNext; rw [poisons]
  have commit : s.regsCommit p = s := by unfold State.regsCommit Pav.missList; rw [misses]; rfl
  unfold State.pumpOnce
  dsimp only
  rw [recover, poison, commit, ite_self, Pav.txns, table, List.map_cons, List.map_nil, List.foldl_cons, List.foldl_nil]
  obtain ⟨-, evictions, sweeps, -⟩ := rest
  have drain : ((s.deadWaits p e).advance p e).drainEvBuf p = (s.deadWaits p e).advance p e := by unfold State.drainEvBuf; rw [evictions]; exact ite_self _
  rw [drain, sweeps, List.foldl_nil, ite_self]
theorem pump_only (only : (s.pav p).holdsOnly e y) (rest : (((s.deadWaits p e).advance p e).pav p).atRest) :
    s.pump p = (s.deadWaits p e).advance p e := by
  have none_ : (s.pav p).sweepRounds = 0 := by
    obtain ⟨-, -, -, sweeps, -⟩ := only
    unfold Pav.sweepRounds; rw [sweeps]; rfl
  have later : (List.range' 1 3).foldl (fun s _ => s.pumpOnce p) ((s.deadWaits p e).advance p e) = (s.deadWaits p e).advance p e :=
    foldl_fixed_mem fun _ _ => pumpOnce_atRest rest
  unfold State.pump
  dsimp only
  rw [none_, if_pos rfl, show List.range (4 + 0) = 0 :: List.range' 1 3 from rfl, List.foldl_cons, pumpOnce_only only rest]
  exact later
/-- A transaction that waits for no agent waits for no dead one. -/
theorem deadWaits_none (found : FMap.find? (s.pav p).tt e = some y) (outs : y.outs = []) (phase : y.phase ≠ .stash) : s.deadWaits p e = s := by
  unfold State.deadWaits
  rw [found]
  dsimp only
  rw [outs, List.foldl_nil]
  split
  · rfl
  · split
    · rfl
    · exact if_neg (by simp [phase])

/-- The end of a transaction other than a read, alone in its pavilion, leaves nothing there. -/
theorem endTxn_rests (only : (s.pav p).holdsOnly e y) (kind : y.kind = .req op) (plain : isReadOp op = false) (owed : y.evAcks = [])
    (sound : (s.pav p).dirSound (dirSet y.pa)) : ((s.endTxn p e).pav p).atRest ∧ OnlyPav p s (s.endTxn p e) ∧ Tame [.pavs] s (s.endTxn p e) := by
  obtain ⟨f, eq, -, rest⟩ := endTxn_update only.find
  unfold State.closing at eq
  rw [kind] at eq
  dsimp only at eq
  rw [if_neg (by simp [plain]), readEntry_sound sound, flushAcks_none only.find owed] at eq
  obtain ⟨-, flushed⟩ := modTxn_holdsOnly (fun t => { t with evAcks := [] }) only
  obtain ⟨dropped, onlyPav, tame⟩ := dropFetch_holdsOnly flushed
  rw [eq]
  exact ⟨by rw [State.modPav_pav_same]; exact rest _ _ dropped, (modTxn_onlyPav _).trans (onlyPav.trans (modPav_onlyPav _ p _)),
    (modTxn_tame _).trans (tame.trans (modPav_tame _ p _))⟩

/-! ### A CInv of a line that no agent holds -/

/-- The CInv `y`, alone in its pavilion, whose line no agent holds and whose port is there to get its Comp. -/
structure InvReady (s : State) (p : PavId) (e : Nat) (n : PortId) (y : Txn) : Prop where
  only : (s.pav p).holdsOnly e y
  kind : y.kind = .req Op.cInv
  port : portOf? y.port = some n
  keeps : (s.port n).link.keeps = true
  expected : s.current n y.num = true
  acked : y.acked = []
  owed : y.evAcks = []
  sound : (s.pav p).dirSound (dirSet y.pa)
  uncached : (s.pav p).entry y.pa = {}

/-- A change of its phase, its fetch or its time leaves the CInv as ready as it was. -/
theorem InvReady.modTxn (ready : InvReady s p e n y) (f : Txn → Txn)
    (kept : (f y).kind = y.kind ∧ (f y).port = y.port ∧ (f y).num = y.num ∧ (f y).acked = y.acked ∧ (f y).evAcks = y.evAcks ∧ (f y).pa = y.pa) :
    InvReady (s.modTxn p e f) p e n (f y) := by
  obtain ⟨only, kind, port, keeps, expected, acked, owed, sound, uncached⟩ := ready
  obtain ⟨kind_, asker, num, acks, evs, line⟩ := kept
  obtain ⟨pav, only'⟩ := modTxn_holdsOnly f only
  have ports := (modTxn_tame (s := s) (p := p) (e := e) f).only.port_eq n
  exact ⟨only', kind_.trans kind, by rw [asker]; exact port, by rw [ports]; exact keeps, by rw [num]; exact (current_congr (by rw [ports]) _).trans expected,
    acks.trans acked, evs.trans owed, by rw [pav, line]; exact sound, by rw [line, entry_congr (modTxn_dir s p e f)]; exact uncached⟩
theorem writeDone_cInv (ready : InvReady s p e n y) : CleanEnds s p e n y (s.writeDone p e y Op.cInv) := by
  obtain ⟨only, kind, port, keeps, expected, acked, owed, sound, -⟩ := ready
  have effect : s.writeDone p e y Op.cInv = (s.comp p e (if y.agentLost then Status.agentLost else Status.ok)).endTxn p e := by
    have final : s.finalState p y = s := if_pos (by rw [acked]; rfl)
    unfold State.writeDone
    dsimp only
    rw [if_neg (show ¬ isWriteOp Op.cInv = true by decide), if_neg (show ¬ Op.cInv = Op.cCleanInv by decide), final,
      if_neg (by simp [show ¬ Op.cInv = Op.wrStash by decide])]
  obtain ⟨sent, pav, onlyPort, onlyPav, tame⟩ := comp_comped (st := if y.agentLost then Status.agentLost else Status.ok) only.find port keeps expected
  obtain ⟨table, still⟩ := only
  have inserted : FMap.insert (s.pav p).tt e { y with issued := true } = [(e, { y with issued := true })] := by rw [table]; simp [FMap.insert]
  rw [inserted] at pav
  have after : ((s.comp p e (if y.agentLost then Status.agentLost else Status.ok)).pav p).holdsOnly e { y with issued := true } := by
    rw [pav]; exact ⟨rfl, still⟩
  obtain ⟨rest, onlyPav', tame'⟩ := endTxn_rests after kind (by decide) owed (by rw [pav]; exact sound)
  rw [effect]
  exact ⟨rest, by rw [tame'.only.port_eq, sent], onlyPort.trans (.of_only tame'.only), onlyPav.trans onlyPav', tame.trans (tame'.mono (by simp))⟩

/-- A CInv of a line that no agent holds asks no one, and is performed. -/
theorem writeStep_cInv (ready : InvReady s p e n y) (idle : y.fetch = .idle) : CleanEnds s p e n y (s.writeStep p e y Op.cInv) := by
  have inData := ready.modTxn (Txn.inPhase .data) ⟨rfl, rfl, rfl, rfl, rfl, rfl⟩
  have performed := inData.modTxn (fun t => { t with fetch := .performed }) ⟨rfl, rfl, rfl, rfl, rfl, rfl⟩
  have effect : s.writeStep p e y Op.cInv = ((s.modTxn p e (Txn.inPhase .data)).setFetch p e .performed).writeDone p e
      { y with phase := .data, fetch := .performed } Op.cInv := by
    have alone : ((s.pav p).entry y.pa).left y.acked = {} := by rw [ready.uncached]; exact if_pos (by rw [ready.acked]; rfl)
    have found : FMap.find? (((s.modTxn p e fun t => { t with phase := .data }).setFetch p e .performed).pav p).tt e
        = some { y with phase := .data, fetch := .performed } := performed.only.find
    unfold State.writeStep
    extract_lets d ownF shF fwd v touched w z
    have nobody : fwd = [] := by unfold fwd ownF shF d; rw [alone]; rfl
    have unpinned : v = s := by
      unfold v
      rw [if_neg (show ¬ Op.cInv = Op.wrPart by decide)]
      cases s.mode p <;> rfl
    have performs : z = (s.modTxn p e fun t => { t with phase := .data }).setFetch p e .performed := by
      unfold z w
      rw [unpinned]
      rfl
    rw [idle, if_neg (by decide), nobody, if_neg (by simp), if_neg (by decide), performs, found]
    exact if_pos rfl
  rw [effect]
  exact .of_modTxn _ (.of_modTxn _ (writeDone_cInv performed) ⟨rfl, rfl, rfl⟩) ⟨rfl, rfl, rfl⟩
theorem advance_cInv (ready : InvReady s p e n y) (active : y.active = true) (phase : y.phase = .data) (idle : y.fetch = .idle) (outs : y.outs = [])
    (cross : y.cross = []) (evict : y.waitEvict = false) : CleanEnds s p e n y (s.advance p e) := by
  have effect : s.advance p e = s.writeStep p e y Op.cInv := by
    have runs : (s.pav p).halted = false := ready.only.2.1
    have goes : s.meetsEvicting p y Op.cInv = false := by
      have homeless : (s.pav p).needsHome y Op.cInv = false := rfl
      unfold State.meetsEvicting
      rw [homeless, Bool.and_false, Bool.false_and]
    unfold State.advance
    rw [ready.only.find]
    dsimp only
    rw [if_neg (by simp [runs, active, outs, cross, evict]), phase, ready.kind]
    dsimp only
    rw [goes, if_neg (by decide), if_neg (by decide)]
  rw [effect]
  exact writeStep_cInv ready idle
/-- A pavilion whose only transaction is a CInv of a line that no agent holds performs it and comes to rest. -/
theorem pump_cInv (ready : InvReady s p e n y) (active : y.active = true) (phase : y.phase = .data) (idle : y.fetch = .idle) (outs : y.outs = [])
    (cross : y.cross = []) (evict : y.waitEvict = false) : CleanEnds s p e n y (s.pump p) := by
  have alive : s.deadWaits p e = s := deadWaits_none ready.only.find outs (by rw [phase]; decide)
  have ends := advance_cInv ready active phase idle outs cross evict
  rw [pump_only ready.only (by rw [alive]; exact ends.rest), alive]
  exact ends

/-- A request that has begun on a line that no agent holds. -/
def Txn.beginsAlone (t : Txn) : Txn := { t with active := true, phase := .data, regrant := 0, waitEvict := false }
/-- A request other than a read begins on a line that no agent holds: the directory has no entry to block. -/
theorem begin_uncached (none_ : (s.pav p).dirFind y.pa = none) (plain : isReadOp op = false) : s.begin p e y op = s.modTxn p e Txn.beginsAlone := by
  have entry : (s.pav p).entry y.pa = {} := entry_of_none none_
  have unread : (y.retry && isReadOp op && ((s.pav p).entry y.pa).lists y.port) = false := by rw [plain, Bool.and_false, Bool.false_and]
  have unowned : (!y.retry && decide (op ≠ Op.upg) && decide (((s.pav p).entry y.pa).own = some y.port)) = false := by
    rw [entry]; simp [DirEntry.own]
  unfold State.begin
  extract_lets d marked regrant wait active ordered
  have same : marked = s := modPav_fixed (by rw [none_])
  have alone : active = s.modTxn p e Txn.beginsAlone := by
    have none_ : regrant = 0 := if_neg (by rw [unread]; decide)
    unfold active
    rw [same, show wait = false from unowned, none_]
    rfl
  have dir : (active.pav p).dirFind y.pa = none := by rw [alone, dirFind_congr (modTxn_dir s p e _)]; exact none_
  have unordered : ordered = active := if_neg (by simp [plain])
  rw [unordered, modPav_fixed (by unfold Pav.setBlk; rw [dir]), alone]

/-- Counting leaves the CInv as ready as it was. -/
theorem InvReady.counted {ps : List Part} {os : List Nat} (ready : InvReady s p e n y) (k : Logs ps os s w) (hp : Part.pavs ∉ ps := by decide)
    (hq : Part.ports ∉ ps := by decide) : InvReady w p e n y := by
  obtain ⟨only, kind, port, keeps, expected, acked, owed, sound, uncached⟩ := ready
  have pav := k.only.pav_eq p hp
  have ports := k.only.port_eq n hq
  exact ⟨by rw [pav]; exact only, kind, port, by rw [ports]; exact keeps, (current_congr (by rw [ports]) _).trans expected, acked, owed,
    by rw [pav]; exact sound, by rw [pav]; exact uncached⟩
theorem CleanEnds.of_counted (ends : CleanEnds w p e n y u) {os : List Nat} (k : Logs [.csr, .glb, .blv] os s w) : CleanEnds s p e n y u := by
  obtain ⟨rest, sent, onlyPort, onlyPav, tame⟩ := ends
  rw [k.only.port_eq, k.only.now_eq] at sent
  exact ⟨rest, sent, OnlyPort.trans (.of_only k.only) onlyPort, OnlyPav.trans (.of_only k.only) onlyPav, (k.tame.mono (by simp)).trans tame⟩
/-- An arrival leaves the CInv ready, and what ends it from there ends it. -/
theorem arrives_ready (ready : InvReady s p e n y) : ∃ x, InvReady (s.arrives p e y) p e n { y with arrive := x }
    ∧ ∀ u, CleanEnds (s.arrives p e y) p e n { y with arrive := x } u → CleanEnds s p e n y u := by
  unfold State.arrives
  split
  · have timed := ready.modTxn (fun t => { t with arrive := some s.now }) ⟨rfl, rfl, rfl, rfl, rfl, rfl⟩
    exact ⟨some s.now, timed.counted (cntPav_logs _ _ _ _ _), fun u ends => (ends.of_counted (cntPav_logs _ _ _ _ _)).of_modTxn _ ⟨rfl, rfl, rfl⟩⟩
  · exact ⟨y.arrive, ready.counted (cntPav_logs _ _ _ _ _), fun u ends => ends.of_counted (cntPav_logs _ _ _ _ _)⟩

/-- A line whose entry is free has none. -/
theorem find_of_free {v : Pav} {la : LineAddr} (free : (v.entry la).st = .free) : v.dirFind la = none := by
  rcases found : v.dirFind la with _ | w
  · rfl
  · obtain ⟨-, used, -⟩ := find_spec found
    rw [entry_of_find found] at free
    exact absurd free used
end

/-! ## The statement on lookups -/

section
variable {s : State} {n : PortId} {p : PavId} {e : Fin 1024} {y : Txn} {op : BitVec 8}

theorem disturb_none (s : State) (p : PavId) : s.disturb p .none = s := modPav_fixed rfl
theorem homeLookup_runs (alive : s.alive = true) (found : FMap.find? (s.pav p).tt e.val = some y) (phase : y.phase = .lookup) (inactive : y.active = false)
    (runs : (s.pav p).halted = false) : exec (.homeLookup p e .none) s = .next (State.lookEnd s ((s.lookup p e).pump p) p e y) := by
  change execHomeLookup p e .none s = _
  unfold execHomeLookup
  rw [live_alive _ alive]
  dsimp only
  rw [disturb_none, found]
  dsimp only
  rw [if_pos (by simp [phase, inactive, runs])]
  rfl
theorem homeLookup_halted (alive : s.alive = true) (halted : (s.pav p).halted = true) : exec (.homeLookup p e .none) s = .next s := by
  change execHomeLookup p e .none s = _
  unfold execHomeLookup
  rw [live_alive _ alive]
  dsimp only
  rw [disturb_none]
  split
  · rfl
  · exact congrArg _ (if_neg (by simp [halted]))

/-- A lookup that is turned away frees its entry, reports its event and answers its request. -/
theorem turnedAway_completes {off bit : Nat} {st : BitVec 4} (alive : s.alive = true) (ok : s.regsOk) (small : e.val < 992)
    (rises : rising (s.pav p).tt) (found : FMap.find? (s.pav p).tt e.val = some y) (phase : y.phase = .lookup) (inactive : y.active = false)
    (runs : (s.pav p).halted = false) (effect : s.lookup p e = (s.arrives p e y).turnAway off bit p e st)
    (apart : off ∉ [R.blvEvt, R.pavDirErr p, R.pavDirStat p]) (lo : 8 ≤ bit) (hi : bit < 32) :
    Completes (.homeLookup p e .none) s fun t => t.entryFree p e.val
      ∧ ∃ u : State, t = State.lookEnd s (u.pump p) p e.val y ∧ u.entryFree p e.val ∧ (u.rget off).getLsbD bit = true ∧ y.turnedAway st p e.val s u := by
  have arrived := arrives_arrived found
  obtain ⟨x, found'⟩ := arrived.found
  have rises' := arrived.kept.rising rises
  have gone : ((s.arrives p e y).turnAway off bit p e st).entryFree p e := turnAway_free rises'
  have account := lookEnd_tame (s := s) (p := p) (e := e.val) (((s.arrives p e y).turnAway off bit p e st).pump p) y
  refine Completes.of_eq ((homeLookup_runs alive found phase inactive runs).trans (congrArg _ (by rw [effect]))) rfl ⟨?_, _, rfl, gone,
    turnAway_event (arrived.logs.regsOk ok) found' apart lo hi, fun n port keeps expected owed => ?_⟩
  · unfold State.entryFree
    rw [account.only.pav_eq]
    exact (KeepsFree.refl.pump p).free ((turnAway_begun _ off bit p e st).endTxn.rising rises') small gone
  · have same := arrived.logs.only.port_eq n
    have sent := turnAway_answers (off := off) (bit := bit) (st := st) found' small n port (by rw [same]; exact keeps)
      ((current_congr (by rw [same]) _).trans expected) owed
    rw [same, arrived.logs.only.now_eq] at sent
    exact sent

/-- A lookup that nothing holds back begins its request, and then the pavilion's engine runs. -/
theorem lookup_completes (alive : s.alive = true) (wf : FMap.wf (fun _ => ({} : DirEntry)) (s.pav p).dir = true)
    (found : FMap.find? (s.pav p).tt e.val = some y) (kind : y.kind = .req op) (phase : y.phase = .lookup) (inactive : y.active = false)
    (runs : (s.pav p).halted = false) (effect : s.lookup p e = (s.arrives p e y).begin p e y op) :
    Completes (.homeLookup p e .none) s fun t =>
      ∃ u : State, t = State.lookEnd s (u.pump p) p e.val y
        ∧ (∃ x, FMap.find? (u.pav p).tt e.val = some x ∧ x.active = true ∧ x.kind = .req op ∧ x.pa = y.pa ∧ x.port = y.port ∧ x.tid = y.tid
          ∧ x.phase = (if !y.retry && op ≠ Op.upg && ((s.pav p).entry y.pa).own = some y.port then Phase.crossed else Phase.data))
        ∧ (((u.pav p).entry y.pa).st = .free ∨ ((u.pav p).entry y.pa).blk = true)
        ∧ (isReadOp op = true → ∀ n, portOf? y.port = some n → ∀ o ∈ (u.port n).io.opens, o.num = y.num → o.doneAt.isSome = true)
        ∧ (∀ n : PortId, (u.port n).link = (s.port n).link) ∧ OnlyPav p s u ∧ OnlyParts [.ports, .pavs, .csr, .glb, .blv] s u := by
  have arrived := arrives_arrived found
  obtain ⟨x, found'⟩ := arrived.found
  obtain ⟨begun, blocked, ordered, link, only, tame⟩ := begin_begun (y := y) (op := op) found' (by rw [arrived.field Pav.dir]; exact wf)
  obtain ⟨z, there, active, kind', pa, port, tid, now⟩ := begun
  refine Completes.of_eq ((homeLookup_runs alive found phase inactive runs).trans (congrArg _ (by rw [effect]))) rfl ⟨_, rfl,
    ⟨z, there, active, kind'.trans kind, pa, port, tid, ?_⟩, blocked, ordered, fun n => ?_, arrived.only.trans only,
    (arrived.logs.only.mono (by simp)).trans (tame.mono (by simp)).only⟩
  · rw [now, arrived.entry]; rfl
  · rw [link, arrived.logs.only.port_eq]

/-- A CInv of a line that no agent holds, alone in its pavilion, gets its Comp at its lookup. -/
theorem lookup_cInv (alive : s.alive = true) (found : FMap.find? (s.pav p).tt e.val = some y) (phase : y.phase = .lookup) (inactive : y.active = false)
    (ready : InvReady s p e n y) (fresh : y.fresh) (effect : s.lookup p e = (s.arrives p e y).begin p e y Op.cInv) :
    Completes (.homeLookup p e .none) s fun t =>
      t.entryFree p e.val
        ∧ (t.port n).link.egress = (s.port n).link.egress ++ [{ msg := compMsg y.tid y.pa Status.ok (htidOf p e.val), relTid := some y.tid, at_ := s.now }]
        ∧ OnlyPort n s t ∧ OnlyPav p s t ∧ OnlyParts [.ports, .pavs, .csr, .glb, .blv, .freeCtr] s t := by
  obtain ⟨outs, cross, -, -, idle, -, -, held, -⟩ := fresh
  obtain ⟨x, there, ends⟩ := arrives_ready ready
  have none_ : ((s.arrives p e y).pav p).dirFind y.pa = none := find_of_free (by rw [there.uncached])
  rw [begin_uncached none_ (by decide)] at effect
  obtain ⟨rest, sent, onlyPort, onlyPav, tame⟩ := ends _ (.of_modTxn _ (pump_cInv (there.modTxn Txn.beginsAlone ⟨rfl, rfl, rfl, rfl, rfl, rfl⟩)
    rfl rfl idle outs cross rfl) ⟨rfl, rfl, rfl⟩)
  rw [held] at sent
  have account := lookEnd_tame (s := s) (p := p) (e := e.val) (((s.arrives p e y).modTxn p e Txn.beginsAlone).pump p) y
  refine Completes.of_eq ((homeLookup_runs alive found phase inactive ready.only.2.1).trans (congrArg _ (by rw [effect]))) rfl ⟨?_, ?_,
    onlyPort.trans (.of_only account.only), onlyPav.trans (.of_only account.only), (tame.only.mono (by simp)).trans (account.only.mono (by simp))⟩
  · obtain ⟨table, -⟩ := rest
    unfold State.entryFree
    rw [account.only.pav_eq, table]
    rfl
  · rw [account.only.port_eq]
    exact sent
end

/-- Settles O10. -/
theorem lookupsStartOrEnd : Obligations.LookupsStartOrEnd := by
  refine ⟨fun p e y op s alive canon small found kind phase inactive => ?_, ?_⟩
  · obtain ⟨ok, -, -, pavs, -⟩ := canon
    obtain ⟨-, -, -, -, wf, -, -, rises, -⟩ := pavs p
    have apart (off : Nat) (h : off ≠ R.blvEvt ∧ off ≠ R.pavDirErr p ∧ off ≠ R.pavDirStat p) : off ∉ [R.blvEvt, R.pavDirErr p, R.pavDirStat p] := by
      simpa using h
    refine ⟨homeLookup_halted alive, fun runs tags first window outside => ?_, fun runs tags first settled unmapped => ?_,
      fun runs first inside mapped tags dir idle recovered free known => ?_⟩
    · obtain ⟨outside_, -, -⟩ := lookup_arrives found kind phase inactive runs tags first
      exact turnedAway_completes alive ok small rises found phase inactive runs (outside_ window outside ok)
        (apart _ (by unfold R.pavPlaceEvt R.blvEvt R.pavDirErr R.pavDirStat; omega)) (by omega) (by omega)
    · obtain ⟨-, unmapped_, -⟩ := lookup_arrives found kind phase inactive runs tags first
      have := p.isLt
      exact turnedAway_completes alive ok small rises found phase inactive runs (unmapped_ settled unmapped ok)
        (apart _ (by unfold R.chanEvt R.blvEvt R.pavDirErr R.pavDirStat; omega)) (by omega) (by omega)
    · obtain ⟨-, -, begins⟩ := lookup_arrives found kind phase inactive runs tags first
      exact lookup_completes alive wf found kind phase inactive runs (begins inside mapped ok dir idle recovered free known)
  · intro p e n y s alive canon small table still fresh kind phase inactive port keeps expected inside mapped tags dir uncached known
    obtain ⟨ok, -⟩ := canon
    have still' := still
    obtain ⟨runs, -, -, recovers, -, -, -, -, retries⟩ := still'
    have fresh' := fresh
    obtain ⟨-, -, acked, owed, -⟩ := fresh'
    have only : (s.pav p).holdsOnly e y := ⟨table, still⟩
    have first : (s.pav p).mustWait e.val y = false := by simp [Pav.mustWait, Pav.txns, table]
    have unblocked : (s.pav p).unblocked y.pa = true := by simp [Pav.unblocked, Pav.blocker, table, inactive]
    have ready : InvReady s p e n y := ⟨only, kind, port, keeps, expected, acked, owed, dir, entry_of_none (find_of_free uncached)⟩
    obtain ⟨-, -, begins⟩ := lookup_arrives only.find kind phase inactive runs tags first
    exact lookup_cInv alive only.find phase inactive ready fresh
      (begins inside mapped ok dir (by rw [retries]; exact List.not_mem_nil) (by rw [recovers]; exact List.not_mem_nil) unblocked known)
end Sys2Proof.Machine

namespace Sys2Proof.Machine
-- The proofs below are elaborated one after the other, which bounds the threads that checking the text takes.
set_option Elab.async false

/-! ## Reads that arrive (R169, R173, R180, R430) -/

section
variable {s t u : State} {n : PortId} {m : Msg}

/-- Ingress judges the bytes that a message asks for as its agent wrote them (R383). -/
theorem ingressPlot_span (s : State) (n : PortId) (m : Msg) :
    (s.ingressPlot n m).hdr.size = m.hdr.size ∧ (s.ingressPlot n m).hdr.offset = m.hdr.offset := by
  unfold State.ingressPlot; split <;> exact ⟨rfl, rfl⟩

theorem takeMsg_ioTarget (w : Msg) (ok : s.regsOk) (la : LineAddr) : (s.takeMsg n w).ioTarget n la = s.ioTarget n la :=
  ioTarget_congr (fun _ h => takeMsg_rget w ok (by unfold R.blvEvt; omega)) n la

/-! ### The tracker -/

/-- Starting timers changes nothing of a read but its timer (R180). -/
theorem ioElig_timers (s : State) (n : PortId) :
    ∃ f : RdEntry → RdEntry, (∀ y, ∃ d, f y = { y with elig := d }) ∧ ((s.ioElig n).port n).io.rdt = (s.port n).io.rdt.map f := by
  unfold State.ioElig
  dsimp only
  split
  · exact ⟨id, fun y => ⟨y.elig, rfl⟩, (List.map_id _).symm⟩
  · refine ⟨fun x => if x.elig.isNone && (s.port n).io.rdFree x then { x with elig := some s.now } else x, fun y => ?_, ?_⟩
    · dsimp only
      split
      · exact ⟨_, rfl⟩
      · exact ⟨y.elig, rfl⟩
    · rw [State.modIo_io_same]

/-- A read takes the lowest free tracker entry (R180). -/
theorem rdPush_port (s : State) (n : PortId) (x : InMsg) (tg : IoTgt) (k : Nat) (slot : freeSlot ((s.port n).io.rdt.map (·.slot)) 16 = some k) :
    ∃ e use, (e.slot = k ∧ e.num = x.num ∧ e.msg = x.msg ∧ e.target = tg ∧ e.sent = false)
      ∧ ((s.rdPush n x tg).port n).io = { (s.port n).io with
          ingress := (s.port n).io.ingress.filter (fun y => y.num ≠ x.num), rdUse := use, rdt := (s.port n).io.rdt ++ [e] } := by
  rw [State.rdPush, slot]
  simp only [State.modIo_io_same]
  exact ⟨_, _, by refine ⟨?_, rfl⟩; exact ⟨rfl, rfl, rfl, rfl, rfl⟩⟩
theorem rdPush_onPort (s : State) (n : PortId) (x : InMsg) (tg : IoTgt) : OnPort n s (s.rdPush n x tg) := by
  unfold State.rdPush
  split
  · exact .refl
  · exact modIo_onPort s n _

/-- A read alone in ingress, behind no Fence, takes the lowest free tracker entry (R169, R180). -/
theorem ioQueue_read {tg : IoTgt} {k : Nat} (op : m.hdr.opcode = Op.ioRd) (run : s.glb.hold = false) (empty : (s.port n).io.ingress = [])
    (fences : (s.port n).io.fences = []) (slot : freeSlot ((s.port n).io.rdt.map (·.slot)) 16 = some k) :
    let t := s.ioQueue n m tg
    (∃ y ∈ (t.port n).io.rdt, y.slot = k ∧ y.num = (s.port n).io.nextNum ∧ y.msg = m ∧ y.target = tg ∧ y.sent = false)
      ∧ (t.port n).io.nextNum = (s.port n).io.nextNum + 1 ∧ (t.port n).io.ingress = []
      ∧ (t.port n).io.rdt.length = (s.port n).io.rdt.length + 1 ∧ OnlyPort n s t ∧ Tame [.ports] s t := by
  let x : InMsg := { num := (s.port n).io.nextNum, msg := m, at_ := s.now, tgt := some tg }
  let v := s.modIo n fun io => { io with nextNum := io.nextNum + 1, ingress := io.ingress ++ [{ num := io.nextNum, msg := m, at_ := s.now, tgt := some tg }] }
  have vio : (v.port n).io = { (s.port n).io with nextNum := (s.port n).io.nextNum + 1, ingress := [x] } := by
    rw [State.modIo_io_same, empty]; rfl
  have admitted : s.ioQueue n m tg = (v.rdPush n x tg).ioElig n := by
    have queue : (v.port n).io.ingress = [x] := by rw [vio]
    have free : (v.port n).io.fenceFree x.num = true := by simp [PortIo.fenceFree, vio, fences]
    have read : x.msg.hdr.opcode ≠ Op.ioWr := by rw [show x.msg.hdr.opcode = Op.ioRd from op]; exact ne_of_beq_false rfl
    rw [State.ioQueue, State.ioAdmit, if_neg (by simp [run])]
    change (List.foldl _ v (v.port n).io.ingress).ioElig n = _
    rw [queue, List.foldl_cons, List.foldl_nil]
    dsimp only [x] at read free ⊢
    rw [if_neg read, if_pos free]
  obtain ⟨e, use, fields, wio⟩ := rdPush_port v n x tg k (by rw [vio]; exact slot)
  obtain ⟨r, tio⟩ := ioElig_port (v.rdPush n x tg) n
  obtain ⟨f, timer, rdt⟩ := ioElig_timers (v.rdPush n x tg) n
  obtain ⟨d, timed⟩ := timer e
  have pushed := (modIo_onPort s n _).trans (rdPush_onPort v n x tg)
  rw [admitted]
  refine ⟨⟨f e, by rw [rdt, wio]; exact List.mem_map_of_mem (by simp), by rw [timed]; exact fields⟩, ?_, ?_, ?_, ?_, ?_⟩
  · rw [tio, wio, vio]
  · rw [tio, wio, vio]; simp
  · rw [rdt, wio, vio]; simp
  · exact pushed.only.trans (ioElig_onlyPort _ n)
  · exact pushed.tame.trans (ioElig_tame _ n)

/-! ### Reads that the port answers itself -/

theorem credFor_keeps (s : State) (n : PortId) (num cls : Nat) : ((s.credFor n num cls).port n).link.keeps = (s.port n).link.keeps := by
  have req : ((s.reqCredBack n).port n).link.keeps = (s.port n).link.keeps := by
    unfold State.reqCredBack
    split
    · rw [State.modLink_link_same]; rfl
    · rw [credBack_keeps]
  unfold State.credFor
  split
  · split
    · exact req
    · rw [credBack_keeps]
  · rfl

/-- An IORd that the port answers itself has taken its place in arrival order and in ingress. -/
def State.readQueued (s : State) (n : PortId) (m : Msg) (st : BitVec 4) : State :=
  s.modIo n fun io => { io with nextNum := io.nextNum + 1, ingress := io.ingress ++ [{ num := io.nextNum, msg := m, at_ := s.now, loc := some st }] }

/-- What a port answers an IORd itself (R173, R430). -/
def ownAnswer (m : Msg) (st : BitVec 4) : Msg := if st = Status.notHome then compMsg m.hdr.tid m.hdr.pa st else rdAnswer m 0 true st

theorem readQueued_io {st : BitVec 4} (empty : (s.port n).io.ingress = []) :
    ((s.readQueued n m st).port n).io = { (s.port n).io with
      nextNum := (s.port n).io.nextNum + 1, ingress := [{ num := (s.port n).io.nextNum, msg := m, at_ := s.now, loc := some st }] } := by
  rw [State.readQueued, State.modIo_io_same, empty]; rfl
theorem readQueued_onPort (s : State) (n : PortId) (m : Msg) (st : BitVec 4) : OnPort n s (s.readQueued n m st) := modIo_onPort s n _

/-- An IORd alone in ingress that the port answers itself goes unless an earlier Fence waits (R169). -/
theorem localAnswers_read {x : InMsg} {st : BitVec 4} (run : s.glb.hold = false) (queue : (s.port n).io.ingress = [x]) (loc : x.loc = some st)
    (op : x.msg.hdr.opcode = Op.ioRd) : s.localAnswers n = if (s.port n).io.fenceFree x.num then s.localRead n x st else s := by
  unfold State.localAnswers
  rw [if_neg (by simp [run]), queue, List.foldl_cons, List.foldl_nil, loc]
  dsimp only
  rw [op, if_neg (ne_of_beq_false rfl), if_pos rfl]

theorem localRead_answers {x : InMsg} {st : BitVec 4} (keeps : (s.port n).link.keeps = true) :
    let t := s.localRead n x st
    (t.port n).io = { (s.port n).io with ingress := (s.port n).io.ingress.filter fun y => y.num ≠ x.num }
      ∧ (t.port n).link.egress = (s.port n).link.egress ++ s.reply n x.num (ownAnswer x.msg st) none
      ∧ OnlyPort n s t ∧ Tame [.ports] s t := by
  let q := s.modIo n fun io => { io with ingress := io.ingress.filter fun y => y.num ≠ x.num }
  have left : OnPort n s q := modIo_onPort s n _
  have credit := credFor_onLink q n x.num 5
  obtain ⟨sent, -, answer⟩ := answerPort_keeps (s := q.credFor n x.num 5) (num := x.num) (m := ownAnswer x.msg st) (rel := none)
    (by rw [credFor_keeps, left.link, keeps])
  have same : (q.credFor n x.num 5).current n x.num = s.current n x.num := by
    rw [current_congr credit.io]; unfold State.current; simp [q]
  refine ⟨(answer.io.trans credit.io).trans (State.modIo_io_same s n _), sent.trans ?_, left.only.trans (credit.trans answer).only,
    left.tame.trans (credit.trans answer).tame⟩
  rw [credFor_egress, left.link, State.reply, same, (left.tame.trans credit.tame).only.now_eq]

/-- Behind no Fence, an IORd that the port answers itself is answered as it arrives (R173, R430). -/
theorem readQueued_answered {st : BitVec 4} (op : m.hdr.opcode = Op.ioRd) (run : s.glb.hold = false) (empty : (s.port n).io.ingress = [])
    (fences : (s.port n).io.fences = []) (keeps : (s.port n).link.keeps = true) :
    let t := (s.readQueued n m st).localAnswers n
    (t.port n).io = { (s.port n).io with nextNum := (s.port n).io.nextNum + 1 }
      ∧ (t.port n).link.egress = (s.port n).link.egress ++ s.reply n (s.port n).io.nextNum (ownAnswer m st) none
      ∧ OnlyPort n s t ∧ Tame [.ports] s t := by
  let x : InMsg := { num := (s.port n).io.nextNum, msg := m, at_ := s.now, loc := some st }
  let q := s.readQueued n m st
  have queued : OnPort n s q := readQueued_onPort s n m st
  have qio := readQueued_io (m := m) (st := st) empty
  have goes : q.localAnswers n = q.localRead n x st := by
    rw [localAnswers_read (s := q) (x := x) run (by rw [qio]) rfl op, if_pos (by simp [PortIo.fenceFree, qio, fences, q])]
  obtain ⟨tio, sent, only, tame⟩ := localRead_answers (s := q) (x := x) (st := st) (by rw [queued.link, keeps])
  have same : q.current n x.num = s.current n x.num := by unfold State.current; rw [qio]
  intro t
  rw [show t = q.localRead n x st from goes]
  refine ⟨?_, ?_, queued.only.trans only, queued.tame.trans tame⟩
  · rw [tio, qio]; simp [x, empty]
  · rw [sent, queued.link, State.reply, same, queued.tame.only.now_eq]

/-- Behind an earlier Fence it waits in ingress (R169). -/
theorem readQueued_fenced {st : BitVec 4} (op : m.hdr.opcode = Op.ioRd) (run : s.glb.hold = false) (empty : (s.port n).io.ingress = [])
    (fenced : ∃ f ∈ (s.port n).io.fences, f.num < (s.port n).io.nextNum) : (s.readQueued n m st).localAnswers n = s.readQueued n m st := by
  have qio := readQueued_io (m := m) (st := st) empty
  rw [localAnswers_read (s := s.readQueued n m st) run (by rw [qio]) rfl op, if_neg]
  obtain ⟨f, mem, earlier⟩ := fenced
  intro free
  rw [qio] at free
  simpa [earlier] using List.all_eq_true.mp free f mem

/-! ### IORD -/

/-- The STATUS of a port's own answer to an IORd: it is being quiesced, or nothing takes the address (R173, R430). -/
def State.ownStatus (s : State) (n : PortId) : BitVec 4 := if (s.port n).io.qst = .none then Status.notHome else Status.unsupported

section
variable (ok : s.regsOk) (size : m.hdr.size ≠ 7) (aligned : m.hdr.offset.toNat % 2 ^ m.hdr.size.toNat = 0)
include ok size aligned

theorem ioRdIn_target {tg : IoTgt} (quiet : (s.port n).io.qst = .none) (target : s.ioTarget n m.hdr.pa = some tg) :
    s.ioRdIn n m = (s.takeMsg n m).ioQueue n (s.ingressPlot n m) tg := by
  obtain ⟨sz, off⟩ := ingressPlot_span s n m
  simp only [State.ioRdIn, takeMsg_ingressPlot m m ok, takeMsg_io, sz, off, ingressPlot_pa, takeMsg_ioTarget m ok, target]
  rw [if_neg (by simpa [aligned] using size), if_neg (by simp [quiet])]
theorem ioRdIn_own (own : (s.port n).io.qst ≠ .none ∨ s.ioTarget n m.hdr.pa = none) :
    s.ioRdIn n m = ((s.takeMsg n m).readQueued n (s.ingressPlot n m) (s.ownStatus n)).localAnswers n := by
  obtain ⟨sz, off⟩ := ingressPlot_span s n m
  simp only [State.ioRdIn, takeMsg_ingressPlot m m ok, takeMsg_io, sz, off, ingressPlot_pa, takeMsg_ioTarget m ok]
  rw [if_neg (by simpa [aligned] using size)]
  unfold State.ownStatus
  by_cases quiet : (s.port n).io.qst = .none
  · rw [if_neg (by simp [quiet]), if_pos quiet, own.resolve_left (by simp [quiet])]
    rfl
  · rw [if_pos quiet, if_neg quiet]
    rfl
end

/-- Settles O21. That the lowest free entry is taken is the model's choice (log entry 59). -/
theorem readsTakeTrackerEntries : Obligations.ReadsTakeTrackerEntries := by
  intro n m s alive ok size aligned go empty m' io
  let w := withOp m Op.ioRd
  let u := s.takeMsg n w
  have run : exec (.iord n m) s = .next (s.ioRdIn n w) := live_alive (fun s => s.ioRdIn n w) alive
  have logs : Logs [.ports, .csr, .glb, .blv] [R.blvEvt] s u := takeMsg_logs s n w
  have others : OnlyPort n s u := takeMsg_onlyPort s n w
  have uio : (u.port n).io = io := takeMsg_io s n w
  have uempty : (u.port n).io.ingress = [] := by rw [uio]; exact empty
  have ugo : u.glb.hold = false := by rw [logs.glb]; exact go
  have op : m'.hdr.opcode = Op.ioRd := ingressPlot_opcode s n w
  have within {t : State} (h : Tame [.ports] u t) : OnlyParts [.ports, .csr, .glb, .blv] s t := logs.only.trans (h.mono (by simp)).only
  have answered (own : io.qst ≠ .none ∨ s.ioTarget n m.hdr.pa = none) (fences : io.fences = []) (keeps : (s.port n).link.keeps = true) :
      Completes (.iord n m) s fun t =>
        (t.port n).io = { io with nextNum := io.nextNum + 1 }
          ∧ (t.port n).link.egress = (s.port n).link.egress ++ s.reply n io.nextNum (ownAnswer m' (s.ownStatus n)) none
          ∧ OnlyPort n s t ∧ OnlyParts [.ports, .csr, .glb, .blv] s t := by
    obtain ⟨tio, sent, only, tame⟩ := readQueued_answered (s := u) (m := m') (st := s.ownStatus n) op ugo uempty (by rw [uio]; exact fences)
      (by rw [takeMsg_keeps]; exact keeps)
    refine Completes.of_eq run (ioRdIn_own (m := w) ok size aligned own) ⟨by rw [tio, uio], ?_, others.trans only, within tame⟩
    rw [sent, takeMsg_egress, uio, State.reply, current_congr uio, logs.only.now_eq]
  refine ⟨fun tg k quiet target fences slot => ?_, fun quiet target fences keeps => ?_, fun busy fences keeps => ?_, fun own fenced => ?_⟩
  · obtain ⟨entry, next, gone, more, only, tame⟩ := ioQueue_read (s := u) (m := m') (tg := tg) op ugo uempty (by rw [uio]; exact fences)
      (by rw [uio]; exact slot)
    rw [uio] at entry next more
    exact Completes.of_eq run (ioRdIn_target (m := w) ok size aligned quiet target) ⟨entry, next, gone, more, others.trans only, within tame⟩
  · have status : s.ownStatus n = Status.notHome := if_pos quiet
    have answer : ownAnswer m' (s.ownStatus n) = compMsg m.hdr.tid m.hdr.pa Status.notHome := by
      obtain ⟨tid, -, -⟩ := ingressPlot_hdr s n w
      rw [status, ownAnswer, if_pos rfl, tid, ingressPlot_pa]
      rfl
    rw [← answer]
    exact answered (.inr target) fences keeps
  · have status : s.ownStatus n = Status.unsupported := if_neg busy
    have answer : ownAnswer m' (s.ownStatus n) = rdAnswer m' 0 true Status.unsupported := by
      rw [status]; exact if_neg (by decide)
    rw [← answer]
    exact answered (.inl busy) fences keeps
  · have queued := readQueued_onPort u n m' (s.ownStatus n)
    refine Completes.of_eq run ((ioRdIn_own (m := w) ok size aligned own).trans (readQueued_fenced op ugo uempty (by rw [uio]; exact fenced)))
      ⟨?_, ?_, ?_, others.trans queued.only, within queued.tame⟩
    · rw [readQueued_io uempty, uio, logs.only.now_eq]; rfl
    · rw [queued.link, takeMsg_egress]
    · rw [queued.link, takeMsg_credRet]
end
end Sys2Proof.Machine

namespace Sys2Proof.Machine
-- The proofs below are elaborated one after the other, which bounds the threads that checking the text takes.
set_option Elab.async false

/-! ## What becomes of posted writes (R170, R175 to R178, R506) -/

section
variable {s t u : State} {n q : PortId} {x : ArbEntry}

/-! ### Entries of the Arbour -/

theorem arbSet_io (s : State) (n : PortId) (slot : Nat) (f : ArbEntry → ArbEntry) :
    ((s.arbSet n slot f).port n).io = { (s.port n).io with arb := (s.port n).io.arb.map fun x => if x.slot = slot then f x else x } :=
  s.modIo_io_same n _
theorem arbSet_onPort (s : State) (n : PortId) (slot : Nat) (f : ArbEntry → ArbEntry) : OnPort n s (s.arbSet n slot f) := modIo_onPort s n _

/-- Starting timers changes nothing of a posted write but its timer (R178). -/
theorem ioElig_arb (s : State) (n : PortId) :
    ∃ f : ArbEntry → ArbEntry, (∀ y, ∃ d, f y = { y with elig := d }) ∧ ((s.ioElig n).port n).io.arb = (s.port n).io.arb.map f := by
  obtain ⟨r, io⟩ := ioElig_port s n
  refine ⟨_, fun y => ?_, by rw [io]⟩
  split
  · exact ⟨_, rfl⟩
  · exact ⟨y.elig, rfl⟩

/-- Entries leave from the head, in order; their credits change the port's link alone (R176). -/
theorem arbPop_drops (s : State) (n : PortId) (k : Nat) :
    (∃ j p, ((s.arbPop n k).port n).io = { (s.port n).io with arb := (s.port n).io.arb.drop j, arbPop := p })
      ∧ OnlyPort n s (s.arbPop n k) ∧ Tame [.ports] s (s.arbPop n k) := by
  induction k generalizing s with
  | zero => exact ⟨⟨0, _, rfl⟩, .refl n s, .refl⟩
  | succ k ih =>
    unfold State.arbPop
    split
    · exact ⟨⟨0, _, rfl⟩, .refl n s, .refl⟩
    next y rest arb =>
    split
    · have left := modIo_onPort s n fun io => { io with arb := rest, arbPop := io.arbPop.add s.now }
      have credit := credFor_onLink (s.modIo n fun io => { io with arb := rest, arbPop := io.arbPop.add s.now }) n y.num 4
      obtain ⟨⟨j, p, io⟩, only, tame⟩ := ih ((s.modIo n fun io => { io with arb := rest, arbPop := io.arbPop.add s.now }).credFor n y.num 4)
      refine ⟨⟨j + 1, p, ?_⟩, (left.only.trans credit.only).trans only, (left.tame.trans credit.tame).trans tame⟩
      rw [io, credit.io, State.modIo_io_same, arb]
      rfl
    · exact ⟨⟨0, _, rfl⟩, .refl n s, .refl⟩

theorem ArbEntry.live_iff : x.live = true ↔ x.st = .waiting ∨ x.st = .sent := by simp [ArbEntry.live]

/-- An entry that is still to be resolved holds the ones behind it (R176). -/
theorem arbPop_live {rest : List ArbEntry} (arb : (s.port n).io.arb = x :: rest) (live : x.live = true) (k : Nat) : s.arbPop n k = s := by
  cases k with
  | zero => rfl
  | succ k =>
    unfold State.arbPop
    rw [arb]
    exact if_neg (by rcases ArbEntry.live_iff.mp live with st | st <;> simp [st])

/-- The only entry leaves once it is discarded (R176, R178). -/
theorem arbPop_discarded (arb : (s.port n).io.arb = [x]) (st : x.st = .discarded) (before : x.at_ < s.now) {k : Nat} (some_ : k ≠ 0) :
    ((s.arbPop n k).port n).io.arb = [] := by
  obtain ⟨k, rfl⟩ := Nat.exists_eq_succ_of_ne_zero some_
  let v := (s.modIo n fun io => { io with arb := [], arbPop := io.arbPop.add s.now }).credFor n x.num 4
  have empty : (v.port n).io.arb = [] := by rw [(credFor_onLink _ n x.num 4).io, State.modIo_io_same]
  have popped : s.arbPop n (k + 1) = v.arbPop n k := by
    rw [State.arbPop, arb]
    exact if_pos (by simp [st, before])
  rw [popped, arbPop_empty k empty, empty]

/-! ### Dispatch (R177, R506) -/

/-- The write that goes next to a port finds the port's link in service (R177). -/
theorem arbNext_keeps (next : s.arbNext n = some x) (port : x.target = .port q) : (s.port q).link.keeps = true := by
  have takes := List.find?_some next
  simp only [port, State.ioTakes, Bool.and_eq_true] at takes
  obtain ⟨-, ⟨-, up⟩, -⟩ := takes
  unfold Link.up at up
  unfold Link.keeps
  rw [up]; rfl

/-- A write has been sent: it is marked, and its timer runs (R178). -/
def State.arbSent (s : State) (n : PortId) (x : ArbEntry) : State :=
  s.arbSet n x.slot fun y => { y with st := .sent, wasSent := true, elig := some (y.elig.getD s.now) }

theorem arbDispatch_port (next : s.arbNext n = some x) (port : x.target = .port q) :
    s.arbDispatch n = (((s.arbSent n x).credTake q 4).sendPort q (ioForward x.msg n x.use false x.slot)).ioElig n := by
  unfold State.arbDispatch; rw [next]; dsimp only; rw [port]; rfl
theorem arbDispatch_svc (next : s.arbNext n = some x) (svc : x.target = .svc) :
    s.arbDispatch n = (((((s.csrWrite (csrAccess n x.msg) (s.csrBase x.msg) x.msg).arbSet n x.slot
      fun y => { y with st := .acked, wasSent := true }).arbPop n 64).localAnswers n).ioElig n) := by
  unfold State.arbDispatch; rw [next]; dsimp only; rw [svc]

theorem arbourDispatch_port (alive : s.alive = true) (next : s.arbNext n = some x) (port : x.target = .port q) (other : q ≠ n) :
    Completes (.arbourDispatch n) s fun t =>
      (∀ y ∈ (t.port n).io.arb, y.slot = x.slot → y.st = .sent ∧ y.wasSent = true)
        ∧ (t.port n).io.arb.length = (s.port n).io.arb.length
        ∧ (t.port q).link.egress = (s.port q).link.egress ++ [{ msg := ioForward x.msg n x.use false x.slot, at_ := s.now }]
        ∧ (t.port q).link.cred = (s.port q).link.cred.set 4 ((s.port q).link.cred.getD 4 0 - 1)
        ∧ (∀ k, k ≠ n → k ≠ q → t.port k = s.port k) ∧ OnlyParts [.ports] s t := by
  let w := s.arbSent n x
  let c := w.credTake q 4
  have marked : OnPort n s w := arbSet_onPort s n x.slot _
  have clink : (c.port q).link = { (s.port q).link with cred := (s.port q).link.cred.set 4 ((s.port q).link.cred.getD 4 0 - 1) } := by
    rw [← marked.only q other]; exact State.modLink_link_same _ q _
  have effect := (arbDispatch_port next port).trans (congrArg (State.ioElig · n)
    (sendPort_keeps (s := c) (n := q) (by rw [clink]; exact arbNext_keeps next port)))
  have link (f : Link → Link) : OnLink q w (c.modLink q f) := (modLink_onLink _ q _).trans (modLink_onLink c q f)
  have arb (f : Link → Link) : ((c.modLink q f).port n).io.arb
      = (s.port n).io.arb.map fun y => if y.slot = x.slot then { y with st := .sent, wasSent := true, elig := some (y.elig.getD s.now) } else y := by
    rw [(link f).only n other.symm]; exact congrArg PortIo.arb (arbSet_io s n x.slot _)
  obtain ⟨f, timer, tarb⟩ := ioElig_arb (c.modLink q fun l =>
    { l with egress := l.egress ++ [{ msg := ioForward x.msg n x.use false x.slot, at_ := c.now }], idleSince := c.now }) n
  have timed (v : State) : ((v.ioElig n).port q).link = (v.port q).link := by rw [ioElig_onlyPort v n q other]
  refine Completes.of_eq (live_alive (fun s => s.arbDispatch n) alive) effect ⟨?_, ?_, ?_, ?_, fun k hn hq => ?_, ?_⟩
  · rw [tarb, arb]
    intro y hy slot
    obtain ⟨z, hz, rfl⟩ := List.mem_map.mp hy
    obtain ⟨a, -, rfl⟩ := List.mem_map.mp hz
    obtain ⟨d, eq⟩ := timer (if a.slot = x.slot then { a with st := .sent, wasSent := true, elig := some (a.elig.getD s.now) } else a)
    rw [eq] at slot ⊢
    by_cases same : a.slot = x.slot
    · rw [if_pos same]; exact ⟨rfl, rfl⟩
    · rw [if_neg same] at slot; exact absurd slot same
  · rw [tarb, arb, List.length_map, List.length_map]
  · rw [timed, State.modLink_link_same, clink]; rfl
  · rw [timed, State.modLink_link_same, clink]
  · rw [ioElig_onlyPort _ n k hn, (link _).only k hq, marked.only k hn]
  · exact ((marked.tame.trans (link _).tame).trans (ioElig_tame _ n)).only

/-! ### Acknowledgements (R175, R178) -/

/-- An IOAck passes ingress whatever else waits there, and its credit returns (R87). -/
theorem answerIn_ioAck (m : Msg) (f : State → State) (ok : s.regsOk) :
    ∃ v, s.answerIn n (withOp m Op.ioAck) f = f v ∧ Taken n (classOf Op.ioAck) s v := by
  have free : s.answerBarred n Op.ioAck = false := by
    simp [State.answerBarred, Op.ioAck, Op.wbD, Op.evC, Op.recallD, Op.fwdAck, Op.fwdAckD, Op.rspCrossed, Op.stashAcc, Op.stashDecl]
  have live : s.frozen (withOp m Op.ioAck) = false := by
    have : [Op.invAck, Op.fwdAck, Op.fwdAckD, Op.recallD, Op.rspCrossed, Op.stashAcc, Op.stashDecl].contains (withOp m Op.ioAck).hdr.opcode = false := rfl
    unfold State.frozen; rw [this]; rfl
  obtain ⟨v, eq, taken⟩ := answerIn_taken (m := withOp m Op.ioAck) f ok free live
  have awake : v.wakeFor (withOp m Op.ioAck) = v := if_pos rfl
  exact ⟨v, by rw [eq, awake], taken⟩

/-- A write has been acknowledged, and what is resolved leaves (R176, R178). -/
def State.arbAcked (s : State) (n : PortId) (slot : Nat) : State :=
  ((s.arbSet n slot fun x => { x with st := .acked }).arbPop n 64).ioElig n

theorem arbAcked_acks (s : State) (n : PortId) (slot : Nat) : ∀ y ∈ ((s.arbAcked n slot).port n).io.arb, y.slot = slot → y.st = .acked := by
  obtain ⟨⟨j, p, io⟩, -, -⟩ := arbPop_drops (s.arbSet n slot fun x => { x with st := .acked }) n 64
  obtain ⟨f, timer, arb⟩ := ioElig_arb ((s.arbSet n slot fun x => { x with st := .acked }).arbPop n 64) n
  intro y hy same
  rw [State.arbAcked, arb, io, arbSet_io] at hy
  obtain ⟨z, hz, rfl⟩ := List.mem_map.mp hy
  obtain ⟨a, -, rfl⟩ := List.mem_map.mp (List.mem_of_mem_drop hz)
  obtain ⟨d, eq⟩ := timer (if a.slot = slot then { a with st := .acked } else a)
  rw [eq] at same ⊢
  by_cases here : a.slot = slot
  · rw [if_pos here]
  · rw [if_neg here] at same; exact absurd same here
theorem arbAcked_onlyPort (s : State) (n : PortId) (slot : Nat) : OnlyPort n s (s.arbAcked n slot) :=
  ((arbSet_onPort s n slot _).only.trans (arbPop_drops _ n 64).2.1).trans (ioElig_onlyPort _ n)
theorem arbAcked_tame (s : State) (n : PortId) (slot : Nat) : Tame [.ports] s (s.arbAcked n slot) :=
  ((arbSet_onPort s n slot _).tame.trans (arbPop_drops _ n 64).2.2).trans (ioElig_tame _ n)

section
variable {m : Msg}

theorem ioAckIn_acks (source : portOf? (ioSource m) = some q) (write : ioIsRead m = false) (mem : x ∈ (s.port q).io.arb) (sent : x.st = .sent)
    (slot : x.slot = ioSlot m) (use : m.hdr.tid = x.use.setWidth 10) : s.ioAckIn m = s.arbAcked q (ioSlot m) := by
  unfold State.ioAckIn
  rw [source]
  refine if_pos ?_
  rw [write]
  simpa using ⟨x, mem, ⟨sent, slot⟩, use⟩
theorem ioAckIn_late (source : portOf? (ioSource m) = some q)
    (unmatched : ioIsRead m = true ∨ ∀ x ∈ (s.port q).io.arb, x.st = .sent → x.slot = ioSlot m → m.hdr.tid ≠ x.use.setWidth 10) :
    s.ioAckIn m = s.rcount (R.portIoErr q) 15 0 1 := by
  unfold State.ioAckIn State.ioLate
  rw [source]
  refine if_neg ?_
  rcases unmatched with read | none_
  · simp [read]
  · simp only [Bool.and_eq_true, not_and, Bool.not_eq_true, List.any_eq_false, decide_eq_true_eq, and_imp]
    exact fun _ => none_

variable (alive : s.alive = true) (ok : s.regsOk) (source : portOf? (ioSource m) = some q)
include alive ok source

theorem ioack_acks (write : ioIsRead m = false) (mem : x ∈ (s.port q).io.arb) (sent : x.st = .sent) (slot : x.slot = ioSlot m)
    (use : m.hdr.tid = x.use.setWidth 10) :
    Completes (.ioack n m) s fun t =>
      (∀ y ∈ (t.port q).io.arb, y.slot = ioSlot m → y.st = .acked) ∧ (∀ k, k ≠ n → k ≠ q → t.port k = s.port k)
        ∧ OnlyParts [.ports, .csr, .glb, .blv] s t := by
  have run : exec (.ioack n m) s = .next (s.answerIn n (withOp m Op.ioAck) fun s => s.ioAckIn m) :=
    live_alive (fun s => s.answerIn n (withOp m Op.ioAck) fun s => s.ioAckIn m) alive
  obtain ⟨v, passed, taken⟩ := answerIn_ioAck (n := n) m (fun s => s.ioAckIn m) ok
  have vio : (v.port q).io = (s.port q).io := by
    by_cases same : q = n
    · rw [same, taken.io]
    · rw [taken.only q same]
  refine Completes.of_eq run (passed.trans (ioAckIn_acks source write (by rw [vio]; exact mem) sent slot use))
    ⟨arbAcked_acks v q _, fun k hn hq => ?_, ?_⟩
  · rw [arbAcked_onlyPort v q _ k hq, taken.only k hn]
  · exact (taken.logs.tame.trans ((arbAcked_tame v q _).mono (by simp))).only

theorem ioack_late (unmatched : ioIsRead m = true ∨ ∀ x ∈ (s.port q).io.arb, x.st = .sent → x.slot = ioSlot m → m.hdr.tid ≠ x.use.setWidth 10) :
    Completes (.ioack n m) s fun t =>
      (t.port q).io = (s.port q).io
        ∧ (s.softFree (R.portIoErr q) → t.rf (R.portIoErr q) 15 0 = satAdd (s.rf (R.portIoErr q) 15 0) 1 (2 ^ 16 - 1))
        ∧ OnlyPort n s t ∧ OnlyParts [.ports, .csr, .glb, .blv] s t := by
  have run : exec (.ioack n m) s = .next (s.answerIn n (withOp m Op.ioAck) fun s => s.ioAckIn m) :=
    live_alive (fun s => s.answerIn n (withOp m Op.ioAck) fun s => s.ioAckIn m) alive
  obtain ⟨v, passed, taken⟩ := answerIn_ioAck (n := n) m (fun s => s.ioAckIn m) ok
  have vio : (v.port q).io = (s.port q).io := by
    by_cases same : q = n
    · rw [same, taken.io]
    · rw [taken.only q same]
  have counted := rcount_logs v (R.portIoErr q) 15 0 1
  have same : v.rf (R.portIoErr q) 15 0 = s.rf (R.portIoErr q) 15 0 := by
    unfold State.rf; rw [taken.logs.rget ok (by rw [List.mem_singleton]; unfold R.portIoErr R.blvEvt; omega)]
  refine Completes.of_eq run (passed.trans (ioAckIn_late source (by rw [vio]; exact unmatched))) ⟨?_, fun free => ?_, ?_, ?_⟩
  · rw [counted.only.port_eq q, vio]
  · rw [rcount_field _ _ _ _ (taken.regsOk ok) ((congrArg (FMap.find? · _) taken.logs.swBits).trans free) (by decide) (by decide), same]
  · exact taken.only.trans (.of_only counted.only)
  · exact (taken.logs.tame.trans (counted.tame.mono (by simp))).only
end

/-! ### Writes that are given up (R178) -/

theorem arbourTimeout_completes {e : Fin 64} {d : Nat} (alive : s.alive = true) (mem : x ∈ (s.port n).io.arb) (slot : x.slot = e.val)
    (live : x.st = .waiting ∨ x.st = .sent) (started : x.elig = some d) (due : d + s.ioTmo ≤ s.now) :
    Completes (.arbourTimeout n e) s fun t =>
      { x with runOut := true } ∈ (t.port n).io.arb ∧ (∀ y ∈ (t.port n).io.arb, y.slot ≠ e.val → y ∈ (s.port n).io.arb)
        ∧ (t.port n).io.arb.length = (s.port n).io.arb.length ∧ (t.port n).link = (s.port n).link ∧ OnlyPort n s t ∧ OnlyParts [.ports] s t := by
  have timed : OnPort n s (s.arbTimeout n e) := arbSet_onPort s n e _
  have io := arbSet_io s n e fun x => if x.live && x.elig.elim false fun t => decide (t + s.ioTmo ≤ s.now) then { x with runOut := true } else x
  have arb : ((s.arbTimeout n e).port n).io.arb = _ := congrArg PortIo.arb io
  refine ⟨_, live_alive (fun s => s.arbTimeout n e) alive, ?_, ?_, ?_, timed.link, timed.only, timed.tame.only⟩
  · rw [arb]
    refine List.mem_map.mpr ⟨x, mem, ?_⟩
    rw [if_pos slot]
    exact if_pos (by simp [ArbEntry.live_iff.mpr live, started, due])
  · rw [arb]
    intro y hy differ
    obtain ⟨z, hz, rfl⟩ := List.mem_map.mp hy
    by_cases here : z.slot = e.val
    · rw [if_pos here] at differ
      exact absurd (by split <;> exact here) differ
    · rw [if_neg here]; exact hz
  · rw [arb, List.length_map]

/-- The losses of a cc join LOSS as it ends (R170). -/
def PortIo.lossJoined (io : PortIo) : PortIo := { io with loss := io.loss || io.lossNow, lossNow := false }

/-- A port's only posted write is discarded as lost: reported, counted, and gone from the Arbour (R170, R178). -/
theorem arbDiscard_only (ok : s.regsOk) (arb : (s.port n).io.arb = [x]) (before : x.at_ < s.now) :
    let t := s.arbDiscard n x.slot true
    (∃ p, (t.port n).io = { (s.port n).io with arb := [], arbPop := p, lossNow := true }) ∧ (t.rget (R.portIoEvt n)).getLsbD 9 = true
      ∧ (s.softFree (R.portIoErr n) → t.rf (R.portIoErr n) 31 16 = satAdd (s.rf (R.portIoErr n) 31 16) 1 (2 ^ 16 - 1))
      ∧ OnlyPort n s t ∧ Tame [.ports, .csr, .glb, .lodge, .blv] s t := by
  intro t
  let y : ArbEntry := { x with st := .discarded }
  let v := s.modIo n fun io =>
    { io with arb := io.arb.map (fun z => if z.slot = x.slot then { z with st := .discarded } else z), lossNow := io.lossNow || true }
  let r := v.raise (R.portIoEvt n) 9
  let c := r.rcount (R.portIoErr n) 31 16 1
  obtain ⟨detail, eq⟩ : ∃ detail, t = (c.event .arbourLoss n.val (x.msg.hdr.pa.toNat * 64) (detail := detail)).arbPop n 64 := by
    have found : (s.port n).io.arb.find? (fun z => z.slot = x.slot) = some x := by rw [arb]; simp
    change ∃ detail, s.arbDiscard n x.slot true = _
    unfold State.arbDiscard
    rw [found]
    exact ⟨_, rfl⟩
  let e := c.event .arbourLoss n.val (x.msg.hdr.pa.toNat * 64) (detail := detail)
  have marked : OnPort n s v := modIo_onPort s n _
  have vio : (v.port n).io = { (s.port n).io with arb := [y], lossNow := true } := by
    rw [State.modIo_io_same, arb]; simp [y]
  have raised : Logs [.csr, .glb] [R.portIoEvt n] v r := raise_logs v (R.portIoEvt n) 9
  have counted : Logs [.csr] [R.portIoErr n] r c := rcount_logs r (R.portIoErr n) 31 16 1
  have recorded : Logs [.csr, .glb, .blv, .lodge] [R.blvEvt, R.lodgeEvqStat] c e := event_logs c _ _ _ _ _ detail _
  have vok : v.regsOk := marked.tame.regs ok
  have rok : r.regsOk := raised.regsOk vok
  have cok : c.regsOk := counted.regsOk rok
  have reports : Tame [.csr, .glb, .lodge, .blv] v e :=
    (raised.tame.mono (by simp)).trans ((counted.tame.mono (by simp)).trans (recorded.tame.mono (by simp)))
  have eport : e.port n = v.port n := reports.only.port_eq n
  obtain ⟨⟨j, p, io⟩, only, tame⟩ := arbPop_drops e n 64
  have gone : ((e.arbPop n 64).port n).io.arb = [] :=
    arbPop_discarded (x := y) (by rw [eport, vio]) rfl (by rw [reports.only.now_eq, marked.tame.only.now_eq]; exact before) (by decide)
  have aside {o : Nat} (h : o = R.portIoEvt n ∨ o = R.portIoErr n) : t.rget o = c.rget o := by
    have other : o ∉ [R.blvEvt, R.lodgeEvqStat] := by
      simp only [List.mem_cons, List.not_mem_nil, or_false]; unfold R.portIoEvt R.portIoErr at h; unfold R.blvEvt R.lodgeEvqStat; omega
    rw [eq, tame.only.rget_eq, recorded.rget cok other]
  refine ⟨⟨p, ?_⟩, ?_, fun free => ?_, ?_, ?_⟩
  · rw [io] at gone
    rw [eq, io, show List.drop j _ = [] from gone, eport, vio]
  · rw [aside (.inl rfl), counted.rget rok (by rw [List.mem_singleton]; unfold R.portIoEvt R.portIoErr; omega)]
    exact raise_bit _ _ vok (by decide) (by decide)
  · have same : r.rf (R.portIoErr n) 31 16 = s.rf (R.portIoErr n) 31 16 := by
      unfold State.rf
      rw [raised.rget vok (by rw [List.mem_singleton]; unfold R.portIoEvt R.portIoErr; omega), marked.tame.only.rget_eq]
    have free' : r.softFree (R.portIoErr n) := (congrArg (FMap.find? · _) raised.swBits).trans free
    rw [State.rf, aside (.inr rfl), ← same]
    exact rcount_field _ _ _ _ rok free' (by decide) (by decide)
  · rw [eq]; exact (marked.only.trans (.of_only reports.only)).trans only
  · rw [eq]; exact (marked.tame.mono (by simp)).trans ((reports.mono (by simp)).trans (tame.mono (by simp)))

/-- The only posted write of a port, run out, is given up as its cc ends. -/
theorem ioRunOut_write (arb : (s.port n).io.arb = [x]) (out : x.runOut = true) (live : x.live = true) (noRead : (s.port n).io.rdt = [])
    (noFence : (((s.arbDiscard n x.slot true).ioElig n).port n).io.fences = []) :
    s.ioRunOut n = ((s.arbDiscard n x.slot true).ioElig n).modIo n PortIo.lossJoined := by
  unfold State.ioRunOut
  rw [if_neg (by simp [arb])]
  simp only [arbPop_live arb live, arb, noRead, List.filter_nil, List.foldl_nil, List.filter_cons, out, live, Bool.and_self, if_true, List.foldl_cons, noFence]
  rfl

theorem ioRunOut_loses (ok : s.regsOk) (arb : (s.port n).io.arb = [x]) (before : x.at_ < s.now) (out : x.runOut = true) (live : x.st = .waiting ∨ x.st = .sent)
    (noRead : (s.port n).io.rdt = []) (noFence : (s.port n).io.fences = []) :
    let t := s.ioRunOut n
    (t.port n).io.loss = true ∧ (t.port n).io.arb = [] ∧ (t.rget (R.portIoEvt n)).getLsbD 9 = true
      ∧ (s.softFree (R.portIoErr n) → t.rf (R.portIoErr n) 31 16 = satAdd (s.rf (R.portIoErr n) 31 16) 1 (2 ^ 16 - 1))
      ∧ OnlyPort n s t ∧ OnlyParts [.ports, .csr, .glb, .lodge, .blv] s t := by
  let v := s.arbDiscard n x.slot true
  obtain ⟨⟨p, vio⟩, event, count, only, tame⟩ := arbDiscard_only ok arb before
  obtain ⟨r, eio⟩ := ioElig_port v n
  have eq : s.ioRunOut n = (v.ioElig n).modIo n PortIo.lossJoined :=
    ioRunOut_write arb out (ArbEntry.live_iff.mpr live) noRead (by rw [ioElig_fences, vio, noFence])
  have last : Tame [.ports] v ((v.ioElig n).modIo n PortIo.lossJoined) := (ioElig_tame v n).trans (modIo_tame _ n _)
  intro t
  rw [show t = (v.ioElig n).modIo n PortIo.lossJoined from eq]
  refine ⟨?_, ?_, ?_, fun free => ?_, ?_, (tame.trans (last.mono (by simp))).only⟩
  · rw [State.modIo_io_same, eio, vio]; simp [PortIo.lossJoined]
  · rw [State.modIo_io_same, eio, vio]; rfl
  · rw [last.only.rget_eq]; exact event
  · rw [State.rf, last.only.rget_eq]; exact count free
  · exact only.trans ((ioElig_onlyPort v n).trans (modIo_onlyPort _ n _))

/-! ### A loss is kept until its cc ends (R170) -/

/-- A loss of this cc at a port is still there. -/
def LossKept (n : PortId) (s t : State) : Prop := (s.port n).io.lossNow = true → (t.port n).io.lossNow = true

theorem LossKept.refl : LossKept n s s := id
theorem LossKept.trans (h : LossKept n s t) (k : LossKept n t u) : LossKept n s u := k ∘ h
theorem LossKept.ite {c : Prop} [Decidable c] (h : LossKept n s t) (k : LossKept n s u) : LossKept n s (if c then t else u) := by
  split
  · exact h
  · exact k
theorem LossKept.foldl {β : Type} (f : State → β → State) (h : ∀ s y, LossKept n s (f s y)) (ys : List β) : LossKept n s (ys.foldl f s) := by
  induction ys generalizing s with
  | nil => exact .refl
  | cons y _ ih => exact (h s y).trans ih
theorem LossKept.of_io (h : (t.port n).io = (s.port n).io) : LossKept n s t := fun k => by rw [h]; exact k
theorem LossKept.of_tame {ps : List Part} (h : Tame ps s t) (hp : Part.ports ∉ ps := by decide) : LossKept n s t := .of_io (by rw [h.only.port_eq n hp])
theorem OnLink.lossKept (h : OnLink n s t) : LossKept n s t := .of_io h.io
theorem modIo_lossKept (s : State) (n : PortId) (f : PortIo → PortIo) (h : ∀ io, io.lossNow = true → (f io).lossNow = true := by intro _ h; exact h) :
    LossKept n s (s.modIo n f) := fun k => by rw [State.modIo_io_same]; exact h _ k

section
variable (s n)

theorem sendPort_lossKept (m : Msg) (rel : Option (BitVec 10)) : LossKept n s (s.sendPort n m rel) := by
  refine .ite (modLink_onLink s n _).lossKept ?_
  cases rel with
  | none => exact .refl
  | some _ => exact modIo_lossKept s n _
theorem answerPort_lossKept (num : Nat) (m : Msg) (rel : Option (BitVec 10)) : LossKept n s (s.answerPort n num m rel) :=
  .ite (sendPort_lossKept s n m rel) .refl
theorem ioElig_lossKept : LossKept n s (s.ioElig n) := by
  obtain ⟨r, io⟩ := ioElig_port s n
  intro k; rw [io]; exact k
theorem arbPop_lossKept (k : Nat) : LossKept n s (s.arbPop n k) := by
  obtain ⟨⟨j, p, io⟩, -, -⟩ := arbPop_drops s n k
  intro k; rw [io]; exact k
theorem arbDiscard_lossKept (slot : Nat) (loss : Bool) : LossKept n s (s.arbDiscard n slot loss) := by
  unfold State.arbDiscard
  split
  · exact .refl
  · let v := s.modIo n fun io =>
      { io with arb := io.arb.map (fun y => if y.slot = slot then { y with st := .discarded } else y), lossNow := io.lossNow || loss }
    have marked : LossKept n s v := modIo_lossKept s n _ fun io h => by simp [h]
    have reported (addr detail : Nat) : Tame [.csr, .glb, .blv, .lodge] v
        (((v.raise (R.portIoEvt n) 9).rcount (R.portIoErr n) 31 16 1).event .arbourLoss n.val addr (detail := detail)) :=
      ((raise_logs _ _ _).tame.mono (by simp)).trans (((rcount_logs _ _ _ _ _).tame.mono (by simp)).trans (event_logs _ _ _ _ _ _ _ _).tame)
    exact marked.trans ((LossKept.of_tame (reported _ _)).trans (arbPop_lossKept _ n 64))
theorem rdRunOut_lossKept (x : RdEntry) : LossKept n s (s.rdRunOut n x) :=
  (answerPort_lossKept s n _ _ _).trans (.trans (.of_tame (raise_logs _ _ _).tame)
    (.trans (modIo_lossKept _ n _) ((credFor_onLink _ n x.num 5).lossKept.trans (ioElig_lossKept _ n))))
theorem localAnswer_lossKept (x : InMsg) (st : BitVec 4) : LossKept n s (s.localAnswer n x st) :=
  .trans (modIo_lossKept s n _) ((credFor_onLink _ n x.num 0).lossKept.trans (answerPort_lossKept _ n _ _ _))
theorem localRead_lossKept (x : InMsg) (st : BitVec 4) : LossKept n s (s.localRead n x st) :=
  .trans (modIo_lossKept s n _) ((credFor_onLink _ n x.num 5).lossKept.trans (answerPort_lossKept _ n _ _ _))
theorem fenceTake_lossKept (x : InMsg) : LossKept n s (s.fenceTake n x) := (credFor_onLink s n x.num 0).lossKept.trans (modIo_lossKept _ n _)
theorem localAnswers_lossKept : LossKept n s (s.localAnswers n) := by
  refine .ite .refl (.foldl _ (fun s x => ?_) _)
  split
  · exact .refl
  · exact .ite (fenceTake_lossKept s n x) (.ite (.ite (localRead_lossKept s n x _) .refl) (.ite (localAnswer_lossKept s n x _) .refl))
/-- A Fence's Comp leaves a loss of its own cc to the next Fence (R170, R172). -/
theorem fenceComp_lossKept (f : FenceWait) (loss : Bool) : LossKept n s (s.fenceComp n f loss) :=
  (modIo_lossKept s n _).trans ((LossKept.ite (.of_tame (raise_logs _ _ _).tame) .refl).trans
    ((answerPort_lossKept _ n _ _ _).trans ((LossKept.of_tame (cntPort_logs _ _ _ _ _).tame).trans (localAnswers_lossKept _ n))))
theorem fenceRunOut_lossKept (f : FenceWait) : LossKept n s (s.fenceRunOut n f) := by
  have discard (s : State) (x : ArbEntry) : LossKept n s (s.arbDiscard n x.slot false) := arbDiscard_lossKept s n x.slot false
  have late (s : State) (c : Bool) : LossKept n s (if c then s.raise (R.portIoEvt n) 12 else s) := .ite (.of_tame (raise_logs _ _ _).tame) .refl
  exact (LossKept.foldl _ discard _).trans ((late _ _).trans (fenceComp_lossKept _ n f true))
end

/-- What a port's cc ends with: its losses join LOSS, and none has been forgotten before. -/
theorem ioRunOut_joins (lost : (s.port n).io.lossNow = true) : ∃ v, s.ioRunOut n = v.modIo n PortIo.lossJoined ∧ LossKept n s v := by
  have write (s : State) (x : ArbEntry) : LossKept n s ((s.arbDiscard n x.slot true).ioElig n) :=
    (arbDiscard_lossKept s n x.slot true).trans (ioElig_lossKept _ n)
  let v := ((s.port n).io.arb.filter fun x => x.runOut && x.live).foldl (fun s x => (s.arbDiscard n x.slot true).ioElig n) (s.arbPop n 64)
  let w := ((s.port n).io.rdt.filter (·.runOut)).foldl (fun s x => s.rdRunOut n x) v
  have writes : LossKept n s v := (arbPop_lossKept s n 64).trans (.foldl _ write _)
  have reads : LossKept n v w := .foldl _ (fun s x => rdRunOut_lossKept s n x) _
  unfold State.ioRunOut
  rw [if_neg (by simp [lost])]
  refine ⟨_, rfl, (writes.trans reads).trans ?_⟩
  split
  · exact .refl
  · exact .ite .refl (.ite (modIo_lossKept _ n _) ((fenceRunOut_lossKept _ n _).trans (ioElig_lossKept _ n)))

theorem ioRunOut_loss (lost : (s.port n).io.lossNow = true) :
    ((s.ioRunOut n).port n).io.loss = true ∧ ((s.ioRunOut n).port n).io.lossNow = false := by
  obtain ⟨v, eq, kept⟩ := ioRunOut_joins lost
  rw [eq, State.modIo_io_same]
  exact ⟨by simp [PortIo.lossJoined, kept lost], rfl⟩

/-- Settles O20. That the service node performs a write at its dispatch is the model's choice (log entries 64 and 236). -/
theorem arbourEntriesResolve : Obligations.ArbourEntriesResolve := by
  intro n q s alive ok
  exact ⟨fun x next port other => arbourDispatch_port alive next port other,
    fun x next svc => Completes.of_eq (live_alive (fun s => s.arbDispatch n) alive) (arbDispatch_svc next svc) rfl,
    fun m x source write mem sent slot use => ioack_acks alive ok source write mem sent slot use,
    fun m source unmatched => ioack_late alive ok source unmatched,
    fun e x d mem slot live started due => arbourTimeout_completes alive mem slot live started due,
    fun x arb before out live noRead noFence => ioRunOut_loses ok arb before out live noRead noFence, ioRunOut_loss⟩
end
end Sys2Proof.Machine

namespace Sys2Proof.Machine

/-! ## One pavilion and one channel -/

/-- Nothing but this pavilion and this channel changes. -/
structure OnlyPath (p : PavId) (c : ChanId) (s t : State) : Prop where
  pav : OnlyPav p s t
  chan : OnlyChan c s t
  only : OnlyParts [.pavs, .chans] s t

section
variable {s t u : State} {p : PavId} {c : ChanId}

theorem OnlyPath.trans (h : OnlyPath p c s t) (k : OnlyPath p c t u) : OnlyPath p c s u :=
  ⟨h.pav.trans k.pav, h.chan.trans k.chan, h.only.trans k.only⟩
theorem modChan_onlyPath (s : State) (p : PavId) (c : ChanId) (f : Chan → Chan) : OnlyPath p c s (s.modChan c f) :=
  have tame := modChan_tame s c f
  ⟨.of_only tame.only, modChan_onlyChan s c f, tame.only.mono (by simp)⟩
theorem modPav_onlyPath (s : State) (p : PavId) (c : ChanId) (f : Pav → Pav) : OnlyPath p c s (s.modPav p f) :=
  have tame := modPav_tame s p f
  ⟨modPav_onlyPav s p f, .of_only tame.only, tame.only.mono (by simp)⟩
end

/-! ## One miss register -/

section
variable {s : State} {p : PavId} {r : Nat} {x : MissReg}

theorem modReg_onlyPath (s : State) (p : PavId) (r : Nat) (c : ChanId) (f : MissReg → MissReg) : OnlyPath p c s (s.modReg p r f) := by
  unfold State.modReg; exact modPav_onlyPath s p c _
@[simp] theorem modReg_chan (s : State) (p : PavId) (r : Nat) (f : MissReg → MissReg) (c : ChanId) : (s.modReg p r f).chan c = s.chan c := rfl
theorem modReg_find (f : MissReg → MissReg) (found : FMap.find? (s.pav p).miss r = some x) :
    FMap.find? ((s.modReg p r f).pav p).miss r = some (f x) := by
  unfold State.modReg
  rw [State.modPav_pav_same, found]
  exact FMap.find_insert_same _ _ _

/-! ## Reads of a register (R210, R391) -/

/-- A register none of whose sub-blocks waits for an Evicting way has nothing to recall or to begin. -/
theorem regUnwait_none (found : FMap.find? (s.pav p).miss r = some x) (none_ : x.waitEv = 0) : s.regUnwait p r = s := by
  unfold State.regUnwait
  rw [found]
  exact foldl_fixed_mem fun i _ => if_pos (by simp [none_])

/-- A sub-block of a register has its read issued; it waits for no Evicting way. -/
def MissReg.readIssued (i : Nat) (x : MissReg) : MissReg := { x with issued := setBits x.issued i i 1, waitEv := setBits x.waitEv i i 0 }

theorem MissReg.readIssued_unwaiting (i : Nat) (none_ : x.waitEv = 0) : x.readIssued i = { x with issued := setBits x.issued i i 1 } := by
  unfold MissReg.readIssued
  rw [none_, show setBits (0 : BitVec 8) i i 0 = 0 by simp [setBits]]

/-- The read of a register's sub-block as its channel's queue holds it (R293). -/
def State.missRq (s : State) (p : PavId) (r : Nat) (x : MissReg) (i : Nat) : RqEnt :=
  let la := x.base + BitVec.ofNat 46 i
  { ll := (s.llOf la).getD 0, pa := la, plot := some x.plot, at_ := s.now, src := .miss p r (subOf la) }

/-- A register no longer waits for a place of the channel. -/
def Chan.unwait (me : PlotId × PavId × Nat) (ch : Chan) : Chan := { ch with waitRd := ch.waitRd.filter fun y => y ≠ me }

section
variable {i : Nat} {c : ChanId} (found : FMap.find? (s.pav p).miss r = some x) (none_ : x.waitEv = 0) (next : x.nextRead = some i)
  (chan : c = s.chanFor (x.base + BitVec.ofNat 46 i))
include found none_ next chan

theorem missRead_issues (takes : s.rqTakes c x.plot false = true) (first : ∀ y, s.nextWaiter c x.plot = some y → y = (x.plot, p, r)) :
    s.missRead p r = ((s.modChan c (Chan.unwait (x.plot, p, r))).modReg p r (MissReg.readIssued i)).rqPush c (s.missRq p r x i) := by
  have mine : (s.nextWaiter c x.plot).elim false (fun y => decide (y ≠ (x.plot, p, r))) = false := by
    cases h : s.nextWaiter c x.plot with
    | none => rfl
    | some y => simpa using first y h
  subst chan
  unfold State.missRead
  rw [regUnwait_none found none_]
  dsimp only
  rw [found]
  dsimp only
  rw [next]
  dsimp only
  rw [takes, mine]
  rfl

theorem missRead_waits (full : s.rqTakes c x.plot false = false) :
    s.missRead p r = s.modChan c fun ch =>
      { ch with waitRd := if ch.waitRd.contains (x.plot, p, r) then ch.waitRd else ch.waitRd.filter (s.stillWaits c) ++ [(x.plot, p, r)] } := by
  subst chan
  unfold State.missRead
  rw [regUnwait_none found none_]
  dsimp only
  rw [found]
  dsimp only
  rw [next]
  dsimp only
  rw [full]
  rfl
end

/-! ## Data that returns to a register (R211, R212) -/

/-- A read's answer leaves its channel. -/
def State.retTaken (s : State) (c : ChanId) (m : MemRet) : State := s.modChan c fun ch => { ch with rets := ch.rets.erase m }

/-- The answer is taken and the register notes it: what that leaves. -/
theorem retTaken_modReg {c : ChanId} (m : MemRet) (f : MissReg → MissReg) (found : FMap.find? (s.pav p).miss r = some x) :
    let v := (s.retTaken c m).modReg p r f
    (v.chan c).rets = (s.chan c).rets.erase m ∧ FMap.find? (v.pav p).miss r = some (f x) ∧ OnlyPav p s v ∧ OnlyChan c s v
      ∧ OnlyParts [.pavs, .chans] s v := by
  have path : OnlyPath p c s ((s.retTaken c m).modReg p r f) := (modChan_onlyPath s p c _).trans (modReg_onlyPath _ p r c f)
  refine ⟨?_, modReg_find (s := s.retTaken c m) f found, path.pav, path.chan, path.only⟩
  rw [modReg_chan, State.retTaken, State.modChan_chan_same]

/-- What becomes of data that has returned for a sub-block: a written line has replaced it, a write has overtaken it, or the register
holds it and serves its waiters. -/
def State.fillFate (s : State) (p : PavId) (r : Nat) (x : MissReg) (i : Nat) (la : LineAddr) (m : MemRet) : State :=
  if x.written.getLsbD i then s.modReg p r fun x => { x with want := setBits x.want i i 0 }
  else if s.overtaken p x la then (s.modReg p r fun x => { x with arrived := setBits x.arrived i i 1, done := setBits x.done i i 1 }).toStack p r i x.way la
  else (s.modReg p r fun x => { x with arrived := setBits x.arrived i i 1, buf := x.buf ++ [(i, m.data, m.poison)] }).regDeliver p r i m.data m.poison

section
variable {i : Nat} {la : LineAddr} {m : MemRet}

theorem fillFate_replaced (written : x.written.getLsbD i = true) :
    s.fillFate p r x i la m = s.modReg p r fun x => { x with want := setBits x.want i i 0 } := if_pos written
theorem fillFate_overtaken (unwritten : x.written.getLsbD i = false) (late : s.overtaken p x la = true) :
    s.fillFate p r x i la m
      = (s.modReg p r fun x => { x with arrived := setBits x.arrived i i 1, done := setBits x.done i i 1 }).toStack p r i x.way la :=
  (if_neg (by simp [unwritten])).trans (if_pos late)
theorem fillFate_held (unwritten : x.written.getLsbD i = false) (wanted : s.overtaken p x la = false) :
    s.fillFate p r x i la m
      = (s.modReg p r fun x => { x with arrived := setBits x.arrived i i 1, buf := x.buf ++ [(i, m.data, m.poison)] }).regDeliver p r i m.data m.poison :=
  (if_neg (by simp [unwritten])).trans (if_neg (by simp [wanted]))

theorem fillReturn_takes {sub : Nat} {c : ChanId} (found : FMap.find? (s.pav p).miss r = some x) (plain : x.preload = false)
    (index : i = sub - subOf x.base) (line : la = x.base + BitVec.ofNat 46 i) (chan : c = s.chanFor la)
    (back : ((s.chan c).rets.find? fun y => y.src = .miss p r sub && y.pa = la) = some m) :
    s.fillReturn p r sub = ((s.retTaken c m).fillFate p r x i la m).regCommit p r := by
  subst index line chan
  unfold State.fillReturn
  rw [found]
  dsimp only
  rw [back]
  dsimp only
  rw [plain]
  rfl
end
end

/-! ## The commands -/

section
variable {s : State} (alive : s.alive = true) {p : PavId} {r : Fin 512} {x : MissReg}
include alive

theorem missReadIssue_completes {i : Nat} {la : LineAddr} {c : ChanId} (found : FMap.find? (s.pav p).miss r.val = some x) (none_ : x.waitEv = 0)
    (next : x.nextRead = some i) (line : la = x.base + BitVec.ofNat 46 i) (chan : c = s.chanFor la) (takes : s.rqTakes c x.plot false = true)
    (first : ∀ y, s.nextWaiter c x.plot = some y → y = (x.plot, p, r.val)) :
    Completes (.missReadIssue p r) s fun t =>
      ∃ v : State, t = v.pump p
        ∧ (v.chan c).rq = (s.chan c).rq ++ [{ ll := (s.llOf la).getD 0, pa := la, plot := some x.plot, at_ := s.now, src := .miss p r.val (subOf la) }]
        ∧ FMap.find? (v.pav p).miss r.val = some { x with issued := setBits x.issued i i 1 } ∧ (x.plot, p, r.val) ∉ (v.chan c).waitRd
        ∧ OnlyPav p s v ∧ OnlyChan c s v ∧ OnlyParts [.pavs, .chans] s v := by
  subst line
  have run : exec (.missReadIssue p r) s = .next ((s.missRead p r.val).pump p) := live_alive (fun s => (s.missRead p r.val).pump p) alive
  have path : OnlyPath p c s (((s.modChan c (Chan.unwait (x.plot, p, r.val))).modReg p r.val (MissReg.readIssued i)).rqPush c (s.missRq p r.val x i)) :=
    (modChan_onlyPath s p c _).trans ((modReg_onlyPath _ p r.val c _).trans (modChan_onlyPath _ p c _))
  refine .of_eq run (congrArg (State.pump · p) (missRead_issues found none_ next chan takes first))
    ⟨_, rfl, ?_, ?_, ?_, path.pav, path.chan, path.only⟩
  · rw [State.rqPush, State.modChan_chan_same, modReg_chan, State.modChan_chan_same]; rfl
  · rw [State.rqPush, State.modChan_pav, modReg_find (s := s.modChan c _) _ found, MissReg.readIssued_unwaiting i none_]
  · rw [State.rqPush, State.modChan_chan_same, modReg_chan, State.modChan_chan_same]
    simp [Chan.unwait]

theorem missReadIssue_waits {i : Nat} {c : ChanId} (found : FMap.find? (s.pav p).miss r.val = some x) (none_ : x.waitEv = 0)
    (next : x.nextRead = some i) (chan : c = s.chanFor (x.base + BitVec.ofNat 46 i)) (full : s.rqTakes c x.plot false = false) :
    Completes (.missReadIssue p r) s fun t =>
      ∃ v : State, t = v.pump p ∧ (x.plot, p, r.val) ∈ (v.chan c).waitRd ∧ (v.chan c).rq = (s.chan c).rq ∧ v.pavs = s.pavs
        ∧ OnlyChan c s v ∧ OnlyParts [.chans] s v := by
  have run : exec (.missReadIssue p r) s = .next ((s.missRead p r.val).pump p) := live_alive (fun s => (s.missRead p r.val).pump p) alive
  refine .of_eq run (congrArg (State.pump · p) (missRead_waits found none_ next chan full))
    ⟨_, rfl, ?_, ?_, rfl, modChan_onlyChan s c _, (modChan_tame s c _).only⟩
  · rw [State.modChan_chan_same]
    dsimp only
    split
    case isTrue listed => exact List.contains_iff_mem.mp listed
    case isFalse => simp
  · rw [State.modChan_chan_same]

theorem fillReturn_exec {sub : Fin 64} {i : Nat} {la : LineAddr} {c : ChanId} {m : MemRet} (found : FMap.find? (s.pav p).miss r.val = some x)
    (plain : x.preload = false) (index : i = sub.val - subOf x.base) (line : la = x.base + BitVec.ofNat 46 i) (chan : c = s.chanFor la)
    (back : ((s.chan c).rets.find? fun y => y.src = .miss p r.val sub.val && y.pa = la) = some m) :
    exec (.fillReturn p r sub) s = .next (((((s.retTaken c m).fillFate p r.val x i la m).regCommit p r.val).slotUse p 2).pump p) := by
  rw [← fillReturn_takes found plain index line chan back]
  exact live_alive (fun s => ((s.fillReturn p r sub).slotUse p 2).pump p) alive
end

/-- Settles O23: each command is one change of the register and one of its channel, then what the model does with the register next. -/
theorem missReadsAndFills : Obligations.MissReadsAndFills := by
  refine ⟨fun p r x i s alive _ found none_ next la line c chan => ⟨?_, ?_⟩,
    fun p r sub x m s alive _ found plain i index la line c chan back => ⟨?_, ?_, ?_⟩⟩
  · exact missReadIssue_completes alive found none_ next line chan
  · exact missReadIssue_waits alive found none_ next (line ▸ chan)
  · intro unwritten wanted
    exact .of_eq (fillReturn_exec alive found plain index line chan back)
      (by rw [fillFate_held (s := s.retTaken c m) unwritten wanted]) ⟨_, rfl, retTaken_modReg m _ found⟩
  · intro unwritten late
    exact .of_eq (fillReturn_exec alive found plain index line chan back)
      (by rw [fillFate_overtaken (s := s.retTaken c m) unwritten late]) ⟨_, rfl, retTaken_modReg m _ found⟩
  · intro written
    exact .of_eq (fillReturn_exec alive found plain index line chan back) (by rw [fillFate_replaced written]) ⟨_, rfl, retTaken_modReg m _ found⟩

end Sys2Proof.Machine

namespace Sys2Proof.Machine

/-! ## Where a half's array holds a sub-block (R288, R289) -/

/-- The digits of a number are its own. -/
theorem digits_unique {n a b c d : Nat} (hb : b < n) (hd : d < n) (same : a * n + b = c * n + d) : a = c ∧ b = d := by
  have high := congrArg (· / n) same
  have pos : 0 < n := by omega
  simp only [Nat.add_comm (_ * n), Nat.add_mul_div_right _ _ pos, Nat.div_eq_of_lt hb, Nat.div_eq_of_lt hd, Nat.zero_add] at high
  subst high
  exact ⟨rfl, Nat.add_left_cancel same⟩

/-- Row, bank and slot together name a sector. -/
theorem sector_of_parts (l : Nat) : l / 256 * 256 + l / 4 % 64 * 4 + l % 4 = l := by omega

/-- A cell holds one sub-block: bank, row and the low bits of its column name the sector; then the pseudo-channel and the high bits of
the column name the sub-block. -/
theorem stkCell_injective (p : PavId) {s1 w1 b1 s2 w2 b2 : Nat} (hs1 : s1 < 16384) (hs2 : s2 < 16384) (hw1 : w1 < 16) (hw2 : w2 < 16)
    (hb1 : b1 < 64) (hb2 : b2 < 64) (same : stkCell p s1 w1 b1 = stkCell p s2 w2 b2) : s1 = s2 ∧ w1 = w2 ∧ b1 = b2 := by
  simp only [stkCell, pcOf, stkBank, stkRow, stkCols, stkSlot] at same
  obtain ⟨same, column⟩ := digits_unique (n := 32) (by omega) (by omega) same
  obtain ⟨same, row⟩ := digits_unique (n := 1024) (by omega) (by omega) same
  obtain ⟨same, bank⟩ := digits_unique (n := 64) (by omega) (by omega) same
  obtain ⟨slot, high⟩ : (w1 * 16384 + s1) % 4 = (w2 * 16384 + s2) % 4 ∧ b1 / 16 = b2 / 16 := by omega
  have sector : w1 * 16384 + s1 = w2 * 16384 + s2 := by rw [← sector_of_parts (w1 * 16384 + s1), row, bank, slot, sector_of_parts]
  have low : b1 % 16 = b2 % 16 := by
    rw [sector] at same
    exact Nat.xor_left_injective (Nat.add_right_cancel same)
  omega

/-! ## Stack commands that issue (R299) -/

theorem State.canon.stackStore {s : State} (canon : s.canon) (p : PavId) : FMap.wf (fun _ => ({} : Stored)) (s.pav p).stack = true := by
  obtain ⟨-, -, -, pavs, -⟩ := canon
  obtain ⟨-, -, -, -, -, -, stack, -⟩ := pavs p
  exact stack

section
variable {s : State} {p : PavId} {pc : Nat} {c : StackCmd}

/-- A command has left the pavilion's queue, and its row is open. -/
def Pav.cmdLeft (pc : Nat) (c : StackCmd) (v : Pav) : Pav :=
  { v with stackq := v.stackq.erase c, stkRows := FMap.insert v.stkRows (pc * 64 + stkBank c.set c.way) (stkRow c.set c.way) }
/-- A command has left the queue, and it counts as a row hit or miss. -/
def State.cmdIssued (s : State) (p : PavId) (pc : Nat) (c : StackCmd) : State :=
  (s.modPav p (Pav.cmdLeft pc c)).cntStk (stackOfPav p) (if (s.pav p).stkOpen c pc then 3 else 4) c.plot
/-- What the cell of a command's sub-block holds. -/
def Pav.cell (v : Pav) (p : PavId) (c : StackCmd) : Stored := FMap.get (fun _ => {}) v.stack (stkCell p c.set c.way c.sub)
/-- The sub-block's cell holds a line, and the command counts as a read or write. -/
def State.cellPut (s : State) (p : PavId) (c : StackCmd) (st : Stored) (code : Nat) : State :=
  (s.modPav p fun v => { v with stack := FMap.put (fun _ => {}) v.stack (stkCell p c.set c.way c.sub) st }).cntStk (stackOfPav p) code c.plot
/-- What a read finds has joined the reads on their way back. -/
def State.readBack (s : State) (p : PavId) (c : StackCmd) (st : Stored) : State :=
  s.modPav p fun v => { v with stackRet := v.stackRet ++ [{ cmd := c, st := st }] }

theorem cmdIssued_pav : (s.cmdIssued p pc c).pav p = (s.pav p).cmdLeft pc c := by
  rw [State.cmdIssued, (cntStk_tame _ _ _ _ _).only.pav_eq, State.modPav_pav_same]
theorem cellPut_pav (st : Stored) (code : Nat) :
    (s.cellPut p c st code).pav p = { s.pav p with stack := FMap.put (fun _ => {}) (s.pav p).stack (stkCell p c.set c.way c.sub) st } := by
  rw [State.cellPut, (cntStk_tame _ _ _ _ _).only.pav_eq, State.modPav_pav_same]

theorem stackIssue_write {st : Stored} (u : Upset) (serves : (s.stk (stackOfPav p)).com.st = .inService) (op : c.op = .write st) :
    s.stackIssue p pc c u = (s.cmdIssued p pc c).cellPut p c st 2 := by
  unfold State.stackIssue State.stackTags State.cmdIssued
  simp only [serves, op, StackOp.isRaw, reduceCtorEq, if_false]
  split <;> rfl

/-- A demand read that nothing disturbs writes back what it finds. -/
theorem stackIssue_demand {e : Nat} (serves : (s.stk (stackOfPav p)).com.st = .inService) (op : c.op = .demand e) :
    s.stackIssue p pc c {} = ((s.cmdIssued p pc c).cellPut p c ((s.pav p).cell p c) 1).readBack p c ((s.pav p).cell p c) := by
  have found : (s.pav p).cell p c = ((s.cmdIssued p pc c).pav p).cell p c := by rw [cmdIssued_pav]; rfl
  rw [found]
  unfold State.stackIssue State.stackTags State.cmdIssued
  simp only [serves, op, StackOp.isRaw, reduceCtorEq, if_false, BitVec.ofNat_eq_ofNat, BitVec.xor_zero]
  split <;> rfl

/-- A change of the pavilion and what it counts stay within the pavilion and the counters. -/
theorem modPav_cntStk_frame (s : State) (p : PavId) (f : Pav → Pav) (k : StackId) (code : Nat) (plot : Option PlotId) :
    OnlyPav p s ((s.modPav p f).cntStk k code plot) ∧ OnlyParts [.pavs, .csr, .glb, .blv] s ((s.modPav p f).cntStk k code plot) :=
  have counted := cntStk_tame (s.modPav p f) k code plot 1
  ⟨(modPav_onlyPav s p f).trans (.of_only counted.only), ((modPav_tame s p f).only.mono (by simp)).trans (counted.only.mono (by simp))⟩

theorem cellPut_frame (st : Stored) (code : Nat) : OnlyPav p s ((s.cmdIssued p pc c).cellPut p c st code)
    ∧ OnlyParts [.pavs, .csr, .glb, .blv] s ((s.cmdIssued p pc c).cellPut p c st code) := by
  obtain ⟨issued, issuedOnly⟩ := modPav_cntStk_frame s p (Pav.cmdLeft pc c) (stackOfPav p) (if (s.pav p).stkOpen c pc then 3 else 4) c.plot
  obtain ⟨put, putOnly⟩ := modPav_cntStk_frame (s.cmdIssued p pc c) p _ (stackOfPav p) code c.plot
  exact ⟨issued.trans put, issuedOnly.trans putOnly⟩
theorem readBack_frame (st : Stored) : OnlyPav p s (s.readBack p c st) ∧ OnlyParts [.pavs] s (s.readBack p c st) :=
  ⟨modPav_onlyPav s p _, (modPav_tame s p _).only⟩
end

/-! ## Stack reads that return good (R202, R217, R347) -/

/-- A read has left the reads on their way back. -/
def State.retLeft (s : State) (p : PavId) (r : StackRet) : State := s.modPav p fun v => { v with stackRet := v.stackRet.erase r }
/-- An eviction copy has taken its reserved place, and its eviction no longer waits for it. -/
def Pav.copyTaken (c : StackCmd) (v : Pav) : Pav :=
  { v with orRsv := v.orRsv - 1
           evicts := v.evicts.map fun e => if e.set = c.set && e.way = c.way then { e with inFlight := e.inFlight.erase c.sub } else e }

section
variable {s : State} {p : PavId} {r : StackRet} (well : r.failed = false) (good : (stackDecode r.st).cls = .good)
include well good

theorem stackClass_good : s.stackClass p r = (s, (stackDecode r.st).data, false, false) := by
  unfold State.stackClass
  simp only [well, good, Bool.false_eq_true, if_false]

theorem stackReturn_demand {e : Nat} {t0 : Txn} (op : r.cmd.op = .demand e) (found : FMap.find? (s.pav p).tt e = some t0)
    (waits : t0.fetch = .busy) (line : t0.pa = r.cmd.pa) :
    s.stackReturn p r = s.modTxn p e fun t => { t with buf := some ((stackDecode r.st).data, false), fetch := .ready } := by
  unfold State.stackReturn
  dsimp only
  rw [op]
  dsimp only
  rw [stackClass_good well good]
  dsimp only
  rw [found]
  exact if_neg (by simp [waits, line])

theorem copyReturn_good : s.copyReturn p r
    = ((((s.orAdd p r.cmd.pa (stackDecode r.st).data false r.cmd.plot).modPav p (Pav.copyTaken r.cmd)).cntPav p 8 r.cmd.plot).evictEnd
        p r.cmd.set r.cmd.way).poisonEnd p r.cmd.set r.cmd.way := by
  unfold State.copyReturn
  rw [stackClass_good well good]
  rfl
end

/-! ## The commands -/

section
variable {s : State} (alive : s.alive = true) {p : PavId} {pc : Fin 32} {c : StackCmd}
include alive

theorem stackCommandIssue_exec (u : Upset) (serves : (s.stk (stackOfPav p)).com.st = .inService)
    (free : ∀ d, s.refBars (.stack (stackOfPav p)) pc.val d = false) (next : (s.pav p).nextStack p pc.val = some c)
    (valid : (s.pav p).wbVoid c = false) : exec (.stackCommandIssue p pc u) s = .next (s.stackIssue p pc c u) := by
  change execStackCommandIssue p pc u s = _
  unfold execStackCommandIssue
  rw [live_alive _ alive]
  dsimp only
  rw [if_pos (by simp [serves, free]), next]
  dsimp only
  rw [if_neg (by simp [valid])]

theorem stackCommandIssue_write {st : Stored} (u : Upset) (canon : s.canon) (serves : (s.stk (stackOfPav p)).com.st = .inService)
    (free : ∀ d, s.refBars (.stack (stackOfPav p)) pc.val d = false) (next : (s.pav p).nextStack p pc.val = some c) (op : c.op = .write st) :
    Completes (.stackCommandIssue p pc u) s fun t =>
      FMap.get (fun _ => ({} : Stored)) (t.pav p).stack (stkCell p c.set c.way c.sub) = st
        ∧ (∀ k, k ≠ stkCell p c.set c.way c.sub →
          FMap.get (fun _ => ({} : Stored)) (t.pav p).stack k = FMap.get (fun _ => ({} : Stored)) (s.pav p).stack k)
        ∧ (t.pav p).stackq = (s.pav p).stackq.erase c ∧ (t.pav p).tags = (s.pav p).tags ∧ OnlyPav p s t ∧ OnlyParts [.pavs, .csr, .glb, .blv] s t := by
  have run := stackCommandIssue_exec alive u serves free next (by simp [Pav.wbVoid, op, StackOp.writesBack])
  refine .of_eq run (stackIssue_write u serves op) ?_
  rw [cellPut_pav, cmdIssued_pav]
  exact ⟨FMap.get_put_same _ _ (canon.stackStore p), fun k other => FMap.get_put_other _ (canon.stackStore p) other, rfl, rfl, cellPut_frame st 2⟩

theorem stackCommandIssue_demand {e : Nat} (canon : s.canon) (serves : (s.stk (stackOfPav p)).com.st = .inService)
    (free : ∀ d, s.refBars (.stack (stackOfPav p)) pc.val d = false) (next : (s.pav p).nextStack p pc.val = some c) (op : c.op = .demand e) :
    Completes (.stackCommandIssue p pc {}) s fun t =>
      (∀ k, FMap.get (fun _ => ({} : Stored)) (t.pav p).stack k = FMap.get (fun _ => ({} : Stored)) (s.pav p).stack k)
        ∧ (t.pav p).stackRet = (s.pav p).stackRet ++
          [{ cmd := c, st := FMap.get (fun _ => ({} : Stored)) (s.pav p).stack (stkCell p c.set c.way c.sub) }]
        ∧ (t.pav p).stackq = (s.pav p).stackq.erase c ∧ OnlyPav p s t ∧ OnlyParts [.pavs, .csr, .glb, .blv] s t := by
  have run := stackCommandIssue_exec alive {} serves free next (by simp [Pav.wbVoid, op, StackOp.writesBack])
  obtain ⟨pav, parts⟩ := cellPut_frame (s := s) (p := p) (pc := pc) (c := c) ((s.pav p).cell p c) 1
  obtain ⟨backPav, backParts⟩ := readBack_frame (s := (s.cmdIssued p pc c).cellPut p c ((s.pav p).cell p c) 1) (p := p) (c := c) ((s.pav p).cell p c)
  refine .of_eq run (stackIssue_demand serves op) ⟨fun k => ?_, ?_, ?_, pav.trans backPav, parts.trans (backParts.mono (by simp))⟩
  all_goals rw [State.readBack, State.modPav_pav_same, cellPut_pav, cmdIssued_pav]
  · refine (FMap.get_put (canon.stackStore p) _ k _).trans ?_
    split
    case isTrue here => rw [here]; rfl
    case isFalse => rfl
  · rfl
  · rfl
end

section
variable {s : State} (alive : s.alive = true) {p : PavId} {r : StackRet} (well : r.failed = false) (good : (stackDecode r.st).cls = .good)
include alive well good

theorem stackReadReturn_demand {e : Nat} {t0 : Txn} (first : ((s.pav p).stackRet.find? fun y => y.cmd.op ≠ .evict) = some r)
    (op : r.cmd.op = .demand e) (found : FMap.find? (s.pav p).tt e = some t0) (waits : t0.fetch = .busy) (line : t0.pa = r.cmd.pa) :
    Completes (.stackReadReturn p) s fun t =>
      ∃ v : State, t = v.pump p ∧ FMap.find? (v.pav p).tt e = some { t0 with buf := some ((stackDecode r.st).data, false), fetch := .ready }
        ∧ (v.pav p).stackRet = (s.pav p).stackRet.erase r ∧ OnlyPav p s v ∧ OnlyParts [.pavs] s v := by
  have run : exec (.stackReadReturn p) s = .next (((s.retLeft p r).stackReturn p r).pump p) := by
    change execStackReadReturn p s = _
    unfold execStackReadReturn
    rw [live_alive _ alive, first]
    rfl
  have listed : FMap.find? ((s.retLeft p r).pav p).tt e = some t0 := by rw [State.retLeft, State.modPav_pav_same]; exact found
  refine .of_eq run (congrArg (State.pump · p) (stackReturn_demand well good op listed waits line))
    ⟨_, rfl, modTxn_find _ listed, ?_, (modPav_onlyPav s p _).trans (modTxn_onlyPav _), (modPav_tame s p _).only.trans (modTxn_tame _).only⟩
  rw [modTxn_pav _ listed, State.retLeft, State.modPav_pav_same]

theorem evictionCopyReturn_copy (first : ((s.pav p).stackRet.find? fun y => y.cmd.op = .evict) = some r) :
    Completes (.evictionCopyReturn p) s fun t =>
      ∃ v : State, t = (((((v.cntPav p 8 r.cmd.plot).evictEnd p r.cmd.set r.cmd.way).poisonEnd p r.cmd.set r.cmd.way).slotUse p 2).pump p)
        ∧ (v.pav p).orang = (s.pav p).orang ++ [{ pa := r.cmd.pa, line := sramEncode (stackDecode r.st).data, poison := false, plot := r.cmd.plot }]
        ∧ (v.pav p).orRsv = (s.pav p).orRsv - 1 ∧ (v.pav p).stackRet = (s.pav p).stackRet.erase r ∧ OnlyPav p s v ∧ OnlyParts [.pavs] s v := by
  have run : exec (.evictionCopyReturn p) s = .next ((((s.retLeft p r).copyReturn p r).slotUse p 2).pump p) := by
    change execEvictionCopyReturn p s = _
    unfold execEvictionCopyReturn
    rw [live_alive _ alive, first]
    rfl
  refine .of_eq run (congrArg (fun u : State => (u.slotUse p 2).pump p) (copyReturn_good well good)) ⟨_, rfl, ?_, ?_, ?_,
    (modPav_onlyPav s p _).trans ((modPav_onlyPav _ p _).trans (modPav_onlyPav _ p _)),
    (modPav_tame s p _).only.trans ((modPav_tame _ p _).only.trans (modPav_tame _ p _).only)⟩
  all_goals rw [State.modPav_pav_same, State.orAdd, State.modPav_pav_same, State.retLeft, State.modPav_pav_same]; rfl
end

/-- Settles O24: a stack command is one change of its pavilion, and so is a read that comes back good. -/
theorem stackCommandsAndReads : Obligations.StackCommandsAndReads := by
  refine ⟨fun p pc c s alive canon serves free next => ⟨?_, ?_⟩, fun p _ _ _ _ _ _ => stkCell_injective p,
    fun p r s alive _ well good => ⟨?_, ?_⟩⟩
  · exact fun st u op => stackCommandIssue_write alive u canon serves free next op
  · exact fun e op => stackCommandIssue_demand alive canon serves free next op
  · exact fun e t0 first op found waits line => stackReadReturn_demand alive well good first op found waits line
  · exact evictionCopyReturn_copy alive well good

end Sys2Proof.Machine

namespace Sys2Proof.Machine

/-! ## The Glasshouse debug window (R235) -/

/-- The offset of a 32-bit word of a pavilion's Glasshouse in BAR0. -/
abbrev glasshouseOff (p : PavId) (k : Nat) : Nat := 0x2000000 + 0x200000 * p.val + 4 * k

/-! ### The words of the window -/

section
variable {p : PavId} {k : Nat}

theorem isMsix_glasshouseOff : isMsix (glasshouseOff p k) = false := by
  unfold isMsix glasshouseOff
  simp only [Bool.or_eq_false_iff, Bool.and_eq_false_iff, decide_eq_false_iff_not]
  omega
/-- No register lies in the debug window (R524). -/
theorem regAt_glasshouseOff : regAt (glasshouseOff p k) = none := by
  have above : 0x2000000 ≤ glasshouseOff p k := by unfold glasshouseOff; omega
  have noBlock : blkOf (glasshouseOff p k) = none := by
    generalize glasshouseOff p k = off at above
    unfold blkOf
    repeat rw [if_neg (by omega)]
  unfold regAt
  rw [noBlock]
theorem pairHalf_glasshouseOff : pairHalf (glasshouseOff p k) = none := by unfold pairHalf; rw [regAt_glasshouseOff]

variable (inside : k < 524288)
include inside

theorem glasshouseOff_mod : glasshouseOff p k % 0x200000 = 4 * k := by unfold glasshouseOff; omega
theorem debugPav_glasshouseOff : debugPav (glasshouseOff p k) = p :=
  Fin.ext (by have := p.isLt; change (glasshouseOff p k - 0x2000000) / 0x200000 % 16 = p.val; unfold glasshouseOff; omega)
theorem isDebug_glasshouseOff : isDebug (glasshouseOff p k) = true := by
  have := p.isLt
  unfold isDebug glasshouseOff
  simp only [Bool.and_eq_true, decide_eq_true_eq]
  omega

variable {s u : State} {a : Access}

/-- A privileged read at a Glasshouse offset reads the word's place in the SRAM (R235). -/
theorem read32_glasshouse (priv : s.privileged a = true) : s.read32 a (glasshouseOff p k) = s.ghDebugRead p (4 * k) := by
  rw [State.read32, isMsix_glasshouseOff, isDebug_glasshouseOff inside, priv, debugPav_glasshouseOff inside, glasshouseOff_mod inside]
  rfl

/-- A privileged write at a Glasshouse offset is refused outside WINDOW (R235, R511). -/
theorem cmdWrite_glasshouse (ok : s.regsOk) (priv : s.privileged a = true) (powered : s.glb.pwr ≠ .hibernate) (v : W32) :
    s.cmdWrite a (glasshouseOff p k) v
      = if (s.pav p).place = .window then ((s.cntGlob 3).dropHold a.master).ghDebugWrite p (4 * k) v
        else ((s.cntGlob 3).dropHold a.master).accessEvt a.master (glasshouseOff p k) true 9 := by
  have counted := cntGlob_logs s 3 1 none
  have priv' : ((s.cntGlob 3).dropHold a.master).privileged a = true := (counted_privileged s ok a).trans priv
  have powered' : ((s.cntGlob 3).dropHold a.master).glb.pwr ≠ .hibernate := (congrArg Glb.pwr counted.glb).trans_ne powered
  have same : ((s.cntGlob 3).dropHold a.master).pav p = s.pav p := counted.only.pav_eq p
  rw [State.cmdWrite, State.pairWrite, isMsix_glasshouseOff, isDebug_glasshouseOff inside, debugPav_glasshouseOff inside, glasshouseOff_mod inside]
  dsimp only
  rw [priv', same]
  simp [powered', ite_not]
end

/-! ### Reading and writing a line -/

section
variable {s : State} {p : PavId} {k : Nat}

theorem ghRead_good {i : Nat} {window dirty : Bool} (good : (sramDecode window ((s.pav p).ghLineAt i)).cls = .good) :
    s.ghRead p i window dirty false = (s, some ((sramDecode window ((s.pav p).ghLineAt i)).data, false)) := by
  unfold State.ghRead
  dsimp only
  rw [if_neg (by decide), good]

/-- The line of a word, and the word's place in it. -/
theorem wordPlace (inside : k < 524288) : 4 * k / 64 % 32768 = k / 16 ∧ 4 * k / 4 % 16 = k % 16 := by omega

/-- The word that lies at a place of a line. -/
abbrev wordOf (d : Line) (k : Nat) : W32 := BitVec.ofNat 32 (d.toNat >>> (32 * (k % 16)))

theorem ghDebugRead_window (inside : k < 524288) (place : (s.pav p).place = .window) (good : (sramDecode true ((s.pav p).ghLineAt (k / 16))).cls = .good) :
    s.ghDebugRead p (4 * k) = (s, wordOf (sramDecode true ((s.pav p).ghLineAt (k / 16))).data k) := by
  obtain ⟨line, word⟩ := wordPlace inside
  unfold State.ghDebugRead
  dsimp only
  rw [if_pos place, line, word, ghRead_good good]
  rfl
theorem ghDebugRead_ghCache (inside : k < 524288) (place : (s.pav p).place = .ghCache) :
    s.ghDebugRead p (4 * k) = (s, wordOf ((s.pav p).ghLineAt (k / 16)).data k) := by
  obtain ⟨line, word⟩ := wordPlace inside
  unfold State.ghDebugRead
  dsimp only
  rw [if_neg (by simp [place]), if_neg (by simp [Pav.holds, place]), line, word]
theorem ghDebugRead_sectored (place : (s.pav p).place = .sectored) : s.ghDebugRead p (4 * k) = (s.drawn, Config.tagBits s.freeCtr) := by
  unfold State.ghDebugRead
  dsimp only
  rw [if_neg (by simp [place]), if_pos (by simp [Pav.holds, place])]

theorem ghDebugWrite_window (inside : k < 524288) (v : W32) (good : (sramDecode true ((s.pav p).ghLineAt (k / 16))).cls = .good) :
    s.ghDebugWrite p (4 * k) v = s.modPav p fun x => x.setGhLine (k / 16)
      (sramEncode (setBits (sramDecode true ((s.pav p).ghLineAt (k / 16))).data (32 * (k % 16) + 31) (32 * (k % 16)) v.toNat)) := by
  obtain ⟨line, word⟩ := wordPlace inside
  unfold State.ghDebugWrite
  dsimp only
  rw [line, word, ghRead_good good]
  rfl

theorem ghLineAt_setGhLine_same {v : Pav} (wf : FMap.wf (fun _ => ({} : SramLine)) v.ghData = true) (i : Nat) (l : SramLine) :
    (v.setGhLine i l).ghLineAt i = l := FMap.get_put_same i l wf
theorem ghLineAt_setGhLine_other {v : Pav} (wf : FMap.wf (fun _ => ({} : SramLine)) v.ghData = true) {i j : Nat} (l : SramLine) (h : j ≠ i) :
    (v.setGhLine i l).ghLineAt j = v.ghLineAt j := FMap.get_put_other l wf h

theorem drawn_tame (s : State) : Tame [.freeCtr] s s.drawn := ⟨fun p hp => by cases p <;> simp_all [Part.same], id⟩

/-- An access outside what a block takes is reported by its bit (R511, R528). -/
theorem accessEvt_bit (ok : s.regsOk) (m : Master) (off : Nat) (w : Bool) {bit : Nat} (plain : bit ≠ 8) (lo : 8 ≤ bit) (hi : bit < 32) :
    ((s.accessEvt m off w bit).rget R.glbAccessEvt).getLsbD bit = true := by
  unfold State.accessEvt
  dsimp only
  rw [if_neg plain]
  exact raise_bit _ _ ((rset_logs s _ _).regsOk ok) lo hi
end

/-! ### The commands -/

/-- The state in which a write is judged: the access has been counted, and the master's holding register is empty (R509, R537). -/
theorem judged_tame (s : State) (m : Master) : Tame [.csr, .glb, .blv, .pairs] s ((s.cntGlob 3).dropHold m) := by
  have counted := (cntGlob_logs s 3 1 none).tame.mono (qs := [.csr, .glb, .blv, .pairs]) (by simp)
  unfold State.dropHold State.modPair
  exact counted.trans ((modPairs_tame _ _).mono (by simp))

section
variable {s u : State} {a : Access} {p : PavId} {k : Nat} (alive : s.alive = true) (canon : s.canon) (priv : s.privileged a = true) (inside : k < 524288)
include alive canon priv inside

/-- What the window reads leaves the hub as the answer to the access, which has been counted (R504, R537). -/
theorem glasshouseDebugRead_answers {w : W32} {ps : List Part} (read : (s.cntGlob 3).ghDebugRead p (4 * k) = (u, w)) (only : OnlyParts ps (s.cntGlob 3) u)
    (outs : Part.outs ∉ ps) :
    Completes (.glasshouseDebugRead a ⟨glasshouseOff p k, 4⟩) s fun t =>
      t.outs = .read a.master (glasshouseOff p k) (BitVec.ofNat 64 w.toNat) :: s.outs ∧ OnlyParts ([.csr, .glb, .blv, .outs] ++ ps) s t := by
  have counted := cntGlob_logs s 3 1 none
  have run : exec (.glasshouseDebugRead a ⟨glasshouseOff p k, 4⟩) s = .next (s.readOut a (glasshouseOff p k) 4) := live_alive (fun s => s.readOut a (glasshouseOff p k) 4) alive
  have answer : s.readOut a (glasshouseOff p k) 4 = u.emit (.read a.master (glasshouseOff p k) (BitVec.ofNat 64 w.toNat)) := by
    rw [readOut_word s a _ (by unfold glasshouseOff; omega) pairHalf_glasshouseOff (by unfold glasshouseOff R.bandTimeNs R.bandTimeSecLo R.bandTimeSecHi; omega),
      read32_glasshouse inside ((counted_privileged s canon.1 a).trans priv), read, Nat.mod_eq_of_lt w.isLt]
  refine .of_eq run answer ⟨?_, ?_⟩
  · rw [← counted.only.outs_eq, ← only.outs_eq outs]; rfl
  · exact (counted.only.mono (by simp)).trans ((only.mono (by intro x hx; simp [hx])).trans (((emit_tame u _).only).mono (by simp)))

theorem glasshouseDebugRead_window (place : (s.pav p).place = .window) (good : (sramDecode true ((s.pav p).ghLineAt (k / 16))).cls = .good) :
    Completes (.glasshouseDebugRead a ⟨glasshouseOff p k, 4⟩) s fun t =>
      t.outs = .read a.master (glasshouseOff p k) (BitVec.ofNat 64 (wordOf (sramDecode true ((s.pav p).ghLineAt (k / 16))).data k).toNat) :: s.outs
        ∧ OnlyParts [.csr, .glb, .blv, .outs] s t := by
  have same : (s.cntGlob 3).pav p = s.pav p := (cntGlob_logs s 3 1 none).only.pav_eq p
  rw [← same] at place good ⊢
  exact glasshouseDebugRead_answers alive canon priv inside (ghDebugRead_window inside place good) (OnlyParts.refl (ps := []) _) (by simp)

theorem glasshouseDebugRead_ghCache (place : (s.pav p).place = .ghCache) :
    Completes (.glasshouseDebugRead a ⟨glasshouseOff p k, 4⟩) s fun t =>
      t.outs = .read a.master (glasshouseOff p k) (BitVec.ofNat 64 (wordOf ((s.pav p).ghLineAt (k / 16)).data k).toNat) :: s.outs
        ∧ OnlyParts [.csr, .glb, .blv, .outs] s t := by
  have same : (s.cntGlob 3).pav p = s.pav p := (cntGlob_logs s 3 1 none).only.pav_eq p
  rw [← same] at place ⊢
  exact glasshouseDebugRead_answers alive canon priv inside (ghDebugRead_ghCache inside place) (OnlyParts.refl (ps := []) _) (by simp)

/-- The word is the next free value (log entry 284). -/
theorem glasshouseDebugRead_sectored (place : (s.pav p).place = .sectored) :
    Completes (.glasshouseDebugRead a ⟨glasshouseOff p k, 4⟩) s fun t =>
      t.outs = .read a.master (glasshouseOff p k) ((Config.tagBits s.freeCtr).setWidth 64) :: s.outs
        ∧ OnlyParts [.csr, .glb, .blv, .outs, .freeCtr] s t := by
  have counted := cntGlob_logs s 3 1 none
  have place' : ((s.cntGlob 3).pav p).place = .sectored := (congrArg Pav.place (counted.only.pav_eq p)).trans place
  have free : (s.cntGlob 3).freeCtr = s.freeCtr := counted.only .freeCtr (by decide)
  rw [← free, ← BitVec.ofNat_toNat]
  exact glasshouseDebugRead_answers alive canon priv inside (ghDebugRead_sectored place') (drawn_tame _).only (by simp)

variable (powered : s.glb.pwr ≠ .hibernate) (v : W32)
include powered

/-- In WINDOW the word joins its line, whose check bits are written anew (R235). -/
theorem glasshouseDebugWrite_window (place : (s.pav p).place = .window) (good : (sramDecode true ((s.pav p).ghLineAt (k / 16))).cls = .good) :
    Completes (.glasshouseDebugWrite a (glasshouseOff p k) v) s fun t =>
      (t.pav p).ghLineAt (k / 16) = sramEncode (setBits (sramDecode true ((s.pav p).ghLineAt (k / 16))).data (32 * (k % 16) + 31) (32 * (k % 16)) v.toNat)
        ∧ (∀ j, j ≠ k / 16 → (t.pav p).ghLineAt j = (s.pav p).ghLineAt j) ∧ (t.pav p).dir = (s.pav p).dir
        ∧ OnlyPav p s t ∧ OnlyParts [.pavs, .csr, .glb, .blv, .pairs] s t := by
  have counted := (judged_tame s a.master).only
  have same := counted.pav_eq p
  have wf : FMap.wf (fun _ => ({} : SramLine)) (s.pav p).ghData = true := by
    obtain ⟨-, -, -, pavs, -⟩ := canon
    obtain ⟨-, -, -, data, -⟩ := pavs p
    exact data
  have run : exec (.glasshouseDebugWrite a (glasshouseOff p k) v) s = .next (s.cmdWrite a (glasshouseOff p k) v) :=
    live_alive (fun s => s.cmdWrite a (glasshouseOff p k) v) alive
  rw [cmdWrite_glasshouse inside canon.1 priv powered, if_pos place] at run
  refine .of_eq run (ghDebugWrite_window inside v (by rw [same]; exact good)) ⟨?_, fun j hj => ?_, ?_, fun q hq => ?_, ?_⟩
  · rw [State.modPav_pav_same, same, ghLineAt_setGhLine_same wf]
  · rw [State.modPav_pav_same, same, ghLineAt_setGhLine_other wf _ hj]
  · rw [State.modPav_pav_same, same]; rfl
  · exact (State.modPav_pav_other _ _ hq).trans (counted.pav_eq q)
  · exact (counted.mono (by simp)).trans ((modPav_tame _ p _).only.mono (by simp))

theorem glasshouseDebugWrite_refused (place : (s.pav p).place ≠ .window) :
    Completes (.glasshouseDebugWrite a (glasshouseOff p k) v) s fun t => t.pavs = s.pavs ∧ (t.rget R.glbAccessEvt).getLsbD 9 = true := by
  have counted := judged_tame s a.master
  have run : exec (.glasshouseDebugWrite a (glasshouseOff p k) v) s = .next (s.cmdWrite a (glasshouseOff p k) v) :=
    live_alive (fun s => s.cmdWrite a (glasshouseOff p k) v) alive
  rw [cmdWrite_glasshouse inside canon.1 priv powered, if_neg place] at run
  exact ⟨_, run, ((accessEvt_tame _ _ _ _ _).only .pavs (by decide)).trans (counted.only .pavs (by decide)),
    accessEvt_bit (counted.regs canon.1) _ _ _ (by decide) (by decide) (by decide)⟩
end

/-- Settles O36. That the word in SECTORED is a free value is log entry 284. -/
theorem glasshouseDebugWindow : Obligations.GlasshouseDebugWindow := by
  intro a p k v s alive canon priv powered inside off l
  refine ⟨fun place good => ⟨?_, ?_⟩, fun place => ?_, fun place => ?_, fun place => ?_⟩
  · exact glasshouseDebugWrite_window alive canon priv inside powered v place good
  · exact BitVec.toNat_ofNat _ 32 ▸ glasshouseDebugRead_window alive canon priv inside place good
  · exact BitVec.toNat_ofNat _ 32 ▸ glasshouseDebugRead_ghCache alive canon priv inside place
  · exact glasshouseDebugRead_sectored alive canon priv inside place
  · exact glasshouseDebugWrite_refused alive canon priv inside powered v place

end Sys2Proof.Machine

namespace Sys2Proof.Machine

/-! ## Cache control and raw accesses where hardware has cleared the command's register

`State.hwNow` is free in the statements on placements, maintenance operations and raw accesses too, and these commands read their
operands back from the register that they write. Where hardware has cleared every bit of that register in the cc, the fields stored are
zero: the command has its GO, but another meaning than its operand's. No command of the model clears a bit of these registers, so no run
reaches such a state; a hypothesis on `State.hwNow` would exclude it. -/

/-- Every pavilion of a hub is in one placement. -/
def State.placed (s : State) (x : Place) : State := { s with pavs := Vector.replicate 16 { place := x } }

theorem placed_place (s : State) (x : Place) (p : PavId) : ((s.placed x).pav p).place = x := by
  simp [State.pav, State.placed]

/-- Refutes O38: in a cc in which hardware has cleared the bits of PLACE_CMD, a command for pavilion 0 stores MODE 0 and names no
pavilion; it is rejected, and no transition runs. -/
theorem not_placementChanges : ¬ Obligations.PlacementChanges := by
  intro h
  let s := (clearedHub R.glbPlaceCmd).placed .sectored
  obtain ⟨-, leave, -⟩ := h.1 hostAccess 1 s (by decide) State.reset_canon.1 (clearedHub_privileged R.glbPlaceCmd) (by decide) (by decide) ⟨0, by decide⟩
    (by decide)
  obtain ⟨t, run, started, -⟩ := leave fun p _ => placed_place _ _ p
  have idle : leaves (.sectoredToGhCache hostAccess 1) s (·.glb.placeEng.running) = some false := by decide +kernel
  rw [leaves_next _ run, started] at idle
  exact absurd idle (by decide)

/-- Refutes O39: in a cc in which hardware has cleared the bits of HC_MOP_CTL, a CLEAN of everything stores OP 0, and ends at once as an
operation with a bad argument. -/
theorem not_maintenanceOperations : ¬ Obligations.MaintenanceOperations := by
  intro h
  let s := (clearedHub R.glbHcMopCtl).placed .sectored
  obtain ⟨accepted, -⟩ := h.1 hostAccess 0x0C000000 s (by decide) State.reset_canon.1 (clearedHub_privileged R.glbHcMopCtl)
  obtain ⟨walks, -⟩ := accepted (by decide) (by decide) (placed_place _ _) (by decide)
  obtain ⟨t, run, busy, -⟩ := walks 1 _ (.inl ⟨rfl, rfl⟩)
  have idle : leaves (.mopClean hostAccess 0x0C000000) s (·.glb.mop.busy) = some false := by decide +kernel
  rw [leaves_next _ run, busy] at idle
  exact absurd idle (by decide)

/-- A hub in which channel 0 has a DIMM of 32 GiB in service, its first region initialized. -/
def State.oneChannel (s : State) : State :=
  s.modChan 0 fun ch =>
    { ch with slot0 := some { gen := .d5, densityGbit := 16, cidBits := 0, ranks := 1, maxCode := 0xE, ident := 0, x4Registered := true }
              init := [0], com := { ch.com with st := .inService } }

/-- Refutes O35: in a cc in which hardware has cleared the bits of RAW_CTL, a raw read of line 0 of channel 0 stores CMD 0, and ends at
once with RESULT 1. -/
theorem not_rawAccesses : ¬ Obligations.RawAccesses := by
  intro h
  let s := (clearedHub R.rawRawCtl).oneChannel
  obtain ⟨reads, -⟩ := h.1 hostAccess 0 0 s (by decide) State.reset_canon.1 (clearedHub_privileged R.rawRawCtl) (by decide) (by decide) (by decide) _ rfl
  obtain ⟨t, run, busy, -⟩ := reads (by decide +kernel) (by decide +kernel) (by decide) (by decide) _ (.inl rfl)
  have idle : leaves (.readRaw hostAccess 0) s (·.glb.rawBusy) = some false := by decide +kernel
  rw [leaves_next _ run, busy] at idle
  exact absurd idle (by decide)

end Sys2Proof.Machine

namespace Sys2Proof.Machine

/-! ## What the commands of a channel reach (R296, R537, R550) -/

/-- Nothing has changed but this channel and what reports: registers, counters and traced occurrences. -/
structure ChanStep (c : ChanId) (s t : State) : Prop where
  tame : Tame [.chans, .csr, .glb, .blv] s t
  only : OnlyChan c s t

section
variable {c : ChanId} {s t u : State}

theorem ChanStep.refl : ChanStep c s s := ⟨.refl, fun _ _ => rfl⟩
theorem ChanStep.trans (h : ChanStep c s t) (k : ChanStep c t u) : ChanStep c s u := ⟨h.tame.trans k.tame, h.only.trans k.only⟩
theorem ChanStep.ite {p : Prop} [Decidable p] (h : p → ChanStep c s t) (k : ¬p → ChanStep c s u) : ChanStep c s (if p then t else u) := by
  by_cases x : p
  · rw [if_pos x]; exact h x
  · rw [if_neg x]; exact k x
theorem WithinChan.step (h : WithinChan c s t) : ChanStep c s t := ⟨h.tame.mono (by simp), h.only⟩
/-- What reports reaches no channel. -/
theorem Tame.chanStep (h : Tame [.csr, .glb, .blv] s t) : ChanStep c s t := ⟨h.mono (by simp), .of_only h.only⟩

variable (c s)

@[simp] theorem cntChan_chan (code : Nat) (plot : Option PlotId) (n : Nat) (k : ChanId) : (s.cntChan c code plot n).chan k = s.chan k :=
  (cntChan_tame s c code plot n).only.chan_eq k
@[simp] theorem chanCmd_chan (code ll : Nat) (plot : Option PlotId) (answered open_ : Bool) (k : ChanId) :
    (s.chanCmd c code ll plot answered open_).chan k = s.chan k := (occur_tame s _).only.chan_eq k
@[simp] theorem raise_chan (off bit : Nat) (k : ChanId) : (s.raise off bit).chan k = s.chan k := (raise_tame s off bit).only.chan_eq k

theorem cntChan_step (code : Nat) (plot : Option PlotId) (n : Nat) : ChanStep c s (s.cntChan c code plot n) := (cntChan_tame s c code plot n).chanStep
theorem chanCmd_step (code ll : Nat) (plot : Option PlotId) (answered open_ : Bool) : ChanStep c s (s.chanCmd c code ll plot answered open_) :=
  ((occur_tame s _).mono (by simp)).chanStep

theorem openFor_step (ll : Nat) (plot : Option PlotId) (quiet : Bool) : ChanStep c s (s.openFor c ll plot quiet) := by
  have opened (f : Chan → Chan) := (modChan_within c s f).step.trans (chanCmd_step c _ 3 ll plot false false)
  unfold State.openFor
  exact .ite (fun _ => .refl) fun _ => .ite (fun _ => opened _) fun _ => (opened _).trans (cntChan_step c _ 4 plot 1)

/-- A command leaves the rows of its channel open as it needs them, and the rest of the channel as it was. -/
theorem openFor_chan (ll : Nat) (plot : Option PlotId) (quiet : Bool) :
    ∃ rows, (s.openFor c ll plot quiet).chan c = { s.chan c with rows := rows } := by
  unfold State.openFor
  split
  · exact ⟨_, rfl⟩
  · refine ⟨FMap.insert (s.chan c).rows ((s.chan c).bank ll) ((s.chan c).row ll), ?_⟩
    cases quiet <;> simp
/-- The drain mode follows the queue, and the rest of the channel stays (R297). -/
theorem updDrain_chan : ∃ drain, (s.updDrain c).chan c = { s.chan c with drain := drain } := ⟨_, State.modChan_chan_same s c _⟩
end

/-! ## Fills of a channel (R319, R320) -/

/-- A fill that starts for a region without one is found for it, where a slot is free. -/
theorem startFill_found {f : FillSlot} {fills : List (Option FillSlot)} (none_ : (fills.filterMap id).find? (fun g => g.region = f.region) = none)
    (free : 0 < (fills.filter (· = none)).length) : ((startFill f fills).filterMap id).find? (fun g => g.region = f.region) = some f := by
  induction fills with
  | nil => simp at free
  | cons x rest ih =>
    cases x with
    | none => simp [startFill]
    | some g =>
      have other : ¬ g.region = f.region := by simp_all
      simp_all [startFill]

/-- The channel as a write that issues leaves it but for its rows and its drain mode (R295, R319). -/
def Chan.wrote (w : WqEnt) (now : Nat) (ch : Chan) : Chan :=
  let ch := if ch.written w.ll then ch else
    { ch with fills := startFill { region := regionOf w.ll, start := w.ll % 32768, issued := 1, background := false } ch.fills }
  { (ch.dramPut w.ll w.st) with wq := ch.wq.erase w, wqPop := ch.wqPop.add now }

section
variable (ch : Chan) (w : WqEnt) (now : Nat)

theorem wrote_wq : (ch.wrote w now).wq = ch.wq.erase w := by
  unfold Chan.wrote; split <;> rfl
theorem wrote_dram : (ch.wrote w now).dramGet = (ch.dramPut w.ll w.st).dramGet := by
  unfold Chan.wrote; split <;> rfl
/-- The line of a write that could issue is written memory after it (R319, R320). -/
theorem wrote_written {ch : Chan} (may : ch.canWrite w = true) : (ch.wrote w now).written w.ll = true := by
  by_cases written : ch.written w.ll = true
  · have same : (ch.wrote w now).written w.ll = ch.written w.ll := by unfold Chan.wrote; rw [if_pos written]; rfl
    rw [same, written]
  · obtain ⟨none_, free⟩ : ch.fillOf (regionOf w.ll) = none ∧ 0 < ch.freeSlots := by simpa [Chan.canWrite, written] using may
    have found := startFill_found (f := { region := regionOf w.ll, start := w.ll % 32768, issued := 1, background := false }) none_ free
    have fill : (ch.wrote w now).fillOf (regionOf w.ll) = some { region := regionOf w.ll, start := w.ll % 32768, issued := 1, background := false } := by
      unfold Chan.wrote; rw [if_neg written]; exact found
    simp [Chan.written, fill, FillSlot.passed]
end

/-! ## Writes that issue (R295, R296) -/

theorem State.canon.chan {s : State} (canon : s.canon) (c : ChanId) : (s.chan c).canon := by
  obtain ⟨-, -, -, -, chans, -⟩ := canon
  exact chans c
theorem State.canon.regsOk {s : State} (canon : s.canon) : s.regsOk := by
  obtain ⟨regs, -⟩ := canon
  exact regs

section
variable {s : State} {c : ChanId} {w : WqEnt}

theorem issueWrite_chan (s : State) (c : ChanId) (w : WqEnt) :
    ∃ rows drain, (s.issueWrite c w).chan c = { (s.chan c).wrote w s.now with rows := rows, drain := drain } := by
  let v := ((s.modChan c (Chan.wrote w s.now)).openFor c w.ll w.plot w.raw).chanCmd c 2 w.ll w.plot false ((s.chan c).openRow w.ll)
  let x := if w.raw then v else v.cntChan c 2 w.plot
  obtain ⟨rows, opened⟩ := openFor_chan c (s.modChan c (Chan.wrote w s.now)) w.ll w.plot w.raw
  have counted : x.chan c = v.chan c := by
    unfold x; split
    · rfl
    · exact cntChan_chan c v 2 w.plot 1 c
  have vChan : v.chan c = _ := (chanCmd_chan c _ 2 w.ll w.plot false _ c).trans opened
  obtain ⟨drain, drained⟩ := updDrain_chan c x
  have run : s.issueWrite c w = x.updDrain c := rfl
  refine ⟨rows, drain, ?_⟩
  rw [run, drained, counted, vChan, State.modChan_chan_same]

theorem issueWrite_step (s : State) (c : ChanId) (w : WqEnt) : ChanStep c s (s.issueWrite c w) := by
  have sent := (modChan_within c s (Chan.wrote w s.now)).step.trans ((openFor_step c _ w.ll w.plot w.raw).trans
    (chanCmd_step c _ 2 w.ll w.plot false ((s.chan c).openRow w.ll)))
  have counted := sent.trans (.ite (p := w.raw = true) (fun _ => .refl) fun _ => cntChan_step c _ 2 w.plot 1)
  exact counted.trans (updDrain_within c _).step

theorem selectWrite_mem {ch : Chan} {banks : List Nat} (next : ch.selectWrite banks = some w) : w ∈ ch.readyWrites banks := by
  unfold Chan.selectWrite at next
  dsimp only at next
  split at next
  · next x found => injection next with e; subst e; exact List.mem_of_find?_eq_some found
  · exact List.mem_of_mem_head? next

section
variable {ready : List Nat} (serves : (s.chan c).com.st = .inService)
  (turn : ((s.chan c).before s.now).drain = true ∨ ((s.chan c).before s.now).readyReads (s.usable c ready) = [])
  (calm : ((s.chan c).before s.now).urgentFill (s.usable c ready) = none)
  (first : ((s.chan c).before s.now).openFill (s.usable c ready) = none ∨ ((s.chan c).before s.now).openRow w.ll = true)
  (next : ((s.chan c).before s.now).selectWrite (s.usable c ready) = some w)
include serves turn calm first next

theorem dramWrite_issues : s.dramWrite c ready = s.issueWrite c w := by
  have serves' : ((s.chan c).before s.now).com.st = .inService := serves
  have writes : ¬ (!((s.chan c).before s.now).drain && !(((s.chan c).before s.now).readyReads (s.usable c ready)).isEmpty) = true := by
    rcases turn with h | h <;> simp [h]
  unfold State.dramWrite
  dsimp only
  rw [if_neg (by simp [serves']), if_neg writes, calm, next]
  rcases first with h | h
  · rw [h]
  · split
    · contradiction
    · next e _ => injection e with e; subst e; rw [if_pos h]
    · next e _ => injection e with e; subst e; rfl
    · contradiction

theorem dramWriteIssue_completes (alive : s.alive = true) (canon : (s.chan c).canon) :
    (((s.chan c).before s.now).wq.find? fun x => x.ll = w.ll) = some w
      ∧ Completes (.dramWriteIssue c ready) s fun t =>
        (t.chan c).wq = (s.chan c).wq.erase w ∧ (t.chan c).dramGet w.ll = w.st ∧ (∀ k, k ≠ w.ll → (t.chan c).dramGet k = (s.chan c).dramGet k)
          ∧ (t.chan c).written w.ll = true ∧ OnlyChan c s t ∧ OnlyParts [.chans, .csr, .glb, .blv] s t := by
  have chosen := (List.mem_filter.mp (selectWrite_mem next)).2
  simp only [Bool.and_eq_true, Chan.firstOf, decide_eq_true_eq] at chosen
  obtain ⟨⟨⟨may, oldest⟩, -⟩, -⟩ := chosen
  have run : exec (.dramWriteIssue c ready) s = .next (s.dramWrite c ready) := live_alive (fun s => s.dramWrite c ready) alive
  obtain ⟨rows, drain, left⟩ := issueWrite_chan s c w
  have step := issueWrite_step s c w
  refine ⟨oldest, .of_eq run (dramWrite_issues serves turn calm first next) ?_⟩
  rw [left]
  refine ⟨wrote_wq _ w s.now, ?_, fun k hk => ?_, wrote_written w s.now (ch := s.chan c) may, step.only, step.tame.only⟩
  · exact (congrFun (wrote_dram _ w s.now) w.ll).trans (dramGet_dramPut_same _ _ canon)
  · exact (congrFun (wrote_dram _ w s.now) k).trans (dramGet_dramPut_other _ canon hk)

end

/-- Settles O26: the write chosen is the oldest of its line, and a push joins the queue's end. -/
theorem writesReachDramInOrder : Obligations.WritesReachDramInOrder :=
  ⟨fun c _ _ _ alive canon serves turn calm first next => dramWriteIssue_completes serves turn calm first next alive (canon.chan c),
    fun _ ll st plot _ well => (wqPush_chan ll st plot false well).1⟩
end
end Sys2Proof.Machine

namespace Sys2Proof.Machine

/-! ## Reads that issue (R294, R296, R318) -/

/-- The channel once a read has left its queue; `best` says whether the read is of a best-effort Plot (R397). -/
def Chan.readTaken (r : RqEnt) (now : Nat) (best : Bool) (ch : Chan) : Chan :=
  { ch with rq := ch.rq.erase r, rqPop := ch.rqPop.add now, sinceBe := if best then 0 else ch.sinceBe + 1 }
/-- A read has left its queue, and is counted where one of the hub's own engines made it (R537). -/
def State.readBegun (s : State) (c : ChanId) (r : RqEnt) : State :=
  let u := s.modChan c (Chan.readTaken r s.now (s.bestEffort r))
  if r.src = .patrol || r.src = .targeted || r.src = .survey then u.cntChan c 0x0D else u
/-- A read is counted, unless it is raw (R357, R537). -/
def State.countRead (s : State) (c : ChanId) (r : RqEnt) (code : Nat) : State := if r.src = .raw then s else s.cntChan c code r.plot
/-- The command of a read of written memory: its line is read as `st`, its row opened, its Plot charged (R296, R402). -/
def State.readSent (s : State) (c : ChanId) (r : RqEnt) (st : Stored) (hit : Bool) : State :=
  let u := ((s.readBegun c r).modChan c fun ch => ch.dramPut r.ll st).openFor c r.ll r.plot (r.src = .raw)
  let u := ((u.countRead c r 1).charge c r.plot).chanCmd c 1 r.ll r.plot false hit
  if hit then u.countRead c r 3 else u

section
variable (s : State) (c : ChanId) (r : RqEnt)

theorem countRead_logs (code : Nat) : Logs [.csr, .glb, .blv] [R.blvEvt] s (s.countRead c r code) := .ite (fun _ => .refl) fun _ => cntChan_logs s c code r.plot 1
theorem readBegun_logs : Logs [.csr, .glb, .blv] [R.blvEvt] (s.modChan c (Chan.readTaken r s.now (s.bestEffort r))) (s.readBegun c r) :=
  .ite (fun _ => cntChan_logs _ c 0x0D none 1) fun _ => .refl
theorem readBegun_step : ChanStep c s (s.readBegun c r) := (modChan_within c s _).step.trans (readBegun_logs s c r).tame.chanStep
theorem readBegun_chan : (s.readBegun c r).chan c = (s.chan c).readTaken r s.now (s.bestEffort r) :=
  ((readBegun_logs s c r).only.chan_eq c).trans (State.modChan_chan_same s c _)
/-- A charge reaches the budgets of its channel (R402). -/
theorem charge_chan (plot : Option PlotId) : ∃ budget, (s.charge c plot).chan c = { s.chan c with budget := budget } := by
  cases plot with
  | none => exact ⟨_, rfl⟩
  | some k => exact ⟨_, State.modChan_chan_same s c _⟩

theorem readSent_step (st : Stored) (hit : Bool) : ChanStep c s (s.readSent c r st hit) := by
  have opened := (readBegun_step s c r).trans ((modChan_within c _ fun ch => ch.dramPut r.ll st).step.trans (openFor_step c _ r.ll r.plot (r.src = .raw)))
  have charged (v : State) : ChanStep c v ((v.countRead c r 1).charge c r.plot) := (countRead_logs v c r 1).tame.chanStep.trans (charge_within c _ r.plot).step
  have sent := opened.trans ((charged _).trans (chanCmd_step c _ 1 r.ll r.plot false hit))
  exact .ite (fun _ => sent.trans (countRead_logs _ c r 3).tame.chanStep) fun _ => sent
theorem readSent_chan (st : Stored) (hit : Bool) :
    ∃ rows budget, (s.readSent c r st hit).chan c = { ((s.chan c).readTaken r s.now (s.bestEffort r)).dramPut r.ll st with rows := rows, budget := budget } := by
  have counted (u : State) (code : Nat) : (u.countRead c r code).chan c = u.chan c := (countRead_logs u c r code).only.chan_eq c
  let v := (s.readBegun c r).modChan c fun ch => ch.dramPut r.ll st
  obtain ⟨rows, opened⟩ := openFor_chan c v r.ll r.plot (r.src = .raw)
  let w := (v.openFor c r.ll r.plot (r.src = .raw)).countRead c r 1
  obtain ⟨budget, charged⟩ := charge_chan w c r.plot
  let x := (w.charge c r.plot).chanCmd c 1 r.ll r.plot false hit
  have xChan : x.chan c = _ := (chanCmd_chan c _ 1 r.ll r.plot false hit c).trans charged
  have run : s.readSent c r st hit = if hit then x.countRead c r 3 else x := rfl
  refine ⟨rows, budget, ?_⟩
  have last : (s.readSent c r st hit).chan c = x.chan c := by rw [run]; split <;> simp only [counted]
  rw [last, xChan, counted, opened, State.modChan_chan_same, readBegun_chan]
end

/-! ### Answers -/

section
variable (s : State) (c : ChanId) (r : RqEnt)

theorem surveyLine_tame (m : MemUnit) (cls : Cls) (addr : Nat) : Tame [.csr] s (s.surveyLine m cls addr) := by
  have two (u : State) (a b : Nat) (x y : W32) : Tame [.csr] u ((u.rset a x).rset b y) := (rset_tame u a x).trans (rset_tame _ b y)
  unfold State.surveyLine
  split
  exact .ite (fun _ => ((two s _ _ _ _).trans (.ite (fun _ => rcount_tame _ _ _ _ _) fun _ => rcount_tame _ _ _ _ _)).trans
    ((Tame.ite (fun _ => .refl) fun _ => two _ _ _ _ _).trans (two _ _ _ _ _))) fun _ => two s _ _ _ _

/-- A survey's good line advances LINES alone (R360). -/
theorem surveyLine_good (addr o : Nat) (ok : s.regsOk) (lo : o ≠ R.chanSurveyLinesLo c) (hi : o ≠ R.chanSurveyLinesLo c + 4) :
    (s.surveyLine (.chan c) .good addr).rget o = s.rget o :=
  (State.rget_rset_other _ (State.rset_wf _ _ ok) hi).trans (State.rget_rset_other _ ok lo)

theorem foldl_rset_tame (off : Nat → Nat) (v : Nat → W32) (xs : List Nat) : Tame [.csr] s (xs.foldl (fun s i => s.rset (off i) (v i)) s) :=
  .foldl _ (fun s _ => rset_tame s _ _) xs
theorem foldl_rset_rget {off : Nat → Nat} {o : Nat} (apart : ∀ i, o ≠ off i) (v : Nat → W32) (xs : List Nat) (ok : s.regsOk) :
    (xs.foldl (fun s i => s.rset (off i) (v i)) s).rget o = s.rget o := by
  induction xs generalizing s with
  | nil => rfl
  | cons i _ ih => exact (ih (s.rset (off i) (v i)) (State.rset_wf _ _ ok)).trans (State.rget_rset_other _ ok (apart i))

/-- A raw read writes RAW_DATA and RAW_CHECK, which lie above every block's registers (R356, R524). -/
theorem rawSet_tame (data : Line) (check : BitVec 128) : Tame [.csr] s (s.rawSet data check) := by
  unfold State.rawSet; exact (foldl_rset_tame s R.rawRawData _ _).trans (foldl_rset_tame _ R.rawRawCheck _ _)
theorem rawSet_rget (data : Line) (check : BitVec 128) {o : Nat} (below : o < 0x1000000) (ok : s.regsOk) : (s.rawSet data check).rget o = s.rget o := by
  unfold State.rawSet
  dsimp only
  rw [foldl_rset_rget _ (fun i => by unfold R.rawRawCheck; omega) _ _ ((foldl_rset_tame s R.rawRawData _ _).regs ok),
    foldl_rset_rget _ (fun i => by unfold R.rawRawData; omega) _ _ ok]
theorem rawRead_tame (st : Stored) (d : Dec) : Tame [.csr, .glb] s (s.rawRead st d) := by
  unfold State.rawRead
  exact ((rawSet_tame s _ _).mono (by simp)).trans ((modGlb_tame _ _).mono (by simp))
theorem rawRead_rget (st : Stored) (d : Dec) {o : Nat} (below : o < 0x1000000) (ok : s.regsOk) : (s.rawRead st d).rget o = s.rget o := by
  unfold State.rawRead; dsimp only; rw [State.modGlb_rget, rawSet_rget s _ _ below ok]

/-- An answer to a miss register joins what the channel returns (R211). -/
theorem answer_miss {p : PavId} {k sub : Nat} (asks : r.src = .miss p k sub) (data : Line) (po : Bool) (st : Stored) (d : Dec) :
    s.answer c r data po st d
      = s.modChan c fun ch => { ch with rets := ch.rets ++ [{ src := r.src, pa := r.pa, data := data, poison := po, err := d.cls = .corrected || d.cls = .uncorrectable }] } := by
  unfold State.answer
  rw [asks]

theorem answer_miss_within {p : PavId} {k sub : Nat} (asks : r.src = .miss p k sub) (data : Line) (po : Bool) (st : Stored) (d : Dec) :
    WithinChan c s (s.answer c r data po st d) := by
  rw [answer_miss s c r asks]; exact modChan_within c s _

/-- Of its channel an answer reaches what returns, a survey's count and the repair buffer. -/
theorem answer_chan (data : Line) (po : Bool) (st : Stored) (d : Dec) :
    ∃ rets com pprRun, (s.answer c r data po st d).chan c = { s.chan c with rets := rets, com := com, pprRun := pprRun } := by
  unfold State.answer
  split
  · exact ⟨_, _, _, State.modChan_chan_same s c _⟩
  · exact ⟨_, _, _, rfl⟩
  · exact ⟨_, _, _, rfl⟩
  · exact ⟨_, _, _, State.modChan_chan_same s c _⟩
  · rw [State.modChan_chan_same, (surveyLine_tame s _ _ _).only.chan_eq]
    exact ⟨_, _, _, rfl⟩
  · rw [(rawRead_tame s st d).only.chan_eq]
    exact ⟨_, _, _, rfl⟩

/-- An answer that decodes good leaves the channel's error counts. -/
theorem answer_errCnt (data : Line) (po : Bool) (st : Stored) {d : Dec} (good : d.cls = .good) (ok : s.regsOk) :
    (s.answer c r data po st d).rget (R.chanErrCnt c) = s.rget (R.chanErrCnt c) := by
  unfold State.answer
  split
  · rfl
  · rfl
  · rfl
  · rfl
  · rw [good, State.modChan_rget]
    exact surveyLine_good s c (r.pa.toNat * 64) _ ok (by unfold R.chanErrCnt R.chanSurveyLinesLo; omega) (by unfold R.chanErrCnt R.chanSurveyLinesLo; omega)
  · exact rawRead_rget s st d (by have := c.isLt; unfold R.chanErrCnt; omega) ok
end

/-! ### The channel's next read -/

section
variable {s : State} {c : ChanId} {r : RqEnt}

section
variable {ready : List Nat} (serves : (s.chan c).com.st = .inService)
  (turn : ((s.chan c).before s.now).drain = false
    ∨ (((s.chan c).before s.now).readyWrites (s.usable c ready) = [] ∧ ((s.chan c).before s.now).anyFill (s.usable c ready) = false))
  (next : s.selectReadFloor c (((s.chan c).before s.now).readyReads (s.usable c ready)) = some r)
include serves turn next

theorem dramRead_issues (u : Upset) : s.dramRead c ready u = s.issueRead c r u := by
  have answers : ((s.chan c).before s.now).serves = true := by
    have : ((s.chan c).before s.now).com.st = .inService := serves
    simp [Chan.serves, this]
  have reads : ¬ (((s.chan c).before s.now).drain
      && (!(((s.chan c).before s.now).readyWrites (s.usable c ready)).isEmpty || ((s.chan c).before s.now).anyFill (s.usable c ready))) = true := by
    rcases turn with h | ⟨h, k⟩
    · simp [h]
    · simp [h, k]
  unfold State.dramRead
  dsimp only
  rw [if_neg (by simp [answers]), if_neg reads, next]
end

/-- A read of a line that is not written memory is answered with zeros, with no command (R318). -/
theorem issueRead_zeros (serves : (s.chan c).com.st = .inService) (kept : (s.chan c).lost = none) (unwritten : (s.chan c).written r.ll = false)
    (none_ : ((s.chan c).before s.now).queued r.ll = none) (u : Upset) :
    s.issueRead c r u = ((s.readBegun c r).countRead c r 6).answer c r 0 false {} { cls := .good, data := 0 } := by
  have serves' : ¬ ((s.chan c).before s.now).com.st = .failed := by
    have : ((s.chan c).before s.now).com.st = .inService := serves
    simp [this]
  have kept' : ((s.chan c).before s.now).lost = none := kept
  have unwritten' : ((s.chan c).before s.now).written r.ll = false := unwritten
  unfold State.issueRead
  dsimp only
  rw [if_neg serves', none_]
  dsimp only
  rw [if_pos (by rw [unwritten']; rfl), kept']
  rfl

/-- A read of written memory whose bits decode good is answered with its line as stored (R296, R347). -/
theorem issueRead_stored (serves : (s.chan c).com.st = .inService) (written : (s.chan c).written r.ll = true)
    (none_ : ((s.chan c).before s.now).queued r.ll = none) (passive : r.src ≠ .targeted) {st : Stored} (line : (s.chan c).dramGet r.ll = st) {d : Dec}
    (decoded : memDecode (s.chan c).memGen st = d) (good : d.cls = .good) :
    s.issueRead c r {} = (s.readSent c r st (((s.chan c).before s.now).openRow r.ll)).answer c r d.data false st d := by
  have serves' : ¬ ((s.chan c).before s.now).com.st = .failed := by
    have : ((s.chan c).before s.now).com.st = .inService := serves
    simp [this]
  have written' : ((s.chan c).before s.now).written r.ll = true := written
  have same : ({ data := st.data ^^^ 0, check := st.check ^^^ 0 } : Stored) = st := by simp
  have gen : ((s.chan c).before s.now).memGen = (s.chan c).memGen := rfl
  have get : ((s.chan c).before s.now).dramGet = (s.chan c).dramGet := rfl
  have memory (v : State) (d : Dec) (h : d.cls = .good) : v.memClass c r d = v := by
    unfold State.memClass; dsimp only; rw [h]; dsimp only; rw [if_neg passive, ite_self]
  unfold State.issueRead
  dsimp only
  rw [if_neg serves', none_]
  dsimp only
  rw [if_neg (by rw [written']; simp), get, gen, line, same, decoded, memory _ _ good, good]
  rfl
end
end Sys2Proof.Machine

namespace Sys2Proof.Machine

/-! ## The commands of reads and fills -/

section
variable {s : State} {c : ChanId} {r : RqEnt} {ready : List Nat}

theorem exec_dramReadIssue (alive : s.alive = true) (u : Upset) : exec (.dramReadIssue c ready u) s = .next (s.dramRead c ready u) :=
  live_alive (fun s => s.dramRead c ready u) alive

section
variable (serves : (s.chan c).com.st = .inService)
  (turn : ((s.chan c).before s.now).drain = false
    ∨ (((s.chan c).before s.now).readyWrites (s.usable c ready) = [] ∧ ((s.chan c).before s.now).anyFill (s.usable c ready) = false))
  (next : s.selectReadFloor c (((s.chan c).before s.now).readyReads (s.usable c ready)) = some r)
  (alive : s.alive = true) (none_ : ((s.chan c).before s.now).queued r.ll = none)
include serves turn next alive none_

theorem dramReadIssue_zeros (ok : s.regsOk) (kept : (s.chan c).lost = none) (unwritten : (s.chan c).written r.ll = false) (u : Upset) :
    Completes (.dramReadIssue c ready u) s fun t =>
      (t.chan c).rq = (s.chan c).rq.erase r ∧ (t.chan c).rows = (s.chan c).rows ∧ (t.chan c).dram = (s.chan c).dram
        ∧ (t.chan c).budget = (s.chan c).budget ∧ t.rget (R.chanErrCnt c) = s.rget (R.chanErrCnt c)
        ∧ (∀ p r' sub, r.src = .miss p r' sub → (t.chan c).rets = (s.chan c).rets ++ [{ src := r.src, pa := r.pa, data := 0, poison := false }]) := by
  refine .of_eq (exec_dramReadIssue alive u) ((dramRead_issues serves turn next u).trans (issueRead_zeros serves kept unwritten none_ u)) ?_
  let v := (s.readBegun c r).countRead c r 6
  have counted := (readBegun_logs s c r).trans (countRead_logs _ c r 6)
  have vChan : v.chan c = (s.chan c).readTaken r s.now (s.bestEffort r) := (counted.only.chan_eq c).trans (State.modChan_chan_same s c _)
  have vErr : v.rget (R.chanErrCnt c) = s.rget (R.chanErrCnt c) := counted.rget ok (by unfold R.chanErrCnt R.blvEvt; simp; omega)
  obtain ⟨rets, com, pprRun, left⟩ := answer_chan v c r 0 false {} { cls := .good, data := 0 }
  refine ⟨?_, ?_, ?_, ?_, (answer_errCnt v c r 0 false {} rfl (counted.regsOk ok)).trans vErr, fun p k sub asks => ?_⟩
  · rw [left, vChan]; rfl
  · rw [left, vChan]; rfl
  · rw [left, vChan]; rfl
  · rw [left, vChan]; rfl
  · rw [answer_miss v c r asks, State.modChan_chan_same, vChan]; rfl

theorem dramReadIssue_stored {p : PavId} {k sub : Nat} (canon : (s.chan c).canon) (asks : r.src = .miss p k sub) (written : (s.chan c).written r.ll = true)
    {st : Stored} (line : (s.chan c).dramGet r.ll = st) {d : Dec} (decoded : memDecode (s.chan c).memGen st = d) (good : d.cls = .good) :
    Completes (.dramReadIssue c ready {}) s fun t =>
      (t.chan c).rets = (s.chan c).rets ++ [{ src := r.src, pa := r.pa, data := d.data, poison := false }]
        ∧ (∀ l, (t.chan c).dramGet l = (s.chan c).dramGet l) ∧ (t.chan c).rq = (s.chan c).rq.erase r ∧ (t.chan c).wq = (s.chan c).wq
        ∧ OnlyChan c s t ∧ OnlyParts [.chans, .csr, .glb, .blv] s t := by
  refine .of_eq (exec_dramReadIssue alive {})
    ((dramRead_issues serves turn next {}).trans (issueRead_stored serves written none_ (by rw [asks]; simp) line decoded good)) ?_
  obtain ⟨rows, budget, sent⟩ := readSent_chan s c r st (((s.chan c).before s.now).openRow r.ll)
  have step := (readSent_step s c r st (((s.chan c).before s.now).openRow r.ll)).trans (answer_miss_within _ c r asks d.data false st d).step
  refine ⟨?_, fun l => ?_, ?_, ?_, step.only, step.tame.only⟩
  all_goals rw [answer_miss _ c r asks, State.modChan_chan_same, sent]
  · rw [good]; rfl
  · by_cases same : l = r.ll
    · subst same; exact (dramGet_dramPut_same _ _ canon).trans line.symm
    · exact dramGet_dramPut_other _ canon same
  · rfl
  · rfl
end
end

/-- Settles O27. -/
theorem uninitializedReadsAreZero : Obligations.UninitializedReadsAreZero :=
  fun _ _ u _ _ alive ok serves turn next kept unwritten none_ => dramReadIssue_zeros serves turn next alive none_ ok kept unwritten u

/-! ## Fills that write (R320, R321) -/

theorem mem_insertNat (x : Nat) (xs : List Nat) : x ∈ insertNat x xs := by
  induction xs with
  | nil => simp [insertNat]
  | cons y ys ih =>
    unfold insertNat
    split
    · simp
    · split
      · next e => simp [e]
      · simp [ih]

/-- The channel once a fill has written its next line, as the queued write `q` of it or as zeros, but for its rows and its drain
mode (R320, R321). -/
def Chan.filled (slot : Nat) (f : FillSlot) (q : Option WqEnt) (now : Nat) (ch : Chan) : Chan :=
  let ch := { (ch.dramPut f.line (q.elim {} (·.st))) with wq := q.elim ch.wq (ch.wq.erase ·), wqPop := if q.isSome then ch.wqPop.add now else ch.wqPop }
  if f.issued + 1 = 32768 then { ch with fills := ch.fills.set slot none, init := insertNat f.region ch.init }
  else { ch with fills := ch.fills.set slot (some { f with issued := f.issued + 1 }) }

section
variable (slot : Nat) (f : FillSlot) (q : Option WqEnt) (now : Nat) (ch : Chan)

theorem filled_wq : (ch.filled slot f q now).wq = q.elim ch.wq (ch.wq.erase ·) := by
  unfold Chan.filled; dsimp only; split <;> rfl
theorem filled_dram : (ch.filled slot f q now).dramGet = (ch.dramPut f.line (q.elim {} (·.st))).dramGet := by
  unfold Chan.filled; dsimp only; split <;> rfl
theorem filled_slots :
    if f.issued + 1 = 32768 then f.region ∈ (ch.filled slot f q now).init ∧ (ch.filled slot f q now).fills = ch.fills.set slot none
    else (ch.filled slot f q now).fills = ch.fills.set slot (some { f with issued := f.issued + 1 }) := by
  unfold Chan.filled
  split
  · exact ⟨mem_insertNat _ _, rfl⟩
  · rfl
end

section
variable {s : State} {c : ChanId}

/-- The queued write that a fill's next line takes along (R47, R321). -/
def Chan.waiting (ch : Chan) (now : Nat) (f : FillSlot) : Option WqEnt := (ch.before now).wq.find? fun w => w.ll = f.line

/-- A fill's command as it leaves the channel: its line is in DRAM and its row open. -/
def State.fillSent (s : State) (c : ChanId) (slot : Nat) (f : FillSlot) : State :=
  (((s.modChan c (Chan.filled slot f ((s.chan c).waiting s.now f) s.now)).openFor c f.line none false).chanCmd c 2 f.line none false
    ((s.chan c).openRow f.line)).cntChan c 0x0C

theorem issueFill_eq (slot : Nat) (f : FillSlot) : s.issueFill c slot f = (s.fillSent c slot f).updDrain c := rfl

theorem issueFill_chan (slot : Nat) (f : FillSlot) :
    ∃ rows drain, (s.issueFill c slot f).chan c
      = { (s.chan c).filled slot f ((s.chan c).waiting s.now f) s.now with rows := rows, drain := drain } := by
  obtain ⟨rows, opened⟩ := openFor_chan c (s.modChan c (Chan.filled slot f ((s.chan c).waiting s.now f) s.now)) f.line none false
  have sent : (s.fillSent c slot f).chan c = _ := (cntChan_chan c _ 0x0C none 1 c).trans ((chanCmd_chan c _ 2 f.line none false _ c).trans opened)
  obtain ⟨drain, drained⟩ := updDrain_chan c (s.fillSent c slot f)
  refine ⟨rows, drain, ?_⟩
  rw [issueFill_eq, drained, sent, State.modChan_chan_same]
theorem issueFill_step (slot : Nat) (f : FillSlot) : ChanStep c s (s.issueFill c slot f) := by
  have sent := (modChan_within c s (Chan.filled slot f ((s.chan c).waiting s.now f) s.now)).step.trans ((openFor_step c _ f.line none false).trans
    ((chanCmd_step c _ 2 f.line none false ((s.chan c).openRow f.line)).trans (cntChan_step c _ 0x0C none 1)))
  exact sent.trans (updDrain_within c _).step

theorem fillWrite_issues {x : FillIssue} {f : FillSlot} (serves : (s.chan c).com.st = .inService)
    (fill : ((s.chan c).before s.now).fills.getD x.slot.val none = some f) (may : ((s.chan c).before s.now).fillMay f (s.usable c x.ready) = true) :
    s.fillWrite c x = s.issueFill c x.slot.val f := by
  have serves' : ((s.chan c).before s.now).com.st = .inService := serves
  unfold State.fillWrite
  dsimp only
  rw [fill]
  exact if_pos (by simp [serves', may])

theorem lazyZeroFillWrite_completes {x : FillIssue} {f : FillSlot} (alive : s.alive = true) (canon : (s.chan c).canon)
    (serves : (s.chan c).com.st = .inService) (fill : ((s.chan c).before s.now).fills.getD x.slot.val none = some f)
    (may : ((s.chan c).before s.now).fillMay f (s.usable c x.ready) = true) :
    Completes (.lazyZeroFillWrite c x) s fun t =>
      (∀ w, (((s.chan c).before s.now).wq.find? fun w => w.ll = f.line) = some w → (t.chan c).dramGet f.line = w.st ∧ (t.chan c).wq = (s.chan c).wq.erase w)
        ∧ ((((s.chan c).before s.now).wq.find? fun w => w.ll = f.line) = none → (t.chan c).dramGet f.line = {} ∧ (t.chan c).wq = (s.chan c).wq)
        ∧ (∀ k, k ≠ f.line → (t.chan c).dramGet k = (s.chan c).dramGet k)
        ∧ (if f.issued + 1 = 32768 then f.region ∈ (t.chan c).init ∧ (t.chan c).fills = (s.chan c).fills.set x.slot.val none
          else (t.chan c).fills = (s.chan c).fills.set x.slot.val (some { f with issued := f.issued + 1 }))
        ∧ OnlyChan c s t ∧ OnlyParts [.chans, .csr, .glb, .blv] s t := by
  have run : exec (.lazyZeroFillWrite c x) s = .next (s.fillWrite c x) := live_alive (fun s => s.fillWrite c x) alive
  refine .of_eq run (fillWrite_issues serves fill may) ?_
  have step := issueFill_step (s := s) (c := c) x.slot.val f
  obtain ⟨rows, drain, left⟩ := issueFill_chan (s := s) (c := c) x.slot.val f
  have line (q : Option WqEnt) (taken : (s.chan c).waiting s.now f = q) :
      ((s.issueFill c x.slot.val f).chan c).dramGet f.line = q.elim {} (·.st) ∧ ((s.issueFill c x.slot.val f).chan c).wq = q.elim (s.chan c).wq ((s.chan c).wq.erase ·) := by
    rw [left, taken]
    exact ⟨(congrFun (filled_dram x.slot.val f q s.now _) f.line).trans (dramGet_dramPut_same _ _ canon), filled_wq x.slot.val f q s.now _⟩
  refine ⟨fun w taken => line (some w) taken, fun none_ => line none none_, fun k hk => ?_, ?_, step.only, step.tame.only⟩
  · rw [left]; exact (congrFun (filled_dram x.slot.val f _ s.now _) k).trans (dramGet_dramPut_other _ canon hk)
  · rw [left]; exact filled_slots x.slot.val f _ s.now _

theorem bgStart_next {reg : Nat} (serves : (s.chan c).com.st = .inService) (room : 2 ≤ (s.chan c).freeSlots) (on : s.glb.hold = false)
    (alone : ∀ g, some g ∈ (s.chan c).fills → g.background = false) (next : (s.chan c).bgNext ((s.chan c).init.length + 5) (s.chan c).bgPos = some reg) :
    s.bgStart c = s.modChan c fun ch => { ch with fills := startFill { region := reg, start := 0, issued := 0, background := true } ch.fills, bgPos := reg + 1 } := by
  have idle : ((s.chan c).fills.any fun f => f.elim false (·.background)) = false := by
    rw [List.any_eq_false]
    intro x hx
    cases x with
    | none => simp
    | some g => simp [alone g hx]
  have goes : ¬ ((s.chan c).com.st ≠ .inService || (s.chan c).freeSlots < 2 || s.glb.hold || ((s.chan c).fills.any fun f => f.elim false (·.background))) = true := by
    rw [idle]; simp [serves, on]; omega
  unfold State.bgStart
  dsimp only
  rw [if_neg goes, next]

theorem backgroundPassStart_completes {reg : Nat} (alive : s.alive = true) (serves : (s.chan c).com.st = .inService) (room : 2 ≤ (s.chan c).freeSlots)
    (on : s.glb.hold = false) (alone : ∀ g, some g ∈ (s.chan c).fills → g.background = false)
    (next : (s.chan c).bgNext ((s.chan c).init.length + 5) (s.chan c).bgPos = some reg) :
    Completes (.backgroundPassStart c) s fun t =>
      (t.chan c).fills = startFill { region := reg, start := 0, issued := 0, background := true } (s.chan c).fills
        ∧ (t.chan c).bgPos = reg + 1 ∧ (t.chan c).dram = (s.chan c).dram ∧ OnlyChan c s t ∧ OnlyParts [.chans] s t := by
  have run : exec (.backgroundPassStart c) s = .next (s.bgStart c) := live_alive (fun s => s.bgStart c) alive
  refine .of_eq run (bgStart_next serves room on alone next) ?_
  rw [State.modChan_chan_same]
  exact ⟨rfl, rfl, rfl, modChan_onlyChan s c _, (modChan_tame s c _).only⟩
end

/-- Settles O28: a read's and a fill's command put one line in DRAM, the read its own bits again. -/
theorem writtenReadsAndZeroFills : Obligations.WrittenReadsAndZeroFills :=
  ⟨fun c _ _ _ _ _ _ alive canon serves turn next asks written none_ good =>
      dramReadIssue_stored serves turn next alive none_ (canon.chan c) asks written rfl rfl good,
    fun c _ _ _ alive canon serves fill may _ line => line ▸ lazyZeroFillWrite_completes alive (canon.chan c) serves fill may,
    fun _ _ _ alive serves room on alone next => backgroundPassStart_completes alive serves room on alone next⟩

end Sys2Proof.Machine

namespace Sys2Proof.Machine

/-! ## Refresh (R300, R302) -/

/-- The shared part of a unit in the window of a refresh: the doubling asked for applies, and an aborted walk starts again (R302, R313). -/
def MemCom.window (now : Nat) (x : MemCom) : MemCom :=
  { x with ref2x := x.ref2xNext, walk := x.walk || x.restart, walkStart := if x.restart then now else x.walkStart, restart := false }
/-- A unit that has refreshed a rank, which owes its next refresh an interval later (R300). -/
def State.refreshed (s : State) (m : MemUnit) (rank due : Nat) : State :=
  let u := s.modCom m (MemCom.window s.now)
  u.modCom m fun x => { x with lastRefresh := some u.now, postponed := FMap.insert x.postponed rank (due + u.refreshCc m) }

theorem modStk_onlyStk (s : State) (k : StackId) (f : Stk → Stk) : OnlyStk k s (s.modStk k f) := fun _ hj => State.modStk_stk_other s f hj
theorem OnlyStk.trans {s : State} {k : StackId} {t u : State} (h : OnlyStk k s t) (j : OnlyStk k t u) : OnlyStk k s u := fun i hi => (j i hi).trans (h i hi)
theorem OnlyStk.of_only {s : State} {k : StackId} {t : State} {ps : List Part} (h : OnlyParts ps s t) (hp : Part.stks ∉ ps := by decide) : OnlyStk k s t :=
  fun j _ => h.stk_eq j hp
/-- Nothing but this stack has changed. -/
structure WithinStk (k : StackId) (s t : State) : Prop where
  tame : Tame [.stks] s t
  only : OnlyStk k s t
theorem WithinStk.trans {s t u : State} {k : StackId} (h : WithinStk k s t) (j : WithinStk k t u) : WithinStk k s u := ⟨h.tame.trans j.tame, h.only.trans j.only⟩
theorem modStk_within (s : State) (k : StackId) (f : Stk → Stk) : WithinStk k s (s.modStk k f) := ⟨modStk_tame s k f, modStk_onlyStk s k f⟩

/-- What a pavilion operation leaves of its pavilion it leaves of every pavilion. -/
theorem modPav_field {α : Type} (s : State) (g : Pav → α) (p : PavId) (f : Pav → Pav) (same : ∀ v, g (f v) = g v) (q : PavId) :
    g ((s.modPav p f).pav q) = g (s.pav q) := by
  by_cases h : q = p
  · subst h; rw [State.modPav_pav_same, same]
  · rw [State.modPav_pav_other s f h]

section
variable {s : State} {rank due : Nat}

theorem refreshed_within (c : ChanId) : WithinChan c s (s.refreshed (.chan c) rank due) := by
  unfold State.refreshed State.modCom; exact (modChan_within c s _).trans (modChan_within c _ _)
theorem refreshed_withinStk (k : StackId) : WithinStk k s (s.refreshed (.stack k) rank due) := by
  unfold State.refreshed State.modCom; exact (modStk_within s k _).trans (modStk_within _ k _)

/-- The next refresh of the rank is owed an interval after this one was due, as the doubling asked for has it (R300, R302). -/
theorem refreshed_com (s : State) (m : MemUnit) (rank due : Nat) :
    (s.refreshed m rank due).com m = { (s.com m).window s.now with
      lastRefresh := some s.now, postponed := FMap.insert (s.com m).postponed rank (due + (s.modCom m (MemCom.window s.now)).refreshCc m) } := by
  have now : (s.modCom m (MemCom.window s.now)).now = s.now := (modCom_tame s m _).only.now_eq
  unfold State.refreshed
  dsimp only
  rw [modCom_com, modCom_com, now]
  rfl
/-- Of its channel a refresh reaches the shared part alone. -/
theorem refreshed_chan (s : State) (c : ChanId) (rank due : Nat) :
    (s.refreshed (.chan c) rank due).chan c = { s.chan c with com := (s.refreshed (.chan c) rank due).com (.chan c) } := by
  simp only [State.refreshed, State.modCom, State.com, State.modChan_chan_same]

/-- A due refresh of a channel's rank also closes its rows; what else it does is reported (R300, log entry 92). -/
theorem refresh_chan {c : ChanId} (serves : (s.chan c).com.st = .inService) (owed : due = (FMap.find? (s.chan c).com.postponed rank).getD s.now)
    (late : due ≤ s.now) :
    Tame [.csr, .glb, .blv] ((s.refreshed (.chan c) rank due).modChan c fun ch => { ch with rows := closeRows (.chan c) rank ch.rows })
      (s.refresh (.chan c) rank) := by
  have goes : ¬ ((s.com (.chan c)).st ≠ .inService || s.now < (FMap.find? (s.com (.chan c)).postponed rank).getD s.now) = true := by
    simp only [State.com, serves, ← owed]; simpa using late
  unfold State.refresh
  dsimp only
  rw [if_neg goes]
  subst owed
  have reports (u : State) (o : TrcOcc) : Tame [.csr, .glb, .blv] u ((u.cntChan c 0x0B).occur o) :=
    (cntChan_tame u c 0x0B none 1).trans ((occur_tame _ o).mono (by simp))
  exact .ite (fun _ => (reports _ _).trans ((raise_tame _ _ 9).mono (by simp))) fun _ => reports _ _
/-- A due refresh of a stack's pseudo-channel closes its rows in the half that holds it (R300). -/
theorem refresh_stack {k : StackId} (serves : (s.stk k).com.st = .inService) (owed : due = (FMap.find? (s.stk k).com.postponed rank).getD s.now)
    (late : due ≤ s.now) :
    Tame [.csr, .glb, .blv]
      ((s.refreshed (.stack k) rank due).modPav (pavOf (2 * k.val + rank / 16)) fun v => { v with stkRows := closeRows (.stack k) rank v.stkRows })
      (s.refresh (.stack k) rank) := by
  have goes : ¬ ((s.com (.stack k)).st ≠ .inService || s.now < (FMap.find? (s.com (.stack k)).postponed rank).getD s.now) = true := by
    simp only [State.com, serves, ← owed]; simpa using late
  unfold State.refresh
  dsimp only
  rw [if_neg goes]
  subst owed
  exact .ite (fun _ => (cntStk_tame _ k 6 none 1).trans ((raise_tame _ _ 9).mono (by simp))) fun _ => cntStk_tame _ k 6 none 1

theorem refresh_chan_completes {c : ChanId} (alive : s.alive = true) (serves : (s.chan c).com.st = .inService)
    (owed : due = (FMap.find? (s.chan c).com.postponed rank).getD s.now) (late : due ≤ s.now) {iv : Nat}
    (interval : iv = (if (s.chan c).memGen = .d4 then 23400 else 11700) / (if (s.chan c).com.ref2xNext then 2 else 1)) :
    Completes (.refresh (.chan c) rank) s fun t =>
      (t.chan c).com.ref2x = (s.chan c).com.ref2xNext ∧ (t.chan c).com.lastRefresh = some s.now
        ∧ FMap.find? (t.chan c).com.postponed rank = some (due + iv)
        ∧ (t.chan c).rows = closeRows (.chan c) rank (s.chan c).rows ∧ (t.chan c).dram = (s.chan c).dram
        ∧ (t.chan c).rq = (s.chan c).rq ∧ (t.chan c).wq = (s.chan c).wq ∧ OnlyChan c s t ∧ OnlyParts [.chans, .csr, .glb, .blv] s t := by
  have run : exec (.refresh (.chan c) rank) s = .next (s.refresh (.chan c) rank) := live_alive (fun s => s.refresh (.chan c) rank) alive
  have reports := refresh_chan serves owed late
  have within : WithinChan c s ((s.refreshed (.chan c) rank due).modChan c fun ch => { ch with rows := closeRows (.chan c) rank ch.rows }) :=
    (refreshed_within c).trans (modChan_within c _ _)
  have every : (s.modCom (.chan c) (MemCom.window s.now)).refreshCc (.chan c) = iv := by
    simp only [State.refreshCc, State.com, State.modCom, State.modChan_chan_same, MemCom.window, interval]
    cases (s.chan c).com.ref2xNext
    · exact (Nat.div_one _).symm
    · rfl
  refine .of_eq run rfl ?_
  rw [reports.only.chan_eq c, State.modChan_chan_same, refreshed_chan, refreshed_com, every]
  exact ⟨rfl, rfl, FMap.find_insert_same _ _ _, rfl, rfl, rfl, rfl, within.only.trans (.of_only reports.only),
    (within.tame.mono (by simp)).trans (reports.mono (by simp)) |>.only⟩

theorem refresh_stack_completes {k : StackId} (alive : s.alive = true) (serves : (s.stk k).com.st = .inService)
    (owed : due = (FMap.find? (s.stk k).com.postponed rank).getD s.now) (late : due ≤ s.now) {iv : Nat}
    (interval : iv = (if (s.stk k).com.ref2xNext then 5850 else 11700)) :
    Completes (.refresh (.stack k) rank) s fun t =>
      (t.stk k).com.ref2x = (s.stk k).com.ref2xNext ∧ (t.stk k).com.lastRefresh = some s.now
        ∧ FMap.find? (t.stk k).com.postponed rank = some (due + iv)
        ∧ (∀ p, (t.pav p).stack = (s.pav p).stack) ∧ OnlyStk k s t ∧ OnlyParts [.stks, .pavs, .csr, .glb, .blv] s t := by
  have run : exec (.refresh (.stack k) rank) s = .next (s.refresh (.stack k) rank) := live_alive (fun s => s.refresh (.stack k) rank) alive
  have reports := refresh_stack serves owed late
  have every : (s.modCom (.stack k) (MemCom.window s.now)).refreshCc (.stack k) = iv := by
    simp only [State.refreshCc, State.com, State.modCom, State.modStk_stk_same, MemCom.window, interval]
  obtain ⟨tame, alone⟩ := refreshed_withinStk (s := s) (rank := rank) (due := due) k
  have own : OnlyStk k (s.refreshed (.stack k) rank due) (s.refresh (.stack k) rank) := fun j _ => reports.only.stk_eq j
  refine .of_eq run rfl ?_
  have com : ((s.refresh (.stack k) rank).stk k).com = (s.refreshed (.stack k) rank due).com (.stack k) := congrArg Stk.com (reports.only.stk_eq k)
  rw [com, refreshed_com, every]
  refine ⟨rfl, rfl, FMap.find_insert_same _ _ _, fun p => ?_, alone.trans own, ?_⟩
  · rw [reports.only.pav_eq p, modPav_field _ Pav.stack _ _ fun _ => by rfl, tame.only.pav_eq p]
  · exact ((tame.mono (by simp)).trans (((modPav_tame _ _ _).mono (by simp)).trans (reports.mono (by simp)))).only
end

/-! ## Temperature readings (R301 to R303) -/

section
variable {s : State} {m : MemUnit} {src : Nat}

/-- A reading that is due is kept; it asks for doubling where it is warm, and sets ALARM where it failed or rose above 95 °C. -/
theorem tempRead_due (r : Option Int) (on : (s.com m).st ≠ .off) (awake : (s.com m).st ≠ .selfRefresh) (source : src ∈ (s.tempSources m).1)
    (due : ∀ d, FMap.find? (s.com m).tempAt src = some d → d + (s.tempSources m).2 ≤ s.now) :
    ∃ (top : Option Int) (next alarm : Bool), (warm r = true → next = true) ∧ (r = none → alarm = true) ∧ (∀ v, r = some v → v ≤ 95 → alarm = false)
      ∧ (∀ v w, r = some v → FMap.find? (s.com m).temps src = some (some w) → alarm = (decide (95 < v) && decide (w ≤ 95)))
      ∧ s.tempRead m src r =
        (let u := s.modCom m fun x => { x with temps := FMap.insert (s.com m).temps src r, temp := top.getD x.temp, ref2xNext := next, tempAt := FMap.insert x.tempAt src s.now }
        if alarm then u.raise (evtOf m) 8 else u) := by
  have early : ((FMap.find? (s.com m).tempAt src).elim false fun t => decide (s.now < t + (s.tempSources m).2)) = false := by
    cases h : FMap.find? (s.com m).tempAt src with
    | none => rfl
    | some d => simpa using due d h
  have goes : ¬ ((s.com m).st = .selfRefresh || (s.com m).st = .off || !(s.tempSources m).1.contains src
      || (FMap.find? (s.com m).tempAt src).elim false (fun t => decide (s.now < t + (s.tempSources m).2))) = true := by
    rw [early]; simp [on, awake, source]
  unfold State.tempRead
  dsimp only
  rw [if_neg goes]
  refine ⟨_, _, _, ?_, ?_, ?_, ?_, rfl⟩
  · intro hot; rw [if_pos hot]
  · rintro rfl; rfl
  · rintro v rfl low; simp [Int.not_lt.mpr low]
  · rintro v w rfl before; simp [before]

theorem memoryTempRead_completes (r : Option Int) (alive : s.alive = true) (ok : s.regsOk) (on : (s.com m).st ≠ .off) (awake : (s.com m).st ≠ .selfRefresh)
    (source : src ∈ (s.tempSources m).1) (due : ∀ d, FMap.find? (s.com m).tempAt src = some d → d + (s.tempSources m).2 ≤ s.now) :
    Completes (.memoryTempRead m src r) s fun t =>
      FMap.find? (t.com m).temps src = some r ∧ FMap.find? (t.com m).tempAt src = some s.now ∧ (t.com m).ref2x = (s.com m).ref2x
        ∧ (r = none → (t.com m).ref2xNext = true ∧ Raised (evtOf m) 8 s t)
        ∧ (∀ v, r = some v → 85 < v → (t.com m).ref2xNext = true)
        ∧ (∀ v w, r = some v → FMap.find? (s.com m).temps src = some (some w) → w ≤ 95 → 95 < v → Raised (evtOf m) 8 s t)
        ∧ (∀ v, r = some v → v ≤ 95 → t.csr = s.csr)
        ∧ (∀ v w, r = some v → FMap.find? (s.com m).temps src = some (some w) → 95 < w → t.csr = s.csr)
        ∧ OnlyParts [.chans, .stks, .csr, .glb] s t := by
  have run : exec (.memoryTempRead m src r) s = .next (s.tempRead m src r) := live_alive (fun s => s.tempRead m src r) alive
  obtain ⟨top, next, alarm, hot, failed, low, rose, effect⟩ := tempRead_due r on awake source due
  let u := s.modCom m fun x => { x with temps := FMap.insert (s.com m).temps src r, temp := top.getD x.temp, ref2xNext := next, tempAt := FMap.insert x.tempAt src s.now }
  have tame : Tame [.chans, .stks] s u := modCom_tame s m _
  have com : (if alarm then u.raise (evtOf m) 8 else u).com m = u.com m := by
    split
    · exact raise_com m _ _
    · rfl
  have alarmed (h : alarm = true) : Raised (evtOf m) 8 s (if alarm then u.raise (evtOf m) 8 else u) := by
    rw [if_pos h]
    exact (raise_raised _ _ (tame.regs ok)).after (.of_only tame.only) (List.not_mem_nil) (tame.only.rget_eq _)
  have calm (h : alarm = false) : (if alarm then u.raise (evtOf m) 8 else u).csr = s.csr := by
    rw [if_neg (by simp [h])]; exact (tame.only .csr (by decide)).1
  refine .of_eq run effect ?_
  rw [com, modCom_com]
  refine ⟨FMap.find_insert_same _ _ _, FMap.find_insert_same _ _ _, rfl, fun h => ⟨hot (h ▸ rfl), alarmed (failed h)⟩,
    fun v h above => hot (by subst h; simpa [warm] using above), fun v w h before cool rise => alarmed ?_, fun v h cold => calm (low v h cold),
    fun v w h before above => calm ?_, ?_⟩
  · rw [rose v w h before]; simp [cool, rise]
  · rw [rose v w h before]; simp [above]
  · exact (tame.only.mono (by simp)).trans (Tame.ite (fun _ => (raise_tame u (evtOf m) 8).mono (by simp)) fun _ => .refl).only
end

/-- Settles O29. That a refresh closes its rank's rows, and when the first one is due, are log entries 92 and 98. -/
theorem refreshAndTemperature : Obligations.RefreshAndTemperature :=
  ⟨fun _ _ _ _ alive serves owed late _ interval => refresh_chan_completes alive serves owed late interval,
    fun _ _ _ _ alive serves owed late _ interval => refresh_stack_completes alive serves owed late interval,
    fun _ _ r _ alive ok on awake source due => memoryTempRead_completes r alive ok on awake source due⟩

end Sys2Proof.Machine

namespace Sys2Proof.Machine

/-! ## Records of training (R308, R309) -/

/-- A record made for a code and two DIMMs carries its own CRC (R309). -/
theorem trainRec_good (code : Nat) (id0 id1 : BitVec 288) (settings : BitVec 512) : (trainRec code id0 id1 settings).good = true := by
  simp only [TrainRec.good, trainRec, TrainRec.bytes, decide_true]
theorem mem_keepRec (rs : List TrainRec) (r : TrainRec) (most : Nat) : r ∈ keepRec rs r most :=
  List.mem_append_right _ (List.mem_singleton_self r)

/-! ## The end of training at start-up (R365, R417, R418) -/

section
variable (s : State)

/-- MEM_READY is reported, and the time it took is noted (R417, R435). -/
theorem memReadyCheck_tame : Tame [.csr, .glb] s s.memReadyCheck :=
  .ite (fun _ => .refl) fun _ => ((modGlb_tame s _).mono (by simp)).trans (raise_tame _ _ _)
theorem memReadyCheck_rget {o : Nat} (ok : s.regsOk) (apart : o ≠ R.glbStartEvt) : s.memReadyCheck.rget o = s.rget o := by
  unfold State.memReadyCheck
  split
  · rfl
  · exact raise_rget_other 8 (s := s.modGlb _) ok apart
theorem stackReadyCheck_tame : Tame [.csr, .glb] s s.stackReadyCheck :=
  .ite (fun _ => .refl) fun _ => ((modGlb_tame s _).mono (by simp)).trans (raise_tame _ _ _)
theorem stackReadyCheck_rget {o : Nat} (ok : s.regsOk) (apart : o ≠ R.glbStartEvt) : s.stackReadyCheck.rget o = s.rget o := by
  unfold State.stackReadyCheck
  split
  · rfl
  · exact raise_rget_other 9 (s := s.modGlb _) ok apart

theorem hwClear_tame (off bit : Nat) : Tame [.csr] s (s.hwClear off bit) :=
  ⟨fun p hp => by cases p <;> simp_all [Part.same, State.hwClear, State.rfSet], (rset_tame s off _).regs⟩
/-- A bit that hardware clears reads as 0, and no other register changes (R520). -/
theorem hwClear_bit {off bit : Nat} (ok : s.regsOk) (hi : bit < 32) : ((s.hwClear off bit).rget off).getLsbD bit = false := by
  have word : (s.hwClear off bit).rget off = setBits (s.rget off) bit bit 0 := State.rget_rset_same _ _ ok
  rw [word, getLsbD_setBits _ _ _ _ _ hi (Nat.le_refl _), if_pos ⟨Nat.le_refl _, Nat.le_refl _⟩, Nat.zero_testBit]
theorem hwClear_rget {off bit o : Nat} (ok : s.regsOk) (apart : o ≠ off) : (s.hwClear off bit).rget o = s.rget o := State.rget_rset_other _ ok apart
end

/-- A channel that a training of a kind has trained (R417, R495). -/
def Chan.trainedBy (kind : Nat) (ch : Chan) : Chan := { ch with trained := true, com := { ch.com.untrim with last := kind, training := false } }
/-- A channel after a full training: its contents are gone, and a record is kept for its code and DIMMs (R307 to R309, R317). -/
def Chan.fullyTrained (settings : BitVec 512) (ch : Chan) : Chan :=
  { ch with init := [], fills := [none, none, none, none], dram := [], lost := none, bgPos := 0
            com := { ch.com with recs := keepRec ch.com.recs (trainRec ch.freq (ch.slot0.elim 0 (·.ident)) (ch.slot1.elim 0 (·.ident)) settings) 4 } }

theorem fullyTrained_recOk (settings : BitVec 512) (ch : Chan) : (ch.fullyTrained settings).recOk = true := by
  refine List.any_eq_true.mpr ⟨_, mem_keepRec _ _ _, ?_⟩
  simp only [trainRec_good, Bool.and_true, Bool.and_eq_true, decide_eq_true_eq]
  exact ⟨⟨rfl, rfl⟩, rfl⟩

section
variable {s : State} {c : ChanId}

/-- What ends a channel's training at start-up: its repairs are applied again, and MEM_READY is judged (R365, R417). -/
theorem trained_first (kind : Nat) (first : (s.chan c).com.recal = false) :
    s.trained (.chan c) kind = ((s.modChan c (Chan.trainedBy kind)).reapply c).memReadyCheck := by
  unfold State.trained
  dsimp only
  rw [if_neg (by simp [first])]
  rfl
theorem reapply_within (s : State) (c : ChanId) : WithinChan c s (s.reapply c) := modChan_within c s _
theorem reapply_chan (s : State) (c : ChanId) : ∃ repairs, (s.reapply c).chan c = { s.chan c with repairs := repairs } := ⟨_, State.modChan_chan_same s c _⟩

theorem trained_first_chan (kind : Nat) (first : (s.chan c).com.recal = false) :
    ∃ repairs, (s.trained (.chan c) kind).chan c = { (s.chan c).trainedBy kind with repairs := repairs } := by
  obtain ⟨repairs, kept⟩ := reapply_chan (s.modChan c (Chan.trainedBy kind)) c
  refine ⟨repairs, ?_⟩
  rw [trained_first kind first, (memReadyCheck_tame _).only.chan_eq, kept, State.modChan_chan_same]
theorem trained_first_frame (kind : Nat) (first : (s.chan c).com.recal = false) :
    Tame [.chans, .csr, .glb] s (s.trained (.chan c) kind) ∧ OnlyChan c s (s.trained (.chan c) kind)
      ∧ (s.regsOk → ∀ o, o ≠ R.glbStartEvt → (s.trained (.chan c) kind).rget o = s.rget o) := by
  have within := (modChan_within c s (Chan.trainedBy kind)).trans (reapply_within _ c)
  have ready := memReadyCheck_tame ((s.modChan c (Chan.trainedBy kind)).reapply c)
  rw [trained_first kind first]
  exact ⟨(within.tame.mono (by simp)).trans (ready.mono (by simp)), within.only.trans (.of_only ready.only),
    fun ok o apart => (memReadyCheck_rget _ (within.tame.regs ok) apart).trans (within.tame.only.rget_eq o)⟩

/-! ## Full training and verify of a channel (R307, R308, R310) -/

/-- A start-up training of a channel has begun: the request for a full one is dropped, and the training noted (R308). -/
def State.trainBegun (s : State) (c : ChanId) : State := (s.hwClear (R.chanCfg c) 30).modGlb fun g => { g with fullTrain := true }

theorem trainBegun_tame (s : State) (c : ChanId) : Tame [.csr, .glb] s (s.trainBegun c) :=
  ((hwClear_tame s _ _).mono (by simp)).trans ((modGlb_tame _ _).mono (by simp))

/-- An event that the training of a channel raises is the next one of its register. -/
theorem trainBegun_raised {v : State} (ok : s.regsOk) (bit : Nat) (tame : OnlyParts [.chans, .freeCtr] (s.trainBegun c) v) :
    Raised (R.chanEvt c) bit s (v.raise (R.chanEvt c) bit) := by
  have vOk : v.regsOk := by
    unfold State.regsOk; rw [(tame .csr (by decide)).1]; exact (trainBegun_tame s c).regs ok
  have soft : SoftKept [] s (s.trainBegun c) := fun _ _ => rfl
  have same : v.rget (R.chanEvt c) = s.rget (R.chanEvt c) :=
    (tame.rget_eq _).trans (hwClear_rget s ok (by unfold R.chanEvt R.chanCfg; omega))
  exact (raise_raised _ _ vOk).after (soft.trans (.of_only tame)) List.not_mem_nil same

section
variable (trains : (s.chan c).com.st = .training) (fresh : (s.chan c).trained = false) (first : (s.chan c).com.recal = false)
  (ready : (s.chan c).com.calib = false)
include trains first ready

section
variable (full : s.needsFull (.chan c) = true)
include fresh full

theorem fullTrain_passes :
    s.fullTrain (.chan c) true = ((((s.trainBegun c).drawn.modChan c (Chan.fullyTrained (Config.trainedSettings s.freeCtr))).raise (R.chanEvt c) 13).trained (.chan c) 1) := by
  have first' : ((s.hwClear (R.chanCfg c) 30).chan c).com.recal = false := first
  unfold State.fullTrain
  dsimp only
  rw [if_neg (by simp [State.com, trains, ready, full]), if_neg (by simp [fresh]), first']
  rfl
theorem fullTrain_fails :
    s.fullTrain (.chan c) false
      = (((s.trainBegun c).modChan c fun ch => { ch with com := { ch.com with st := .off, training := false } }).raise (R.chanEvt c) 15).memReadyCheck := by
  have first' : ((s.hwClear (R.chanCfg c) 30).chan c).com.recal = false := first
  have first'' : ((s.trainBegun c).chan c).com.recal = false := first
  unfold State.fullTrain
  dsimp only
  rw [if_neg (by simp [State.com, trains, ready, full]), if_neg (by simp [fresh]), first']
  exact if_neg (Bool.eq_false_iff.mp first'')

theorem fullTraining_passes (alive : s.alive = true) (ok : s.regsOk) (pc : W32) :
    Completes (.fullTraining (.chan c) true pc) s fun t =>
      (t.chan c).trained = true ∧ (t.chan c).com.last = 1 ∧ (t.chan c).init = [] ∧ (t.chan c).dram = [] ∧ (t.chan c).lost = none
        ∧ (t.chan c).com.training = false ∧ (t.chan c).recOk = true ∧ Raised (R.chanEvt c) 13 s t
        ∧ (t.rget (R.chanCfg c)).getLsbD 30 = false ∧ OnlyChan c s t ∧ OnlyParts [.chans, .csr, .glb, .freeCtr] s t := by
  have run : exec (.fullTraining (.chan c) true pc) s = .next (s.fullTrain (.chan c) true) := live_alive (fun s => s.fullTrain (.chan c) true) alive
  refine .of_eq run (fullTrain_passes trains fresh first ready full) ?_
  let settings := Config.trainedSettings s.freeCtr
  let v := (s.trainBegun c).drawn.modChan c (Chan.fullyTrained settings)
  let w := v.raise (R.chanEvt c) 13
  have begun := trainBegun_tame s c
  have drawn : Tame [.chans, .freeCtr] (s.trainBegun c) v := ((drawn_tame _).mono (by simp)).trans ((modChan_tame _ c _).mono (by simp))
  have raised := raise_tame v (R.chanEvt c) 13
  have vChan : v.chan c = (s.chan c).fullyTrained settings := State.modChan_chan_same _ c _
  have wChan : w.chan c = (s.chan c).fullyTrained settings := (raise_chan v _ _ c).trans vChan
  have wOk : w.regsOk := raised.regs (drawn.regs (begun.regs ok))
  have first' : (w.chan c).com.recal = false := by rw [wChan]; exact first
  obtain ⟨repairs, left⟩ := trained_first_chan 1 first'
  obtain ⟨tame, own, regs⟩ := trained_first_frame 1 first'
  have evt : (w.trained (.chan c) 1).rget (R.chanEvt c) = w.rget (R.chanEvt c) := regs wOk _ (by unfold R.chanEvt R.glbStartEvt; omega)
  have cfg : (w.trained (.chan c) 1).rget (R.chanCfg c) = (s.hwClear (R.chanCfg c) 30).rget (R.chanCfg c) :=
    (regs wOk _ (by unfold R.chanCfg R.glbStartEvt; omega)).trans
      ((raise_rget_other 13 (drawn.regs (begun.regs ok)) (by unfold R.chanEvt R.chanCfg; omega)).trans (drawn.only.rget_eq _))
  have undisturbed : OnlyChan c s (s.trainBegun c).drawn := fun k _ => begun.only.chan_eq k
  rw [left, wChan]
  refine ⟨rfl, rfl, rfl, rfl, rfl, rfl, fullyTrained_recOk settings (s.chan c), evt.trans (trainBegun_raised ok 13 drawn.only), ?_,
    ((undisturbed.trans (modChan_onlyChan _ c _)).trans (raise_onlyChan v c _ _)).trans own, ?_⟩
  · rw [cfg]; exact hwClear_bit s ok (by decide)
  · exact ((begun.mono (by simp)).trans ((drawn.mono (by simp)).trans ((raised.mono (by simp)).trans (tame.mono (by simp))))).only

theorem fullTraining_fails (alive : s.alive = true) (ok : s.regsOk) (pc : W32) :
    Completes (.fullTraining (.chan c) false pc) s fun t =>
      (t.chan c).com.st = .off ∧ (t.chan c).trained = false ∧ (t.chan c).dram = (s.chan c).dram ∧ Raised (R.chanEvt c) 15 s t
        ∧ OnlyChan c s t ∧ OnlyParts [.chans, .csr, .glb] s t := by
  have run : exec (.fullTraining (.chan c) false pc) s = .next (s.fullTrain (.chan c) false) := live_alive (fun s => s.fullTrain (.chan c) false) alive
  refine .of_eq run (fullTrain_fails trains fresh first ready full) ?_
  let out (ch : Chan) : Chan := { ch with com := { ch.com with st := .off, training := false } }
  let v := (s.trainBegun c).modChan c out
  have begun := trainBegun_tame s c
  have within := modChan_within c (s.trainBegun c) out
  have raised := raise_tame v (R.chanEvt c) 15
  have judged := memReadyCheck_tame (v.raise (R.chanEvt c) 15)
  have vOk : (v.raise (R.chanEvt c) 15).regsOk := raised.regs (within.tame.regs (begun.regs ok))
  have evt : (v.raise (R.chanEvt c) 15).memReadyCheck.rget (R.chanEvt c) = (v.raise (R.chanEvt c) 15).rget (R.chanEvt c) :=
    memReadyCheck_rget _ vOk (by unfold R.chanEvt R.glbStartEvt; omega)
  have left : (v.raise (R.chanEvt c) 15).memReadyCheck.chan c = out (s.chan c) :=
    (judged.only.chan_eq c).trans ((raise_chan v _ _ c).trans (State.modChan_chan_same _ c _))
  have undisturbed : OnlyChan c s (s.trainBegun c) := fun k _ => begun.only.chan_eq k
  rw [left]
  exact ⟨rfl, fresh, rfl, evt.trans (trainBegun_raised ok 15 (within.tame.only.mono (by simp))),
    (undisturbed.trans (within.only.trans (raise_onlyChan v c _ _))).trans (.of_only judged.only),
    ((begun.mono (by simp)).trans ((within.tame.mono (by simp)).trans ((raised.mono (by simp)).trans (judged.mono (by simp))))).only⟩
end

section
variable (partial_ : s.needsFull (.chan c) = false)
include partial_

omit first in
theorem fastLoad_goes (pass : Bool) :
    s.fastLoad (.chan c) pass
      = if pass then s.trained (.chan c) 2 else s.modChan c fun ch => { ch with com := { ch.com with training := true } } :=
  if_neg (by simp [State.com, trains, ready, partial_])

theorem fastLoadVerify_passes (alive : s.alive = true) :
    Completes (.fastLoadVerify (.chan c) true) s fun t =>
      (t.chan c).trained = true ∧ (t.chan c).com.last = 2 ∧ (t.chan c).com.recs = (s.chan c).com.recs ∧ (t.chan c).dram = (s.chan c).dram
        ∧ (t.chan c).init = (s.chan c).init ∧ OnlyChan c s t ∧ OnlyParts [.chans, .csr, .glb] s t := by
  have run : exec (.fastLoadVerify (.chan c) true) s = .next (s.fastLoad (.chan c) true) := live_alive (fun s => s.fastLoad (.chan c) true) alive
  obtain ⟨repairs, left⟩ := trained_first_chan 2 first
  obtain ⟨tame, own, -⟩ := trained_first_frame 2 first
  refine .of_eq run (fastLoad_goes trains ready partial_ true) ?_
  rw [if_pos rfl, left]
  exact ⟨rfl, rfl, rfl, rfl, rfl, own, tame.only⟩
omit first in
theorem fastLoadVerify_fails (alive : s.alive = true) :
    Completes (.fastLoadVerify (.chan c) false) s fun t =>
      t.chan c = { s.chan c with com := { (s.chan c).com with training := true } } ∧ OnlyChan c s t ∧ OnlyParts [.chans] s t := by
  have run : exec (.fastLoadVerify (.chan c) false) s = .next (s.fastLoad (.chan c) false) := live_alive (fun s => s.fastLoad (.chan c) false) alive
  refine .of_eq run (fastLoad_goes trains ready partial_ false) ?_
  rw [if_neg Bool.false_ne_true]
  exact ⟨State.modChan_chan_same s c _, modChan_onlyChan s c _, (modChan_tame s c _).only⟩
end
end
end

/-! ## Full training and verify of a stack (R307, R310, R418) -/

/-- Nothing is left in either half of a stack whose contents are wiped (R315). -/
theorem stackWipe_stack (s : State) (k : StackId) :
    ((s.stackWipe k).pav (pavOf (2 * k.val))).stack = [] ∧ ((s.stackWipe k).pav (pavOf (2 * k.val + 1))).stack = [] := by
  have apart : pavOf (2 * k.val) ≠ pavOf (2 * k.val + 1) := by
    intro e; have := congrArg Fin.val e; simp only [pavOf] at this; omega
  simp only [State.stackWipe, List.foldl_cons, List.foldl_nil, State.modPav_pav_same, State.modPav_pav_other _ _ apart, and_self]
theorem stackWipe_tame (s : State) (k : StackId) : Tame [.pavs] s (s.stackWipe k) := .foldl _ (fun s p => modPav_tame s (pavOf p) _) _

/-- A stack after a full training: a record is kept (R307, R309). -/
def MemCom.fullyTrained (settings : BitVec 512) (x : MemCom) : MemCom := { x with recs := keepRec x.recs (trainRec 0 0 0 settings) 1 }
/-- A stack that a training of a kind has trained, and that waits for its sample test (R418, R495). -/
def Stk.trainedBy (kind : Nat) (x : Stk) : Stk :=
  { x with com := { x.com.untrim with last := kind, training := false, recal := false }, tested := true }

section
variable {s : State} {k : StackId}

theorem trained_stack_first (kind : Nat) (first : (s.stk k).com.recal = false) :
    WithinStk k s (s.trained (.stack k) kind) ∧ (s.trained (.stack k) kind).stk k = (s.stk k).trainedBy kind := by
  unfold State.trained
  dsimp only
  rw [if_neg (by simp [first])]
  exact ⟨(modStk_within s k _).trans (modStk_within _ k _), by simp only [State.modStk_stk_same]; rfl⟩

variable (trains : (s.stk k).com.st = .training) (first : (s.stk k).com.recal = false) (ready : (s.stk k).com.calib = false)
include trains first ready

omit first in
theorem fullTrain_stack_passes (full : s.needsFull (.stack k) = true) (fresh : (s.stk k).tested = false) :
    s.fullTrain (.stack k) true
      = ((s.drawn.stackWipe k).modCom (.stack k) (MemCom.fullyTrained (Config.trainedSettings s.freeCtr))).trained (.stack k) 1 := by
  unfold State.fullTrain
  dsimp only
  rw [if_neg (by simp [State.com, trains, ready, full]), if_neg (by simp [fresh]), if_pos rfl]
  rfl

theorem fullTraining_stack_passes (alive : s.alive = true) (full : s.needsFull (.stack k) = true) (fresh : (s.stk k).tested = false) (pc : W32) :
    Completes (.fullTraining (.stack k) true pc) s fun t =>
      (t.stk k).tested = true ∧ (t.stk k).com.last = 1 ∧ (t.stk k).com.st = .training ∧ (t.pav (pavOf (2 * k.val))).stack = []
        ∧ (t.pav (pavOf (2 * k.val + 1))).stack = [] ∧ OnlyStk k s t ∧ OnlyParts [.stks, .pavs, .freeCtr] s t := by
  have run : exec (.fullTraining (.stack k) true pc) s = .next (s.fullTrain (.stack k) true) := live_alive (fun s => s.fullTrain (.stack k) true) alive
  refine .of_eq run (fullTrain_stack_passes trains ready full fresh) ?_
  let record (x : Stk) : Stk := { x with com := x.com.fullyTrained (Config.trainedSettings s.freeCtr) }
  let v := (s.drawn.stackWipe k).modStk k record
  have wiped := stackWipe_tame s.drawn k
  have kept := modStk_within (s.drawn.stackWipe k) k record
  have vStk : v.stk k = record (s.stk k) := (State.modStk_stk_same _ k _).trans (congrArg record (wiped.only.stk_eq k))
  have first' : (v.stk k).com.recal = false := by rw [vStk]; exact first
  obtain ⟨within, left⟩ := trained_stack_first 1 first'
  obtain ⟨lower, upper⟩ := stackWipe_stack s.drawn k
  have pav (p : PavId) : (v.trained (.stack k) 1).pav p = (s.drawn.stackWipe k).pav p := (within.tame.only.pav_eq p).trans (kept.tame.only.pav_eq p)
  refine ⟨?_, ?_, ?_, ?_, ?_, ?_, ?_⟩
  · exact congrArg Stk.tested left
  · exact congrArg (fun x : Stk => x.com.last) left
  · exact (congrArg (fun x : Stk => x.com.st) left).trans ((congrArg (fun x : Stk => x.com.st) vStk).trans trains)
  · exact (congrArg Pav.stack (pav _)).trans lower
  · exact (congrArg Pav.stack (pav _)).trans upper
  · have undisturbed : OnlyStk k s (s.drawn.stackWipe k) := fun j _ => wiped.only.stk_eq j
    exact undisturbed.trans (kept.only.trans within.only)
  · exact (((drawn_tame s).mono (by simp)).trans ((wiped.mono (by simp)).trans ((kept.tame.mono (by simp)).trans (within.tame.mono (by simp))))).only

theorem fastLoadVerify_stack_passes (alive : s.alive = true) (partial_ : s.needsFull (.stack k) = false) :
    Completes (.fastLoadVerify (.stack k) true) s fun t =>
      (t.stk k).tested = true ∧ (t.stk k).com.last = 2 ∧ (t.stk k).com.st = .training ∧ OnlyStk k s t ∧ OnlyParts [.stks] s t := by
  have run : exec (.fastLoadVerify (.stack k) true) s = .next (s.fastLoad (.stack k) true) := live_alive (fun s => s.fastLoad (.stack k) true) alive
  have loads : s.fastLoad (.stack k) true = s.trained (.stack k) 2 := by
    unfold State.fastLoad; rw [if_neg (by simp [State.com, trains, ready, partial_]), if_pos rfl]
  obtain ⟨within, left⟩ := trained_stack_first 2 first
  refine .of_eq run loads ?_
  rw [left]
  exact ⟨rfl, rfl, trains, within.only, within.tame.only⟩
end

/-- Settles O30. That a stack holds nothing after a full training is the model's reading (log entry 105). -/
theorem trainingOutcomes : Obligations.TrainingOutcomes :=
  ⟨fun _ pc _ alive ok trains fresh first ready =>
    ⟨fun full => ⟨fullTraining_passes trains fresh first ready full alive ok pc, fullTraining_fails trains fresh first ready full alive ok pc⟩,
      fun partial_ => ⟨fastLoadVerify_passes trains first ready partial_ alive, fastLoadVerify_fails trains ready partial_ alive⟩⟩,
    fun _ pc _ alive trains first ready =>
    ⟨fun full fresh => fullTraining_stack_passes trains first ready alive full fresh pc, fastLoadVerify_stack_passes trains first ready alive⟩⟩

end Sys2Proof.Machine

namespace Sys2Proof.Machine

/-! ## A stack's tests end (R314, R353, R418) -/

/-- Of the stacks only this one has changed, and of the registers only the listed ones. -/
structure StkLogs (k : StackId) (offs : List Nat) (s t : State) : Prop where
  only : OnlyStk k s t
  regsOk : s.regsOk → t.regsOk
  regs : s.regsOk → OnlyRegs offs s t

section
variable {k : StackId} {os us : List Nat} {s t u : State}

theorem StkLogs.trans (h : StkLogs k os s t) (j : StkLogs k os t u) : StkLogs k os s u :=
  ⟨h.only.trans j.only, fun ok => j.regsOk (h.regsOk ok), fun ok o ho => (j.regs (h.regsOk ok) o ho).trans (h.regs ok o ho)⟩
theorem StkLogs.mono (h : StkLogs k os s t) (le : os ⊆ us) : StkLogs k us s t := ⟨h.only, h.regsOk, fun ok o ho => h.regs ok o fun x => ho (le x)⟩
theorem StkLogs.refl : StkLogs k os s s := ⟨fun _ _ => rfl, id, fun _ _ _ => rfl⟩
theorem WithinStk.stkLogs (h : WithinStk k s t) : StkLogs k os s t := ⟨h.only, h.tame.regs, fun _ o _ => h.tame.only.rget_eq o⟩
theorem Logs.stkLogs {ps : List Part} (h : Logs ps os s t) (hp : Part.stks ∉ ps := by decide) : StkLogs k os s t := ⟨.of_only h.only hp, h.regsOk, h.regs⟩
theorem Tame.stkLogs {ps : List Part} (h : Tame ps s t) (hp : Part.stks ∉ ps := by decide) (hc : Part.csr ∉ ps := by decide) : StkLogs k os s t :=
  ⟨.of_only h.only hp, h.regs, fun _ o _ => h.only.rget_eq o hc⟩

variable (s k)

theorem surveyAbort_stack : StkLogs k [R.stackSurveyStat k] s (s.surveyAbort (.stack k)) := by
  unfold State.surveyAbort State.surveyEnd State.modCom
  split
  · have dropped : ∀ (s : State) (p : Nat), Tame [.pavs] s (s.modPav (pavOf p) fun v =>
        { v with stackq := v.stackq.filter fun x => x.op ≠ .survey, stackRet := v.stackRet.filter fun x => x.cmd.op ≠ .survey }) := fun s p => modPav_tame s _ _
    exact (modStk_within s k _).stkLogs.trans ((Tame.foldl _ dropped _).stkLogs.trans
      ((rset_logs _ _ _).stkLogs.trans (raise_logs _ _ _).stkLogs))
  · exact .refl

/-- What is reported of a stack that failed, but for its own event (R353). -/
theorem stackFail_reports :
    Logs [.csr, .glb, .blv, .lodge] [R.stackErrEvt k, R.blvEvt, R.lodgeEvqStat, R.glbFatalStat] s
      (((s.raise (R.stackErrEvt k) 14).event .failed k.val 0 (store := .stack)).fatal 14) :=
  ((raise_logs s _ _).mono (by simp) (by simp)).trans
    (((event_logs _ _ _ _ _ _ _ _).mono (by simp) (by simp)).trans ((fatal_logs _ 14).mono (by simp) (by simp)))

/-- A stack that fails a test is FAILED, reports it in its event register, and keeps TEST_RES (R314, R353). -/
theorem stackFail_tested (ok : s.regsOk) :
    ((s.stackFail k true).stk k).com.st = .failed ∧ (s.stackFail k true).rget (R.stackTestRes k) = s.rget (R.stackTestRes k)
      ∧ ((s.stackFail k true).rget (R.stackEvt k)).getLsbD 13 = true ∧ OnlyStk k s (s.stackFail k true) ∧ (s.stackFail k true).regsOk := by
  let v := (s.surveyAbort (.stack k)).modStk k fun x =>
    { x with com := { x.com with st := .failed, training := false, recal := false, walk := false }, passed := x.passed && true }
  have out : StkLogs k [R.stackSurveyStat k] s v := (surveyAbort_stack k s).trans (modStk_within _ k _).stkLogs
  have raised := raise_logs v (R.stackEvt k) 13
  have reports := stackFail_reports k (v.raise (R.stackEvt k) 13)
  have vOk := out.regsOk ok
  have rOk := raised.regsOk vOk
  have apart (o : Nat) (h : o = R.stackTestRes k ∨ o = R.stackEvt k) :
      o ∉ [R.stackErrEvt k, R.blvEvt, R.lodgeEvqStat, R.glbFatalStat] ∧ o ∉ [R.stackSurveyStat k] := by
    simp only [List.mem_cons, List.not_mem_nil, or_false, R.stackTestRes, R.stackEvt, R.stackErrEvt, R.stackSurveyStat, R.blvEvt, R.lodgeEvqStat, R.glbFatalStat] at h ⊢; omega
  have fails : s.stackFail k true = (((v.raise (R.stackEvt k) 13).raise (R.stackErrEvt k) 14).event .failed k.val 0 (store := .stack)).fatal 14 := rfl
  rw [fails]
  refine ⟨?_, ?_, ?_, ?_, reports.regsOk rOk⟩
  · have : ((v.stk k).com).st = .failed := by simp only [v, State.modStk_stk_same]
    have same := (reports.only.stk_eq k).trans (raised.only.stk_eq k)
    exact (congrArg (fun x : Stk => x.com.st) same).trans this
  · exact (reports.rget rOk (apart _ (.inl rfl)).1).trans
      ((raised.rget vOk (by simp only [List.mem_singleton, R.stackTestRes, R.stackEvt]; omega)).trans (out.regs ok _ (apart _ (.inl rfl)).2))
  · exact (congrArg (BitVec.getLsbD · 13) (reports.rget rOk (apart _ (.inr rfl)).1)).trans (raise_bit _ _ vOk (by decide) (by decide))
  · exact out.only.trans (.trans (.of_only raised.only) (.of_only reports.only))
end

/-- A test's end is noted: the stack's contents are gone, and TEST_RES holds the failing pseudo-channels (R314, R315). -/
def State.testNoted (s : State) (k : StackId) (pc : W32) : State := (s.stackWipe k).rset (R.stackTestRes k) pc
/-- A stack whose tests have passed serves (R291, R314). -/
def State.stackServes (s : State) (k : StackId) (f : Stk → Stk) : State :=
  (s.modStk k fun x => { f x with com := { x.com with st := .inService } }).refStart (.stack k)

section
variable (s : State) (k : StackId) (pc : W32)

theorem testNoted_tame : Tame [.pavs, .csr] s (s.testNoted k pc) :=
  ((stackWipe_tame s k).mono (by simp)).trans ((rset_tame _ _ _).mono (by simp))
theorem testNoted_res (ok : s.regsOk) : (s.testNoted k pc).rget (R.stackTestRes k) = pc := State.rget_rset_same _ _ ((stackWipe_tame s k).regs ok)

theorem stackServes_within (f : Stk → Stk) : WithinStk k s (s.stackServes k f) := by
  unfold State.stackServes State.refStart State.modCom; exact (modStk_within s k _).trans (modStk_within _ k _)
theorem stackServes_stack (f : Stk → Stk) : ((s.stackServes k f).stk k).com.st = .inService ∧ ((s.stackServes k f).stk k).passed = (f (s.stk k)).passed := by
  simp only [State.stackServes, State.refStart, State.modCom, State.modStk_stk_same, and_self]
end

section
variable {s : State} {k : StackId} {pc : W32}

/-- A test of a stack ends (R291, R314, log entry 106). -/
theorem stackTestEnd_tested (tests : (s.stk k).com.st = .test) :
    s.stackTestEnd k pc = (if pc ≠ 0 then (s.testNoted k pc).stackFail k true
      else if (s.stk k).passed = true then (s.testNoted k pc).stackServes k id
      else (s.testNoted k pc).modStk k fun x => { x with com := { x.com with st := .failed } }).raise (R.stackEvt k) 12 := by
  have same : (s.testNoted k pc).stk k = s.stk k := (testNoted_tame s k pc).only.stk_eq k
  unfold State.stackTestEnd
  rw [if_neg (by simp [tests]), ← same]
  rfl
/-- A sample test of a stack ends (R314, R418). -/
theorem sampleEnd_tested (trains : (s.stk k).com.st = .training) (tested : (s.stk k).tested = true) :
    s.sampleEnd k pc = (if pc = 0 then (s.testNoted k pc).stackServes k fun x => { x with passed := true }
      else (s.testNoted k pc).stackFail k true).stackReadyCheck := by
  unfold State.sampleEnd
  rw [if_neg (by simp [trains, tested])]
  rfl

/-- TEST_DONE, raised last, leaves the stack, TEST_RES and the failure's event as they are. -/
theorem testDone_raised {u : State} (ok : u.regsOk) :
    let t := u.raise (R.stackEvt k) 12
    t.stk k = u.stk k ∧ t.rget (R.stackTestRes k) = u.rget (R.stackTestRes k) ∧ (t.rget (R.stackEvt k)).getLsbD 12 = true
      ∧ ((u.rget (R.stackEvt k)).getLsbD 13 = true → (t.rget (R.stackEvt k)).getLsbD 13 = true) ∧ OnlyStk k u t :=
  have logs := raise_logs u (R.stackEvt k) 12
  ⟨logs.only.stk_eq k, raise_rget_other 12 ok (by simp only [R.stackTestRes, R.stackEvt]; omega), raise_bit _ _ ok (by decide) (by decide),
    raise_keeps_bit 12 ok (by decide) (by decide), .of_only logs.only⟩

theorem stackTestDone_completes (alive : s.alive = true) (ok : s.regsOk) (tests : (s.stk k).com.st = .test) :
    Completes (.stackTestDone k pc) s fun t =>
      (t.stk k).com.st = (if pc = 0 ∧ (s.stk k).passed = true then MemSt.inService else MemSt.failed) ∧ t.rget (R.stackTestRes k) = pc
        ∧ (t.rget (R.stackEvt k)).getLsbD 12 = true ∧ (pc ≠ 0 → (t.rget (R.stackEvt k)).getLsbD 13 = true) ∧ OnlyStk k s t := by
  refine .of_eq (live_alive (fun s => s.stackTestEnd k pc) alive) (stackTestEnd_tested tests) ?_
  let v := s.testNoted k pc
  have noted : Tame [.pavs, .csr] s v := testNoted_tame s k pc
  have kept : OnlyStk k s v := .of_only noted.only
  have res : v.rget (R.stackTestRes k) = pc := testNoted_res s k pc ok
  have within {u : State} (h : WithinStk k v u) : u.regsOk ∧ u.rget (R.stackTestRes k) = pc ∧ OnlyStk k s u :=
    ⟨h.tame.regs (noted.regs ok), (h.tame.only.rget_eq _).trans res, kept.trans h.only⟩
  split
  next bad =>
    obtain ⟨st, keeps, evt, only, uOk⟩ := stackFail_tested k v (noted.regs ok)
    obtain ⟨own, resKept, done, evtKept, last⟩ := testDone_raised uOk
    rw [own, st, resKept, keeps, if_neg fun h => bad h.1]
    exact ⟨rfl, res, done, fun _ => evtKept evt, kept.trans (only.trans last)⟩
  next good =>
    have good : pc = 0 := Decidable.not_not.mp good
    split
    next passed =>
      obtain ⟨uOk, uRes, only⟩ := within (stackServes_within v k id)
      obtain ⟨own, resKept, done, -, last⟩ := testDone_raised uOk
      rw [own, (stackServes_stack v k id).1, resKept, uRes, if_pos ⟨good, passed⟩]
      exact ⟨rfl, rfl, done, fun bad => absurd good bad, only.trans last⟩
    next unsampled =>
      obtain ⟨uOk, uRes, only⟩ := within (modStk_within v k fun x => { x with com := { x.com with st := .failed } })
      obtain ⟨own, resKept, done, -, last⟩ := testDone_raised uOk
      rw [own, State.modStk_stk_same, resKept, uRes, if_neg fun h => unsampled h.2]
      exact ⟨rfl, rfl, done, fun bad => absurd good bad, only.trans last⟩

theorem sampleTestDone_completes (alive : s.alive = true) (ok : s.regsOk) (trains : (s.stk k).com.st = .training) (tested : (s.stk k).tested = true) :
    Completes (.sampleTestDone k pc) s fun t =>
      (t.stk k).com.st = (if pc = 0 then MemSt.inService else MemSt.failed) ∧ (pc = 0 → (t.stk k).passed = true) ∧ t.rget (R.stackTestRes k) = pc
        ∧ (pc ≠ 0 → (t.rget (R.stackEvt k)).getLsbD 13 = true) ∧ OnlyStk k s t := by
  refine .of_eq (live_alive (fun s => s.sampleEnd k pc) alive) (sampleEnd_tested trains tested) ?_
  let v := s.testNoted k pc
  have noted : Tame [.pavs, .csr] s v := testNoted_tame s k pc
  have kept : OnlyStk k s v := .of_only noted.only
  have res : v.rget (R.stackTestRes k) = pc := testNoted_res s k pc ok
  have judged (u : State) (uOk : u.regsOk) : u.stackReadyCheck.stk k = u.stk k ∧ OnlyStk k u u.stackReadyCheck
      ∧ u.stackReadyCheck.rget (R.stackTestRes k) = u.rget (R.stackTestRes k) ∧ u.stackReadyCheck.rget (R.stackEvt k) = u.rget (R.stackEvt k) :=
    ⟨(stackReadyCheck_tame u).only.stk_eq k, .of_only (stackReadyCheck_tame u).only,
      stackReadyCheck_rget u uOk (by simp only [R.stackTestRes, R.glbStartEvt]; omega), stackReadyCheck_rget u uOk (by simp only [R.stackEvt, R.glbStartEvt]; omega)⟩
  split
  next good =>
    have serves := stackServes_within v k fun x => { x with passed := true }
    obtain ⟨inService, passed⟩ := stackServes_stack v k fun x => { x with passed := true }
    obtain ⟨own, last, resKept, -⟩ := judged _ (serves.tame.regs (noted.regs ok))
    rw [own, resKept, serves.tame.only.rget_eq]
    exact ⟨inService, fun _ => passed, res, fun bad => absurd good bad, kept.trans (serves.only.trans last)⟩
  next bad =>
    obtain ⟨st, keeps, evt, only, uOk⟩ := stackFail_tested k v (noted.regs ok)
    obtain ⟨own, last, resKept, evtKept⟩ := judged _ uOk
    rw [own, resKept, evtKept, keeps]
    exact ⟨st, fun good => absurd good bad, res, fun _ => evt, kept.trans (only.trans last)⟩
end

end Sys2Proof.Machine

namespace Sys2Proof.Machine

/-! ## A pass over the stacks or the channels -/

/-- Of a pass over units, what the other units' turns leave alone is as a unit's own turn makes it. -/
theorem finRange_turn {n : Nat} (k : Fin n) {s : State} {f : Fin n → State → State} {I J : State → Prop} (before : ∀ j u, j ≠ k → I u → I (f j u))
    (turn : ∀ u, I u → J (f k u)) (after : ∀ j u, j ≠ k → J u → J (f j u)) (start : I s) : J ((List.finRange n).foldl (fun s j => f j s) s) := by
  obtain ⟨pre, post, split⟩ := List.append_of_mem (List.mem_finRange k)
  have distinct := List.nodup_finRange n
  rw [split, List.nodup_middle, List.nodup_cons, List.mem_append, not_or] at distinct
  obtain ⟨⟨notPre, notPost⟩, -⟩ := distinct
  rw [split, List.foldl_append, List.foldl_cons]
  refine List.foldlRecOn post _ (turn _ (List.foldlRecOn pre _ start ?_)) ?_
  · exact fun u inv j mem => before j u (fun e => notPre (e ▸ mem)) inv
  · exact fun u inv j mem => after j u (fun e => notPost (e ▸ mem)) inv

/-! ## Bring-up of the stacks (R418) -/

/-- A stack whose training starts. -/
def Stk.starts (x : Stk) : Stk := { x with tested := false, passed := false, com := { x.com with st := .training, training := false, recal := false } }

/-- Every stack has started training after a pass that starts it. -/
theorem forStks_starts (s : State) (k : StackId) : ((forStks s fun k s => s.modStk k Stk.starts).stk k) = (s.stk k).starts := by
  refine finRange_turn k (I := fun u => u.stk k = s.stk k) (J := fun u => u.stk k = (s.stk k).starts) (fun j u apart same => ?_) (fun u same => ?_)
    (fun j u apart same => ?_) rfl
  · exact (State.modStk_stk_other u _ apart.symm).trans same
  · rw [State.modStk_stk_same, same]
  · exact (State.modStk_stk_other u _ apart.symm).trans same

theorem stackBringup_completes {s : State} (alive : s.alive = true) (up : s.glb.stackUp = true) :
    Completes .stackBringup s fun t =>
      (∀ k, (t.stk k).com.st = .training ∧ (t.stk k).tested = false) ∧ t.glb.stackUp = false ∧ t.glb.stackReady = false ∧ OnlyParts [.glb, .stks] s t := by
  let v := s.modGlb fun g => { g with stackUp := false, stackReady := false }
  have starts : s.stackBring = forStks v fun k s => s.modStk k Stk.starts := if_neg (by simp [up])
  have pass : Tame [.stks] v (forStks v fun k s => s.modStk k Stk.starts) := .foldl _ (fun s k => modStk_tame s k _) _
  refine .of_eq (live_alive State.stackBring alive) starts ⟨fun k => ?_, ?_, ?_, ?_⟩
  · rw [forStks_starts]; exact ⟨rfl, rfl⟩
  · rw [pass.only.glb_eq]; rfl
  · rw [pass.only.glb_eq]; rfl
  · exact (((modGlb_tame s _).mono (by simp)).trans (pass.mono (by simp))).only

/-! ## Entry to service at the tick after MEM_GO (R284, R317, R417) -/

/-- What an entry to service leaves: the configuration of the channels, and of the global state all but what enters with them. -/
structure StartFrame (s t : State) : Prop where
  tame : Tame [.glb, .chans, .csr] s t
  cfg : s.regsOk → ∀ c : ChanId, t.rget (R.chanCfg c) = s.rget (R.chanCfg c)
  glb : t.glb = { s.glb with memGo := t.glb.memGo, stackUp := t.glb.stackUp, msixPend := t.glb.msixPend, fatalNew := t.glb.fatalNew }

/-- A channel's turn in the entry to service (R417). -/
def State.chanStarts (s : State) (c : ChanId) : State :=
  if !(s.chan c).trained then s
  else if 16 * (s.chan c).used < s.glb.mapReq then
    (s.modChan c fun ch => { ch with com := { ch.com with st := .off } }).raise (R.chanEvt c) 14
  else (s.enterService c).modGlb fun g => { g with memGo := true }

section
variable {s t u : State} {c : ChanId}

theorem StartFrame.refl : StartFrame s s := ⟨.refl, fun _ _ => rfl, rfl⟩
theorem StartFrame.trans (h : StartFrame s t) (k : StartFrame t u) : StartFrame s u :=
  ⟨h.tame.trans k.tame, fun ok c => (k.cfg (h.tame.regs ok) c).trans (h.cfg ok c), by rw [k.glb, h.glb]⟩
theorem WithinChan.startFrame (h : WithinChan c s t) : StartFrame s t :=
  have same : t.glb = s.glb := h.tame.only.glb_eq
  ⟨h.tame.mono (by simp), fun _ _ => h.tame.only.rget_eq _, by rw [same]⟩

variable (s c)

theorem enterService_within : WithinChan c s (s.enterService c) := by
  unfold State.enterService State.refStart State.modCom; exact (modChan_within c s _).trans (modChan_within c _ _)
theorem enterService_chan :
    ((s.enterService c).chan c).com.st = .inService ∧ ((s.enterService c).chan c).init = if (!s.rbit (R.chanCfg c) 31) = true then [] else (s.chan c).init := by
  simp only [State.enterService, State.refStart, State.modCom, State.modChan_chan_same, and_self]

theorem chanStarts_frame : StartFrame s (s.chanStarts c) ∧ OnlyChan c s (s.chanStarts c) := by
  unfold State.chanStarts
  split
  · exact ⟨.refl, fun _ _ => rfl⟩
  split
  · have out := modChan_within c s fun ch => { ch with com := { ch.com with st := .off } }
    have raised := raise_logs (s.modChan c fun ch => { ch with com := { ch.com with st := .off } }) (R.chanEvt c) 14
    refine ⟨out.startFrame.trans ⟨raised.tame.mono (by simp), fun ok k => raised.rget ok ?_, ?_⟩, out.only.trans (.of_only raised.only)⟩
    · simp only [R.chanCfg, R.chanEvt, List.mem_singleton]; omega
    · rw [raised.glb]
  · have enters := enterService_within s c
    exact ⟨enters.startFrame.trans ⟨(modGlb_tame _ _).mono (by simp), fun _ _ => rfl, rfl⟩, enters.only⟩
end

/-- What the entry to service makes of a channel: in service where it is trained and large enough, its initialized regions kept or
not as INIT_POLICY says, out of use where it is too small, and as it was where it is not trained (R317, R417). -/
def StartedAs (policy : Bool) (req : Nat) (x y : Chan) : Prop :=
  (x.trained = true → req ≤ 16 * x.used → y.com.st = .inService ∧ (policy = false → y.init = []) ∧ (policy = true → y.init = x.init))
    ∧ (x.trained = true → 16 * x.used < req → y.com.st = .off) ∧ (x.trained = false → y = x)

theorem chanStarts_chan (s : State) (c : ChanId) : StartedAs (s.rbit (R.chanCfg c) 31) s.glb.mapReq (s.chan c) ((s.chanStarts c).chan c) := by
  unfold State.chanStarts
  split
  next untrained =>
    have no : (s.chan c).trained = false := by simpa using untrained
    exact ⟨fun h => absurd h (by simp [no]), fun h => absurd h (by simp [no]), fun _ => rfl⟩
  next trained =>
    have yes : (s.chan c).trained = true := by simpa using trained
    have never {p : Prop} : (s.chan c).trained = false → p := fun h => absurd yes (by simp [h])
    split
    next small =>
      refine ⟨fun _ large => absurd small (by omega), fun _ _ => ?_, never⟩
      rw [raise_chan, State.modChan_chan_same]
    next large =>
      obtain ⟨serves, init⟩ := enterService_chan s c
      refine ⟨fun _ _ => ⟨serves, fun zero => ?_, fun keep => ?_⟩, fun _ small => absurd small large, never⟩
      · exact init.trans (if_pos (by simp [zero]))
      · exact init.trans (if_neg (by simp [keep]))

section
variable {s : State}

/-- The pass over the channels makes each what its own turn does. -/
theorem forChans_starts (ok : s.regsOk) (c : ChanId) :
    StartedAs (s.rbit (R.chanCfg c) 31) s.glb.mapReq (s.chan c) ((forChans s fun c s => s.chanStarts c).chan c) := by
  refine finRange_turn c (I := fun u => StartFrame s u ∧ u.chan c = s.chan c)
    (J := fun u => StartedAs (s.rbit (R.chanCfg c) 31) s.glb.mapReq (s.chan c) (u.chan c)) (fun j u apart inv => ?_) (fun u inv => ?_)
    (fun j u apart inv => ?_) ⟨.refl, rfl⟩
  · obtain ⟨frame, own⟩ := inv
    obtain ⟨turn, only⟩ := chanStarts_frame u j
    exact ⟨frame.trans turn, (only c apart.symm).trans own⟩
  · obtain ⟨frame, own⟩ := inv
    have policy : u.rbit (R.chanCfg c) 31 = s.rbit (R.chanCfg c) 31 := congrArg (BitVec.getLsbD · 31) (frame.cfg ok c)
    have req : u.glb.mapReq = s.glb.mapReq := by rw [frame.glb]
    have turn := chanStarts_chan u c
    rwa [policy, req, own] at turn
  · obtain ⟨-, only⟩ := chanStarts_frame u j
    rwa [only c apart.symm]
theorem forChans_startFrame (s : State) : StartFrame s (forChans s fun c s => s.chanStarts c) :=
  List.foldlRecOn _ _ .refl fun _ frame c _ => frame.trans (chanStarts_frame _ c).1

/-- The global state as a map that can be built fixes it (R282 to R284). -/
def Glb.mapped (g : Glb) (pivots : List Nat) : Glb :=
  { g with memGoDue := false, mapValid := true, mapFail := false, pivots := pivots, mapRanges := g.ranges, mapReq := mapReqOf g.ranges }
/-- The stacks come up with the first channel in service (R418). -/
def State.stacksFollow (s : State) : State := if s.glb.memGo then s.modGlb fun g => { g with stackUp := true } else s

theorem memStart_eq {u : State} (fixes : (s.modGlb fun g => { g with memGoDue := false }).fixMap = u) :
    s.memStart = if u.glb.mapFail then u else (forChans u fun c s => s.chanStarts c).stacksFollow := by
  unfold State.memStart
  rw [fixes]
  simp only [State.stacksFollow, State.chanStarts]
/-- Four pivots are enough for the map (R282). -/
theorem fixMap_enough (enough : 4 ≤ (choosePivots s.fold).length) :
    (s.modGlb fun g => { g with memGoDue := false }).fixMap = s.modGlb fun g => g.mapped (choosePivots s.fold) := by
  have same : (s.modGlb fun g => { g with memGoDue := false }).fold = s.fold := rfl
  unfold State.fixMap
  rw [same, if_neg (by omega)]
  rfl
theorem memStart_maps (enough : 4 ≤ (choosePivots s.fold).length) :
    s.memStart = (forChans (s.modGlb fun g => g.mapped (choosePivots s.fold)) fun c s => s.chanStarts c).stacksFollow := by
  have built (pivots : List Nat) : ¬ (s.modGlb fun g => g.mapped pivots).glb.mapFail = true := Bool.false_ne_true
  rw [memStart_eq (fixMap_enough enough), if_neg (built _)]

theorem stacksFollow_frame (s : State) : StartFrame s s.stacksFollow ∧ ∀ c, s.stacksFollow.chan c = s.chan c := by
  unfold State.stacksFollow
  split
  · exact ⟨⟨(modGlb_tame s _).mono (by simp), fun _ _ => rfl, rfl⟩, fun _ => rfl⟩
  · exact ⟨.refl, fun _ => rfl⟩

theorem memServiceStart_completes (alive : s.alive = true) (ok : s.regsOk) (due : s.glb.memGoDue = true) (enough : 4 ≤ (choosePivots s.fold).length) :
    Completes .memServiceStart s fun t =>
      t.glb.memGoDue = false ∧ t.glb.mapValid = true ∧ t.glb.pivots = choosePivots s.fold ∧ t.glb.mapRanges = s.glb.ranges
        ∧ (∀ c, (s.chan c).trained = true → mapReqOf s.glb.ranges ≤ 16 * (s.chan c).used →
          (t.chan c).com.st = .inService ∧ (s.rbit (R.chanCfg c) 31 = false → (t.chan c).init = []) ∧ (s.rbit (R.chanCfg c) 31 = true → (t.chan c).init = (s.chan c).init))
        ∧ (∀ c, (s.chan c).trained = true → 16 * (s.chan c).used < mapReqOf s.glb.ranges → (t.chan c).com.st = .off)
        ∧ (∀ c, (s.chan c).trained = false → t.chan c = s.chan c) ∧ OnlyParts [.glb, .chans, .csr] s t := by
  have run : exec .memServiceStart s = .next s.memStart :=
    (live_alive (fun s => if s.glb.memGoDue then s.memStart else s) alive).trans (congrArg _ (if_pos due))
  refine .of_eq run (memStart_maps enough) ?_
  generalize choosePivots s.fold = pivots
  let v := s.modGlb fun g => g.mapped pivots
  have mapped : Tame [.glb, .chans, .csr] s v := (modGlb_tame s _).mono (by simp)
  obtain ⟨follows, kept⟩ := stacksFollow_frame (forChans v fun c s => s.chanStarts c)
  have frame : StartFrame v _ := (forChans_startFrame v).trans follows
  have started (c : ChanId) : StartedAs (s.rbit (R.chanCfg c) 31) (mapReqOf s.glb.ranges) (s.chan c)
      ((forChans v fun c s => s.chanStarts c).stacksFollow.chan c) := by
    rw [kept c]
    exact forChans_starts (mapped.regs ok) c
  generalize (forChans v fun c s => s.chanStarts c).stacksFollow = t at frame started
  rw [frame.glb]
  exact ⟨rfl, rfl, rfl, rfl, fun c => (started c).1, fun c => (started c).2.1, fun c => (started c).2.2, (mapped.trans frame.tame).only⟩
end

end Sys2Proof.Machine

namespace Sys2Proof.Machine

/-! ## MEM_GO (R417) -/

/-- START_CTL, whose only field is a command. -/
def startCtlDesc : RegDesc := ⟨0x800, 1, 0, [⟨31, 31, .wo, 0, false, .now, true⟩]⟩

section
variable {s : State}

/-- A write of START_CTL stores nothing: its register keeps its value, and the rest of the state but what notes software's writes. -/
theorem startCtl_put (v : W32) :
    OnlyParts [.csr] s (s.regPut R.glbStartCtl startCtlDesc 0x80000000 v) ∧ (s.regPut R.glbStartCtl startCtlDesc 0x80000000 v).glb = s.glb := by
  have tick : maskOf startCtlDesc.fields (fun f => isStored f && isTick f) &&& (0x80000000 : W32) = 0 := by decide
  have now : maskOf startCtlDesc.fields (fun f => isStored f && !isTick f) &&& (0x80000000 : W32) = 0 := by decide
  have seq : maskOf startCtlDesc.fields (·.acc = .rsq) &&& (0x80000000 : W32) = 0 := by decide
  simp only [State.regPut, tick, now, clearSeq, seq, merge32_zero, if_true, ne_eq, not_true_eq_false, if_false]
  rw [if_neg (by decide)]
  exact ⟨fun p hp => by cases p <;> simp_all [Part.same], rfl⟩

/-- A privileged MEM_GO that nothing bars is carried out after its access has been counted: MEM_GO waits for the tick (R417). -/
theorem memGo_waits (a : Access) (ok : s.regsOk) (priv : s.privileged a = true) (ready : s.glb.memReady = true) (first : s.glb.memGo = false)
    (idle : s.glb.memGoPend = false) (early : s.glb.memGoDue = false) :
    s.cmdWrite a R.glbStartCtl 0x80000000
      = (((s.cntGlob 3).dropHold a.master).regPut R.glbStartCtl startCtlDesc 0x80000000 0x80000000).modGlb fun g => { g with memGoPend := true } := by
  let c := (s.cntGlob 3).dropHold a.master
  let m : W32 := 0x80000000
  let r := c.regPut R.glbStartCtl startCtlDesc m m
  have counted := cntGlob_logs s 3 1 none
  have at_ : regAt R.glbStartCtl = some (.glb, 0, 0, startCtlDesc) := by decide
  have half : pairHalf R.glbStartCtl = none := by decide
  have mask : maskOf startCtlDesc.fields (fun f => isWritable f && (true || !f.priv)) = m := by decide
  have judgedTrue : c.privileged a = true := (counted_privileged s ok a).trans priv
  have guard : c.guardWrite a R.glbStartCtl startCtlDesc = c := by simp [State.guardWrite, judgedTrue]
  have powered : c.unpowered .glb = false := by simp [State.unpowered]
  have judged : c.regJudge R.glbStartCtl .glb 0 0 startCtlDesc m m = none := by
    have range (old new : W32) : c.regRule .glb 0 0 startCtlDesc.off old new = [] := rfl
    have fields (old new : W32) : (startCtlDesc.fields.filter fun f => f.app = .idle && isStored f && bitsOf old f.hi f.lo ≠ bitsOf new f.hi f.lo) = [] := rfl
    simp only [State.regJudge, range, fields, List.map_nil, ite_self]
    rfl
  have glb : r.glb = { s.glb with msixPend := (s.cntGlob 3).glb.msixPend, fatalNew := (s.cntGlob 3).glb.fatalNew } :=
    (startCtl_put (s := c) m).2.trans counted.glb
  have act : r.regAct R.glbStartCtl .glb 0 startCtlDesc.off (m &&& m) {} = r.modGlb fun g => { g with memGoPend := true } := by
    have goes : r.memGoWrite = r.modGlb fun g => { g with memGoPend := true } := if_pos (by simp [glb, ready, first, idle, early])
    have reaches : r.regAct R.glbStartCtl .glb 0 startCtlDesc.off (m &&& m) {} = if (m &&& m).getLsbD 31 then r.memGoWrite else r := rfl
    rw [reaches, if_pos (by decide), goes]
  have write : c.write32 a R.glbStartCtl m none {} = c.regWrite true R.glbStartCtl .glb 0 0 startCtlDesc m {} := by
    simp only [State.write32, at_, powered, guard, judgedTrue]; rfl
  have kept : rejectedSince r (r.modGlb fun g => { g with memGoPend := true }) = false := decide_eq_false fun h => h rfl
  calc s.cmdWrite a R.glbStartCtl 0x80000000 = c.write32 a R.glbStartCtl m none {} := by simp only [State.cmdWrite, State.pairWrite, half]; rfl
    _ = c.regWrite true R.glbStartCtl .glb 0 0 startCtlDesc m {} := write
    _ = _ := by simp only [State.regWrite, mask, judged, act, r, kept]; rfl

theorem memGo_completes (a : Access) (alive : s.alive = true) (ok : s.regsOk) (priv : s.privileged a = true) (ready : s.glb.memReady = true)
    (first : s.glb.memGo = false) (idle : s.glb.memGoPend = false) (early : s.glb.memGoDue = false) :
    Completes (.memGo a) s fun t => t.glb.memGoPend = true ∧ t.glb.memGo = false ∧ OnlyParts [.glb, .csr, .blv, .pairs] s t := by
  refine .of_eq (live_alive (fun s => s.cmdWrite a R.glbStartCtl 0x80000000) alive) (memGo_waits a ok priv ready first idle early) ?_
  let c := (s.cntGlob 3).dropHold a.master
  have judged : Tame [.csr, .glb, .blv, .pairs] s c := judged_tame s a.master
  obtain ⟨put, glb⟩ := startCtl_put (s := c) 0x80000000
  refine ⟨rfl, ?_, ?_⟩
  · have kept : (s.cntGlob 3).glb.memGo = s.glb.memGo := (congrArg Glb.memGo (cntGlob_logs s 3 1 none).glb :)
    exact (congrArg Glb.memGo glb).trans (kept.trans first)
  · exact (judged.only.mono (by simp)).trans ((put.mono (by simp)).trans ((modGlb_tame _ _).only.mono (by simp)))
end

/-- Settles O33. A stack whose sample test has not passed stays FAILED after a passed test (log entry 106). -/
theorem stacksAndChannelsEnterService : Obligations.StacksAndChannelsEnterService :=
  ⟨fun _ _ _ alive ok => ⟨stackTestDone_completes alive ok, sampleTestDone_completes alive ok⟩,
    fun _ alive up => stackBringup_completes alive up,
    fun a _ alive ok priv ready first idle early => memGo_completes a alive ok priv ready first idle early,
    fun _ alive ok due enough => memServiceStart_completes alive ok due enough⟩

end Sys2Proof.Machine

namespace Sys2Proof.Machine

/-! ## The end of a STANDBY's drain disarms the measurements (R423, R491) -/

/-- The hub in a STANDBY entry with nothing to drain and a measurement of the ring oscillators armed. -/
def measuringHub : State :=
  { State.reset with glb := { State.reset.glb with on := true, pwr := .standbyEntry }, lodge := { State.reset.lodge with roArm := true } }

/-- Refutes O41: the statement lets the end of a STANDBY's drain change channels, stacks and the global state only. In a hub with an
armed measurement it also disarms that measurement, which the Lodge holds, as none runs in STANDBY (R491). -/
theorem not_powerEntriesAndExit : ¬ Obligations.PowerEntriesAndExit := by
  intro h
  obtain ⟨⟨-, entries⟩, -⟩ := h
  obtain ⟨drains, -⟩ := entries measuringHub (by decide) State.reset_canon
  obtain ⟨t, run, -, -, -, -, only⟩ := drains (by decide +kernel) (by decide)
  have disarmed : leaves .standbyDrainDone measuringHub (·.lodge.roArm) = some false := by decide +kernel
  rw [leaves_next _ run, only.lodge_eq] at disarmed
  exact absurd disarmed (by decide)

end Sys2Proof.Machine
